-- ==== Sys2Proof/Word.lean ====
section
/-!
DEFINITION. The word types of the YQ-4820 model and their plainest arithmetic: bytes, and the
two's complement reading and writing of a raw value of a given width (R4, R5).
-/
namespace Sys2Proof

/-- One byte of a frame or a register image (R4). -/
abbrev Byte := BitVec 8

/-- A raw object value: the unsigned number that its bytes spell, least significant byte first (R4). -/
abbrev Raw := Nat

/-- The signed reading of a raw value of `w` bits (R5, two's complement). -/
def Raw.signed (w : Nat) (r : Raw) : Int :=
  let m := r % 2 ^ w
  if m < 2 ^ (w - 1) then (m : Int) else (m : Int) - (2 ^ w : Nat)

/-- The raw value of `w` bits whose two's complement reading is `i` modulo `2^w` (R5). -/
def Raw.ofInt (w : Nat) (i : Int) : Raw := (i % ((2 ^ w : Nat) : Int)).toNat

end Sys2Proof
end

