-- ==== Sys2Proof/Syntax.lean ====
section
/-!
DEFINITION. The commands of the block, one constructor per row of spec/opcode_table.json, and the
plain data that their operands carry. A host command carries the header of the frame that brings it
(R46); an event row carries what the world outside the module supplies with it.
`dt` is the time in ns since the previous command; values named raw are the entry's bytes read least
significant byte first (R4); q29 operands are raw two's complement numbers.
-/
namespace Sys2Proof

/-- Who sends a command (R56): mailbox n of the host serial link, a GHP3 session over Ethernet, a
Modbus request, the DNP3 master, or the local safety source inside the module. -/
inductive Sender
  | mbx (n : Nat)
  | session (k : Nat)
  | modbus (order : Nat)
  | dnp3 (order : Nat)
  | localSafety
deriving DecidableEq, Repr

/-- Header of the frame that brings a command (R46). `slot`, `counter` and `hmacOk` matter in GHP3
only: the key slot, the message counter, and whether the HMAC verifies under the session's key. `crcOk` says that
the CRC holds (GHP2, GHP3), `genOk` that byte 0 names the generation of the mailbox. -/
structure Hdr where
  snd     : Sender
  seq     : Nat
  slot    : Nat
  counter : Nat
  hmacOk  : Bool
  crcOk   : Bool := true
  genOk   : Bool := true
deriving DecidableEq, Repr

/-- A phasor that the sequence separation delivers: magnitude in q29 peak pu and angle in ang32 (R107, R127). -/
structure Phasor where
  mag : Int
  ang : Nat
deriving DecidableEq, Repr

/-- What the measurement front end delivers for one AC section in a tick: the positive and negative
sequence of the grid-side voltage, the converter-side voltage and the current, and the three magnitudes
that the quadrature estimators give for the grid-side and for the converter-side voltages (R222). -/
structure SecMeas where
  gridPos : Phasor
  gridNeg : Phasor
  convPos : Phasor
  convNeg : Phasor
  curPos  : Phasor
  curNeg  : Phasor
  gridMag : List Int
  convMag : List Int
deriving DecidableEq, Repr

/-- What a tick's samples are formed from: for each of the 24 channels how many bits its MDAT pin has given since the last tick
with the bits, the newest in bit 0 (R88), and what the estimators give for each section. -/
structure Samples where
  bits : List (Nat × Nat)
  sec  : List SecMeas
deriving DecidableEq, Repr

/-- The end of a metering block (R93, R94): the unit (group 0 to 7), the outputs of the metering filters of the block as
(channel, d in raw q29 in order of time), and the reactive power, for which the spec gives no formula. -/
structure MeterBlock where
  unit   : Nat
  series : List (Nat × List Int)
  q      : Int
deriving DecidableEq, Repr

/-- Engine cycles that a tick took on each engine of the active and the standby lane (R71, R80), and
the items in which the standby lane's mirror compare of the previous tick differs (R328): (item, engine); and the time in
ps that the supervisor worked in the tick (R74). -/
structure TickReport where
  act0   : Nat
  act1   : Nat
  stb0   : Nat
  stb1   : Nat
  mirror : Option (Nat × Nat)
  sup    : Nat := 0
deriving DecidableEq, Repr

/-- A transition of a pair (R277), in ps: whether B comes in, the gate edge of the outgoing switch, the gate edge of the
incoming switch, and the COMFB edge where one came. -/
structure Transition where
  sideB : Bool
  off   : Int
  on    : Int
  comfb : Option Int
deriving DecidableEq, Repr

/-- A FLT input (R270, R286), in ns before the present: since when it is low, and the gate edges of both outputs of the pair that
FLT_PAIR names, the oldest first. -/
structure FltInput where
  fell  : Option Nat
  edges : List Nat := []
deriving DecidableEq, Repr

/-- A leg map as Serac reports it (R265): LAYOUT, FIRST_PAIR, SAFE_PATTERN, SAFE_DT, (DT_ON_A, DT_ON_B) of
each pair, CONFIG_CLASS, and (FLT_PAIR, FLT_MASK_TIME) of each FLT input that names the group (R286). -/
structure LegMap where
  layout      : Nat
  firstPair   : Nat
  safePattern : Nat
  safeDt      : Nat
  dts         : List (Nat × Nat)
  cls         : Nat
  flts        : List (Nat × Nat)
deriving DecidableEq, Repr

/-- What a Floe frame carries (R316, R325). -/
inductive FloeKind
  | state
  | mirroredWrite
  | ack
deriving DecidableEq, Repr

/-- A Floe frame as lane `lane` receives it (R316): its sequence number, whether its CRC holds, its
content, whether it is the last resend of the staging slot, and the first item and engine in which the
exported state differs from the receiving lane's own (R328). -/
structure FloeFrame where
  lane     : Nat
  seq      : Nat
  crcOk    : Bool
  kind     : FloeKind
  mismatch : Option (Nat × Nat)
deriving DecidableEq, Repr

/-- One channel's sample of the six safety inputs (R346): true is a high level. -/
structure SdcInputs where
  sdrA : Bool
  sdrB : Bool
  k1a  : Bool
  k1b  : Bool
  k2a  : Bool
  k2b  : Bool
deriving DecidableEq, Repr

/-- The kind of a received PTP message (R372). -/
inductive PtpKind
  | announce
  | sync
  | followUp
  | delayResp
  | pdelayReq
  | pdelayResp
  | pdelayRespFollowUp
  | delayReq
  | management
deriving DecidableEq, Repr

/-- A PTP message as received and timestamped (R372, R375). `rx` is the module's receive timestamp and
`origin` the timestamp the message carries, both TAI ns; `correction` is its correction field in ns.
`better` says whether the profile's best master clock algorithm prefers the announced parent; `logInterval` is the binary logarithm
of the message's interval in seconds. -/
structure PtpMsg where
  kind         : PtpKind
  port         : Nat
  domain       : Nat
  sequenceId   : Nat
  twoStep      : Bool
  rx           : Int
  origin       : Int
  correction   : Int
  parentId     : Nat
  gmId         : Nat
  stepsRemoved : Nat
  better       : Bool
  utcOffset    : Int
  utcValid     : Bool
  leap61       : Bool
  leap59       : Bool
  logInterval  : Int := 0
deriving DecidableEq, Repr

/-- The peer of a TLS handshake (R460, R461): its IPv4 address, whether protocol, suite, group, scheme and
signatures are those supported and verify, the trust anchor its chain ends in, the private extension
(role, head-end flag), the certificate's serial and its validity in UTC seconds. -/
structure TlsPeer where
  addr      : Nat
  paramsOk  : Bool
  anchor    : Option Nat
  ext       : Option (Nat × Bool)
  serial    : Nat
  notBefore : Nat
  notAfter  : Nat
deriving DecidableEq, Repr

/-- Where a Modbus request comes from (R390): RTU on RS-485 or TCP, the address it carries, and its rank of
arrival (R393). -/
structure MbReq where
  rtu     : Bool
  address : Nat
  order   : Nat
deriving DecidableEq, Repr

/-- One control point of a DNP3 request (R391): true for a binary output, its index and its raw value. -/
structure DnpOp where
  binary : Bool
  index  : Nat
  value  : Nat
deriving DecidableEq, Repr

/-- A DNP3 request (R391): the outstation and the master that it names, the object groups it reads, the controls it carries, whether it carries a time
synchronisation (group 50), whether it confirms events, and its rank of arrival (R393). -/
structure DnpReq where
  dest     : Nat := 10
  serial   : Bool
  master   : Nat
  reads    : List Nat
  ops      : List DnpOp
  timeSync : Bool
  confirm  : Nat
  order    : Nat
deriving DecidableEq, Repr

/-- A Rime frame of lane `lane` (R411): whether it came through good, its direction (true: to the field die), and whether none
came at its time. -/
structure RimeFrame where
  lane    : Nat
  good    : Bool
  toField : Bool
  absent  : Bool := false
deriving DecidableEq, Repr

/-- One field sample of a group (R399, R406): the pin voltages of its eight channels in mV, the output
currents in mA, the current-limit flags, and the thermal flags of the switches. -/
structure FieldReading where
  volts   : List Nat
  current : List Nat
  limit   : List Bool
  thermal : List Bool
deriving DecidableEq, Repr

/-- One housekeeping round of a converter (R443, R444): the resistances of the eight NTCs in Ω, the temperatures of the die
sensors 08h to 0Fh in 0.01 °C, the 32 results as raw f32, the rails 13h to 1Fh in mV, the ground and the main reference input in µV,
and the disagreement of the references in this round in 0.01 ppm (R105). -/
structure HkRound where
  conv     : Nat
  ohms     : List Nat
  dies     : List Int
  vals     : List Nat
  rails    : List Int
  groundUv : Int
  refUv    : Int
  disagree : Int
deriving DecidableEq, Repr

/-- What Cirque finds in one image (R452, R453). -/
structure ImageInfo where
  version    : Nat
  target     : Nat
  counter    : Nat
  secVersion : Nat
  dev        : Bool
  magicOk    : Bool
  hashFused  : Bool
  revoked    : Bool
  sigOk      : Bool
  digestOk   : Bool
deriving DecidableEq, Repr

/-- One bin of an identification's spectra (R182): its number, so that its frequency is that over the period of the sequence,
the cross-spectrum of the voltage response with the injected current, and the auto-spectra of current and voltage, all in one
scale of per unit. -/
structure IdBin where
  k   : Nat
  re  : Int
  im  : Int
  sii : Nat
  svv : Nat
deriving DecidableEq, Repr

/-- What an estimator brings (R484): a 10 s block of a link with the current that its units carry together (q29) and the fit of C and ESR
(raw f32); the mean turn-off delays of a pair over a bin with the transitions in it (ps); the fit of a thermal resistance (raw f32)
after the RMS current of the unit went from one value to another (q29), with the minutes that followed without another step; a steady
speed of the cooling drive with its current and its minutes; the daily mean of REF_DISAGREE of a lane in 0.01 ppm; the daily means of
TRIM in 0.01 ppb and of the die temperature in 0.01 °C; the erase count of the most erased block of a flash region; the end of an hour
of a lane's DRAM; and the end of an hour. -/
inductive Estimate
  | linkCap (chan : Nat) (load : Int) (c esr : Nat)
  | turnOff (pair bin count : Nat) (a b : Int)
  | thermal (ntc : Nat) (before after : Int) (minutes rth : Nat)
  | coolRatio (rpm milliamps minutes : Nat)
  | refTrend (lane : Nat) (mean : Int)
  | tcxo (trim die : Int)
  | flashWear (lane region erases : Nat)
  | dramTrend (lane : Nat)
  | dieHour
deriving DecidableEq, Repr

/-- The commands, one constructor per row of the table, in the table's order. -/
inductive Instr
  -- host serial link (R35 to R44)
  | linkRead (addr len : Nat)
  | linkWrite (addr : Nat) (data : List Byte)
  | linkModeReset (clocks : Nat)
  | quadEnWrite (value : Nat)
  | hlStatusClear (value : Nat)
  | mbxDoorbell (mask : Nat)
  | rspRelease (mask : Nat)
  | commandWindowWrite (n offset : Nat) (data : List Byte)
  | responseFifoRead (n len : Nat)
  -- frames (R48)
  | read (h : Hdr) (index sub : Nat)
  | write (h : Hdr) (index sub : Nat) (data : List Byte)
  | writeCommit (h : Hdr) (index sub : Nat) (data : List Byte)
  | groupBegin (h : Hdr)
  | groupCommit (h : Hdr) (applyTime : Option Nat)
  | streamOpen (h : Hdr) (index channel : Nat) (args : List Byte)
  | streamClose (h : Hdr) (channel : Nat)
  | eventAck (h : Hdr) (q : Nat)
  | groupDiscarded (snd : Sender)
  | evtNPulse
  | eventFrameRelease (k : Nat)
  -- the Firn tick (R71)
  | tickBoundary
  | samplesReady (smp : Samples)
  | commitDeadline (rep : TickReport)
  | tickStatsClear (h : Hdr)
  -- measurement chain
  | focTrip (dt lanes : Nat) (wins : List Nat)
  | focAlert (dt : Nat) (wins : List Nat)
  | mclkLost (dt mclks lanes : Nat)
  | mclkLostInLane (dt lane mclks : Nat)
  | streamLost (dt chan : Nat) (clipped : Bool) (lanes : Nat)
  | plausibility (kind unit : Nat)
  | channelSettled (chan : Nat)
  | meterBlockEnd (blk : MeterBlock)
  | calZero (h : Hdr) (chan blocks : Nat)
  | calDcSpan (h : Hdr) (chan ref blocks : Nat)
  | calAcSpan (h : Hdr) (chan ref blocks : Nat)
  | calApply (h : Hdr) (chan : Nat)
  | calAbort (h : Hdr) (chan : Nat)
  | calPointDone
  | offsetTrackUpdate (chan : Nat)
  | gridFreqUpdate (sec : Nat)
  -- control engines
  | notchUpdate
  | ctxReset (h : Hdr) (n : Nat)
  | traceArm (h : Hdr)
  | traceStop (h : Hdr)
  | traceForce (h : Hdr)
  | tracePreFilled
  | traceDone
  | injStart (h : Hdr)
  | injStop (h : Hdr)
  | sweepSettled
  | sweepPointMeasured
  | injectionDone
  -- grid-forming operation
  | gfStart (h : Hdr) (sec : Nat)
  | gfStop (h : Hdr) (sec : Nat)
  | deadConfirmExpiry (sec : Nat)
  | backoffExpiry (sec : Nat)
  | busLive (sec : Nat)
  | closeTimeout (sec : Nat)
  | rampComplete (sec : Nat)
  | rampTimeout (sec : Nat)
  | enterServiceDelayEnd (sec : Nat)
  | syncHoldMet (sec : Nat)
  | syncTimeout (sec : Nat)
  | stopPowerLow (sec : Nat)
  | stopComplete (sec : Nat)
  | idSlotStart (sec : Nat)
  | idInjectionEnd (sec : Nat)
  | idResult (sec : Nat) (bins : List IdBin)
  | idRun (h : Hdr) (sec : Nat)
  | islandingCheck (sec : Nat)
  -- DC channels
  | dcStart (h : Hdr) (chan : Nat)
  | dcStop (h : Hdr) (chan : Nat)
  | dcEntryConditionsMet (chan : Nat)
  | pvLowPower (chan : Nat)
  | batteryOutOfWindow (chan : Nat)
  | dcStopComplete (chan : Nat)
  | dcLimitsExpired (chan : Nat)
  | mpptStep (chan : Nat)
  | scanDue (chan : Nat)
  | scanRun (h : Hdr) (chan : Nat)
  | scanDwellEnd (chan : Nat)
  | scanCheckEnd (chan : Nat)
  -- ride-through
  | rtCurveCheck (sec : Nat)
  | freqTripStage (sec stage : Nat)
  | recovTimeMet (sec : Nat)
  | rtRecoveryComplete (sec : Nat)
  | lossOfSync (sec : Nat)
  | losBlankEnd (sec : Nat)
  | currentLimitRelease (sec : Nat)
  -- PWM generation
  | pwmTripClear (h : Hdr) (groups : Nat)
  | pwmDirectStart (h : Hdr) (group : Nat)
  | pwmDirectStop (h : Hdr) (group : Nat)
  | fltTrip (dt : Nat) (inputs : List FltInput)
  | laneTripRequest (dt lane groups : Nat)
  | interlockViolation (dt pair : Nat) (threeLevel : Bool)
  | safeDtExpiry (group : Nat)
  | legMapReport (group : Nat) (rep : LegMap)
  | trimBlockDone (pair : Nat) (sideB : Bool) (edges : List Transition)
  | comfbMissing (pair : Nat) (edges : List Transition)
  | comfbRestored (pair : Nat) (edges : List Transition)
  -- protection
  | dclinkTrip (chan : Nat) (isOver : Bool)
  | dclinkWarning (chan : Nat)
  | recoveryDelayEnd (cls unit : Nat)
  | clearRecheck (cls unit : Nat)
  | retryTimeout (cls unit : Nat)
  | holdMaxReached
  | retire (h : Hdr) (kind unit : Nat)
  | reinstate (h : Hdr) (kind unit : Nat)
  -- data integrity
  | scrubPass (lane : Nat) (moraine : Bool) (corrected : Nat)
  | memoryUncorrectable (lane : Nat) (moraine : Bool) (address : Nat)
  | flashUncorrectable (lane region offset : Nat) (bothCopies : Bool) (entries : List (Nat × Nat))
  | parityError (lane place address : Nat)
  | floeFrame (f : FloeFrame)
  | floeStateLoss
  | cirqueMacFail (lane : Nat)
  | safetyLinkLoss (chanB : Bool)
  | tlsRecordFail (k : Nat)
  | integrityClear (h : Hdr)
  -- lane redundancy
  | laneClaim (laneA laneB : Bool)
  | claimTimeout (lane : Nat)
  | standbyReady
  | claimWithdrawn
  | takeoverInstant (claim : Nat) (edges : List Nat)
  | splitClaim
  | claimPairBroken (lane : Nat)
  | noGrantTimeout
  | lockstepMismatch (lane : Nat)
  | watchdogExpiry (lane : Nat)
  | floeLoopbackFail (lane : Nat)
  | knownAnswerTestFail (lane : Nat)
  | mirrorDiagnosis (outcome : Nat)
  | carrierAlign (ps : List Int)
  | fullTestStart
  | selfTestDone (failed : Nat) (aborted : Bool)
  | laneSwitchover (h : Hdr)
  | laneResync (h : Hdr)
  | redundancyRestored
  -- safe disconnect
  | sdcSample (a b : SdcInputs)
  | safetyCrosslinkFrame (okA okB : Bool) (badStatus : Nat)
  | connectionRequest (raised : Bool)
  | sdcStepConfirmed
  | relayTimeout
  | discrepancyFault
  | weldTestDue
  | weldTestOverdue
  | sdcFaultClear (h : Hdr)
  | seracOscFault
  | sealRecheck (a b : Nat)
  | resetAsserted (dt ns : Nat)
  | resetHeld (seconds : Nat)
  | resetReleased
  -- time and networks
  | ptpMessage (m : PtpMsg)
  | timeSourceLost
  | holdoverLimitExpiry
  | ppsInEdge (dt : Nat)
  | ppsOutPulse
  | trigPulse (k : Nat)
  | timeSet (h : Hdr) (t : Nat)
  | timeReacquire (h : Hdr)
  | schedCancel (h : Hdr) (e : Nat)
  | scheduledEntry (e : Nat)
  | tcpConnect (addr port : Nat)
  | tlsHandshake (peer : TlsPeer)
  | sessionIdleTimeout (k : Nat)
  | linkState (port : Nat) (status : Nat)
  | modbusReadHolding (rq : MbReq) (start count : Nat)
  | modbusReadInput (rq : MbReq) (start count : Nat)
  | modbusWriteSingle (rq : MbReq) (reg value : Nat)
  | modbusWriteMultiple (rq : MbReq) (start : Nat) (values : List Nat)
  | dnp3Request (rq : DnpReq)
  -- field inputs and outputs; `volts` are the measurements of a supply as (10 mV, how many in a row), the newest last
  | rimeFrame (f : RimeFrame)
  | rimeLoss (lane : Nat)
  | fieldSample (group : Nat) (rd : FieldReading)
  | inputMaxActive (chan : Nat)
  | chatterWindowEnd
  | outputOverload (chan : Nat)
  | outputThermal (chan : Nat)
  | fieldLoadWarning (groupCurrent : Bool) (n : Nat) (present : Bool)
  | fsupOutOfRange (group : Nat) (volts : List (Nat × Nat))
  | fsupLost (group : Nat) (volts : List (Nat × Nat))
  | fsupBack (group : Nat) (volts : List (Nat × Nat))
  -- thermal management, cooling drive and clocks
  | hkRound (r : HkRound)
  | throttleStepTimer
  | graceTimeEnd
  | sensorRestore (h : Hdr) (sensor : Nat)
  | cdFault (code : Nat)
  | cdBootstrapRefresh
  | cdEnableLow (byPin : Bool) (ns : Nat)
  | cdRetryDelayEnd
  | cdSpeedUpdate (rpm milliamps centivolts : Nat)
  | cdFaultClear (h : Hdr)
  | lockWindow (lane : Nat) (dev xo : Int)
  | tcxoLost
  | tcxoRestored
  | hkUrgent (h : Hdr) (input : Nat)
  | hkUrgentDone (value : Nat)
  -- security functions
  | sessionOpen (h : Hdr) (nonce : List Byte)
  | authBlockEnd (address : Option Nat) (snd : Sender)
  | keyInstall (h : Hdr) (data : List Byte)
  | certInstall (h : Hdr) (der : List Byte)
  | trustAnchor (h : Hdr) (k : Nat) (der : List Byte)
  | crlInstall (h : Hdr) (offset : Nat) (chunk : List Byte)
  | certExpiring (which daysLeft : Nat)
  | fwUpload (h : Hdr) (offset : Nat) (chunk : List Byte)
  | fwStage (h : Hdr)
  | fwStaged (laneA laneB : ImageInfo)
  | fwActivate (h : Hdr)
  | fwCommit (h : Hdr)
  | commitDelayExpiry
  | certModeEnter (h : Hdr)
  | certModeLeave (h : Hdr)
  | debugUnlock (h : Hdr)
  | debugResponse (h : Hdr) (signature : List Byte)
  -- power-up to service
  | powerOn (tcxo : Bool) (sealB : List Nat)
  | powerDip
  | lanesReleased (lockedA lockedB : Bool)
  | bootLoaderVerified (lane : Nat) (image : ImageInfo)
  | safetyDieRunning (started : Bool) (sealA : List Nat)
  | firmwareImageVerified (lane : Nat) (a b : ImageInfo)
  | floeTraining (crcOk skewOk loopA loopB : Bool)
  | rimeTraining (lane : Nat) (ok : Bool)
  | selfTestComplete (lane : Nat) (ok : Bool)
  -- ageing
  | estimateBlock (e : Estimate)
  | baselineComplete
  | planCompute
  | planNow (h : Hdr)
  | planStep
  | ageingRebase (h : Hdr) (kind unit : Nat)
  -- sessions, path delay and Hall edges
  | sessionClose (k : Nat)
  | delayReq
  | hallEdge (code : Nat)
deriving DecidableEq, Repr

end Sys2Proof
end

