-- ==== Sys2Proof/Decode.lean ====
section
/-!
DEFINITION. The command that a word of the opcode table spells. The table gives no row any bits: the module takes
commands as frames, pin events and readings, so no word spells one.
-/
namespace Sys2Proof

/-- The command that `nbits` bits of value `w` spell by the table: none for every word. -/
def decodeTableWord (_nbits _w : Nat) : Option Instr := none

end Sys2Proof
end

