-- ==== Sys2Proof/Config.lean ====
section
/-!
DEFINITION. What one module fixes and what the spec leaves open: per-module constants and the free
values of the model. Every one is an opaque constant: nothing can be proved of its value, so a
statement about it holds for every value. Each is named in the assumption log.
-/
namespace Sys2Proof.Config

/-! ### Per-module constants (R64, R385, R395, R459) -/

/-- SERIAL_NUMBER, 1000h.03h: per module (R64). DESIGN CHOICE, log entry 6. -/
opaque serialNumber : Nat
/-- MAC_ADDR, 5180h.01h: per module (R396). DESIGN CHOICE, log entry 6. -/
opaque macAddr : Nat
/-- PORT_LATENCY of port path `i`, ps, measured in production (R375). DESIGN CHOICE, log entry 6. -/
opaque portLatency : Nat → Nat
/-- Build date of the firmware in UTC seconds, against which notAfter is held before the first step (R460).
DESIGN CHOICE, log entry 6. -/
opaque buildDate : Nat
/-- The device certificate that the Umgigor CA issued, DER bytes (R459). DESIGN CHOICE, log entry 6. -/
opaque deviceCert : List Byte
/-- The PKCS#10 request that Cirque forms for the operational key pair, DER bytes (R459). DESIGN CHOICE, log entry 6. -/
opaque csr : List Byte

/-! ### Values of a grid-code profile that the spec names without listing (R243) -/

/-- The value that profile `p` loads into the entry `key`, where R243's table does not give it.
DESIGN CHOICE, log entry 9. -/
opaque profileValue : Nat → Nat → Option Nat
/-- Whether profile `p` fixes the entry `key`, where R243's table does not say so. DESIGN CHOICE, log entry 9. -/
opaque profileFixes : Nat → Nat → Bool
/-- The setting range that profile `p` allows for the entry `key`, where R243's table gives none.
DESIGN CHOICE, log entry 9. -/
opaque profileRange : Nat → Nat → Option (Rat × Rat)

/-- PROFILE_VERSION of the data set of profile `p` in this firmware (R248). DESIGN CHOICE, log entry 9. -/
opaque profileVersion : Nat → Nat

/-! ### Rounding and approximation (R117, R118, R122) -/

/-- Which neighbour a q29 result takes when it is no whole LSB (R117 gives no rounding rule). DESIGN CHOICE, log entry 10. -/
opaque roundUp : Rat → Bool
/-- Relative error of a derived coefficient, held to 2^−31 by the caller (R122). DESIGN CHOICE, log entry 11. -/
opaque coeffErr : Rat → Rat
/-- Relative error of a square root or a reciprocal, held to 2^−28 by the caller (R118). DESIGN CHOICE, log entry 11. -/
opaque unitErr : Rat → Rat
/-- What the transform unit gives for operation `op` on its inputs, held to the unit's bounds by the caller (R118).
DESIGN CHOICE, log entry 11. -/
opaque unitValue : Nat → List Int → Int
/-- Whether a result that no f32 holds exactly takes the neighbour of larger magnitude (R5 states no rounding rule).
DESIGN CHOICE, log entry 10. -/
opaque f32Up : Rat → Bool
/-! ### Random sources (R165, R462, R466) -/

/-- Draw `i` of the lane's random source. DESIGN CHOICE, log entry 13. -/
opaque random : Nat → Nat

/-! ### Cryptographic functions that the spec names and does not define (R46, R453, R462, R463, R466) -/

/-- HMAC-SHA-256 of a message under a key, 32 bytes. DESIGN CHOICE, log entry 13. -/
opaque hmacSha256 : List Byte → List Byte → List Byte
/-- The key that KEY_INSTALL unwraps from its data, none where the tag does not verify (R463).
DESIGN CHOICE, log entry 13. -/
opaque unwrapKey : List Byte → Option (List Byte)
/-- Whether a debug signature over the challenge verifies under a fused debug key (R466). DESIGN CHOICE, log entry 13. -/
opaque debugSigOk : List Byte → List Byte → Bool
/-- Whether Cirque accepts a certificate for installation (R459, R460). DESIGN CHOICE, log entry 13. -/
opaque certOk : List Byte → Bool
/-- The serials of the certificates that a CRL revokes (R460). DESIGN CHOICE, log entry 13. -/
opaque crlSerials : List Byte → List Nat

/-! ### Results that the spec leaves open -/

/-- A temperature in 0.01 °C as corrected by a disagreement of the references that is not 0 (R105 states no formula).
DESIGN CHOICE, log entry 117. -/
opaque refCorrected : Int → Rat → Int

/-- A field input's reading between the two levels of R399, reading number `i`. DESIGN CHOICE, log entry 63. -/
opaque fieldUndefined : Nat → Bool
/-- Whether a CD_EN low between 8 µs and 10 µs clears the faults (R429), case `i`. DESIGN CHOICE, log entry 117. -/
opaque cdLowClears : Nat → Bool
/-- Whether Serac accepts a RESET_N low of 1 µs to 10 µs (R506), case `i`. DESIGN CHOICE, log entry 117. -/
opaque resetTaken : Nat → Bool
/-- The servo's next TRIM from offset and present trim, held to ±200 ppm by the caller (R369).
DESIGN CHOICE, log entry 69. -/
opaque servoTrim : Int → Int → Int
/-- An unsigned value the spec states no result for, case `i`. DESIGN CHOICE, log entry 5. -/
opaque freeNat : Nat → Nat
/-- A signed value the spec states no result for, case `i`. DESIGN CHOICE, log entry 5. -/
opaque freeInt : Nat → Int

end Sys2Proof.Config
end

