-- ==== Sys2Proof/Machine/ObjTable.lean ====
section
/-!
DEFINITION. The object dictionary (R9 to R13 and the object tables of every chapter): one row for each run of
entries of one kind, with the type, the access, whether the value is stored, the default as a raw value, the
range, the instant at which a write takes effect, and whether a grid-code profile may fix the entry; and the
symbolic name of every entry as its key, index × 256 + sub-index.
-/
namespace Sys2Proof.Machine

/-- The type of an entry (R5); `b32` is the 32 bytes of LAST_FAULT, `var` the arguments of an action or an upload. -/
inductive ObjTy
  | u8 | u16 | u32 | u64 | s16 | s32 | q29 | ang32 | fmhz | t64 | t32 | f32 | b32 | var
deriving DecidableEq, Repr

/-- The access of an entry (R11), an action or a stream source. -/
inductive ObjAcc
  | ro | wo | rw | rwr | act | src
deriving DecidableEq, Repr

/-- The range of an entry, on its reading: unsigned, two's complement, or for f32 the raw value of the f32
nearest each bound. `orLim v lo hi` also takes the value v; `step` takes multiples of a step from 0. -/
inductive ObjRange
  | any
  | lim (lo hi : Int)
  | orLim (v lo hi : Int)
  | oneOf (vs : List Int)
  | step (lo hi st : Int)
deriving DecidableEq, Repr

/-- When a write takes effect (R12); `special` is R385 or R388. -/
inductive ObjEff
  | none | tick | commit | atRest | powerCycle | accept | special
deriving DecidableEq, Repr

/-- A run of entries of one kind: objects `base` to `base + n − 1`, sub-indices `sub` to `sub + m − 1`. -/
structure ObjRow where
  base   : Nat
  n      : Nat
  sub    : Nat
  m      : Nat
  ty     : ObjTy
  acc    : ObjAcc
  stored : Bool
  dflt   : Nat
  range  : ObjRange
  eff    : ObjEff
  prof   : Bool
  perCon : Bool
deriving DecidableEq, Repr

def rows10 : List ObjRow := [
  ⟨0x1000, 1, 0, 1, .u8, .ro, false, 5, .any, .none, false, false⟩,
  ⟨0x1000, 1, 1, 1, .u32, .ro, false, 18464, .any, .none, false, false⟩,
  ⟨0x1000, 1, 2, 1, .u8, .ro, false, 177, .any, .none, false, false⟩,
  ⟨0x1000, 1, 3, 1, .u64, .ro, false, 0, .any, .none, false, false⟩,
  ⟨0x1000, 1, 4, 1, .u32, .ro, false, 67239936, .any, .none, false, false⟩,
  ⟨0x1000, 1, 5, 1, .u8, .ro, false, 0, .any, .none, false, false⟩,
  ⟨0x1001, 1, 0, 1, .u8, .ro, false, 0, .any, .none, false, false⟩,
  ⟨0x1002, 1, 0, 1, .u8, .ro, false, 3, .any, .none, false, false⟩,
  ⟨0x1002, 1, 1, 2, .u8, .ro, false, 0, .any, .none, false, false⟩,
  ⟨0x1002, 1, 3, 1, .u32, .ro, false, 0, .any, .none, false, false⟩,
  ⟨0x1003, 1, 0, 1, .u8, .ro, false, 0, .any, .none, false, false⟩,
  ⟨0x1020, 4, 0, 1, .u8, .ro, false, 3, .any, .none, false, false⟩,
  ⟨0x1020, 4, 1, 1, .f32, .rwr, false, 1232348160, .lim 1195593728 1253513984, .atRest, false, false⟩,
  ⟨0x1020, 4, 2, 1, .f32, .rwr, false, 1143767040, .lim 1120403456 1153138688, .atRest, false, false⟩,
  ⟨0x1020, 4, 3, 1, .f32, .rwr, false, 1112014848, .oneOf [1112014848, 1114636288], .atRest, false, false⟩,
  ⟨0x1028, 4, 0, 1, .u8, .ro, false, 2, .any, .none, false, false⟩,
  ⟨0x1028, 4, 1, 1, .f32, .rwr, false, 1232348160, .lim 1176256512 1253513984, .atRest, false, false⟩,
  ⟨0x1028, 4, 2, 1, .f32, .rwr, false, 1153138688, .lim 1120403456 1153138688, .atRest, false, false⟩]

def rows11 : List ObjRow := [
  ⟨0x1100, 1, 0, 1, .u8, .ro, false, 4, .any, .none, false, false⟩,
  ⟨0x1100, 1, 1, 4, .u8, .rw, true, 2, .lim 1 3, .accept, false, false⟩,
  ⟨0x1101, 1, 0, 1, .u8, .ro, false, 6, .any, .none, false, false⟩,
  ⟨0x1101, 1, 1, 6, .u32, .ro, false, 0, .any, .none, false, false⟩,
  ⟨0x1110, 1, 0, 1, .u8, .ro, false, 4, .any, .none, false, false⟩,
  ⟨0x1110, 1, 1, 4, .u32, .rw, false, 4294967295, .any, .accept, false, true⟩,
  ⟨0x1112, 1, 0, 1, .u8, .ro, false, 2, .any, .none, false, false⟩,
  ⟨0x1112, 1, 1, 1, .u16, .ro, false, 0, .any, .none, false, true⟩,
  ⟨0x1112, 1, 2, 1, .u32, .ro, false, 0, .any, .none, false, true⟩,
  ⟨0x1120, 1, 0, 1, .u32, .rw, false, 1000, .lim 10 60000, .accept, false, false⟩]

def rows12 : List ObjRow := [
  ⟨0x1200, 1, 0, 1, .u8, .ro, false, 6, .any, .none, false, false⟩,
  ⟨0x1200, 1, 1, 2, .u8, .rwr, false, 0, .lim 0 1, .atRest, false, false⟩,
  ⟨0x1200, 1, 3, 1, .u32, .ro, false, 0, .any, .none, false, false⟩,
  ⟨0x1200, 1, 4, 3, .u8, .ro, false, 0, .any, .none, false, false⟩,
  ⟨0x1201, 1, 0, 1, .u8, .ro, false, 8, .any, .none, false, false⟩,
  ⟨0x1201, 1, 1, 8, .u32, .ro, false, 0, .any, .none, false, false⟩,
  ⟨0x1202, 1, 0, 1, .u8, .ro, false, 4, .any, .none, false, false⟩,
  ⟨0x1202, 1, 1, 1, .u32, .ro, false, 0, .any, .none, false, false⟩,
  ⟨0x1202, 1, 2, 1, .u8, .ro, false, 0, .any, .none, false, false⟩,
  ⟨0x1202, 1, 3, 1, .t64, .ro, false, 0, .any, .none, false, false⟩,
  ⟨0x1202, 1, 4, 1, .u32, .ro, false, 0, .any, .none, false, false⟩,
  ⟨0x1203, 1, 0, 1, .u8, .ro, false, 2, .any, .none, false, false⟩,
  ⟨0x1203, 1, 1, 1, .u64, .ro, false, 0, .any, .none, false, false⟩,
  ⟨0x1203, 1, 2, 1, .t64, .ro, false, 0, .any, .none, false, false⟩,
  ⟨0x1204, 1, 0, 1, .u8, .ro, false, 2, .any, .none, false, false⟩,
  ⟨0x1204, 1, 1, 1, .u32, .ro, false, 0, .any, .none, false, false⟩,
  ⟨0x1204, 1, 2, 1, .u8, .ro, false, 0, .any, .none, false, false⟩,
  ⟨0x1205, 1, 0, 1, .var, .act, false, 0, .any, .accept, false, false⟩]

def rows20p0 : List ObjRow := [
  ⟨0x2000, 24, 0, 1, .u8, .ro, false, 7, .any, .none, false, false⟩,
  ⟨0x2000, 24, 1, 1, .u8, .rwr, false, 0, .lim 0 9, .atRest, false, false⟩,
  ⟨0x2000, 24, 2, 1, .u8, .rwr, false, 0, .any, .atRest, false, false⟩,
  ⟨0x2000, 24, 3, 1, .u8, .rwr, false, 255, .orLim 255 0 2, .atRest, false, false⟩,
  ⟨0x2000, 24, 4, 1, .u8, .rwr, false, 0, .lim 0 3, .atRest, false, false⟩,
  ⟨0x2000, 24, 5, 1, .u16, .rwr, false, 64, .lim 16 256, .atRest, false, false⟩,
  ⟨0x2000, 24, 6, 1, .f32, .rwr, false, 1148846080, .lim 1065353216 1203982336, .atRest, false, false⟩,
  ⟨0x2000, 24, 7, 1, .u8, .rwr, false, 255, .orLim 255 0 23, .atRest, false, false⟩,
  ⟨0x2020, 24, 0, 1, .u8, .ro, false, 8, .any, .none, false, false⟩,
  ⟨0x2020, 24, 1, 1, .q29, .rwr, true, 0, .lim (-26843546) 26843546, .atRest, false, false⟩,
  ⟨0x2020, 24, 2, 1, .u32, .rwr, true, 1073741824, .lim 966367642 1181116006, .atRest, false, false⟩,
  ⟨0x2020, 24, 3, 1, .s16, .rwr, true, 0, .lim (-3000) 3000, .atRest, false, false⟩,
  ⟨0x2020, 24, 4, 1, .u8, .rwr, true, 255, .orLim 255 0 15, .atRest, false, false⟩,
  ⟨0x2020, 24, 5, 1, .f32, .rwr, true, 1103626240, .lim 3256877056 1123680256, .atRest, false, false⟩,
  ⟨0x2020, 24, 6, 1, .q29, .ro, false, 0, .any, .none, false, false⟩,
  ⟨0x2020, 24, 7, 1, .u8, .rw, true, 0, .lim 0 1, .tick, false, false⟩,
  ⟨0x2020, 24, 8, 1, .t64, .ro, false, 0, .any, .none, false, false⟩,
  ⟨0x2040, 24, 0, 1, .u8, .ro, false, 4, .any, .none, false, false⟩,
  ⟨0x2040, 24, 1, 1, .q29, .rw, true, 805306368, .lim 26843546 2147483648, .tick, false, false⟩,
  ⟨0x2040, 24, 2, 1, .q29, .rw, true, 644245094, .lim 26843546 2147483648, .tick, false, false⟩,
  ⟨0x2040, 24, 3, 1, .u8, .rw, true, 2, .lim 1 4, .tick, false, false⟩,
  ⟨0x2040, 24, 4, 1, .u8, .rw, true, 1, .lim 0 1, .tick, false, false⟩,
  ⟨0x2060, 24, 0, 1, .u8, .ro, false, 5, .any, .none, false, false⟩,
  ⟨0x2060, 24, 1, 1, .q29, .ro, false, 0, .any, .none, false, false⟩]

def rows20p1 : List ObjRow := [
  ⟨0x2060, 24, 2, 1, .u8, .ro, false, 255, .any, .none, false, false⟩,
  ⟨0x2060, 24, 3, 3, .q29, .ro, false, 0, .any, .none, false, false⟩,
  ⟨0x2080, 1, 0, 1, .u8, .ro, false, 9, .any, .none, false, false⟩,
  ⟨0x2080, 1, 1, 4, .u8, .rwr, true, 2, .orLim 255 0 3, .atRest, false, false⟩,
  ⟨0x2080, 1, 5, 4, .u8, .rwr, true, 4, .lim 0 15, .atRest, false, false⟩,
  ⟨0x2080, 1, 9, 1, .u16, .rw, true, 20, .lim 10 1000, .tick, false, false⟩,
  ⟨0x2081, 1, 0, 1, .u8, .ro, false, 4, .any, .none, false, false⟩,
  ⟨0x2081, 1, 1, 4, .u8, .ro, false, 0, .any, .none, false, false⟩,
  ⟨0x2090, 4, 0, 1, .u8, .ro, false, 6, .any, .none, false, false⟩,
  ⟨0x2090, 4, 1, 1, .u8, .rw, true, 0, .lim 0 1, .tick, false, false⟩,
  ⟨0x2090, 4, 2, 1, .q29, .rw, true, 26843546, .lim 5368709 268435456, .tick, false, false⟩,
  ⟨0x2090, 4, 3, 1, .u8, .rw, true, 4, .lim 1 64, .tick, false, false⟩,
  ⟨0x2090, 4, 4, 1, .q29, .rw, true, 10737418, .lim 2684355 268435456, .tick, false, false⟩,
  ⟨0x2090, 4, 5, 1, .u8, .rw, true, 4, .lim 1 64, .tick, false, false⟩,
  ⟨0x2090, 4, 6, 1, .q29, .rw, true, 16106127, .lim 2684355 268435456, .tick, false, false⟩,
  ⟨0x20A0, 4, 0, 1, .u8, .ro, false, 6, .any, .none, false, false⟩,
  ⟨0x20A0, 4, 1, 1, .fmhz, .ro, false, 0, .any, .none, false, false⟩,
  ⟨0x20A0, 4, 2, 2, .ang32, .ro, false, 0, .any, .none, false, false⟩,
  ⟨0x20A0, 4, 4, 2, .q29, .ro, false, 0, .any, .none, false, false⟩,
  ⟨0x20A0, 4, 6, 1, .u8, .ro, false, 0, .any, .none, false, false⟩,
  ⟨0x20B0, 4, 0, 1, .u8, .ro, false, 7, .any, .none, false, false⟩,
  ⟨0x20B0, 4, 1, 4, .q29, .ro, false, 0, .any, .none, false, false⟩,
  ⟨0x20B0, 4, 5, 2, .u64, .ro, true, 0, .any, .none, false, false⟩,
  ⟨0x20B0, 4, 7, 1, .t64, .ro, false, 0, .any, .none, false, false⟩]

def rows20p2 : List ObjRow := [
  ⟨0x20B4, 4, 0, 1, .u8, .ro, false, 3, .any, .none, false, false⟩,
  ⟨0x20B4, 4, 1, 1, .q29, .ro, false, 0, .any, .none, false, false⟩,
  ⟨0x20B4, 4, 2, 2, .u64, .ro, true, 0, .any, .none, false, false⟩]

def rows20 : List ObjRow := rows20p0 ++ rows20p1 ++ rows20p2

def rows21 : List ObjRow := [
  ⟨0x2100, 1, 0, 1, .var, .act, false, 0, .any, .accept, false, false⟩,
  ⟨0x2101, 1, 0, 1, .u8, .ro, false, 6, .any, .none, false, false⟩,
  ⟨0x2101, 1, 1, 1, .u8, .ro, false, 0, .any, .none, false, false⟩,
  ⟨0x2101, 1, 2, 4, .q29, .ro, false, 0, .any, .none, false, false⟩,
  ⟨0x2101, 1, 6, 1, .u32, .ro, false, 0, .any, .none, false, false⟩,
  ⟨0x2110, 1, 0, 1, .u8, .ro, false, 2, .any, .none, false, false⟩,
  ⟨0x2110, 1, 1, 2, .s32, .ro, false, 0, .any, .none, false, false⟩]

def rows24 : List ObjRow := [
  ⟨0x2400, 160, 0, 1, .u8, .ro, false, 17, .any, .none, false, false⟩,
  ⟨0x2400, 160, 1, 1, .f32, .rw, true, 0, .lim 0 1148846080, .commit, false, false⟩,
  ⟨0x2400, 160, 2, 1, .f32, .rw, true, 0, .lim 0 1232348160, .commit, false, false⟩,
  ⟨0x2400, 160, 3, 2, .f32, .rw, true, 0, .lim 0 1092616192, .commit, false, false⟩,
  ⟨0x2400, 160, 5, 1, .f32, .rw, true, 0, .lim 0 1232348160, .commit, false, false⟩,
  ⟨0x2400, 160, 6, 1, .u8, .rw, true, 0, .lim 0 1, .commit, false, false⟩,
  ⟨0x2400, 160, 7, 1, .q29, .rw, true, 3758096384, .lim (-2147483648) 2147483648, .commit, false, false⟩,
  ⟨0x2400, 160, 8, 1, .q29, .rw, true, 536870912, .lim (-2147483648) 2147483648, .commit, false, false⟩,
  ⟨0x2400, 160, 9, 2, .f32, .rw, true, 0, .lim 0 1259902592, .commit, false, false⟩,
  ⟨0x2400, 160, 11, 1, .f32, .rw, true, 0, .lim 0 1399379109, .commit, false, false⟩,
  ⟨0x2400, 160, 12, 1, .u8, .rw, true, 0, .lim 0 2, .commit, false, false⟩,
  ⟨0x2400, 160, 13, 1, .f32, .rw, true, 1120403456, .any, .commit, false, false⟩,
  ⟨0x2400, 160, 14, 1, .f32, .rw, true, 1109393408, .lim 0 1114636288, .commit, false, false⟩,
  ⟨0x2400, 160, 15, 1, .f32, .rw, true, 1050253722, .lim 1008981770 1073741824, .commit, false, false⟩,
  ⟨0x2400, 160, 16, 1, .u8, .rw, true, 0, .lim 0 4, .commit, false, false⟩,
  ⟨0x2400, 160, 17, 1, .u8, .rw, true, 2, .lim 1 50, .commit, false, false⟩]

def rows25 : List ObjRow := [
  ⟨0x2500, 160, 0, 1, .u8, .ro, false, 7, .any, .none, false, false⟩,
  ⟨0x2500, 160, 1, 1, .u8, .ro, false, 0, .any, .none, false, false⟩,
  ⟨0x2500, 160, 2, 1, .u8, .rw, true, 0, .lim 0 1, .commit, false, false⟩,
  ⟨0x2500, 160, 3, 1, .u8, .ro, false, 255, .any, .none, false, false⟩,
  ⟨0x2500, 160, 4, 1, .u8, .rw, true, 128, .any, .commit, false, false⟩,
  ⟨0x2500, 160, 5, 3, .u16, .rwr, true, 0, .any, .atRest, false, false⟩]

def rows26 : List ObjRow := [
  ⟨0x2600, 160, 0, 1, .u8, .ro, false, 8, .any, .none, false, false⟩,
  ⟨0x2600, 160, 1, 1, .q29, .ro, false, 0, .any, .none, false, false⟩,
  ⟨0x2600, 160, 2, 1, .f32, .ro, false, 0, .any, .none, false, false⟩,
  ⟨0x2600, 160, 3, 4, .q29, .ro, false, 0, .any, .none, false, false⟩,
  ⟨0x2600, 160, 7, 2, .u8, .ro, false, 0, .any, .none, false, false⟩]

def rows27 : List ObjRow := [
  ⟨0x2700, 1, 0, 1, .u8, .ro, false, 32, .any, .none, false, false⟩,
  ⟨0x2700, 1, 1, 32, .q29, .rw, false, 0, .lim (-2147483648) 2147483648, .tick, false, false⟩,
  ⟨0x2701, 1, 0, 1, .var, .act, false, 0, .any, .tick, false, false⟩,
  ⟨0x2710, 1, 0, 1, .u8, .ro, false, 14, .any, .none, false, false⟩,
  ⟨0x2710, 1, 1, 1, .u8, .rw, false, 0, .lim 0 1, .accept, false, false⟩,
  ⟨0x2710, 1, 2, 1, .u8, .rw, false, 0, .lim 0 159, .accept, false, false⟩,
  ⟨0x2710, 1, 3, 1, .u8, .rw, false, 1, .lim 0 1, .accept, false, false⟩,
  ⟨0x2710, 1, 4, 1, .q29, .rw, false, 5368709, .lim 536871 53687091, .accept, false, false⟩,
  ⟨0x2710, 1, 5, 1, .f32, .rw, false, 1092616192, .any, .accept, false, false⟩,
  ⟨0x2710, 1, 6, 1, .f32, .rw, false, 1148846080, .any, .accept, false, false⟩,
  ⟨0x2710, 1, 7, 1, .u8, .rw, false, 32, .lim 1 64, .accept, false, false⟩,
  ⟨0x2710, 1, 8, 1, .u16, .rw, false, 10, .lim 1 1000, .accept, false, false⟩,
  ⟨0x2710, 1, 9, 1, .u16, .rw, false, 20, .lim 1 1000, .accept, false, false⟩,
  ⟨0x2710, 1, 10, 1, .u16, .rw, false, 1666, .any, .accept, false, false⟩,
  ⟨0x2710, 1, 11, 1, .u16, .rw, false, 1665, .any, .accept, false, false⟩,
  ⟨0x2710, 1, 12, 1, .u8, .rw, false, 10, .lim 7 15, .accept, false, false⟩,
  ⟨0x2710, 1, 13, 1, .u8, .rw, false, 1, .lim 1 64, .accept, false, false⟩,
  ⟨0x2710, 1, 14, 1, .u8, .rw, false, 4, .lim 1 255, .accept, false, false⟩,
  ⟨0x2711, 1, 0, 1, .var, .act, false, 0, .any, .accept, false, false⟩,
  ⟨0x2712, 1, 0, 1, .u8, .ro, false, 2, .any, .none, false, false⟩,
  ⟨0x2712, 1, 1, 2, .u8, .ro, false, 0, .any, .none, false, false⟩,
  ⟨0x2780, 64, 0, 1, .u8, .ro, false, 5, .any, .none, false, false⟩,
  ⟨0x2780, 64, 1, 4, .f32, .ro, false, 0, .any, .none, false, false⟩,
  ⟨0x2780, 64, 5, 1, .u8, .ro, false, 3, .any, .none, false, false⟩]

def rows30p0 : List ObjRow := [
  ⟨0x3000, 4, 0, 1, .u8, .ro, false, 6, .any, .none, false, false⟩,
  ⟨0x3000, 4, 1, 1, .u8, .rw, true, 1, .lim 1 2, .tick, false, false⟩,
  ⟨0x3000, 4, 2, 1, .u8, .rw, true, 0, .lim 0 1, .accept, false, false⟩,
  ⟨0x3000, 4, 3, 1, .u8, .rwr, true, 0, .lim 0 1, .atRest, false, false⟩,
  ⟨0x3000, 4, 4, 1, .u8, .rw, true, 0, .lim 0 1, .tick, true, false⟩,
  ⟨0x3000, 4, 5, 1, .u8, .rwr, true, 0, .lim 0 1, .atRest, false, false⟩,
  ⟨0x3000, 4, 6, 1, .u8, .rw, true, 1, .lim 0 1, .tick, true, false⟩,
  ⟨0x3004, 4, 0, 1, .var, .act, false, 0, .any, .tick, false, false⟩,
  ⟨0x3010, 4, 0, 1, .u8, .ro, false, 6, .any, .none, false, false⟩,
  ⟨0x3010, 4, 1, 1, .f32, .rw, true, 1073741824, .lim 1028443341 1106247680, .tick, false, false⟩,
  ⟨0x3010, 4, 2, 1, .f32, .rw, true, 1109393408, .lim 0 1128792064, .tick, false, false⟩,
  ⟨0x3010, 4, 3, 1, .f32, .rw, true, 1056964608, .lim 1008981770 1092616192, .tick, false, false⟩,
  ⟨0x3010, 4, 4, 1, .f32, .rw, true, 1082130432, .lim 1045220557 1094713344, .tick, true, false⟩,
  ⟨0x3010, 4, 5, 1, .f32, .rw, true, 1084227584, .lim 1056964608 1101004800, .tick, true, false⟩,
  ⟨0x3010, 4, 6, 1, .f32, .rw, true, 1017370378, .lim 981668463 1065353216, .tick, false, false⟩,
  ⟨0x3014, 4, 0, 1, .u8, .ro, false, 7, .any, .none, false, false⟩,
  ⟨0x3014, 4, 1, 2, .q29, .rw, false, 0, .lim (-536870912) 536870912, .tick, false, false⟩,
  ⟨0x3014, 4, 3, 1, .fmhz, .rw, false, 0, .lim (-5000000) 5000000, .tick, false, false⟩,
  ⟨0x3014, 4, 4, 1, .q29, .rw, false, 536870912, .lim 429496730 644245094, .tick, false, false⟩,
  ⟨0x3014, 4, 5, 1, .f32, .rw, true, 1036831949, .lim 981668463 1120403456, .tick, false, false⟩,
  ⟨0x3014, 4, 6, 1, .f32, .rw, true, 1065353216, .lim 981668463 1120403456, .tick, false, false⟩,
  ⟨0x3014, 4, 7, 1, .q29, .rw, false, 536870912, .lim 268435456 805306368, .tick, false, false⟩,
  ⟨0x3020, 4, 0, 1, .u8, .ro, false, 6, .any, .none, false, false⟩,
  ⟨0x3020, 4, 1, 1, .f32, .rw, true, 0, .lim 0 1056964608, .tick, false, false⟩]

def rows30p1 : List ObjRow := [
  ⟨0x3020, 4, 2, 1, .f32, .rw, true, 1036831949, .lim 0 1056964608, .tick, false, false⟩,
  ⟨0x3020, 4, 3, 1, .f32, .rw, true, 0, .lim 0 1056964608, .tick, false, false⟩,
  ⟨0x3020, 4, 4, 1, .f32, .rw, true, 1028443341, .lim 0 1056964608, .tick, false, false⟩,
  ⟨0x3020, 4, 5, 1, .f32, .rwr, true, 1036831949, .lim 1008981770 1056964608, .atRest, false, false⟩,
  ⟨0x3020, 4, 6, 1, .f32, .rwr, true, 1028443341, .lim 0 1050253722, .atRest, false, false⟩,
  ⟨0x3030, 4, 0, 1, .u8, .ro, false, 10, .any, .none, false, false⟩,
  ⟨0x3030, 4, 1, 1, .f32, .rw, true, 1065353216, .lim 1008981770 1092616192, .tick, false, false⟩,
  ⟨0x3030, 4, 2, 1, .q29, .rw, true, 26843546, .lim 5368709 107374182, .tick, false, false⟩,
  ⟨0x3030, 4, 3, 1, .u16, .rw, true, 200, .lim 20 10000, .tick, false, false⟩,
  ⟨0x3030, 4, 4, 1, .u16, .rw, true, 100, .lim 10 1000, .tick, false, false⟩,
  ⟨0x3030, 4, 5, 1, .u8, .rw, true, 16, .lim 1 64, .tick, false, false⟩,
  ⟨0x3030, 4, 6, 1, .u16, .rw, true, 20, .lim 0 999, .tick, false, false⟩,
  ⟨0x3030, 4, 7, 1, .q29, .rw, true, 536870912, .lim 53687091 1073741824, .tick, false, false⟩,
  ⟨0x3030, 4, 8, 1, .f32, .rw, true, 1036831949, .lim 0 1056964608, .tick, false, false⟩,
  ⟨0x3030, 4, 9, 1, .u16, .rw, true, 1000, .lim 0 60000, .tick, false, false⟩,
  ⟨0x3030, 4, 10, 1, .u16, .rw, true, 2000, .lim 500 10000, .tick, false, false⟩,
  ⟨0x3040, 4, 0, 1, .u8, .ro, false, 7, .any, .none, false, false⟩,
  ⟨0x3040, 4, 1, 1, .f32, .rw, true, 1036831949, .lim 1008981770 1056964608, .tick, true, false⟩,
  ⟨0x3040, 4, 2, 1, .f32, .rw, true, 1092616192, .lim 1065353216 1106247680, .tick, true, false⟩,
  ⟨0x3040, 4, 3, 1, .q29, .rw, true, 26843546, .lim 5368709 53687091, .tick, true, false⟩,
  ⟨0x3040, 4, 4, 1, .u16, .rw, true, 100, .lim 20 2000, .tick, false, false⟩,
  ⟨0x3040, 4, 5, 1, .u16, .rw, true, 60, .lim 5 600, .tick, false, false⟩,
  ⟨0x3040, 4, 6, 1, .u16, .rw, true, 300, .lim 0 900, .tick, true, false⟩,
  ⟨0x3040, 4, 7, 1, .f32, .rw, true, 1017370378, .lim 981668463 1065353216, .tick, true, false⟩]

def rows30p2 : List ObjRow := [
  ⟨0x3050, 4, 0, 1, .u8, .ro, false, 9, .any, .none, false, false⟩,
  ⟨0x3050, 4, 1, 1, .u8, .rw, true, 1, .lim 0 1, .tick, false, false⟩,
  ⟨0x3050, 4, 2, 1, .q29, .rw, true, 1073742, .lim 268435 1610613, .tick, false, false⟩,
  ⟨0x3050, 4, 3, 1, .u8, .rw, true, 5, .lim 1 50, .tick, false, false⟩,
  ⟨0x3050, 4, 4, 1, .u8, .rw, true, 0, .lim 0 1, .tick, false, false⟩,
  ⟨0x3050, 4, 5, 1, .f32, .rw, true, 1073741824, .lim 1065353216 1101004800, .tick, false, false⟩,
  ⟨0x3050, 4, 6, 1, .f32, .rw, true, 1092616192, .lim 1073741824 1112014848, .tick, false, false⟩,
  ⟨0x3050, 4, 7, 1, .f32, .rw, true, 1073741824, .lim 1065353216 1082130432, .tick, false, false⟩,
  ⟨0x3050, 4, 8, 1, .f32, .rw, true, 1077936128, .orLim 0 1065353216 1101004800, .tick, false, false⟩,
  ⟨0x3050, 4, 9, 1, .u8, .ro, false, 0, .any, .none, false, false⟩,
  ⟨0x3054, 4, 0, 1, .u8, .ro, false, 6, .any, .none, false, false⟩,
  ⟨0x3054, 4, 1, 3, .f32, .ro, false, 0, .any, .none, false, false⟩,
  ⟨0x3054, 4, 4, 1, .u8, .ro, false, 2, .any, .none, false, false⟩,
  ⟨0x3054, 4, 5, 1, .t64, .ro, false, 0, .any, .none, false, false⟩,
  ⟨0x3054, 4, 6, 1, .f32, .ro, false, 0, .any, .none, false, false⟩,
  ⟨0x3058, 4, 0, 1, .var, .act, false, 0, .any, .accept, false, false⟩,
  ⟨0x3060, 4, 0, 1, .u8, .ro, false, 9, .any, .none, false, false⟩,
  ⟨0x3060, 4, 1, 2, .u8, .ro, false, 0, .any, .none, false, false⟩,
  ⟨0x3060, 4, 3, 1, .u16, .ro, false, 0, .any, .none, false, false⟩,
  ⟨0x3060, 4, 4, 1, .u8, .ro, false, 0, .any, .none, false, false⟩,
  ⟨0x3060, 4, 5, 1, .f32, .ro, false, 0, .any, .none, false, false⟩,
  ⟨0x3060, 4, 6, 1, .f32, .ro, false, 1036831949, .any, .none, false, false⟩,
  ⟨0x3060, 4, 7, 1, .f32, .ro, false, 1109393408, .any, .none, false, false⟩,
  ⟨0x3060, 4, 8, 1, .u16, .ro, false, 0, .any, .none, false, false⟩]

def rows30p3 : List ObjRow := [
  ⟨0x3060, 4, 9, 1, .q29, .ro, false, 0, .any, .none, false, false⟩]

def rows30 : List ObjRow := rows30p0 ++ rows30p1 ++ rows30p2 ++ rows30p3

def rows34p0 : List ObjRow := [
  ⟨0x3400, 4, 0, 1, .u8, .ro, false, 10, .any, .none, false, false⟩,
  ⟨0x3400, 4, 1, 1, .u8, .rwr, true, 0, .lim 0 1, .atRest, false, false⟩,
  ⟨0x3400, 4, 2, 1, .f32, .rw, true, 1069547520, .lim 1028443341 1101004800, .tick, false, false⟩,
  ⟨0x3400, 4, 3, 1, .f32, .rw, true, 1114636288, .lim 0 1157234688, .tick, false, false⟩,
  ⟨0x3400, 4, 4, 1, .f32, .rw, true, 1036831949, .lim 1008981770 1036831949, .tick, false, false⟩,
  ⟨0x3400, 4, 5, 1, .f32, .rw, true, 1068792545, .lim 1056964608 1073741824, .tick, false, false⟩,
  ⟨0x3400, 4, 6, 1, .u8, .rw, true, 0, .lim 0 1, .tick, true, false⟩,
  ⟨0x3400, 4, 7, 1, .fmhz, .rw, true, 36000, .lim 0 1000000, .tick, true, false⟩,
  ⟨0x3400, 4, 8, 1, .u8, .rw, true, 0, .lim 0 1, .tick, true, false⟩,
  ⟨0x3400, 4, 9, 1, .q29, .rw, true, 5368709, .lim 0 53687091, .tick, true, false⟩,
  ⟨0x3400, 4, 10, 1, .u8, .rw, true, 0, .lim 0 1, .tick, false, false⟩,
  ⟨0x3410, 4, 0, 1, .u8, .ro, false, 13, .any, .none, false, false⟩,
  ⟨0x3410, 4, 1, 1, .u8, .rw, true, 3, .lim 0 7, .tick, true, false⟩,
  ⟨0x3410, 4, 2, 1, .fmhz, .rw, true, 4293967296, .lim (-5000000) 0, .tick, true, false⟩,
  ⟨0x3410, 4, 3, 1, .fmhz, .rw, true, 1000000, .lim 0 5000000, .tick, true, false⟩,
  ⟨0x3410, 4, 4, 1, .q29, .rw, true, 472446403, .lim 268435456 536870912, .tick, true, false⟩,
  ⟨0x3410, 4, 5, 1, .q29, .rw, true, 590558003, .lim 536870912 697932186, .tick, true, false⟩,
  ⟨0x3410, 4, 6, 1, .u16, .rw, true, 160, .lim 20 10000, .tick, true, false⟩,
  ⟨0x3410, 4, 7, 1, .f32, .rw, true, 1080033280, .lim 1036831949 1092616192, .tick, true, false⟩,
  ⟨0x3410, 4, 8, 1, .u16, .rw, true, 500, .lim 100 1000, .tick, false, false⟩,
  ⟨0x3410, 4, 9, 1, .u16, .rw, true, 100, .lim 0 2000, .tick, true, false⟩,
  ⟨0x3410, 4, 10, 1, .f32, .rw, true, 1092616192, .lim 1073741824 1110704128, .tick, true, false⟩,
  ⟨0x3410, 4, 11, 1, .u8, .rw, true, 1, .lim 0 1, .tick, true, false⟩,
  ⟨0x3410, 4, 12, 1, .f32, .rw, true, 1077936128, .lim 1069547520 1092616192, .tick, false, false⟩]

def rows34p1 : List ObjRow := [
  ⟨0x3410, 4, 13, 1, .u16, .rw, true, 60, .lim 10 600, .tick, false, false⟩,
  ⟨0x3418, 4, 0, 1, .u8, .ro, false, 5, .any, .none, false, false⟩,
  ⟨0x3418, 4, 1, 2, .u8, .ro, false, 0, .any, .none, false, false⟩,
  ⟨0x3418, 4, 3, 1, .t64, .ro, false, 0, .any, .none, false, false⟩,
  ⟨0x3418, 4, 4, 2, .f32, .ro, false, 0, .any, .none, false, false⟩]

def rows34 : List ObjRow := rows34p0 ++ rows34p1

def rows35p0 : List ObjRow := [
  ⟨0x3500, 4, 0, 1, .u8, .ro, false, 2, .any, .none, false, false⟩,
  ⟨0x3500, 4, 1, 1, .u8, .rwr, true, 0, .lim 0 2, .atRest, false, false⟩,
  ⟨0x3500, 4, 2, 1, .u8, .rwr, true, 0, .lim 0 1, .atRest, false, false⟩,
  ⟨0x3504, 4, 0, 1, .var, .act, false, 0, .any, .tick, false, false⟩,
  ⟨0x3510, 4, 0, 1, .u8, .ro, false, 5, .any, .none, false, false⟩,
  ⟨0x3510, 4, 1, 1, .q29, .rw, false, 0, .lim (-805306368) 805306368, .tick, false, false⟩,
  ⟨0x3510, 4, 2, 1, .f32, .rw, true, 1056964608, .lim 981668463 1120403456, .tick, false, false⟩,
  ⟨0x3510, 4, 3, 1, .q29, .rw, true, 456340275, .lim 161061274 536870912, .tick, false, false⟩,
  ⟨0x3510, 4, 4, 1, .q29, .rw, true, 510027366, .lim 161061274 536870912, .tick, false, false⟩,
  ⟨0x3510, 4, 5, 1, .q29, .rw, true, 322122547, .lim 107374182 536870912, .tick, false, false⟩,
  ⟨0x3514, 4, 0, 1, .u8, .ro, false, 5, .any, .none, false, false⟩,
  ⟨0x3514, 4, 1, 2, .q29, .rw, false, 536870912, .lim 0 805306368, .tick, false, false⟩,
  ⟨0x3514, 4, 3, 1, .q29, .rw, false, 483183821, .lim 53687091 536870912, .tick, false, false⟩,
  ⟨0x3514, 4, 4, 1, .q29, .rw, false, 214748365, .lim 26843546 536870912, .tick, false, false⟩,
  ⟨0x3514, 4, 5, 1, .u16, .rw, true, 5000, .orLim 0 100 60000, .tick, false, false⟩,
  ⟨0x3520, 4, 0, 1, .u8, .ro, false, 12, .any, .none, false, false⟩,
  ⟨0x3520, 4, 1, 1, .u8, .rw, true, 0, .lim 0 1, .tick, false, false⟩,
  ⟨0x3520, 4, 2, 1, .u16, .rw, true, 100, .lim 10 1000, .tick, false, false⟩,
  ⟨0x3520, 4, 3, 1, .q29, .rw, true, 536871, .lim 53687 26843546, .tick, false, false⟩,
  ⟨0x3520, 4, 4, 1, .q29, .rw, true, 5368709, .lim 53687 26843546, .tick, false, false⟩,
  ⟨0x3520, 4, 5, 1, .f32, .rw, true, 1017370378, .lim 0 1065353216, .tick, false, false⟩,
  ⟨0x3520, 4, 6, 1, .q29, .rw, true, 268435, .lim 0 5368709, .tick, false, false⟩,
  ⟨0x3520, 4, 7, 1, .f32, .rw, true, 1017370378, .lim 981668463 1045220557, .tick, false, false⟩,
  ⟨0x3520, 4, 8, 1, .q29, .rw, true, 161061274, .lim 26843546 536870912, .tick, false, false⟩]

def rows35p1 : List ObjRow := [
  ⟨0x3520, 4, 9, 1, .q29, .rw, true, 402653184, .lim 26843546 536870912, .tick, false, false⟩,
  ⟨0x3520, 4, 10, 1, .q29, .rw, false, 536870912, .lim 0 590558003, .tick, false, false⟩,
  ⟨0x3520, 4, 11, 1, .q29, .rw, true, 214748365, .lim 26843546 536870912, .tick, false, false⟩,
  ⟨0x3520, 4, 12, 1, .u16, .rw, true, 10, .lim 0 600, .tick, false, false⟩,
  ⟨0x3528, 4, 0, 1, .u8, .ro, false, 6, .any, .none, false, false⟩,
  ⟨0x3528, 4, 1, 1, .u16, .rw, true, 600, .orLim 0 60 3600, .tick, false, false⟩,
  ⟨0x3528, 4, 2, 1, .q29, .rw, true, 375809638, .any, .tick, false, false⟩,
  ⟨0x3528, 4, 3, 1, .q29, .rw, true, 161061274, .any, .tick, false, false⟩,
  ⟨0x3528, 4, 4, 1, .u8, .rw, true, 25, .lim 5 64, .tick, false, false⟩,
  ⟨0x3528, 4, 5, 1, .u16, .rw, true, 40, .lim 10 500, .tick, false, false⟩,
  ⟨0x3528, 4, 6, 1, .f32, .rw, true, 1073741824, .lim 0 1101004800, .tick, false, false⟩,
  ⟨0x352C, 4, 0, 1, .var, .act, false, 0, .any, .accept, false, false⟩,
  ⟨0x3530, 4, 0, 1, .u8, .ro, false, 9, .any, .none, false, false⟩,
  ⟨0x3530, 4, 1, 1, .u8, .ro, false, 0, .any, .none, false, false⟩,
  ⟨0x3530, 4, 2, 3, .q29, .ro, false, 0, .any, .none, false, false⟩,
  ⟨0x3530, 4, 5, 2, .u8, .ro, false, 0, .any, .none, false, false⟩,
  ⟨0x3530, 4, 7, 2, .q29, .ro, false, 0, .any, .none, false, false⟩,
  ⟨0x3530, 4, 9, 1, .t64, .ro, false, 0, .any, .none, false, false⟩]

def rows35 : List ObjRow := rows35p0 ++ rows35p1

def rows37p0 : List ObjRow := [
  ⟨0x3700, 4, 0, 1, .u8, .ro, false, 15, .any, .none, false, false⟩,
  ⟨0x3700, 4, 1, 1, .q29, .rw, true, 472446403, .lim 375809638 510027366, .tick, true, false⟩,
  ⟨0x3700, 4, 2, 1, .q29, .rw, true, 590558003, .lim 563714458 644245094, .tick, true, false⟩,
  ⟨0x3700, 4, 3, 1, .fmhz, .rw, true, 4293767296, .lim (-5000000) 0, .tick, true, false⟩,
  ⟨0x3700, 4, 4, 1, .fmhz, .rw, true, 1200000, .lim 0 5000000, .tick, true, false⟩,
  ⟨0x3700, 4, 5, 1, .q29, .rw, true, 10737418, .lim 0 26843546, .tick, false, false⟩,
  ⟨0x3700, 4, 6, 1, .u16, .rw, true, 20, .lim 0 1000, .tick, true, false⟩,
  ⟨0x3700, 4, 7, 1, .u8, .rw, true, 0, .lim 0 1, .tick, true, false⟩,
  ⟨0x3700, 4, 8, 1, .f32, .rw, true, 1073741824, .lim 0 1092616192, .tick, true, false⟩,
  ⟨0x3700, 4, 9, 1, .q29, .rw, true, 53687091, .lim 0 107374182, .tick, true, false⟩,
  ⟨0x3700, 4, 10, 1, .f32, .rw, true, 1073741824, .lim 0 1092616192, .tick, true, false⟩,
  ⟨0x3700, 4, 11, 1, .f32, .rw, true, 1119092736, .lim 1119092736 1125515264, .tick, true, false⟩,
  ⟨0x3700, 4, 12, 1, .q29, .rw, true, 0, .lim 0 322122547, .tick, true, false⟩,
  ⟨0x3700, 4, 13, 1, .f32, .rw, true, 1065353216, .lim 1008981770 1120403456, .tick, true, false⟩,
  ⟨0x3700, 4, 14, 1, .u8, .rw, true, 5, .lim 1 20, .tick, true, false⟩,
  ⟨0x3700, 4, 15, 1, .u16, .rw, true, 10, .lim 1 600, .tick, true, false⟩,
  ⟨0x3710, 4, 0, 1, .u8, .ro, false, 34, .any, .none, false, false⟩,
  ⟨0x3710, 4, 1, 1, .u8, .rwr, true, 4, .lim 1 16, .atRest, true, false⟩,
  ⟨0x3710, 4, 2, 1, .u8, .rwr, true, 0, .lim 0 1, .atRest, true, false⟩,
  ⟨0x3710, 4, 3, 1, .u32, .rwr, true, 0, .lim 0 3600000, .atRest, true, false⟩,
  ⟨0x3710, 4, 4, 1, .u32, .rwr, true, 150, .lim 0 3600000, .atRest, true, false⟩,
  ⟨0x3710, 4, 5, 1, .u32, .rwr, true, 3000, .lim 0 3600000, .atRest, true, false⟩,
  ⟨0x3710, 4, 6, 1, .u32, .rwr, true, 10000, .lim 0 3600000, .atRest, true, false⟩,
  ⟨0x3710, 4, 7, 12, .u32, .rwr, true, 0, .lim 0 3600000, .atRest, true, false⟩]

def rows37p1 : List ObjRow := [
  ⟨0x3710, 4, 19, 1, .q29, .rwr, true, 0, .lim 0 536870912, .atRest, true, false⟩,
  ⟨0x3710, 4, 20, 1, .q29, .rwr, true, 268435456, .lim 0 536870912, .atRest, true, false⟩,
  ⟨0x3710, 4, 21, 1, .q29, .rwr, true, 375809638, .lim 0 536870912, .atRest, true, false⟩,
  ⟨0x3710, 4, 22, 1, .q29, .rwr, true, 472446403, .lim 0 536870912, .atRest, true, false⟩,
  ⟨0x3710, 4, 23, 12, .q29, .rwr, true, 0, .lim 0 536870912, .atRest, true, false⟩,
  ⟨0x3714, 4, 0, 1, .u8, .ro, false, 34, .any, .none, false, false⟩,
  ⟨0x3714, 4, 1, 1, .u8, .rwr, true, 4, .lim 1 16, .atRest, true, false⟩,
  ⟨0x3714, 4, 2, 1, .u8, .rwr, true, 0, .lim 0 1, .atRest, true, false⟩,
  ⟨0x3714, 4, 3, 1, .u32, .rwr, true, 0, .lim 0 3600000, .atRest, true, false⟩,
  ⟨0x3714, 4, 4, 1, .u32, .rwr, true, 1000, .lim 0 3600000, .atRest, true, false⟩,
  ⟨0x3714, 4, 5, 1, .u32, .rwr, true, 10000, .lim 0 3600000, .atRest, true, false⟩,
  ⟨0x3714, 4, 6, 1, .u32, .rwr, true, 900000, .lim 0 3600000, .atRest, true, false⟩,
  ⟨0x3714, 4, 7, 12, .u32, .rwr, true, 0, .lim 0 3600000, .atRest, true, false⟩,
  ⟨0x3714, 4, 19, 1, .q29, .rwr, true, 644245094, .lim 536870912 805306368, .atRest, true, false⟩,
  ⟨0x3714, 4, 20, 1, .q29, .rwr, true, 630823322, .lim 536870912 805306368, .atRest, true, false⟩,
  ⟨0x3714, 4, 21, 1, .q29, .rwr, true, 617401549, .lim 536870912 805306368, .atRest, true, false⟩,
  ⟨0x3714, 4, 22, 1, .q29, .rwr, true, 590558003, .lim 536870912 805306368, .atRest, true, false⟩,
  ⟨0x3714, 4, 23, 12, .q29, .rwr, true, 0, .lim 536870912 805306368, .atRest, true, false⟩,
  ⟨0x3718, 4, 0, 1, .u8, .ro, false, 8, .any, .none, false, false⟩,
  ⟨0x3718, 4, 1, 1, .fmhz, .rw, true, 4293467296, .lim (-5000000) 0, .tick, true, false⟩,
  ⟨0x3718, 4, 2, 1, .u32, .rw, true, 300000, .lim 20 1000000, .tick, true, false⟩,
  ⟨0x3718, 4, 3, 1, .fmhz, .rw, true, 4291467296, .lim (-5000000) 0, .tick, true, false⟩,
  ⟨0x3718, 4, 4, 1, .u32, .rw, true, 160, .lim 20 1000000, .tick, true, false⟩,
  ⟨0x3718, 4, 5, 1, .fmhz, .rw, true, 1200000, .lim 0 5000000, .tick, true, false⟩]

def rows37p2 : List ObjRow := [
  ⟨0x3718, 4, 6, 1, .u32, .rw, true, 300000, .lim 20 1000000, .tick, true, false⟩,
  ⟨0x3718, 4, 7, 1, .fmhz, .rw, true, 2000000, .lim 0 5000000, .tick, true, false⟩,
  ⟨0x3718, 4, 8, 1, .u32, .rw, true, 160, .lim 20 1000000, .tick, true, false⟩,
  ⟨0x3720, 4, 0, 1, .u8, .ro, false, 6, .any, .none, false, false⟩,
  ⟨0x3720, 4, 1, 1, .q29, .rw, true, 590558003, .lim 268435456 805306368, .tick, false, false⟩,
  ⟨0x3720, 4, 2, 1, .q29, .rw, true, 536870912, .lim 268435456 805306368, .tick, false, false⟩,
  ⟨0x3720, 4, 3, 1, .f32, .rw, true, 1056964608, .lim 0 1084227584, .tick, false, false⟩,
  ⟨0x3720, 4, 4, 1, .f32, .rw, true, 1084227584, .lim 1056964608 1101004800, .tick, false, false⟩,
  ⟨0x3720, 4, 5, 1, .f32, .rw, true, 1065353216, .lim 1008981770 1120403456, .tick, false, false⟩,
  ⟨0x3720, 4, 6, 1, .u16, .rw, true, 20, .lim 1 1000, .tick, false, false⟩,
  ⟨0x3724, 4, 0, 1, .u8, .ro, false, 6, .any, .none, false, false⟩,
  ⟨0x3724, 4, 1, 1, .f32, .rw, true, 1119092736, .lim 1106247680 1126825984, .tick, false, false⟩,
  ⟨0x3724, 4, 2, 1, .u16, .rw, true, 20, .lim 1 500, .tick, false, false⟩,
  ⟨0x3724, 4, 3, 1, .u16, .rw, true, 20, .lim 5 1000, .tick, false, false⟩,
  ⟨0x3724, 4, 4, 1, .u8, .rw, true, 2, .lim 1 10, .tick, false, false⟩,
  ⟨0x3724, 4, 5, 1, .u16, .rw, true, 10, .lim 1 600, .tick, false, false⟩,
  ⟨0x3724, 4, 6, 1, .f32, .rw, true, 1092616192, .lim 1073741824 1110704128, .tick, true, false⟩,
  ⟨0x3740, 4, 0, 1, .u8, .ro, false, 12, .any, .none, false, false⟩,
  ⟨0x3740, 4, 1, 2, .u8, .ro, false, 0, .any, .none, false, false⟩,
  ⟨0x3740, 4, 3, 1, .t64, .ro, false, 0, .any, .none, false, false⟩,
  ⟨0x3740, 4, 4, 1, .q29, .ro, false, 536870912, .any, .none, false, false⟩,
  ⟨0x3740, 4, 5, 3, .q29, .ro, false, 0, .any, .none, false, false⟩,
  ⟨0x3740, 4, 8, 2, .u8, .ro, false, 0, .any, .none, false, false⟩,
  ⟨0x3740, 4, 10, 1, .f32, .ro, false, 0, .any, .none, false, false⟩]

def rows37p3 : List ObjRow := [
  ⟨0x3740, 4, 11, 1, .u32, .ro, false, 0, .any, .none, false, false⟩,
  ⟨0x3740, 4, 12, 1, .u8, .ro, false, 0, .any, .none, false, false⟩,
  ⟨0x3780, 1, 0, 1, .u8, .ro, false, 3, .any, .none, false, false⟩,
  ⟨0x3780, 1, 1, 1, .u8, .ro, false, 0, .any, .none, false, false⟩,
  ⟨0x3780, 1, 2, 1, .u32, .ro, false, 0, .any, .none, true, false⟩,
  ⟨0x3780, 1, 3, 1, .u8, .ro, false, 0, .any, .none, false, false⟩]

def rows37 : List ObjRow := rows37p0 ++ rows37p1 ++ rows37p2 ++ rows37p3

def rows40p0 : List ObjRow := [
  ⟨0x4000, 1, 0, 1, .u8, .ro, false, 3, .any, .none, false, false⟩,
  ⟨0x4000, 1, 1, 1, .u32, .rwr, true, 40000, .step 4000 320000 2, .atRest, false, false⟩,
  ⟨0x4000, 1, 2, 1, .u8, .ro, false, 1, .any, .none, false, false⟩,
  ⟨0x4000, 1, 3, 1, .u8, .ro, false, 0, .any, .none, false, false⟩,
  ⟨0x4010, 8, 0, 1, .u8, .ro, false, 10, .any, .none, false, false⟩,
  ⟨0x4010, 8, 1, 1, .u8, .rwr, true, 0, .any, .atRest, false, false⟩,
  ⟨0x4010, 8, 2, 1, .u8, .rwr, true, 0, .lim 0 31, .atRest, false, false⟩,
  ⟨0x4010, 4, 3, 1, .u8, .ro, false, 1, .any, .none, false, false⟩,
  ⟨0x4010, 8, 4, 1, .u8, .rwr, true, 0, .lim 0 1, .atRest, false, false⟩,
  ⟨0x4010, 8, 5, 1, .u32, .rw, true, 200000, .lim 0 5000000, .tick, false, false⟩,
  ⟨0x4010, 8, 6, 1, .u8, .rw, true, 0, .lim 0 1, .tick, false, false⟩,
  ⟨0x4010, 8, 7, 1, .u32, .rwr, true, 0, .any, .atRest, false, false⟩,
  ⟨0x4010, 8, 8, 1, .u32, .rwr, true, 1000000, .lim 100000 10000000, .atRest, false, false⟩,
  ⟨0x4010, 8, 9, 2, .u8, .rw, true, 1, .lim 0 1, .tick, false, false⟩,
  ⟨0x4014, 4, 3, 1, .u8, .rw, true, 1, .lim 1 8, .commit, false, false⟩,
  ⟨0x4040, 32, 0, 1, .u8, .ro, false, 8, .any, .none, false, false⟩,
  ⟨0x4040, 32, 1, 2, .u32, .rw, true, 1000000, .lim 20000 10000000, .tick, false, false⟩,
  ⟨0x4040, 32, 3, 1, .u32, .rw, true, 20000, .lim 20000 10000000, .tick, false, false⟩,
  ⟨0x4040, 32, 4, 1, .u8, .rw, true, 0, .lim 0 1, .tick, false, false⟩,
  ⟨0x4040, 32, 5, 1, .u32, .rw, true, 100000, .lim 0 1000000, .tick, false, false⟩,
  ⟨0x4040, 32, 6, 1, .u16, .rw, true, 64, .lim 16 1024, .tick, false, false⟩,
  ⟨0x4040, 32, 7, 2, .u32, .ro, false, 1000000, .any, .none, false, false⟩,
  ⟨0x4060, 32, 0, 1, .u8, .ro, false, 5, .any, .none, false, false⟩,
  ⟨0x4060, 32, 1, 4, .u32, .ro, false, 0, .any, .none, false, false⟩]

def rows40p1 : List ObjRow := [
  ⟨0x4060, 32, 5, 1, .u8, .ro, false, 2, .any, .none, false, false⟩,
  ⟨0x4080, 8, 0, 1, .u8, .ro, false, 9, .any, .none, false, false⟩,
  ⟨0x4080, 8, 1, 9, .u32, .rw, false, 0, .any, .commit, false, false⟩,
  ⟨0x4090, 8, 0, 1, .u8, .ro, false, 3, .any, .none, false, false⟩,
  ⟨0x4090, 8, 1, 3, .u16, .rw, false, 0, .lim 0 511, .tick, false, false⟩,
  ⟨0x40A0, 16, 0, 1, .u8, .ro, false, 2, .any, .none, false, false⟩,
  ⟨0x40A0, 16, 1, 1, .u8, .rwr, true, 0, .any, .atRest, false, false⟩,
  ⟨0x40A0, 16, 2, 1, .u16, .rwr, true, 100, .lim 0 2000, .atRest, false, false⟩,
  ⟨0x40C0, 8, 0, 1, .u8, .ro, false, 5, .any, .none, false, false⟩,
  ⟨0x40C0, 8, 1, 1, .u8, .ro, false, 0, .any, .none, false, false⟩,
  ⟨0x40C0, 8, 2, 4, .u32, .ro, false, 0, .any, .none, false, false⟩,
  ⟨0x40E0, 1, 0, 1, .u8, .ro, false, 1, .any, .none, false, false⟩,
  ⟨0x40E0, 1, 1, 1, .u16, .ro, false, 0, .any, .none, false, false⟩,
  ⟨0x40F0, 1, 0, 1, .var, .act, false, 0, .any, .tick, false, false⟩,
  ⟨0x40F1, 1, 0, 1, .var, .act, false, 0, .any, .tick, false, false⟩]

def rows40 : List ObjRow := rows40p0 ++ rows40p1

def rows44p0 : List ObjRow := [
  ⟨0x4401, 4, 0, 1, .u8, .ro, false, 5, .any, .none, false, false⟩,
  ⟨0x4401, 1, 1, 1, .u8, .rw, true, 3, .lim 1 255, .tick, false, false⟩,
  ⟨0x4401, 1, 2, 1, .u32, .rw, true, 60000, .lim 1000 3600000, .tick, false, false⟩,
  ⟨0x4401, 1, 3, 1, .u32, .rw, true, 2000, .lim 100 600000, .tick, false, false⟩,
  ⟨0x4401, 1, 4, 1, .u32, .rw, true, 10000, .lim 1000 600000, .tick, false, false⟩,
  ⟨0x4401, 1, 5, 1, .u8, .rw, true, 1, .lim 0 1, .tick, false, false⟩,
  ⟨0x4402, 1, 1, 1, .u8, .rw, true, 5, .lim 1 255, .tick, false, false⟩,
  ⟨0x4402, 1, 2, 1, .u32, .rw, true, 10000, .lim 1000 3600000, .tick, false, false⟩,
  ⟨0x4402, 1, 3, 1, .u32, .rw, true, 500, .lim 100 600000, .tick, false, false⟩,
  ⟨0x4402, 1, 4, 1, .u32, .rw, true, 10000, .lim 1000 600000, .tick, false, false⟩,
  ⟨0x4402, 1, 5, 1, .u8, .rw, true, 1, .lim 0 1, .tick, false, false⟩,
  ⟨0x4403, 1, 1, 1, .u8, .rw, true, 3, .lim 1 255, .tick, false, false⟩,
  ⟨0x4403, 1, 2, 1, .u32, .rw, true, 60000, .lim 1000 3600000, .tick, false, false⟩,
  ⟨0x4403, 1, 3, 1, .u32, .rw, true, 1000, .lim 100 600000, .tick, false, false⟩,
  ⟨0x4403, 1, 4, 1, .u32, .rw, true, 10000, .lim 1000 600000, .tick, false, false⟩,
  ⟨0x4403, 1, 5, 1, .u8, .rw, true, 1, .lim 0 1, .tick, false, false⟩,
  ⟨0x4404, 1, 1, 1, .u8, .rw, true, 8, .lim 1 64, .tick, false, false⟩,
  ⟨0x4404, 1, 2, 1, .u32, .rw, true, 1000, .lim 100 100000, .tick, false, false⟩,
  ⟨0x4404, 1, 3, 1, .u32, .ro, true, 0, .lim 100 600000, .none, false, false⟩,
  ⟨0x4404, 1, 4, 1, .u32, .rw, true, 10000, .lim 1000 600000, .tick, false, false⟩,
  ⟨0x4404, 1, 5, 1, .u8, .rw, true, 1, .lim 0 1, .tick, false, false⟩,
  ⟨0x4410, 8, 0, 1, .u8, .ro, false, 6, .any, .none, false, false⟩,
  ⟨0x4410, 8, 1, 1, .u8, .ro, true, 0, .any, .none, false, false⟩,
  ⟨0x4410, 8, 2, 1, .u8, .ro, false, 0, .any, .none, false, false⟩]

def rows44p1 : List ObjRow := [
  ⟨0x4410, 8, 3, 3, .u32, .ro, false, 0, .any, .none, false, false⟩,
  ⟨0x4410, 8, 6, 1, .t64, .ro, true, 0, .any, .none, false, false⟩,
  ⟨0x4420, 16, 0, 1, .u8, .ro, false, 2, .any, .none, false, false⟩,
  ⟨0x4420, 16, 1, 1, .u8, .rwr, true, 255, .orLim 255 0 31, .atRest, false, false⟩,
  ⟨0x4420, 16, 2, 1, .u16, .rwr, true, 0, .lim 0 2000, .atRest, false, false⟩,
  ⟨0x4430, 24, 0, 1, .u8, .ro, false, 6, .any, .none, false, false⟩,
  ⟨0x4430, 24, 1, 1, .u8, .ro, true, 0, .any, .none, false, false⟩,
  ⟨0x4430, 24, 2, 1, .u8, .ro, false, 0, .any, .none, false, false⟩,
  ⟨0x4430, 24, 3, 3, .u32, .ro, false, 0, .any, .none, false, false⟩,
  ⟨0x4430, 24, 6, 1, .t64, .ro, true, 0, .any, .none, false, false⟩,
  ⟨0x4450, 24, 0, 1, .u8, .ro, false, 5, .any, .none, false, false⟩,
  ⟨0x4450, 24, 1, 1, .q29, .rw, true, 563714458, .lim 268435456 1073741824, .tick, false, false⟩,
  ⟨0x4450, 24, 2, 1, .q29, .rw, true, 214748365, .lim 26843546 1073741824, .tick, false, false⟩,
  ⟨0x4450, 24, 3, 1, .q29, .rw, true, 536870912, .lim 268435456 1073741824, .tick, false, false⟩,
  ⟨0x4450, 24, 4, 1, .u8, .rw, true, 4, .lim 1 64, .tick, false, false⟩,
  ⟨0x4450, 24, 5, 1, .u8, .rw, true, 1, .lim 0 1, .tick, false, false⟩,
  ⟨0x4470, 32, 0, 1, .u8, .ro, false, 6, .any, .none, false, false⟩,
  ⟨0x4470, 32, 1, 1, .u8, .ro, true, 0, .any, .none, false, false⟩,
  ⟨0x4470, 32, 2, 1, .u8, .ro, false, 0, .any, .none, false, false⟩,
  ⟨0x4470, 32, 3, 3, .u32, .ro, false, 0, .any, .none, false, false⟩,
  ⟨0x4470, 32, 6, 1, .t64, .ro, true, 0, .any, .none, false, false⟩,
  ⟨0x44A0, 1, 0, 1, .u8, .ro, false, 7, .any, .none, false, false⟩,
  ⟨0x44A0, 1, 1, 1, .u8, .ro, false, 0, .any, .none, false, false⟩,
  ⟨0x44A0, 1, 2, 1, .t64, .ro, false, 0, .any, .none, false, false⟩]

def rows44p2 : List ObjRow := [
  ⟨0x44A0, 1, 3, 1, .u16, .rw, true, 60, .orLim 0 1 600, .tick, false, false⟩,
  ⟨0x44A0, 1, 4, 2, .u8, .ro, false, 0, .any, .none, false, false⟩,
  ⟨0x44A0, 1, 6, 1, .u32, .ro, true, 0, .any, .none, false, false⟩,
  ⟨0x44A0, 1, 7, 1, .u16, .ro, false, 0, .any, .none, false, false⟩,
  ⟨0x44B0, 1, 0, 1, .var, .act, false, 0, .any, .tick, false, false⟩,
  ⟨0x44B1, 1, 0, 1, .var, .src, false, 0, .any, .accept, false, false⟩,
  ⟨0x44B2, 1, 0, 1, .b32, .ro, false, 0, .any, .none, false, false⟩]

def rows44 : List ObjRow := rows44p0 ++ rows44p1 ++ rows44p2

def rows46 : List ObjRow := [
  ⟨0x4600, 2, 0, 1, .u8, .ro, false, 8, .any, .none, false, false⟩,
  ⟨0x4600, 2, 1, 8, .u32, .ro, false, 0, .any, .none, false, false⟩,
  ⟨0x4608, 1, 0, 1, .u8, .ro, false, 1, .any, .none, false, false⟩,
  ⟨0x4608, 1, 1, 1, .u32, .rw, true, 10, .lim 1 10000, .tick, false, false⟩,
  ⟨0x4610, 2, 0, 1, .u8, .ro, false, 8, .any, .none, false, false⟩,
  ⟨0x4610, 2, 1, 5, .u32, .ro, false, 0, .any, .none, false, false⟩,
  ⟨0x4610, 2, 6, 1, .u8, .ro, false, 0, .any, .none, false, false⟩,
  ⟨0x4610, 2, 7, 2, .u32, .ro, false, 0, .any, .none, false, false⟩,
  ⟨0x4620, 1, 0, 1, .u8, .ro, false, 6, .any, .none, false, false⟩,
  ⟨0x4620, 1, 1, 6, .u32, .ro, false, 0, .any, .none, false, false⟩,
  ⟨0x4630, 1, 0, 1, .var, .act, false, 0, .any, .accept, false, false⟩]

def rows48 : List ObjRow := [
  ⟨0x4800, 1, 0, 1, .u8, .ro, false, 4, .any, .none, false, false⟩,
  ⟨0x4800, 1, 1, 1, .u16, .rw, true, 10, .lim 1 60, .tick, false, false⟩,
  ⟨0x4800, 1, 2, 1, .u8, .rw, true, 3, .lim 0 10, .tick, false, false⟩,
  ⟨0x4800, 1, 3, 1, .u8, .rw, true, 2, .lim 1 10, .tick, false, false⟩,
  ⟨0x4800, 1, 4, 1, .u32, .rw, true, 600, .lim 10 86400, .tick, false, false⟩,
  ⟨0x4801, 1, 0, 1, .var, .act, false, 0, .any, .tick, false, false⟩,
  ⟨0x4802, 1, 0, 1, .var, .act, false, 0, .any, .accept, false, false⟩,
  ⟨0x4810, 2, 0, 1, .u8, .ro, false, 9, .any, .none, false, false⟩,
  ⟨0x4810, 2, 1, 2, .u8, .ro, false, 0, .any, .none, false, false⟩,
  ⟨0x4810, 2, 3, 1, .u16, .ro, false, 0, .any, .none, false, false⟩,
  ⟨0x4810, 2, 4, 1, .t64, .ro, false, 0, .any, .none, false, false⟩,
  ⟨0x4810, 2, 5, 1, .u8, .ro, false, 0, .any, .none, false, false⟩,
  ⟨0x4810, 2, 6, 1, .u32, .ro, false, 0, .any, .none, false, false⟩,
  ⟨0x4810, 2, 7, 1, .s16, .ro, false, 0, .any, .none, false, false⟩,
  ⟨0x4810, 2, 8, 2, .u8, .ro, false, 0, .any, .none, false, false⟩,
  ⟨0x4820, 1, 0, 1, .u8, .ro, false, 5, .any, .none, false, false⟩,
  ⟨0x4820, 1, 1, 1, .t64, .ro, false, 0, .any, .none, false, false⟩,
  ⟨0x4820, 1, 2, 1, .u16, .ro, false, 0, .any, .none, false, false⟩,
  ⟨0x4820, 1, 3, 3, .u32, .ro, false, 0, .any, .none, false, false⟩]

def rows4A : List ObjRow := [
  ⟨0x4A00, 1, 0, 1, .u8, .ro, false, 5, .any, .none, false, false⟩,
  ⟨0x4A00, 1, 1, 3, .u8, .ro, false, 0, .any, .none, false, false⟩,
  ⟨0x4A00, 1, 4, 1, .u16, .ro, false, 0, .any, .none, false, false⟩,
  ⟨0x4A00, 1, 5, 1, .u8, .ro, false, 0, .any, .none, false, false⟩,
  ⟨0x4A01, 1, 0, 1, .u8, .ro, false, 2, .any, .none, false, false⟩,
  ⟨0x4A01, 1, 1, 1, .u16, .rwr, true, 50, .lim 10 200, .atRest, false, false⟩,
  ⟨0x4A01, 1, 2, 1, .u16, .rwr, true, 30, .lim 10 200, .atRest, false, false⟩,
  ⟨0x4A02, 1, 0, 1, .u8, .ro, false, 6, .any, .none, false, false⟩,
  ⟨0x4A02, 1, 1, 1, .u16, .ro, false, 24, .any, .none, false, false⟩,
  ⟨0x4A02, 1, 2, 1, .t64, .ro, true, 0, .any, .none, false, false⟩,
  ⟨0x4A02, 1, 3, 1, .u8, .ro, true, 0, .any, .none, false, false⟩,
  ⟨0x4A02, 1, 4, 1, .u8, .ro, false, 0, .any, .none, false, false⟩,
  ⟨0x4A02, 1, 5, 2, .u32, .ro, true, 0, .any, .none, false, false⟩,
  ⟨0x4A03, 1, 0, 1, .u8, .ro, false, 3, .any, .none, false, false⟩,
  ⟨0x4A03, 1, 1, 1, .u16, .ro, false, 20, .any, .none, false, false⟩,
  ⟨0x4A03, 1, 2, 1, .u32, .ro, false, 0, .any, .none, false, false⟩,
  ⟨0x4A03, 1, 3, 1, .u16, .ro, false, 0, .any, .none, false, false⟩,
  ⟨0x4A10, 1, 0, 1, .u8, .ro, false, 4, .any, .none, false, false⟩,
  ⟨0x4A10, 1, 1, 3, .u8, .ro, false, 0, .any, .none, false, false⟩,
  ⟨0x4A10, 1, 4, 1, .u8, .ro, false, 0, .any, .none, true, false⟩,
  ⟨0x4A18, 1, 0, 1, .u8, .ro, false, 1, .any, .none, false, false⟩,
  ⟨0x4A18, 1, 1, 1, .u16, .ro, false, 0, .any, .none, false, false⟩,
  ⟨0x4A20, 1, 0, 1, .var, .act, false, 0, .any, .accept, false, false⟩]

def rows50p0 : List ObjRow := [
  ⟨0x5000, 1, 0, 1, .u8, .ro, false, 7, .any, .none, false, false⟩,
  ⟨0x5000, 1, 1, 1, .u8, .ro, false, 0, .any, .none, false, false⟩,
  ⟨0x5000, 1, 2, 1, .t64, .ro, false, 0, .any, .none, false, false⟩,
  ⟨0x5000, 1, 3, 2, .s32, .ro, false, 0, .any, .none, false, false⟩,
  ⟨0x5000, 1, 5, 1, .u8, .ro, false, 1, .any, .none, false, false⟩,
  ⟨0x5000, 1, 6, 1, .f32, .ro, false, 0, .any, .none, false, false⟩,
  ⟨0x5000, 1, 7, 1, .u32, .ro, false, 0, .any, .none, false, false⟩,
  ⟨0x5001, 1, 0, 1, .u8, .ro, false, 3, .any, .none, false, false⟩,
  ⟨0x5001, 1, 1, 1, .u8, .rw, true, 0, .lim 0 2, .accept, false, false⟩,
  ⟨0x5001, 1, 2, 1, .u16, .rw, true, 60, .lim 10 3600, .accept, false, false⟩,
  ⟨0x5001, 1, 3, 1, .u32, .rw, true, 1000, .lim 1 10000000, .accept, false, false⟩,
  ⟨0x5002, 1, 0, 1, .u8, .ro, false, 2, .any, .none, false, false⟩,
  ⟨0x5002, 1, 1, 1, .s16, .rw, true, 37, .lim (-100) 100, .accept, false, false⟩,
  ⟨0x5002, 1, 2, 1, .u8, .ro, false, 0, .any, .none, false, false⟩,
  ⟨0x5003, 1, 0, 1, .var, .act, false, 0, .any, .accept, false, false⟩,
  ⟨0x5004, 1, 0, 1, .var, .act, false, 0, .any, .accept, false, false⟩,
  ⟨0x5010, 1, 0, 1, .u8, .ro, false, 5, .any, .none, false, false⟩,
  ⟨0x5010, 1, 1, 1, .u8, .rw, true, 2, .lim 0 2, .accept, false, false⟩,
  ⟨0x5010, 1, 2, 1, .u8, .rw, true, 1, .lim 0 2, .accept, false, false⟩,
  ⟨0x5010, 1, 3, 1, .u8, .rw, true, 0, .lim 0 127, .accept, false, false⟩,
  ⟨0x5010, 1, 4, 1, .u8, .rw, true, 1, .lim 0 1, .accept, false, false⟩,
  ⟨0x5010, 1, 5, 1, .s32, .rw, true, 0, .lim (-1000000) 1000000, .accept, false, false⟩,
  ⟨0x5011, 1, 0, 1, .u8, .ro, false, 5, .any, .none, false, false⟩,
  ⟨0x5011, 1, 1, 2, .u64, .ro, false, 0, .any, .none, false, false⟩]

def rows50p1 : List ObjRow := [
  ⟨0x5011, 1, 3, 1, .u16, .ro, false, 0, .any, .none, false, false⟩,
  ⟨0x5011, 1, 4, 1, .u8, .ro, false, 255, .any, .none, false, false⟩,
  ⟨0x5011, 1, 5, 1, .u32, .ro, false, 0, .any, .none, false, false⟩,
  ⟨0x5012, 1, 0, 1, .u8, .ro, false, 4, .any, .none, false, false⟩,
  ⟨0x5012, 1, 1, 4, .u32, .ro, false, 0, .any, .none, false, false⟩,
  ⟨0x5020, 1, 0, 1, .u8, .ro, false, 5, .any, .none, false, false⟩,
  ⟨0x5020, 1, 1, 1, .u8, .rw, true, 1, .lim 0 2, .accept, false, false⟩,
  ⟨0x5020, 1, 2, 1, .u32, .rw, true, 100000, .lim 1 500000, .accept, false, false⟩,
  ⟨0x5020, 1, 3, 2, .s32, .rw, true, 0, .lim (-1000000) 1000000, .accept, false, false⟩,
  ⟨0x5020, 1, 5, 1, .s32, .ro, false, 0, .any, .none, false, false⟩,
  ⟨0x5028, 4, 0, 1, .u8, .ro, false, 7, .any, .none, false, false⟩,
  ⟨0x5028, 4, 1, 1, .u8, .rw, false, 0, .lim 0 2, .accept, false, false⟩,
  ⟨0x5028, 4, 2, 1, .t64, .rw, false, 0, .any, .accept, false, false⟩,
  ⟨0x5028, 4, 3, 1, .t32, .wo, false, 0, .any, .accept, false, false⟩,
  ⟨0x5028, 4, 4, 1, .u64, .rw, false, 1000000000, .lim 1000 86400000000000, .accept, false, false⟩,
  ⟨0x5028, 4, 5, 1, .u32, .rw, false, 1000, .any, .accept, false, false⟩,
  ⟨0x5028, 4, 6, 1, .u32, .rw, false, 0, .any, .accept, false, false⟩,
  ⟨0x5028, 4, 7, 1, .u8, .rw, false, 0, .lim 0 1, .accept, false, false⟩,
  ⟨0x5040, 1, 0, 1, .u8, .ro, false, 3, .any, .none, false, false⟩,
  ⟨0x5040, 1, 1, 1, .u16, .rw, true, 10, .lim 1 10000, .accept, false, false⟩,
  ⟨0x5040, 1, 2, 1, .u8, .rw, true, 1, .lim 0 1, .accept, false, false⟩,
  ⟨0x5040, 1, 3, 1, .u8, .ro, false, 0, .any, .none, false, false⟩,
  ⟨0x5041, 1, 0, 1, .var, .act, false, 0, .any, .accept, false, false⟩,
  ⟨0x5080, 64, 0, 1, .u8, .ro, false, 5, .any, .none, false, false⟩]

def rows50p2 : List ObjRow := [
  ⟨0x5080, 64, 1, 1, .u8, .ro, false, 0, .any, .none, false, false⟩,
  ⟨0x5080, 64, 2, 1, .t64, .ro, false, 0, .any, .none, false, false⟩,
  ⟨0x5080, 64, 3, 1, .u16, .ro, false, 0, .any, .none, false, false⟩,
  ⟨0x5080, 64, 4, 2, .u8, .ro, false, 0, .any, .none, false, false⟩]

def rows50 : List ObjRow := rows50p0 ++ rows50p1 ++ rows50p2

def rows51p0 : List ObjRow := [
  ⟨0x5100, 1, 0, 1, .u8, .ro, false, 3, .any, .none, false, false⟩,
  ⟨0x5100, 1, 1, 1, .u32, .rw, true, 4294967295, .orLim 4294967295 0 262143, .special, false, false⟩,
  ⟨0x5100, 1, 2, 1, .u16, .rw, true, 0, .any, .accept, false, false⟩,
  ⟨0x5100, 1, 3, 1, .u16, .rw, true, 0, .lim 0 60000, .accept, false, false⟩,
  ⟨0x5180, 1, 0, 1, .u8, .ro, false, 9, .any, .none, false, false⟩,
  ⟨0x5180, 1, 1, 1, .u64, .ro, false, 0, .any, .none, false, false⟩,
  ⟨0x5180, 1, 2, 1, .u8, .rw, true, 1, .lim 0 1, .special, false, false⟩,
  ⟨0x5180, 1, 3, 3, .u32, .rw, true, 0, .any, .special, false, false⟩,
  ⟨0x5180, 1, 6, 1, .u16, .rw, true, 0, .lim 0 4094, .special, false, false⟩,
  ⟨0x5180, 1, 7, 1, .u8, .rw, true, 4, .lim 0 7, .special, false, false⟩,
  ⟨0x5180, 1, 8, 1, .u16, .rw, true, 4820, .lim 1024 65535, .special, false, false⟩,
  ⟨0x5180, 1, 9, 1, .u16, .rw, true, 60, .lim 5 3600, .accept, false, false⟩,
  ⟨0x5181, 2, 0, 1, .u8, .ro, false, 2, .any, .none, false, false⟩,
  ⟨0x5181, 2, 1, 1, .u8, .rw, true, 0, .lim 0 3, .accept, false, false⟩,
  ⟨0x5181, 2, 2, 1, .u8, .ro, false, 0, .any, .none, false, false⟩,
  ⟨0x51A0, 1, 0, 1, .u8, .ro, false, 7, .any, .none, false, false⟩,
  ⟨0x51A0, 1, 1, 2, .u8, .rw, true, 0, .lim 0 1, .accept, false, false⟩,
  ⟨0x51A0, 1, 3, 1, .u8, .rw, true, 0, .lim 0 2, .accept, false, false⟩,
  ⟨0x51A0, 1, 4, 1, .u32, .rw, true, 19200, .lim 9600 115200, .accept, false, false⟩,
  ⟨0x51A0, 1, 5, 1, .u8, .rw, true, 1, .lim 0 2, .accept, false, false⟩,
  ⟨0x51A0, 1, 6, 1, .u8, .rw, true, 1, .lim 1 247, .accept, false, false⟩,
  ⟨0x51A0, 1, 7, 1, .u8, .ro, false, 0, .any, .none, false, false⟩,
  ⟨0x51B0, 1, 0, 1, .u8, .ro, false, 4, .any, .none, false, false⟩,
  ⟨0x51B0, 1, 1, 1, .u8, .rw, true, 0, .lim 0 1, .accept, false, false⟩]

def rows51p1 : List ObjRow := [
  ⟨0x51B0, 1, 2, 1, .u16, .rw, true, 10, .lim 0 65519, .accept, false, false⟩,
  ⟨0x51B0, 1, 3, 1, .u16, .rw, true, 1, .lim 0 65519, .accept, false, false⟩,
  ⟨0x51B0, 1, 4, 1, .u8, .rw, true, 0, .lim 0 1, .accept, false, false⟩]

def rows51 : List ObjRow := rows51p0 ++ rows51p1

def rows52 : List ObjRow := [
  ⟨0x5200, 256, 0, 1, .u8, .ro, false, 4, .any, .none, false, false⟩,
  ⟨0x5200, 256, 1, 2, .u16, .rw, true, 0, .any, .accept, false, false⟩,
  ⟨0x5200, 256, 3, 2, .u8, .rw, true, 0, .any, .accept, false, false⟩]

def rows53 : List ObjRow := [
  ⟨0x5300, 256, 0, 1, .u8, .ro, false, 5, .any, .none, false, false⟩,
  ⟨0x5300, 256, 1, 1, .u8, .rw, true, 0, .lim 0 5, .accept, false, false⟩,
  ⟨0x5300, 256, 2, 2, .u16, .rw, true, 0, .any, .accept, false, false⟩,
  ⟨0x5300, 256, 4, 1, .u8, .rw, true, 0, .any, .accept, false, false⟩,
  ⟨0x5300, 256, 5, 1, .f32, .rw, true, 0, .any, .accept, false, false⟩]

def rows54p0 : List ObjRow := [
  ⟨0x5400, 32, 0, 1, .u8, .ro, false, 7, .any, .none, false, false⟩,
  ⟨0x5400, 32, 1, 1, .u8, .rw, true, 0, .lim 0 2, .tick, false, false⟩,
  ⟨0x5400, 32, 2, 1, .u8, .rw, true, 0, .lim 0 1, .tick, false, false⟩,
  ⟨0x5400, 32, 3, 1, .u8, .rw, true, 4, .lim 1 255, .tick, false, false⟩,
  ⟨0x5400, 32, 4, 1, .u32, .rw, true, 0, .orLim 0 1 86400, .tick, false, false⟩,
  ⟨0x5400, 32, 5, 1, .u8, .rw, true, 0, .lim 0 2, .tick, false, false⟩,
  ⟨0x5400, 32, 6, 1, .u16, .rw, true, 100, .lim 1 1000, .tick, false, false⟩,
  ⟨0x5400, 32, 7, 1, .u8, .rw, true, 0, .lim 0 1, .tick, false, false⟩,
  ⟨0x5440, 4, 0, 1, .u8, .ro, false, 2, .any, .none, false, false⟩,
  ⟨0x5440, 4, 1, 1, .u16, .rw, true, 250, .step 50 2000 50, .tick, false, false⟩,
  ⟨0x5440, 4, 2, 1, .u8, .rw, true, 0, .lim 0 1, .tick, false, false⟩,
  ⟨0x5460, 1, 0, 1, .u8, .ro, false, 2, .any, .none, false, false⟩,
  ⟨0x5460, 1, 1, 1, .u16, .rw, true, 1000, .lim 100 60000, .tick, false, false⟩,
  ⟨0x5460, 1, 2, 1, .u16, .rw, true, 20, .lim 1 10000, .tick, false, false⟩,
  ⟨0x5480, 1, 0, 1, .u8, .ro, false, 3, .any, .none, false, false⟩,
  ⟨0x5480, 1, 1, 1, .u32, .rw, false, 0, .any, .tick, false, false⟩,
  ⟨0x5480, 1, 2, 2, .u32, .wo, false, 0, .any, .tick, false, false⟩,
  ⟨0x5490, 1, 0, 1, .u8, .ro, false, 4, .any, .none, false, false⟩,
  ⟨0x5490, 1, 1, 4, .u32, .ro, false, 0, .any, .none, false, false⟩,
  ⟨0x54A0, 32, 0, 1, .u8, .ro, false, 4, .any, .none, false, false⟩,
  ⟨0x54A0, 32, 1, 1, .u8, .ro, false, 0, .any, .none, false, false⟩,
  ⟨0x54A0, 32, 2, 1, .u16, .ro, false, 0, .any, .none, false, false⟩,
  ⟨0x54A0, 32, 3, 1, .u8, .ro, false, 0, .any, .none, false, false⟩,
  ⟨0x54A0, 32, 4, 1, .u16, .ro, false, 0, .any, .none, false, false⟩]

def rows54p1 : List ObjRow := [
  ⟨0x54E0, 4, 0, 1, .u8, .ro, false, 3, .any, .none, false, false⟩,
  ⟨0x54E0, 4, 1, 1, .u8, .ro, false, 0, .any, .none, false, false⟩,
  ⟨0x54E0, 4, 2, 2, .u16, .ro, false, 0, .any, .none, false, false⟩]

def rows54 : List ObjRow := rows54p0 ++ rows54p1

def rows58p0 : List ObjRow := [
  ⟨0x5800, 8, 0, 1, .u8, .ro, false, 6, .any, .none, false, false⟩,
  ⟨0x5800, 8, 1, 1, .u8, .rw, true, 0, .lim 0 1, .tick, false, false⟩,
  ⟨0x5800, 8, 2, 1, .f32, .rw, true, 1176256512, .lim 1148846080 1203982336, .tick, false, false⟩,
  ⟨0x5800, 8, 3, 1, .f32, .rw, true, 1163309056, .lim 1157234688 1167867904, .tick, false, false⟩,
  ⟨0x5800, 8, 4, 1, .u8, .rw, true, 0, .any, .tick, false, false⟩,
  ⟨0x5800, 8, 5, 1, .s16, .rw, true, 0, .orLim 0 4000 15000, .tick, false, false⟩,
  ⟨0x5800, 8, 6, 1, .s16, .rw, true, 0, .orLim 0 4000 16000, .tick, false, false⟩,
  ⟨0x5810, 16, 0, 1, .u8, .ro, false, 3, .any, .none, false, false⟩,
  ⟨0x5810, 16, 1, 1, .s16, .ro, false, 0, .any, .none, false, false⟩,
  ⟨0x5810, 16, 2, 1, .u8, .ro, false, 0, .any, .none, false, false⟩,
  ⟨0x5810, 16, 3, 1, .s16, .ro, false, 0, .any, .none, false, false⟩,
  ⟨0x5830, 1, 0, 1, .u8, .ro, false, 5, .any, .none, false, false⟩,
  ⟨0x5830, 1, 1, 1, .s16, .ro, false, 11000, .any, .none, false, false⟩,
  ⟨0x5830, 1, 2, 1, .s16, .ro, false, 11800, .any, .none, false, false⟩,
  ⟨0x5830, 1, 3, 1, .s16, .ro, false, 12500, .any, .none, false, false⟩,
  ⟨0x5830, 1, 4, 1, .u16, .rw, true, 30, .lim 5 300, .tick, false, false⟩,
  ⟨0x5830, 1, 5, 1, .q29, .rw, true, 107374182, .lim 0 536870912, .tick, false, false⟩,
  ⟨0x5831, 1, 0, 1, .u8, .ro, false, 7, .any, .none, false, false⟩,
  ⟨0x5831, 1, 1, 3, .u8, .ro, false, 0, .any, .none, false, false⟩,
  ⟨0x5831, 1, 4, 1, .q29, .ro, false, 536870912, .any, .none, false, false⟩,
  ⟨0x5831, 1, 5, 1, .u16, .ro, false, 0, .any, .none, false, false⟩,
  ⟨0x5831, 1, 6, 1, .s16, .ro, false, 0, .any, .none, false, false⟩,
  ⟨0x5831, 1, 7, 1, .u8, .ro, false, 0, .any, .none, false, false⟩,
  ⟨0x5838, 1, 0, 1, .var, .act, false, 0, .any, .accept, false, false⟩]

def rows58p1 : List ObjRow := [
  ⟨0x5840, 1, 0, 1, .u8, .ro, false, 10, .any, .none, false, false⟩,
  ⟨0x5840, 1, 1, 1, .u8, .rw, true, 2, .lim 0 2, .tick, false, false⟩,
  ⟨0x5840, 1, 2, 1, .u8, .rwr, true, 0, .lim 0 1, .atRest, false, false⟩,
  ⟨0x5840, 1, 3, 1, .u8, .rw, true, 4, .lim 1 32, .tick, false, false⟩,
  ⟨0x5840, 1, 4, 1, .u32, .rw, true, 25000, .lim 20000 50000, .tick, false, false⟩,
  ⟨0x5840, 1, 5, 1, .u16, .rw, true, 200, .lim 100 1000, .tick, false, false⟩,
  ⟨0x5840, 1, 6, 1, .u16, .rw, true, 400, .lim 300 2000, .tick, false, false⟩,
  ⟨0x5840, 1, 7, 1, .u16, .rw, true, 12000, .lim 2000 16000, .tick, false, false⟩,
  ⟨0x5840, 1, 8, 1, .u16, .rw, true, 500, .lim 100 5000, .tick, false, false⟩,
  ⟨0x5840, 1, 9, 1, .u16, .rw, true, 2000, .lim 100 60000, .tick, false, false⟩,
  ⟨0x5840, 1, 10, 1, .u8, .rw, true, 3, .lim 0 10, .tick, false, false⟩,
  ⟨0x5841, 1, 0, 1, .u8, .ro, false, 4, .any, .none, false, false⟩,
  ⟨0x5841, 1, 1, 1, .u16, .rw, false, 0, .lim 0 10000, .tick, false, false⟩,
  ⟨0x5841, 1, 2, 1, .u16, .rw, false, 0, .lim 0 20000, .tick, false, false⟩,
  ⟨0x5841, 1, 3, 1, .f32, .rw, true, 990057071, .lim 0 1065353216, .tick, false, false⟩,
  ⟨0x5841, 1, 4, 1, .f32, .rw, true, 1008981770, .lim 0 1092616192, .tick, false, false⟩,
  ⟨0x5842, 1, 0, 1, .u8, .ro, false, 9, .any, .none, false, false⟩,
  ⟨0x5842, 1, 1, 1, .u16, .rw, true, 32512, .any, .tick, false, false⟩,
  ⟨0x5842, 1, 2, 1, .s16, .rw, true, 4000, .any, .tick, false, false⟩,
  ⟨0x5842, 1, 3, 1, .s16, .rw, true, 6000, .any, .tick, false, false⟩,
  ⟨0x5842, 1, 4, 1, .s16, .rw, true, 8000, .any, .tick, false, false⟩,
  ⟨0x5842, 1, 5, 1, .s16, .rw, true, 10000, .any, .tick, false, false⟩,
  ⟨0x5842, 1, 6, 1, .u16, .rw, true, 1000, .lim 0 20000, .tick, false, false⟩,
  ⟨0x5842, 1, 7, 1, .u16, .rw, true, 2500, .lim 0 20000, .tick, false, false⟩]

def rows58p2 : List ObjRow := [
  ⟨0x5842, 1, 8, 1, .u16, .rw, true, 4000, .lim 0 20000, .tick, false, false⟩,
  ⟨0x5842, 1, 9, 1, .u16, .rw, true, 6000, .lim 0 20000, .tick, false, false⟩,
  ⟨0x5850, 1, 0, 1, .u8, .ro, false, 7, .any, .none, false, false⟩,
  ⟨0x5850, 1, 1, 1, .u8, .ro, false, 0, .any, .none, false, false⟩,
  ⟨0x5850, 1, 2, 4, .u16, .ro, false, 0, .any, .none, false, false⟩,
  ⟨0x5850, 1, 6, 2, .u8, .ro, false, 0, .any, .none, false, false⟩,
  ⟨0x5858, 1, 0, 1, .var, .act, false, 0, .any, .accept, false, false⟩]

def rows58 : List ObjRow := rows58p0 ++ rows58p1 ++ rows58p2

def rows5C : List ObjRow := [
  ⟨0x5C00, 1, 0, 1, .u8, .ro, false, 3, .any, .none, false, false⟩,
  ⟨0x5C00, 1, 1, 1, .u8, .rwr, true, 1, .lim 0 2, .atRest, false, false⟩,
  ⟨0x5C00, 1, 2, 1, .u8, .rw, true, 1, .lim 0 1, .tick, false, false⟩,
  ⟨0x5C00, 1, 3, 1, .u32, .rw, true, 1, .lim 1 8388607, .tick, false, false⟩,
  ⟨0x5C08, 2, 0, 1, .u8, .ro, false, 5, .any, .none, false, false⟩,
  ⟨0x5C08, 2, 1, 2, .u8, .ro, false, 0, .any, .none, false, false⟩,
  ⟨0x5C08, 2, 3, 1, .s32, .ro, false, 0, .any, .none, false, false⟩,
  ⟨0x5C08, 2, 4, 1, .u32, .ro, false, 0, .any, .none, false, false⟩,
  ⟨0x5C08, 2, 5, 1, .s32, .ro, false, 0, .any, .none, false, false⟩,
  ⟨0x5C10, 1, 0, 1, .u8, .ro, false, 6, .any, .none, false, false⟩,
  ⟨0x5C10, 1, 1, 1, .u8, .rwr, true, 0, .lim 0 2, .atRest, false, false⟩,
  ⟨0x5C10, 1, 2, 1, .u16, .rwr, true, 0, .any, .atRest, false, false⟩,
  ⟨0x5C10, 1, 3, 1, .u8, .rwr, true, 0, .lim 0 2, .atRest, false, false⟩,
  ⟨0x5C10, 1, 4, 1, .u16, .rwr, true, 0, .any, .atRest, false, false⟩,
  ⟨0x5C10, 1, 5, 1, .u8, .rwr, true, 0, .lim 0 2, .atRest, false, false⟩,
  ⟨0x5C10, 1, 6, 1, .u16, .rwr, true, 0, .any, .atRest, false, false⟩]

def rows5D : List ObjRow := [
  ⟨0x5D00, 32, 0, 1, .u8, .ro, false, 1, .any, .none, false, false⟩,
  ⟨0x5D00, 19, 1, 1, .u8, .ro, false, 0, .any, .none, false, false⟩,
  ⟨0x5D13, 13, 1, 1, .u8, .rw, true, 1, .lim 0 3, .tick, false, false⟩,
  ⟨0x5D40, 32, 0, 1, .u8, .ro, false, 4, .any, .none, false, false⟩,
  ⟨0x5D40, 32, 1, 2, .f32, .ro, false, 0, .any, .none, false, false⟩,
  ⟨0x5D40, 32, 3, 1, .u8, .ro, false, 0, .any, .none, false, false⟩,
  ⟨0x5D40, 32, 4, 1, .t64, .ro, false, 0, .any, .none, false, false⟩,
  ⟨0x5D80, 2, 0, 1, .u8, .ro, false, 4, .any, .none, false, false⟩,
  ⟨0x5D80, 2, 1, 2, .u8, .ro, false, 0, .any, .none, false, false⟩,
  ⟨0x5D80, 2, 3, 1, .s32, .ro, false, 0, .any, .none, false, false⟩,
  ⟨0x5D80, 2, 4, 1, .u32, .ro, false, 0, .any, .none, false, false⟩,
  ⟨0x5DC0, 1, 0, 1, .var, .act, false, 0, .any, .accept, false, false⟩]

def rows60p0 : List ObjRow := [
  ⟨0x6000, 1, 0, 1, .u8, .ro, false, 9, .any, .none, false, false⟩,
  ⟨0x6000, 1, 1, 1, .u8, .rw, true, 0, .lim 0 1, .tick, false, false⟩,
  ⟨0x6000, 1, 2, 1, .u16, .rw, true, 24, .lim 1 720, .tick, false, false⟩,
  ⟨0x6000, 1, 3, 1, .u16, .rw, true, 100, .lim 10 2000, .tick, false, false⟩,
  ⟨0x6000, 1, 4, 1, .q29, .rw, true, 375809638, .lim 268435456 536870912, .tick, false, false⟩,
  ⟨0x6000, 1, 5, 1, .f32, .rw, true, 1064514355, .lim 1060320051 1065353216, .tick, false, false⟩,
  ⟨0x6000, 1, 6, 1, .f32, .rw, true, 1069547520, .lim 1065353216 1082130432, .tick, false, false⟩,
  ⟨0x6000, 1, 7, 1, .f32, .rw, true, 1101004800, .lim 0 1112014848, .tick, false, false⟩,
  ⟨0x6000, 1, 8, 1, .f32, .rw, true, 1092616192, .lim 0 1101004800, .tick, false, false⟩,
  ⟨0x6000, 1, 9, 1, .f32, .rw, true, 1067869798, .lim 1065772646 1077936128, .tick, false, false⟩,
  ⟨0x6001, 1, 0, 1, .u8, .ro, false, 4, .any, .none, false, false⟩,
  ⟨0x6001, 1, 1, 1, .u32, .ro, true, 0, .any, .none, false, false⟩,
  ⟨0x6001, 1, 2, 1, .u8, .ro, false, 0, .any, .none, false, false⟩,
  ⟨0x6001, 1, 3, 1, .t64, .ro, true, 0, .any, .none, false, false⟩,
  ⟨0x6001, 1, 4, 1, .u8, .ro, false, 0, .any, .none, false, false⟩,
  ⟨0x6002, 1, 0, 1, .var, .act, false, 0, .any, .accept, false, false⟩,
  ⟨0x6003, 1, 0, 1, .var, .src, false, 0, .any, .accept, false, false⟩,
  ⟨0x6004, 1, 0, 1, .var, .act, false, 0, .any, .tick, false, false⟩,
  ⟨0x6010, 24, 0, 1, .u8, .ro, false, 6, .any, .none, false, false⟩,
  ⟨0x6010, 24, 1, 2, .f32, .rw, true, 0, .any, .tick, false, false⟩,
  ⟨0x6010, 24, 3, 2, .f32, .ro, false, 0, .any, .none, false, false⟩,
  ⟨0x6010, 24, 5, 1, .q29, .ro, false, 536870912, .any, .none, false, false⟩,
  ⟨0x6010, 24, 6, 1, .u8, .ro, false, 0, .any, .none, false, false⟩,
  ⟨0x6040, 32, 0, 1, .u8, .ro, false, 6, .any, .none, false, false⟩]

def rows60p1 : List ObjRow := [
  ⟨0x6040, 32, 1, 2, .s32, .ro, false, 0, .any, .none, false, false⟩,
  ⟨0x6040, 32, 3, 2, .u32, .ro, true, 1000000, .any, .none, false, false⟩,
  ⟨0x6040, 32, 5, 2, .u32, .ro, true, 0, .any, .none, false, false⟩,
  ⟨0x6060, 8, 0, 1, .u8, .ro, false, 6, .any, .none, false, false⟩,
  ⟨0x6060, 8, 1, 1, .u8, .rw, true, 255, .orLim 255 0 7, .tick, false, false⟩,
  ⟨0x6060, 8, 2, 2, .f32, .rw, true, 0, .any, .tick, false, false⟩,
  ⟨0x6060, 8, 4, 1, .f32, .ro, false, 0, .any, .none, false, false⟩,
  ⟨0x6060, 8, 5, 1, .f32, .ro, false, 1065353216, .any, .none, false, false⟩,
  ⟨0x6060, 8, 6, 1, .s16, .ro, true, 0, .any, .none, false, false⟩,
  ⟨0x6080, 2, 0, 1, .u8, .ro, false, 3, .any, .none, false, false⟩,
  ⟨0x6080, 2, 1, 1, .s32, .ro, false, 0, .any, .none, false, false⟩,
  ⟨0x6080, 2, 2, 1, .u8, .ro, false, 0, .any, .none, false, false⟩,
  ⟨0x6080, 2, 3, 1, .u32, .ro, false, 0, .any, .none, false, false⟩,
  ⟨0x6088, 1, 0, 1, .u8, .ro, false, 7, .any, .none, false, false⟩,
  ⟨0x6088, 1, 1, 1, .s32, .ro, false, 0, .any, .none, false, false⟩,
  ⟨0x6088, 1, 2, 5, .u32, .ro, true, 0, .any, .none, false, false⟩,
  ⟨0x6088, 1, 7, 1, .f32, .ro, false, 1065353216, .any, .none, false, false⟩]

def rows60 : List ObjRow := rows60p0 ++ rows60p1

def rows64p0 : List ObjRow := [
  ⟨0x6400, 1, 0, 1, .u8, .ro, false, 3, .any, .none, false, false⟩,
  ⟨0x6400, 1, 1, 1, .u8, .ro, false, 0, .any, .none, false, false⟩,
  ⟨0x6400, 1, 2, 1, .u8, .rw, true, 0, .lim 0 1, .powerCycle, false, false⟩,
  ⟨0x6400, 1, 3, 1, .u8, .ro, false, 0, .any, .none, false, false⟩,
  ⟨0x6401, 1, 0, 1, .var, .src, false, 0, .any, .accept, false, false⟩,
  ⟨0x6402, 1, 0, 1, .var, .src, false, 0, .any, .accept, false, false⟩,
  ⟨0x6403, 1, 0, 1, .var, .act, false, 0, .any, .accept, false, false⟩,
  ⟨0x6404, 1, 0, 1, .u8, .ro, false, 4, .any, .none, false, false⟩,
  ⟨0x6404, 1, 1, 4, .var, .act, false, 0, .any, .accept, false, false⟩,
  ⟨0x6405, 1, 0, 1, .var, .act, false, 0, .any, .accept, false, false⟩,
  ⟨0x6410, 16, 0, 1, .u8, .ro, false, 1, .any, .none, false, false⟩,
  ⟨0x6410, 16, 1, 1, .u8, .ro, false, 0, .any, .none, false, false⟩,
  ⟨0x6420, 1, 0, 1, .var, .act, false, 0, .any, .accept, false, false⟩,
  ⟨0x6421, 1, 0, 1, .var, .act, false, 0, .any, .accept, false, false⟩,
  ⟨0x6440, 1, 0, 1, .u8, .ro, false, 1, .any, .none, false, false⟩,
  ⟨0x6440, 1, 1, 1, .u8, .rw, true, 2, .lim 1 2, .accept, false, false⟩,
  ⟨0x6450, 1, 0, 1, .var, .wo, false, 0, .any, .accept, false, false⟩,
  ⟨0x6451, 1, 0, 1, .var, .act, false, 0, .any, .accept, false, false⟩,
  ⟨0x6452, 1, 0, 1, .var, .act, false, 0, .any, .accept, false, false⟩,
  ⟨0x6453, 1, 0, 1, .var, .act, false, 0, .any, .accept, false, false⟩,
  ⟨0x6454, 1, 0, 1, .var, .act, false, 0, .any, .accept, false, false⟩,
  ⟨0x6455, 1, 0, 1, .u8, .ro, false, 1, .any, .none, false, false⟩,
  ⟨0x6455, 1, 1, 1, .u32, .rw, true, 86400, .lim 600 2592000, .accept, false, false⟩,
  ⟨0x6460, 16, 0, 1, .u8, .ro, false, 1, .any, .none, false, false⟩]

def rows64p1 : List ObjRow := [
  ⟨0x6472, 46, 0, 1, .u8, .ro, false, 1, .any, .none, false, false⟩,
  ⟨0x6460, 64, 1, 1, .u16, .ro, false, 0, .any, .none, false, false⟩,
  ⟨0x6470, 1, 0, 1, .var, .act, false, 0, .any, .accept, false, false⟩,
  ⟨0x6471, 1, 0, 1, .var, .act, false, 0, .any, .accept, false, false⟩]

def rows64 : List ObjRow := rows64p0 ++ rows64p1

def rows70p0 : List ObjRow := [
  ⟨0x7000, 1, 0, 1, .u8, .ro, false, 5, .any, .none, false, false⟩,
  ⟨0x7000, 1, 1, 1, .u8, .rw, false, 0, .lim 0 1, .accept, false, false⟩,
  ⟨0x7000, 1, 2, 1, .u8, .rw, false, 4, .lim 1 32, .accept, false, false⟩,
  ⟨0x7000, 1, 3, 1, .u16, .rw, false, 1, .lim 1 65535, .accept, false, false⟩,
  ⟨0x7000, 1, 4, 1, .u32, .rw, false, 100000, .any, .accept, false, false⟩,
  ⟨0x7000, 1, 5, 1, .u32, .rw, false, 10000, .any, .accept, false, false⟩,
  ⟨0x7001, 1, 0, 1, .u8, .ro, false, 32, .any, .none, false, false⟩,
  ⟨0x7001, 1, 1, 32, .u16, .rw, false, 0, .any, .accept, false, false⟩,
  ⟨0x7002, 1, 0, 1, .u8, .ro, false, 7, .any, .none, false, false⟩,
  ⟨0x7002, 1, 1, 1, .u8, .rw, false, 0, .any, .accept, false, false⟩,
  ⟨0x7002, 1, 2, 1, .u16, .rw, false, 0, .any, .accept, false, false⟩,
  ⟨0x7002, 1, 3, 1, .q29, .rw, false, 0, .any, .accept, false, false⟩,
  ⟨0x7002, 1, 4, 1, .q29, .rw, false, 0, .lim 0 2147483648, .accept, false, false⟩,
  ⟨0x7002, 1, 5, 1, .q29, .rw, false, 0, .any, .accept, false, false⟩,
  ⟨0x7002, 1, 6, 1, .u8, .rw, false, 0, .lim 0 127, .accept, false, false⟩,
  ⟨0x7002, 1, 7, 1, .t64, .rw, false, 0, .any, .accept, false, false⟩,
  ⟨0x7003, 1, 0, 1, .u8, .ro, false, 7, .any, .none, false, false⟩,
  ⟨0x7003, 1, 1, 1, .u8, .ro, false, 0, .any, .none, false, false⟩,
  ⟨0x7003, 1, 2, 2, .u32, .ro, false, 0, .any, .none, false, false⟩,
  ⟨0x7003, 1, 4, 1, .t64, .ro, false, 0, .any, .none, false, false⟩,
  ⟨0x7003, 1, 5, 1, .u32, .ro, false, 0, .any, .none, false, false⟩,
  ⟨0x7003, 1, 6, 1, .u16, .ro, false, 28, .any, .none, false, false⟩,
  ⟨0x7003, 1, 7, 1, .u32, .ro, false, 1797558, .any, .none, false, false⟩,
  ⟨0x7004, 1, 0, 1, .var, .act, false, 0, .any, .accept, false, false⟩]

def rows70p1 : List ObjRow := [
  ⟨0x7005, 1, 0, 1, .var, .act, false, 0, .any, .accept, false, false⟩,
  ⟨0x7006, 1, 0, 1, .var, .act, false, 0, .any, .tick, false, false⟩,
  ⟨0x7008, 1, 0, 1, .var, .src, false, 0, .any, .accept, false, false⟩]

def rows70 : List ObjRow := rows70p0 ++ rows70p1

/-- The rows whose objects lie in the 256 indices of high byte `hi`. -/
def rowsAt (hi : Nat) : List ObjRow :=
  match hi with
  | 0x10 => rows10
  | 0x11 => rows11
  | 0x12 => rows12
  | 0x20 => rows20
  | 0x21 => rows21
  | 0x24 => rows24
  | 0x25 => rows25
  | 0x26 => rows26
  | 0x27 => rows27
  | 0x30 => rows30
  | 0x34 => rows34
  | 0x35 => rows35
  | 0x37 => rows37
  | 0x40 => rows40
  | 0x44 => rows44
  | 0x46 => rows46
  | 0x48 => rows48
  | 0x4A => rows4A
  | 0x50 => rows50
  | 0x51 => rows51
  | 0x52 => rows52
  | 0x53 => rows53
  | 0x54 => rows54
  | 0x58 => rows58
  | 0x5C => rows5C
  | 0x5D => rows5D
  | 0x60 => rows60
  | 0x64 => rows64
  | 0x70 => rows70
  | _ => []

/-- Whether a row holds entry `sub` of object `idx`. -/
def ObjRow.holds (r : ObjRow) (idx sub : Nat) : Bool :=
  r.base ≤ idx && idx < r.base + r.n && r.sub ≤ sub && sub < r.sub + r.m

/-- The row of entry `sub` of object `idx`. DEDUCED, log entry 28. -/
def rowOf (idx sub : Nat) : Option ObjRow :=
  (rowsAt (idx / 256)).find? (fun r => r.holds idx sub)

/-- The row of a key. -/
def rowOfKey (k : Nat) : Option ObjRow := rowOf (k / 256) (k % 256)

/-- The raw default of a key; 0 where no table names the entry. DESIGN CHOICE, log entry 3. -/
def dfltOf (k : Nat) : Nat :=
  match rowOfKey k with
  | some r => r.dflt
  | none   => 0

/-- Bytes of an entry of a type (R5); the largest data field for a variable one (R40). -/
def ObjTy.size : ObjTy → Nat
  | .u8 => 1 | .u16 => 2 | .s16 => 2 | .u32 => 4 | .s32 => 4 | .q29 => 4 | .ang32 => 4 | .fmhz => 4
  | .t32 => 4 | .f32 => 4 | .u64 => 8 | .t64 => 8 | .b32 => 32 | .var => 974

/-- The types read in two's complement (R5). -/
def ObjTy.isSigned : ObjTy → Bool
  | .s16 => true | .s32 => true | .q29 => true | .fmhz => true | _ => false

end Sys2Proof.Machine

/-! The symbolic names of the tables as keys; `u` is the unit number and `i` the number in a run. -/
namespace Sys2Proof.Machine.Ob

def productCode : Nat := 0x100001
def hwStep : Nat := 0x100002
def serialNumber : Nat := 0x100003
def fwVersion : Nat := 0x100004
def bootImage : Nat := 0x100005
def moduleState : Nat := 0x100100
def activeLane : Nat := 0x100201
def redundant : Nat := 0x100202
def takeoverCount : Nat := 0x100203
def certifiedMode : Nat := 0x100300
def sRated (u : Nat) : Nat := 0x102001 + 0x100 * u
def vRatedLl (u : Nat) : Nat := 0x102002 + 0x100 * u
def fRated (u : Nat) : Nat := 0x102003 + 0x100 * u
def pRated (u : Nat) : Nat := 0x102801 + 0x100 * u
def vDcBase (u : Nat) : Nat := 0x102802 + 0x100 * u
def mbxGen (i : Nat) : Nat := 0x110001 + i
def framesOk : Nat := 0x110101
def crcFail : Nat := 0x110102
def seqError : Nat := 0x110103
def authFail : Nat := 0x110104
def preempted : Nat := 0x110105
def doorbellLost : Nat := 0x110106
def eventMask (i : Nat) : Nat := 0x111001 + i
def evqFill : Nat := 0x111201
def evqLost : Nat := 0x111202
def groupTimeout : Nat := 0x112000
def updateMode : Nat := 0x120001
def sampleEdge : Nat := 0x120002
def tickPeriod : Nat := 0x120003
def contextLimit : Nat := 0x120004
def acSections : Nat := 0x120005
def dcChannelMask : Nat := 0x120006
def windowCycles : Nat := 0x120101
def ceilingCycles : Nat := 0x120102
def eng0Worst : Nat := 0x120103
def eng1Worst : Nat := 0x120104
def eng0Last : Nat := 0x120105
def eng1Last : Nat := 0x120106
def eng0Peak : Nat := 0x120107
def eng1Peak : Nat := 0x120108
def overrunTotal : Nat := 0x120201
def overrunInWindow : Nat := 0x120202
def lastOverrun : Nat := 0x120203
def standbyOverrunTotal : Nat := 0x120204
def tickCount : Nat := 0x120301
def lastT0 : Nat := 0x120302
def writesDeferred : Nat := 0x120401
def supervisorLoad : Nat := 0x120402
def tickStatsClear : Nat := 0x120500
def role (u : Nat) : Nat := 0x200001 + 0x100 * u
def ownerMask (u : Nat) : Nat := 0x200002 + 0x100 * u
def phase (u : Nat) : Nat := 0x200003 + 0x100 * u
def mclkSrc (u : Nat) : Nat := 0x200004 + 0x100 * u
def osr (u : Nat) : Nat := 0x200005 + 0x100 * u
def fsPhys (u : Nat) : Nat := 0x200006 + 0x100 * u
def redundantWith (u : Nat) : Nat := 0x200007 + 0x100 * u
def calOffset (u : Nat) : Nat := 0x202001 + 0x100 * u
def calGain (u : Nat) : Nat := 0x202002 + 0x100 * u
def tempco (u : Nat) : Nat := 0x202003 + 0x100 * u
def tempSrc (u : Nat) : Nat := 0x202004 + 0x100 * u
def tempRef (u : Nat) : Nat := 0x202005 + 0x100 * u
def offsetTrack (u : Nat) : Nat := 0x202006 + 0x100 * u
def trackEn (u : Nat) : Nat := 0x202007 + 0x100 * u
def calTime (u : Nat) : Nat := 0x202008 + 0x100 * u
def focTrip (u : Nat) : Nat := 0x204001 + 0x100 * u
def focAlert (u : Nat) : Nat := 0x204002 + 0x100 * u
def focQual (u : Nat) : Nat := 0x204003 + 0x100 * u
def focEn (u : Nat) : Nat := 0x204004 + 0x100 * u
def sample (u : Nat) : Nat := 0x206001 + 0x100 * u
def chState (u : Nat) : Nat := 0x206002 + 0x100 * u
def meterMean (u : Nat) : Nat := 0x206003 + 0x100 * u
def meterRms (u : Nat) : Nat := 0x206004 + 0x100 * u
def rawD (u : Nat) : Nat := 0x206005 + 0x100 * u
def mclkFreq (i : Nat) : Nat := 0x208001 + i
def captureDelay (i : Nat) : Nat := 0x208005 + i
def meterBlock : Nat := 0x208009
def mclkState (i : Nat) : Nat := 0x208101 + i
def sumCheckEn (u : Nat) : Nat := 0x209001 + 0x100 * u
def sumLimit (u : Nat) : Nat := 0x209002 + 0x100 * u
def sumTime (u : Nat) : Nat := 0x209003 + 0x100 * u
def pairLimit (u : Nat) : Nat := 0x209004 + 0x100 * u
def pairTime (u : Nat) : Nat := 0x209005 + 0x100 * u
def dclLimit (u : Nat) : Nat := 0x209006 + 0x100 * u
def gridFreq (u : Nat) : Nat := 0x20A001 + 0x100 * u
def gridPhase (u : Nat) : Nat := 0x20A002 + 0x100 * u
def gridPhasorAngle (u : Nat) : Nat := 0x20A003 + 0x100 * u
def vPos (u : Nat) : Nat := 0x20A004 + 0x100 * u
def vNeg (u : Nat) : Nat := 0x20A005 + 0x100 * u
def angleValid (u : Nat) : Nat := 0x20A006 + 0x100 * u
def acP (u : Nat) : Nat := 0x20B001 + 0x100 * u
def acQ (u : Nat) : Nat := 0x20B002 + 0x100 * u
def vRms (u : Nat) : Nat := 0x20B003 + 0x100 * u
def iRms (u : Nat) : Nat := 0x20B004 + 0x100 * u
def acEnergyOut (u : Nat) : Nat := 0x20B005 + 0x100 * u
def acEnergyIn (u : Nat) : Nat := 0x20B006 + 0x100 * u
def blockEnd (u : Nat) : Nat := 0x20B007 + 0x100 * u
def pDc (u : Nat) : Nat := 0x20B401 + 0x100 * u
def dcEnergyOut (u : Nat) : Nat := 0x20B402 + 0x100 * u
def dcEnergyIn (u : Nat) : Nat := 0x20B403 + 0x100 * u
def calRun : Nat := 0x210000
def calState : Nat := 0x210101
def dZero : Nat := 0x210102
def dSpan : Nat := 0x210103
def calSpread : Nat := 0x210104
def newOffset : Nat := 0x210105
def newGain : Nat := 0x210106
def refDisagreeA : Nat := 0x211001
def refDisagreeB : Nat := 0x211002
def ctxKp (u : Nat) : Nat := 0x240001 + 0x100 * u
def ctxKi (u : Nat) : Nat := 0x240002 + 0x100 * u
def ctxKd (u : Nat) : Nat := 0x240003 + 0x100 * u
def ctxTf (u : Nat) : Nat := 0x240004 + 0x100 * u
def ctxKb (u : Nat) : Nat := 0x240005 + 0x100 * u
def dOn (u : Nat) : Nat := 0x240006 + 0x100 * u
def outMin (u : Nat) : Nat := 0x240007 + 0x100 * u
def outMax (u : Nat) : Nat := 0x240008 + 0x100 * u
def outRate (u : Nat) : Nat := 0x240009 + 0x100 * u
def spRate (u : Nat) : Nat := 0x24000A + 0x100 * u
def spJerk (u : Nat) : Nat := 0x24000B + 0x100 * u
def notchPos (u : Nat) : Nat := 0x24000C + 0x100 * u
def notchF0 (u : Nat) : Nat := 0x24000D + 0x100 * u
def notchDepth (u : Nat) : Nat := 0x24000E + 0x100 * u
def notchWidth (u : Nat) : Nat := 0x24000F + 0x100 * u
def notchTrack (u : Nat) : Nat := 0x240010 + 0x100 * u
def notchHarm (u : Nat) : Nat := 0x240011 + 0x100 * u
def ctxKind (u : Nat) : Nat := 0x250001 + 0x100 * u
def ctxEnable (u : Nat) : Nat := 0x250002 + 0x100 * u
def ctxEngine (u : Nat) : Nat := 0x250003 + 0x100 * u
def ctxOrder (u : Nat) : Nat := 0x250004 + 0x100 * u
def refSrc (u : Nat) : Nat := 0x250005 + 0x100 * u
def fbSrc (u : Nat) : Nat := 0x250006 + 0x100 * u
def ffSrc (u : Nat) : Nat := 0x250007 + 0x100 * u
def refShaped (u : Nat) : Nat := 0x260001 + 0x100 * u
def spSlope (u : Nat) : Nat := 0x260002 + 0x100 * u
def ctxError (u : Nat) : Nat := 0x260003 + 0x100 * u
def integrator (u : Nat) : Nat := 0x260004 + 0x100 * u
def ctxDerivative (u : Nat) : Nat := 0x260005 + 0x100 * u
def ctxOutput (u : Nat) : Nat := 0x260006 + 0x100 * u
def ctxBank (u : Nat) : Nat := 0x260007 + 0x100 * u
def ctxFlags (u : Nat) : Nat := 0x260008 + 0x100 * u
def setpoint (i : Nat) : Nat := 0x270001 + i
def ctxReset : Nat := 0x270100
def injType : Nat := 0x271001
def injCtx : Nat := 0x271002
def injPoint : Nat := 0x271003
def injAmpl : Nat := 0x271004
def fStart : Nat := 0x271005
def fStop : Nat := 0x271006
def injPoints : Nat := 0x271007
def injSettle : Nat := 0x271008
def injMeas : Nat := 0x271009
def captureA : Nat := 0x27100A
def captureB : Nat := 0x27100B
def prbsOrder : Nat := 0x27100C
def bitTicks : Nat := 0x27100D
def injPeriods : Nat := 0x27100E
def injRun : Nat := 0x271100
def injState : Nat := 0x271201
def injPointNow : Nat := 0x271202
def sweepFreq (u : Nat) : Nat := 0x278001 + 0x100 * u
def sweepGain (u : Nat) : Nat := 0x278002 + 0x100 * u
def sweepPhase (u : Nat) : Nat := 0x278003 + 0x100 * u
def aAmpl (u : Nat) : Nat := 0x278004 + 0x100 * u
def sweepValid (u : Nat) : Nat := 0x278005 + 0x100 * u
def opMode (u : Nat) : Nat := 0x300001 + 0x100 * u
def startKind (u : Nat) : Nat := 0x300002 + 0x100 * u
def regPoint (u : Nat) : Nat := 0x300003 + 0x100 * u
def islandAction (u : Nat) : Nat := 0x300004 + 0x100 * u
def linkReg (u : Nat) : Nat := 0x300005 + 0x100 * u
def holdForm (u : Nat) : Nat := 0x300006 + 0x100 * u
def gfCommand (u : Nat) : Nat := 0x300400 + 0x100 * u
def gfH (u : Nat) : Nat := 0x301001 + 0x100 * u
def damp (u : Nat) : Nat := 0x301002 + 0x100 * u
def dampTc (u : Nat) : Nat := 0x301003 + 0x100 * u
def pfDroop (u : Nat) : Nat := 0x301004 + 0x100 * u
def qvDroop (u : Nat) : Nat := 0x301005 + 0x100 * u
def qFiltTc (u : Nat) : Nat := 0x301006 + 0x100 * u
def pSet (u : Nat) : Nat := 0x301401 + 0x100 * u
def qSet (u : Nat) : Nat := 0x301402 + 0x100 * u
def fSet (u : Nat) : Nat := 0x301403 + 0x100 * u
def vSet (u : Nat) : Nat := 0x301404 + 0x100 * u
def pRamp (u : Nat) : Nat := 0x301405 + 0x100 * u
def qRamp (u : Nat) : Nat := 0x301406 + 0x100 * u
def vLinkSet (u : Nat) : Nat := 0x301407 + 0x100 * u
def rvPos (u : Nat) : Nat := 0x302001 + 0x100 * u
def xvPos (u : Nat) : Nat := 0x302002 + 0x100 * u
def rvNeg (u : Nat) : Nat := 0x302003 + 0x100 * u
def xvNeg (u : Nat) : Nat := 0x302004 + 0x100 * u
def filterL (u : Nat) : Nat := 0x302005 + 0x100 * u
def filterC (u : Nat) : Nat := 0x302006 + 0x100 * u
def bsRampTime (u : Nat) : Nat := 0x303001 + 0x100 * u
def deadLevel (u : Nat) : Nat := 0x303002 + 0x100 * u
def deadConfirm (u : Nat) : Nat := 0x303003 + 0x100 * u
def bsSlot (u : Nat) : Nat := 0x303004 + 0x100 * u
def bsSlots (u : Nat) : Nat := 0x303005 + 0x100 * u
def bsJitter (u : Nat) : Nat := 0x303006 + 0x100 * u
def inrushLimit (u : Nat) : Nat := 0x303007 + 0x100 * u
def inrushRv (u : Nat) : Nat := 0x303008 + 0x100 * u
def bsJoinDelay (u : Nat) : Nat := 0x303009 + 0x100 * u
def closeTimeout (u : Nat) : Nat := 0x30300A + 0x100 * u
def syncDf (u : Nat) : Nat := 0x304001 + 0x100 * u
def syncDphi (u : Nat) : Nat := 0x304002 + 0x100 * u
def syncDv (u : Nat) : Nat := 0x304003 + 0x100 * u
def syncHold (u : Nat) : Nat := 0x304004 + 0x100 * u
def syncTimeout (u : Nat) : Nat := 0x304005 + 0x100 * u
def reconnectDelay (u : Nat) : Nat := 0x304006 + 0x100 * u
def reconnectRamp (u : Nat) : Nat := 0x304007 + 0x100 * u
def idEn (u : Nat) : Nat := 0x305001 + 0x100 * u
def idAmpl (u : Nat) : Nat := 0x305002 + 0x100 * u
def idAvg (u : Nat) : Nat := 0x305003 + 0x100 * u
def adaptEn (u : Nat) : Nat := 0x305004 + 0x100 * u
def scrWeak (u : Nat) : Nat := 0x305005 + 0x100 * u
def scrStiff (u : Nat) : Nat := 0x305006 + 0x100 * u
def adaptMax (u : Nat) : Nat := 0x305007 + 0x100 * u
def gflMinScr (u : Nat) : Nat := 0x305008 + 0x100 * u
def idOrder (u : Nat) : Nat := 0x305009 + 0x100 * u
def idRG (u : Nat) : Nat := 0x305401 + 0x100 * u
def idXG (u : Nat) : Nat := 0x305402 + 0x100 * u
def scr (u : Nat) : Nat := 0x305403 + 0x100 * u
def idValid (u : Nat) : Nat := 0x305404 + 0x100 * u
def idTime (u : Nat) : Nat := 0x305405 + 0x100 * u
def coherence (u : Nat) : Nat := 0x305406 + 0x100 * u
def idRun (u : Nat) : Nat := 0x305800 + 0x100 * u
def gfState (u : Nat) : Nat := 0x306001 + 0x100 * u
def bsOutcome (u : Nat) : Nat := 0x306002 + 0x100 * u
def backoffMs (u : Nat) : Nat := 0x306003 + 0x100 * u
def syncFlags (u : Nat) : Nat := 0x306004 + 0x100 * u
def deltaPhi (u : Nat) : Nat := 0x306005 + 0x100 * u
def xvPosEff (u : Nat) : Nat := 0x306006 + 0x100 * u
def dampEff (u : Nat) : Nat := 0x306007 + 0x100 * u
def delayLeft (u : Nat) : Nat := 0x306008 + 0x100 * u
def pRef (u : Nat) : Nat := 0x306009 + 0x100 * u
def syncMethod (u : Nat) : Nat := 0x340001 + 0x100 * u
def pllKp (u : Nat) : Nat := 0x340002 + 0x100 * u
def pllKi (u : Nat) : Nat := 0x340003 + 0x100 * u
def pllLimit (u : Nat) : Nat := 0x340004 + 0x100 * u
def sogiK (u : Nat) : Nat := 0x340005 + 0x100 * u
def gflPfEn (u : Nat) : Nat := 0x340006 + 0x100 * u
def fwDb (u : Nat) : Nat := 0x340007 + 0x100 * u
def gflQvEn (u : Nat) : Nat := 0x340008 + 0x100 * u
def vvDb (u : Nat) : Nat := 0x340009 + 0x100 * u
def weakAction (u : Nat) : Nat := 0x34000A + 0x100 * u
def islPassiveMask (u : Nat) : Nat := 0x341001 + 0x100 * u
def islFLow (u : Nat) : Nat := 0x341002 + 0x100 * u
def islFHigh (u : Nat) : Nat := 0x341003 + 0x100 * u
def islVLow (u : Nat) : Nat := 0x341004 + 0x100 * u
def islVHigh (u : Nat) : Nat := 0x341005 + 0x100 * u
def islWinTime (u : Nat) : Nat := 0x341006 + 0x100 * u
def rocofLimit (u : Nat) : Nat := 0x341007 + 0x100 * u
def rocofWindow (u : Nat) : Nat := 0x341008 + 0x100 * u
def rocofTime (u : Nat) : Nat := 0x341009 + 0x100 * u
def vsLimit (u : Nat) : Nat := 0x34100A + 0x100 * u
def islActiveEn (u : Nat) : Nat := 0x34100B + 0x100 * u
def islZRatio (u : Nat) : Nat := 0x34100C + 0x100 * u
def islZRefTime (u : Nat) : Nat := 0x34100D + 0x100 * u
def islState (u : Nat) : Nat := 0x341801 + 0x100 * u
def islCause (u : Nat) : Nat := 0x341802 + 0x100 * u
def islTime (u : Nat) : Nat := 0x341803 + 0x100 * u
def rocof (u : Nat) : Nat := 0x341804 + 0x100 * u
def zRatio (u : Nat) : Nat := 0x341805 + 0x100 * u
def dcMode (u : Nat) : Nat := 0x350001 + 0x100 * u
def batCtrl (u : Nat) : Nat := 0x350002 + 0x100 * u
def dcCommand (u : Nat) : Nat := 0x350400 + 0x100 * u
def iSet (u : Nat) : Nat := 0x351001 + 0x100 * u
def iRamp (u : Nat) : Nat := 0x351002 + 0x100 * u
def dcLinkSet (u : Nat) : Nat := 0x351003 + 0x100 * u
def linkGuardHigh (u : Nat) : Nat := 0x351004 + 0x100 * u
def linkGuardLow (u : Nat) : Nat := 0x351005 + 0x100 * u
def iOutMax (u : Nat) : Nat := 0x351401 + 0x100 * u
def iInMax (u : Nat) : Nat := 0x351402 + 0x100 * u
def vChgMax (u : Nat) : Nat := 0x351403 + 0x100 * u
def vDisMin (u : Nat) : Nat := 0x351404 + 0x100 * u
def limitTimeout (u : Nat) : Nat := 0x351405 + 0x100 * u
def mpptMethod (u : Nat) : Nat := 0x352001 + 0x100 * u
def mpptPeriod (u : Nat) : Nat := 0x352002 + 0x100 * u
def stepMin (u : Nat) : Nat := 0x352003 + 0x100 * u
def stepMax (u : Nat) : Nat := 0x352004 + 0x100 * u
def stepGain (u : Nat) : Nat := 0x352005 + 0x100 * u
def pDeadband (u : Nat) : Nat := 0x352006 + 0x100 * u
def incTol (u : Nat) : Nat := 0x352007 + 0x100 * u
def vMppMin (u : Nat) : Nat := 0x352008 + 0x100 * u
def vMppMax (u : Nat) : Nat := 0x352009 + 0x100 * u
def pvPLimit (u : Nat) : Nat := 0x35200A + 0x100 * u
def pvVStart (u : Nat) : Nat := 0x35200B + 0x100 * u
def pvStartDelay (u : Nat) : Nat := 0x35200C + 0x100 * u
def scanPeriod (u : Nat) : Nat := 0x352801 + 0x100 * u
def scanVHigh (u : Nat) : Nat := 0x352802 + 0x100 * u
def scanVLow (u : Nat) : Nat := 0x352803 + 0x100 * u
def scanPoints (u : Nat) : Nat := 0x352804 + 0x100 * u
def scanDwell (u : Nat) : Nat := 0x352805 + 0x100 * u
def scanMinGain (u : Nat) : Nat := 0x352806 + 0x100 * u
def scanRun (u : Nat) : Nat := 0x352C00 + 0x100 * u
def dcState (u : Nat) : Nat := 0x353001 + 0x100 * u
def vMppRef (u : Nat) : Nat := 0x353002 + 0x100 * u
def pSrc (u : Nat) : Nat := 0x353003 + 0x100 * u
def iStar (u : Nat) : Nat := 0x353004 + 0x100 * u
def limitFlags (u : Nat) : Nat := 0x353005 + 0x100 * u
def scanResult (u : Nat) : Nat := 0x353006 + 0x100 * u
def scanVBest (u : Nat) : Nat := 0x353007 + 0x100 * u
def scanPBest (u : Nat) : Nat := 0x353008 + 0x100 * u
def scanTime (u : Nat) : Nat := 0x353009 + 0x100 * u
def normVLow (u : Nat) : Nat := 0x370001 + 0x100 * u
def normVHigh (u : Nat) : Nat := 0x370002 + 0x100 * u
def normFLow (u : Nat) : Nat := 0x370003 + 0x100 * u
def normFHigh (u : Nat) : Nat := 0x370004 + 0x100 * u
def recovHyst (u : Nat) : Nat := 0x370005 + 0x100 * u
def recovTime (u : Nat) : Nat := 0x370006 + 0x100 * u
def rtPriority (u : Nat) : Nat := 0x370007 + 0x100 * u
def kPos (u : Nat) : Nat := 0x370008 + 0x100 * u
def kDb (u : Nat) : Nat := 0x370009 + 0x100 * u
def kNeg (u : Nat) : Nat := 0x37000A + 0x100 * u
def negAngle (u : Nat) : Nat := 0x37000B + 0x100 * u
def mcLevel (u : Nat) : Nat := 0x37000C + 0x100 * u
def rtPRecovery (u : Nat) : Nat := 0x37000D + 0x100 * u
def rtEvtN (u : Nat) : Nat := 0x37000E + 0x100 * u
def rtEvtW (u : Nat) : Nat := 0x37000F + 0x100 * u
def lvCount (u : Nat) : Nat := 0x371001 + 0x100 * u
def lvShape (u : Nat) : Nat := 0x371002 + 0x100 * u
def lvT (u i : Nat) : Nat := 0x371003 + 0x100 * u + i
def lvV (u i : Nat) : Nat := 0x371013 + 0x100 * u + i
def hvCount (u : Nat) : Nat := 0x371401 + 0x100 * u
def hvShape (u : Nat) : Nat := 0x371402 + 0x100 * u
def hvT (u i : Nat) : Nat := 0x371403 + 0x100 * u + i
def hvV (u i : Nat) : Nat := 0x371413 + 0x100 * u + i
def uf1F (u : Nat) : Nat := 0x371801 + 0x100 * u
def uf1T (u : Nat) : Nat := 0x371802 + 0x100 * u
def uf2F (u : Nat) : Nat := 0x371803 + 0x100 * u
def uf2T (u : Nat) : Nat := 0x371804 + 0x100 * u
def of1F (u : Nat) : Nat := 0x371805 + 0x100 * u
def of1T (u : Nat) : Nat := 0x371806 + 0x100 * u
def of2F (u : Nat) : Nat := 0x371807 + 0x100 * u
def of2T (u : Nat) : Nat := 0x371808 + 0x100 * u
def iMax (u : Nat) : Nat := 0x372001 + 0x100 * u
def viStart (u : Nat) : Nat := 0x372002 + 0x100 * u
def viGain (u : Nat) : Nat := 0x372003 + 0x100 * u
def viXr (u : Nat) : Nat := 0x372004 + 0x100 * u
def viDecay (u : Nat) : Nat := 0x372005 + 0x100 * u
def releaseTime (u : Nat) : Nat := 0x372006 + 0x100 * u
def losAngle (u : Nat) : Nat := 0x372401 + 0x100 * u
def losTime (u : Nat) : Nat := 0x372402 + 0x100 * u
def losBlank (u : Nat) : Nat := 0x372403 + 0x100 * u
def losN (u : Nat) : Nat := 0x372404 + 0x100 * u
def losW (u : Nat) : Nat := 0x372405 + 0x100 * u
def pjLevel (u : Nat) : Nat := 0x372406 + 0x100 * u
def rtState (u : Nat) : Nat := 0x374001 + 0x100 * u
def rtCause (u : Nat) : Nat := 0x374002 + 0x100 * u
def rtEntryTime (u : Nat) : Nat := 0x374003 + 0x100 * u
def vPre (u : Nat) : Nat := 0x374004 + 0x100 * u
def vPhLow (u : Nat) : Nat := 0x374005 + 0x100 * u
def vPhHigh (u : Nat) : Nat := 0x374006 + 0x100 * u
def boundary (u : Nat) : Nat := 0x374007 + 0x100 * u
def rtEvtInWindow (u : Nat) : Nat := 0x374008 + 0x100 * u
def limitActive (u : Nat) : Nat := 0x374009 + 0x100 * u
def viAdd (u : Nat) : Nat := 0x37400A + 0x100 * u
def clampCount (u : Nat) : Nat := 0x37400B + 0x100 * u
def losInWindow (u : Nat) : Nat := 0x37400C + 0x100 * u
def profileActive : Nat := 0x378001
def profileVersion : Nat := 0x378002
def profileFRated : Nat := 0x378003
def carrierCycles : Nat := 0x400001
def configClass : Nat := 0x400002
def pairsUsed : Nat := 0x400003
def grpLayout (u : Nat) : Nat := 0x401001 + 0x100 * u
def firstPair (u : Nat) : Nat := 0x401002 + 0x100 * u
def grpRatio (u : Nat) : Nat := 0x401003 + 0x100 * u
def grpSource (u : Nat) : Nat := 0x401004 + 0x100 * u
def minPulse (u : Nat) : Nat := 0x401005 + 0x100 * u
def minPulseMode (u : Nat) : Nat := 0x401006 + 0x100 * u
def safePattern (u : Nat) : Nat := 0x401007 + 0x100 * u
def safeDt (u : Nat) : Nat := 0x401008 + 0x100 * u
def zseqMode (u : Nat) : Nat := 0x401009 + 0x100 * u
def dtcEn (u : Nat) : Nat := 0x40100A + 0x100 * u
def dtOnA (u : Nat) : Nat := 0x404001 + 0x100 * u
def dtOnB (u : Nat) : Nat := 0x404002 + 0x100 * u
def dtMin (u : Nat) : Nat := 0x404003 + 0x100 * u
def trimEn (u : Nat) : Nat := 0x404004 + 0x100 * u
def trimTarget (u : Nat) : Nat := 0x404005 + 0x100 * u
def trimAvg (u : Nat) : Nat := 0x404006 + 0x100 * u
def dtOnAEff (u : Nat) : Nat := 0x404007 + 0x100 * u
def dtOnBEff (u : Nat) : Nat := 0x404008 + 0x100 * u
def toffA (u : Nat) : Nat := 0x406001 + 0x100 * u
def toffB (u : Nat) : Nat := 0x406002 + 0x100 * u
def gapA (u : Nat) : Nat := 0x406003 + 0x100 * u
def gapB (u : Nat) : Nat := 0x406004 + 0x100 * u
def comfbState (u : Nat) : Nat := 0x406005 + 0x100 * u
def cmp (u i : Nat) : Nat := 0x408001 + 0x100 * u + i
def forceEn (u : Nat) : Nat := 0x409001 + 0x100 * u
def forceA (u : Nat) : Nat := 0x409002 + 0x100 * u
def forceB (u : Nat) : Nat := 0x409003 + 0x100 * u
def fltTarget (u : Nat) : Nat := 0x40A001 + 0x100 * u
def fltFilter (u : Nat) : Nat := 0x40A002 + 0x100 * u
def outState (u : Nat) : Nat := 0x40C001 + 0x100 * u
def tripSources (u : Nat) : Nat := 0x40C002 + 0x100 * u
def tripActive (u : Nat) : Nat := 0x40C003 + 0x100 * u
def minPulseCount (u : Nat) : Nat := 0x40C004 + 0x100 * u
def beyondCount (u : Nat) : Nat := 0x40C005 + 0x100 * u
def fltLevel : Nat := 0x40E001
def pwmTripClear : Nat := 0x40F000
def pwmDirect : Nat := 0x40F100
def faultN (u : Nat) : Nat := 0x440101 + 0x100 * u
def faultW (u : Nat) : Nat := 0x440102 + 0x100 * u
def recoveryDelay (u : Nat) : Nat := 0x440103 + 0x100 * u
def retryTimeout (u : Nat) : Nat := 0x440104 + 0x100 * u
def retryStart (u : Nat) : Nat := 0x440105 + 0x100 * u
def unitFaultState (u : Nat) : Nat := 0x441001 + 0x100 * u
def unitInWindow (u : Nat) : Nat := 0x441002 + 0x100 * u
def unitFaultTotal (u : Nat) : Nat := 0x441003 + 0x100 * u
def unitRecoveryLeft (u : Nat) : Nat := 0x441004 + 0x100 * u
def unitLastRecord (u : Nat) : Nat := 0x441005 + 0x100 * u
def unitRetiredTime (u : Nat) : Nat := 0x441006 + 0x100 * u
def fltPair (u : Nat) : Nat := 0x442001 + 0x100 * u
def fltMaskTime (u : Nat) : Nat := 0x442002 + 0x100 * u
def dclOvLevel (u : Nat) : Nat := 0x445001 + 0x100 * u
def dclUvLevel (u : Nat) : Nat := 0x445002 + 0x100 * u
def dclWarnHigh (u : Nat) : Nat := 0x445003 + 0x100 * u
def dclTime (u : Nat) : Nat := 0x445004 + 0x100 * u
def dclUvEn (u : Nat) : Nat := 0x445005 + 0x100 * u
def holdState : Nat := 0x44A001
def holdSince : Nat := 0x44A002
def holdMax : Nat := 0x44A003
def acAvailable : Nat := 0x44A004
def dcAvailable : Nat := 0x44A005
def recordCount : Nat := 0x44A006
def safeStopCause : Nat := 0x44A007
def retirement : Nat := 0x44B000
def faultLogRead : Nat := 0x44B100
def lastFault : Nat := 0x44B200
def dramCorrected (u : Nat) : Nat := 0x460001 + 0x100 * u
def dramUncorrected (u : Nat) : Nat := 0x460002 + 0x100 * u
def dramCorrHour (u : Nat) : Nat := 0x460003 + 0x100 * u
def flashCorrected (u : Nat) : Nat := 0x460004 + 0x100 * u
def flashUncorrected (u : Nat) : Nat := 0x460005 + 0x100 * u
def parityErrors (u : Nat) : Nat := 0x460006 + 0x100 * u
def scrubPasses (u : Nat) : Nat := 0x460007 + 0x100 * u
def lastErrorAddr (u : Nat) : Nat := 0x460008 + 0x100 * u
def dramCorrLimit : Nat := 0x460801
def floeCrcFail (u : Nat) : Nat := 0x461001 + 0x100 * u
def floeSeqError (u : Nat) : Nat := 0x461002 + 0x100 * u
def floeLostTicks (u : Nat) : Nat := 0x461003 + 0x100 * u
def floeResends (u : Nat) : Nat := 0x461004 + 0x100 * u
def rimeCrcFail (u : Nat) : Nat := 0x461005 + 0x100 * u
def rimeMissingMax (u : Nat) : Nat := 0x461006 + 0x100 * u
def cirqueMacFail (u : Nat) : Nat := 0x461007 + 0x100 * u
def safetyLinkCrcFail (u : Nat) : Nat := 0x461008 + 0x100 * u
def eth0FcsErr : Nat := 0x462001
def eth1FcsErr : Nat := 0x462002
def tlsAuthFail : Nat := 0x462003
def rtuCrcFail : Nat := 0x462004
def dnp3CrcFail : Nat := 0x462005
def commCoreRestarts : Nat := 0x462006
def integrityClear : Nat := 0x463000
def fullTestPeriod : Nat := 0x480001
def resyncMax : Nat := 0x480002
def mcUnexplainedN : Nat := 0x480003
def mcUnexplainedW : Nat := 0x480004
def laneSwitchover : Nat := 0x480100
def laneResync : Nat := 0x480200
def roleNow (u : Nat) : Nat := 0x481001 + 0x100 * u
def health (u : Nat) : Nat := 0x481002 + 0x100 * u
def unhealthyCause (u : Nat) : Nat := 0x481003 + 0x100 * u
def lastFullTest (u : Nat) : Nat := 0x481004 + 0x100 * u
def fullTestResult (u : Nat) : Nat := 0x481005 + 0x100 * u
def mcMismatches (u : Nat) : Nat := 0x481006 + 0x100 * u
def carrierAlign (u : Nat) : Nat := 0x481007 + 0x100 * u
def resync24h (u : Nat) : Nat := 0x481008 + 0x100 * u
def testFailSlice (u : Nat) : Nat := 0x481009 + 0x100 * u
def lastTakeover : Nat := 0x482001
def lastCause : Nat := 0x482002
def lastLatency : Nat := 0x482003
def narrowTakeovers : Nat := 0x482004
def splitClaims : Nat := 0x482005
def sdcState : Nat := 0x4A0001
def sdrLevel : Nat := 0x4A0002
def fbLevel : Nat := 0x4A0003
def latchedFault : Nat := 0x4A0004
def safeCause : Nat := 0x4A0005
def operateMax : Nat := 0x4A0101
def releaseMax : Nat := 0x4A0102
def testInterval : Nat := 0x4A0201
def lastTest : Nat := 0x4A0202
def lastResult : Nat := 0x4A0203
def testDue : Nat := 0x4A0204
def k1Operations : Nat := 0x4A0205
def k2Operations : Nat := 0x4A0206
def discTime : Nat := 0x4A0301
def discCount : Nat := 0x4A0302
def discLast : Nat := 0x4A0303
def sealA : Nat := 0x4A1001
def sealB : Nat := 0x4A1002
def sealPending : Nat := 0x4A1003
def sealState : Nat := 0x4A1004
def resetHeldS : Nat := 0x4A1801
def sdcFaultClear : Nat := 0x4A2000
def timeState : Nat := 0x500001
def taiNow : Nat := 0x500002
def timeOffset : Nat := 0x500003
def timeTrim : Nat := 0x500004
def stepAllowed : Nat := 0x500005
def lastStep : Nat := 0x500006
def holdoverTime : Nat := 0x500007
def timeSource : Nat := 0x500101
def holdoverLimit : Nat := 0x500102
def offsetAlarm : Nat := 0x500103
def utcOffset : Nat := 0x500201
def leapPending : Nat := 0x500202
def timeSet : Nat := 0x500300
def timeReacquire : Nat := 0x500400
def ptpProfile : Nat := 0x501001
def ptpRole : Nat := 0x501002
def ptpDomain : Nat := 0x501003
def ptpTransport : Nat := 0x501004
def asymmetry : Nat := 0x501005
def parentId : Nat := 0x501101
def gmId : Nat := 0x501102
def stepsRemoved : Nat := 0x501103
def slavePort : Nat := 0x501104
def pathDelay : Nat := 0x501105
def portLatency (i : Nat) : Nat := 0x501201 + i
def ppsOutMode : Nat := 0x502001
def ppsOutWidth : Nat := 0x502002
def ppsOutDelay : Nat := 0x502003
def ppsInDelay : Nat := 0x502004
def ppsInOffset : Nat := 0x502005
def trigMode (u : Nat) : Nat := 0x502801 + 0x100 * u
def trigStart (u : Nat) : Nat := 0x502802 + 0x100 * u
def trigStart32 (u : Nat) : Nat := 0x502803 + 0x100 * u
def trigPeriod (u : Nat) : Nat := 0x502804 + 0x100 * u
def trigWidth (u : Nat) : Nat := 0x502805 + 0x100 * u
def trigCount (u : Nat) : Nat := 0x502806 + 0x100 * u
def trigPol (u : Nat) : Nat := 0x502807 + 0x100 * u
def schedMinLead : Nat := 0x504001
def schedRequireLock : Nat := 0x504002
def schedUsed : Nat := 0x504003
def schedCancel : Nat := 0x504100
def entryState (u : Nat) : Nat := 0x508001 + 0x100 * u
def applyTime (u : Nat) : Nat := 0x508002 + 0x100 * u
def entrySeq (u : Nat) : Nat := 0x508003 + 0x100 * u
def entrySource (u : Nat) : Nat := 0x508004 + 0x100 * u
def entryWrites (u : Nat) : Nat := 0x508005 + 0x100 * u
def fleetIndex : Nat := 0x510001
def fleetDomain : Nat := 0x510002
def reportSpread : Nat := 0x510003
def macAddr : Nat := 0x518001
def ipMode : Nat := 0x518002
def ipAddr : Nat := 0x518003
def netmask : Nat := 0x518004
def gateway : Nat := 0x518005
def vlanId : Nat := 0x518006
def vlanPrio : Nat := 0x518007
def ghp3Port : Nat := 0x518008
def sessionIdle : Nat := 0x518009
def portMode (u : Nat) : Nat := 0x518101 + 0x100 * u
def portLink (u : Nat) : Nat := 0x518102 + 0x100 * u
def mbTcpEn : Nat := 0x51A001
def mbWriteEn : Nat := 0x51A002
def rs485Protocol : Nat := 0x51A003
def rs485Baud : Nat := 0x51A004
def rs485Parity : Nat := 0x51A005
def rtuAddress : Nat := 0x51A006
def mbLastStatus : Nat := 0x51A007
def dnpEn : Nat := 0x51B001
def dnpAddr : Nat := 0x51B002
def dnpMaster : Nat := 0x51B003
def dnpUnsolEn : Nat := 0x51B004
def mbReg (u : Nat) : Nat := 0x520001 + 0x100 * u
def mbObj (u : Nat) : Nat := 0x520002 + 0x100 * u
def mbSub (u : Nat) : Nat := 0x520003 + 0x100 * u
def mbFlags (u : Nat) : Nat := 0x520004 + 0x100 * u
def dnpType (u : Nat) : Nat := 0x530001 + 0x100 * u
def dnpIndex (u : Nat) : Nat := 0x530002 + 0x100 * u
def dnpObj (u : Nat) : Nat := 0x530003 + 0x100 * u
def dnpSub (u : Nat) : Nat := 0x530004 + 0x100 * u
def dnpDeadband (u : Nat) : Nat := 0x530005 + 0x100 * u
def fioMode (u : Nat) : Nat := 0x540001 + 0x100 * u
def inType (u : Nat) : Nat := 0x540002 + 0x100 * u
def filterN (u : Nat) : Nat := 0x540003 + 0x100 * u
def maxActive (u : Nat) : Nat := 0x540004 + 0x100 * u
def safeValue (u : Nat) : Nat := 0x540005 + 0x100 * u
def limitTime (u : Nat) : Nat := 0x540006 + 0x100 * u
def openLoadEn (u : Nat) : Nat := 0x540007 + 0x100 * u
def samplePeriod (u : Nat) : Nat := 0x544001 + 0x100 * u
def autoRestore (u : Nat) : Nat := 0x544002 + 0x100 * u
def chatterWindow : Nat := 0x546001
def chatterLimit : Nat := 0x546002
def fieldOut : Nat := 0x548001
def fieldOutSet : Nat := 0x548002
def fieldOutClear : Nat := 0x548003
def fieldIn : Nat := 0x549001
def fieldInValid : Nat := 0x549002
def fieldInRaw : Nat := 0x549003
def fieldOutState : Nat := 0x549004
def readback (u : Nat) : Nat := 0x54A001 + 0x100 * u
def outCurrent (u : Nat) : Nat := 0x54A002 + 0x100 * u
def filterCount (u : Nat) : Nat := 0x54A003 + 0x100 * u
def chatterCount (u : Nat) : Nat := 0x54A004 + 0x100 * u
def groupState (u : Nat) : Nat := 0x54E001 + 0x100 * u
def fsupVoltage (u : Nat) : Nat := 0x54E002 + 0x100 * u
def groupCurrent (u : Nat) : Nat := 0x54E003 + 0x100 * u
def ntcEn (u : Nat) : Nat := 0x580001 + 0x100 * u
def ntcR25 (u : Nat) : Nat := 0x580002 + 0x100 * u
def ntcBeta (u : Nat) : Nat := 0x580003 + 0x100 * u
def ntcNeighbours (u : Nat) : Nat := 0x580004 + 0x100 * u
def ntcDerate (u : Nat) : Nat := 0x580005 + 0x100 * u
def ntcStop (u : Nat) : Nat := 0x580006 + 0x100 * u
def thermTemp (u : Nat) : Nat := 0x581001 + 0x100 * u
def sensorState (u : Nat) : Nat := 0x581002 + 0x100 * u
def medianDev (u : Nat) : Nat := 0x581003 + 0x100 * u
def throttleLevel : Nat := 0x583001
def derateLevel : Nat := 0x583002
def stopLevel : Nat := 0x583003
def graceTime : Nat := 0x583004
def derateFloor : Nat := 0x583005
def thermalState : Nat := 0x583101
def throttleStep : Nat := 0x583102
def derateRequest : Nat := 0x583103
def derateCeiling : Nat := 0x583104
def graceLeft : Nat := 0x583105
def dieTemp : Nat := 0x583106
def hottest : Nat := 0x583107
def sensorRestore : Nat := 0x583800
def cdMode : Nat := 0x584001
def cdDir : Nat := 0x584002
def cdPolePairs : Nat := 0x584003
def cdPwmFreq : Nat := 0x584004
def cdDt : Nat := 0x584005
def cdRefresh : Nat := 0x584006
def cdIlimit : Nat := 0x584007
def cdStallTime : Nat := 0x584008
def cdRetryDelay : Nat := 0x584009
def cdRetryMax : Nat := 0x58400A
def cdDuty : Nat := 0x584101
def cdSpeedSet : Nat := 0x584102
def cdKp : Nat := 0x584103
def cdKi : Nat := 0x584104
def cdCurveSrc : Nat := 0x584201
def cdT (i : Nat) : Nat := 0x584202 + i
def cdS (i : Nat) : Nat := 0x584206 + i
def cdState : Nat := 0x585001
def cdFault : Nat := 0x585002
def cdSpeed : Nat := 0x585003
def cdCurrent : Nat := 0x585004
def cdVbus : Nat := 0x585005
def cdHall : Nat := 0x585006
def cdRetries : Nat := 0x585007
def cdFaultClear : Nat := 0x585800
def adpllBw : Nat := 0x5C0001
def ditherEn : Nat := 0x5C0002
def ditherSeed : Nat := 0x5C0003
def adpllState (u : Nat) : Nat := 0x5C0801 + 0x100 * u
def refSource (u : Nat) : Nat := 0x5C0802 + 0x100 * u
def lockDev (u : Nat) : Nat := 0x5C0803 + 0x100 * u
def lockMargin (u : Nat) : Nat := 0x5C0804 + 0x100 * u
def xoRatio (u : Nat) : Nat := 0x5C0805 + 0x100 * u
def ssModeSys : Nat := 0x5C1001
def ssDepthSys : Nat := 0x5C1002
def ssModeDram : Nat := 0x5C1003
def ssDepthDram : Nat := 0x5C1004
def ssModeRime : Nat := 0x5C1005
def ssDepthRime : Nat := 0x5C1006
def hkRate (u : Nat) : Nat := 0x5D0001 + 0x100 * u
def hkValue0 (u : Nat) : Nat := 0x5D4001 + 0x100 * u
def hkValue1 (u : Nat) : Nat := 0x5D4002 + 0x100 * u
def hkValid (u : Nat) : Nat := 0x5D4003 + 0x100 * u
def hkTime (u : Nat) : Nat := 0x5D4004 + 0x100 * u
def hkState (u : Nat) : Nat := 0x5D8001 + 0x100 * u
def slotsUsed (u : Nat) : Nat := 0x5D8002 + 0x100 * u
def groundRead (u : Nat) : Nat := 0x5D8003 + 0x100 * u
def roundCount (u : Nat) : Nat := 0x5D8004 + 0x100 * u
def hkUrgent : Nat := 0x5DC000
def planFreeze : Nat := 0x600001
def planPeriod : Nat := 0x600002
def baselineHours : Nat := 0x600003
def planIFloor : Nat := 0x600004
def capKnee : Nat := 0x600005
def esrKnee : Nat := 0x600006
def dtGrowMax : Nat := 0x600007
def thermShiftMax : Nat := 0x600008
def coolRatioWarn : Nat := 0x600009
def planGen : Nat := 0x600101
def planState : Nat := 0x600102
def planTime : Nat := 0x600103
def planFlags : Nat := 0x600104
def planNow : Nat := 0x600200
def planLogRead : Nat := 0x600300
def ageingRebase : Nat := 0x600400
def cRef (u : Nat) : Nat := 0x601001 + 0x100 * u
def esrRef (u : Nat) : Nat := 0x601002 + 0x100 * u
def cEst (u : Nat) : Nat := 0x601003 + 0x100 * u
def esrEst (u : Nat) : Nat := 0x601004 + 0x100 * u
def kI (u : Nat) : Nat := 0x601005 + 0x100 * u
def estValid (u : Nat) : Nat := 0x601006 + 0x100 * u
def toffDriftA (u : Nat) : Nat := 0x604001 + 0x100 * u
def toffDriftB (u : Nat) : Nat := 0x604002 + 0x100 * u
def dtBaseA (u : Nat) : Nat := 0x604003 + 0x100 * u
def dtBaseB (u : Nat) : Nat := 0x604004 + 0x100 * u
def dtIncA (u : Nat) : Nat := 0x604005 + 0x100 * u
def dtIncB (u : Nat) : Nat := 0x604006 + 0x100 * u
def ntcUnit (u : Nat) : Nat := 0x606001 + 0x100 * u
def lossA (u : Nat) : Nat := 0x606002 + 0x100 * u
def lossB (u : Nat) : Nat := 0x606003 + 0x100 * u
def rthBase (u : Nat) : Nat := 0x606004 + 0x100 * u
def rthRatio (u : Nat) : Nat := 0x606005 + 0x100 * u
def ntcShift (u : Nat) : Nat := 0x606006 + 0x100 * u
def refTrend (u : Nat) : Nat := 0x608001 + 0x100 * u
def flashWear (u : Nat) : Nat := 0x608002 + 0x100 * u
def dramTrend (u : Nat) : Nat := 0x608003 + 0x100 * u
def tcxoAgeing : Nat := 0x608801
def dieHours (i : Nat) : Nat := 0x608802 + i
def coolRatio : Nat := 0x608807
def bootReason : Nat := 0x640001
def devBootEn : Nat := 0x640002
def cirqueState : Nat := 0x640003
def deviceCert : Nat := 0x640100
def csrRead : Nat := 0x640200
def certInstall : Nat := 0x640300
def trustAnchor (i : Nat) : Nat := 0x640401 + i
def crlInstall : Nat := 0x640500
def slotRole (u : Nat) : Nat := 0x641001 + 0x100 * u
def keyInstall : Nat := 0x642000
def sessionOpen : Nat := 0x642100
def serialRole : Nat := 0x644001
def fwUpload : Nat := 0x645000
def fwStage : Nat := 0x645100
def fwActivate : Nat := 0x645200
def fwCommit : Nat := 0x645300
def certModeSet : Nat := 0x645400
def commitDelay : Nat := 0x645501
def rollbackCounter (u : Nat) : Nat := 0x646001 + 0x100 * u
def debugUnlock : Nat := 0x647000
def debugResponse : Nat := 0x647100
def traceMode : Nat := 0x700001
def nodeCount : Nat := 0x700002
def decim : Nat := 0x700003
def traceDepth : Nat := 0x700004
def tracePre : Nat := 0x700005
def traceNode (i : Nat) : Nat := 0x700101 + i
def trigSource : Nat := 0x700201
def trigNode : Nat := 0x700202
def trigLevel : Nat := 0x700203
def hyst : Nat := 0x700204
def levelHigh : Nat := 0x700205
def trigEvent : Nat := 0x700206
def trigTime : Nat := 0x700207
def traceState : Nat := 0x700301
def traceRecords : Nat := 0x700302
def triggerRecord : Nat := 0x700303
def triggerT0 : Nat := 0x700304
def gapCount : Nat := 0x700305
def recordSize : Nat := 0x700306
def maxDepth : Nat := 0x700307
def traceArm : Nat := 0x700400
def traceStop : Nat := 0x700500
def traceForce : Nat := 0x700600
def traceRead : Nat := 0x700800

end Sys2Proof.Machine.Ob
end

