-- ==== Sys2Proof/Machine/Operands.lean ====
section
/-!
DEFINITION. The number forms of the object data (R4, R5, R6, R117, R118): bytes, q29 with saturation, ang32
modulo one turn, f32 read exactly, and the range check of an entry (R13).
-/
namespace Sys2Proof.Machine

/-! ### Bytes (R4) -/

/-- The number that bytes spell, least significant byte first (R4). -/
def leNat : List Byte → Nat
  | []      => 0
  | b :: bs => b.toNat + 256 * leNat bs

/-- The `n` bytes of a number, least significant byte first (R4). -/
def leBytes : Nat → Nat → List Byte
  | 0, _     => []
  | n + 1, v => BitVec.ofNat 8 v :: leBytes n (v / 256)

/-- Bit `i` of a number. -/
def bit (v i : Nat) : Bool := v.testBit i

/-- A truth value as a bit. -/
def b2n (b : Bool) : Nat := if b then 1 else 0

/-- A number with bit `i` set or cleared. -/
def setBit (v i : Nat) (b : Bool) : Nat :=
  if v.testBit i = b then v else if b then v + 2 ^ i else v - 2 ^ i

/-- The positions of the set bits of `v` below `n`, rising. -/
def bitsOf (n v : Nat) : List Nat := (List.range n).filter (fun i => v.testBit i)

/-- Smallest of a number and a ceiling: a counter that saturates. -/
def satAt (hi v : Nat) : Nat := if v ≤ hi then v else hi

/-- An element put in its place before the first that it does not follow. -/
def insertBy {α : Type} (le : α → α → Bool) (a : α) : List α → List α
  | []      => [a]
  | b :: bs => if le a b then a :: b :: bs else b :: insertBy le a bs

/-- A list in order, elements that tie in the order they came. -/
def sortBy {α : Type} (le : α → α → Bool) (l : List α) : List α := l.foldr (insertBy le) []

/-! ### q29 and angles (R5, R6) -/

/-- One per unit in q29. -/
def one29 : Int := 536870912

/-- The lowest q29 value, −4 pu. -/
def min29 : Int := -2147483648

/-- The highest q29 value, +4 pu − 1 LSB. -/
def max29 : Int := 2147483647

/-- A value held between two limits. -/
def clampI (lo hi x : Int) : Int := if x < lo then lo else if hi < x then hi else x

/-- A q29 result saturated at its range limits, never wrapped (R6). -/
def sat29 (x : Int) : Int := clampI min29 max29 x

/-- The rational in per unit of a q29 value. -/
def pu (x : Int) : Rat := (x : Rat) / 536870912

/-- A rational as a whole number: itself where it is whole, otherwise one of its two neighbours (no rounding rule is stated).
DESIGN CHOICE, log entry 10. -/
def wholeNear (x : Rat) : Int := if x.den = 1 then x.num else x.floor + (if Config.roundUp x then 1 else 0)

/-- The q29 value of a rational in LSB: exact where it is whole, otherwise one of its two neighbours (R117 states
no rounding rule, so `Config.roundUp` chooses). -/
def q29OfLsb (x : Rat) : Int :=
  sat29 (wholeNear x)

/-- The q29 value of a rational in per unit. -/
def q29Of (x : Rat) : Int := q29OfLsb (x * 536870912)

/-- The product of two q29 values (R117). -/
def mul29 (a b : Int) : Int := q29OfLsb ((a * b : Int) / (536870912 : Rat))

/-- Magnitude of an integer. -/
def absI (x : Int) : Int := if x < 0 then -x else x

/-- Magnitude of a rational. -/
def absR (x : Rat) : Rat := if x < 0 then -x else x

/-- The larger of two rationals. -/
def maxR (a b : Rat) : Rat := if a < b then b else a

/-- The smaller of two rationals. -/
def minR (a b : Rat) : Rat := if b < a then b else a

/-- A rational held between two limits. -/
def clampR (lo hi x : Rat) : Rat := if x < lo then lo else if hi < x then hi else x

/-- An angle modulo one turn (R6). -/
def angWrap (x : Int) : Nat := (x % 4294967296).toNat

/-- The difference of two angles as a signed angle from −half a turn. -/
def angDiff (a b : Nat) : Int := Raw.signed 32 (angWrap ((a : Int) - (b : Int)))

/-- An ang32 difference in degrees. -/
def degOf (d : Int) : Rat := (d : Rat) * 360 / 4294967296

/-- The ang32 angle nearest below a number of turns. -/
def angOfTurns (x : Rat) : Nat := angWrap (x * 4294967296).floor

/-- Signed difference of two t32 values (R7). -/
def t32Diff (a b : Nat) : Int := Raw.signed 32 (angWrap ((a : Int) - (b : Int)))

/-! ### f32 (R5) -/

/-- The exact value of a raw f32; none for an infinity or no number. -/
def f32Val (raw : Nat) : Option Rat :=
  let neg := bit raw 31
  let ex := raw / 8388608 % 256
  let fr := raw % 8388608
  if ex = 255 then none
  else
    let mag : Rat :=
      if ex = 0 then (fr : Rat) / (2 ^ 149 : Nat)
      else if 150 ≤ ex then (((8388608 + fr) * 2 ^ (ex - 150) : Nat) : Rat)
      else ((8388608 + fr : Nat) : Rat) / (2 ^ (150 - ex) : Nat)
    some (if neg then -mag else mag)

/-- The exponent of the binade in which a positive rational n / d lies, from below: 2^e ≤ n / d < 2^(e + 1). -/
def binade (n d : Nat) : Int :=
  let e := (Nat.log2 n : Int) - (Nat.log2 d : Int)
  if (if 0 ≤ e then n < d * 2 ^ e.toNat else n * 2 ^ (-e).toNat < d) then e - 1 else e

/-- The raw f32 of a rational: exact where the format holds it, otherwise one of its two neighbours (R5 states no
rounding rule, so `Config.f32Up` chooses); beyond the largest finite value an infinity. DESIGN CHOICE, log entry 10. -/
def f32Raw (x : Rat) : Nat :=
  let n := x.num.natAbs
  if n = 0 then 0
  else
    let ex := max (-126) (binade n x.den)
    let up := 23 - ex
    let num := if 0 ≤ up then n * 2 ^ up.toNat else n
    let den := if 0 ≤ up then x.den else x.den * 2 ^ (-up).toNat
    let k := num / den + (if num % den ≠ 0 && Config.f32Up x then 1 else 0)
    min 0x7F800000 ((ex + 126).toNat * 8388608 + k) + (if x < 0 then 2147483648 else 0)

/-! ### Entries (R5, R13) -/

/-- The reading of an entry's raw value: two's complement for the signed types, unsigned for the others. -/
def ObjTy.reading (t : ObjTy) (raw : Nat) : Int :=
  if t.isSigned then Raw.signed (8 * t.size) raw else (raw : Int)

/-- Whether a raw f32 lies between two raw f32 bounds. DEDUCED, log entry 29. -/
def f32In (lo hi : Int) (raw : Nat) : Bool :=
  match f32Val raw, f32Val lo.toNat, f32Val hi.toNat with
  | some x, some a, some b => a ≤ x && x ≤ b
  | _, _, _                => false

/-- Whether a raw value of a type lies in its Range column (R13). -/
def ObjRange.admits (rg : ObjRange) (t : ObjTy) (raw : Nat) : Bool :=
  let i := t.reading raw
  match rg with
  | .any          => if t = .f32 then (f32Val raw).isSome else true
  | .lim lo hi    => if t = .f32 then f32In lo hi raw else lo ≤ i && i ≤ hi
  | .orLim v lo hi =>
      if t = .f32 then i = v || f32In lo hi raw else i = v || (lo ≤ i && i ≤ hi)
  | .oneOf vs     => vs.contains i
  | .step lo hi st => lo ≤ i && i ≤ hi && i % st = 0

end Sys2Proof.Machine
end

