-- ==== Sys2Proof/Machine/Approx.lean ====
section
/-!
DEFINITION. The real functions that the rules name (sine and cosine, R118; the tangent and the power of ten of R123; the real
power and the angle of R147; roots, R118), as fixed-point series whose error lies far below every bound that a rule states,
and the results of the transform unit (R118), held to the unit's bounds.
-/
namespace Sys2Proof.Machine

/-! ### Fixed-point series: a number stands as a multiple of 2^−62 -/

/-- 1. -/
def fxOne : Int := 4611686018427387904
/-- A product. -/
def fxMul (a b : Int) : Int := a * b / fxOne
/-- The number of a rational, from below. -/
def fxOf (x : Rat) : Int := (x * 4611686018427387904).floor
/-- The rational of a number. -/
def fxRat (x : Int) : Rat := (x : Rat) / 4611686018427387904
/-- π, ln 2, log₂ 10, 1 / ln 2 and 180 / π. -/
def fxPi : Int := 14488038916154245684
def fxLn2 : Int := 3196577161300663914
def fxLog10 : Int := 15319689349413178110
def fxInvLn2 : Int := 6653256548922161245
def fxDeg : Int := 264230145295380110384

/-- 1 − x / d₁ × (1 − x / d₂ × (1 − …)). -/
def nested (x : Int) : List Nat → Int
  | []      => fxOne
  | d :: ds => fxOne - fxMul x (nested x ds) / (d : Int)

/-- 1 / d₁ + x × (1 / d₂ + x × (1 / d₃ + …)). -/
def ladder (x : Int) : List Nat → Int
  | []      => 0
  | d :: ds => fxOne / (d : Int) + fxMul x (ladder x ds)

/-- The odd numbers below 48. -/
def odds : List Nat := (List.range 24).map (fun k => 2 * k + 1)

/-- Cosine and sine of an angle of at most an eighth of a turn, in radians. -/
def fxCosSmall (x : Int) : Int := nested (fxMul x x) [2, 12, 30, 56, 90, 132, 182, 240, 306]
def fxSinSmall (x : Int) : Int := fxMul x (nested (fxMul x x) [6, 20, 42, 72, 110, 156, 210, 272, 342])

/-- Cosine and sine of an angle of `a` turns / 2^32, by its octant. -/
def fxCosSin (a : Nat) : Int × Int :=
  let q := a / 1073741824 % 4
  let r := a % 1073741824
  let small (v : Nat) : Int := fxPi * (v : Int) / 2147483648
  let cs : Int × Int := if r ≤ 536870912 then (fxCosSmall (small r), fxSinSmall (small r))
    else (fxSinSmall (small (1073741824 - r)), fxCosSmall (small (1073741824 - r)))
  if q = 0 then cs else if q = 1 then (-cs.2, cs.1) else if q = 2 then (-cs.1, -cs.2) else (cs.2, -cs.1)

/-- Cosine and sine of an ang32 angle. DESIGN CHOICE, log entry 11. -/
def cosR (a : Nat) : Rat := fxRat (fxCosSin a).1
def sinR (a : Nat) : Rat := fxRat (fxCosSin a).2

/-- tan(π × x) for x from 0 to below one half. DESIGN CHOICE, log entry 11. -/
def tanPi (x : Rat) : Rat :=
  let h := fxMul fxPi (fxOf x)
  let small := x ≤ 1 / 4
  let y := if small then h else fxPi / 2 - h
  let s := fxSinSmall y
  let c := fxCosSmall y
  if small then (if c = 0 then 0 else (s : Rat) / (c : Rat)) else (if s = 0 then 0 else (c : Rat) / (s : Rat))

/-- 2 to the power of a number: 2^−f for the part f below 1 that is missing up to the next whole number, shifted. -/
def fxExp2 (y : Int) : Rat :=
  let up := -((-y) / fxOne)
  let v := fxRat (nested (fxMul ((-y) % fxOne) fxLn2) ((List.range 22).map (· + 1)))
  if 0 ≤ up then v * (2 ^ up.toNat : Nat) else v / (2 ^ (-up).toNat : Nat)

/-- 10 to the power x. DESIGN CHOICE, log entry 11. -/
def pow10 (x : Rat) : Rat := fxExp2 (fxMul (fxOf x) fxLog10)

/-- The logarithm to base 2 of a rational above 0. -/
def fxLog2 (x : Rat) : Int :=
  let e := binade x.num.natAbs x.den
  let m := if 0 ≤ e then x / (2 ^ e.toNat : Nat) else x * (2 ^ (-e).toNat : Nat)
  let z := fxOf ((m - 1) / (m + 1))
  e * fxOne + fxMul (2 * fxMul z (ladder (fxMul z z) odds)) fxInvLn2

/-- The geometric point p of n from f0 to f1 (R147): f0 × (f1 / f0)^(p / (n − 1)). DESIGN CHOICE, log entry 11. -/
def sweepFreq (f0 f1 : Rat) (p n : Nat) : Rat :=
  if f0 ≤ 0 || f1 ≤ 0 || n ≤ 1 then f0
  else f0 * fxExp2 (fxLog2 (f1 / f0) * (p : Int) / ((n - 1 : Nat) : Int))

/-- The arc tangent of a rational from 0 to 1, in radians. -/
def fxAtan (t : Rat) : Int :=
  let low (y : Int) : Int := fxMul y (ladder (-fxMul y y) odds)
  if t ≤ 41421356 / 100000000 then low (fxOf t) else fxPi / 4 + low (fxOf ((t - 1) / (t + 1)))

/-- The angle in degrees of the complex number (re, im), −180 to +180; 0 of 0 (R147). DESIGN CHOICE, log entry 11. -/
def angleDeg (re im : Rat) : Rat :=
  let x := absR re
  let y := absR im
  let a := if x = 0 && y = 0 then 0 else if y ≤ x then fxAtan (y / x) else fxPi / 2 - fxAtan (x / y)
  let b := if re < 0 then fxPi - a else a
  clampR (-180) 180 (fxRat (fxMul (if im < 0 then -b else b) fxDeg))

/-! ### Roots -/

/-- The square root of a rational at or above 0, from below, to a relative error below 2^−62. DESIGN CHOICE, log entry 11. -/
def sqrtExact (x : Rat) : Rat :=
  if x ≤ 0 then 0
  else
    let h := 64 + Nat.log2 x.den
    ((Nat.sqrt (x.num.natAbs * 2 ^ (2 * h) / x.den) : Nat) : Rat) / (2 ^ h : Nat)

/-! ### The transform unit (R118) -/

/-- The value that the unit gives for operation `op` on some inputs, at most `n` LSB from the exact result `x`.
DESIGN CHOICE, log entry 11. -/
def unitLsb (op n : Nat) (ins : List Int) (x : Rat) : Int :=
  sat29 (clampI (-(-(x - n)).floor) (x + n).floor (Config.unitValue op ins))

/-- The relative error of the square root and of the reciprocal, at most 2^−28. DESIGN CHOICE, log entry 11. -/
def unitFactor (x : Rat) : Rat := 1 + clampR (-1 / 268435456) (1 / 268435456) (Config.unitErr x)

/-- The square root as the unit gives it. -/
def sqrtR (x : Rat) : Rat := sqrtExact x * unitFactor x

/-- The reciprocal as the unit gives it, of a value that is not 0. -/
def recipR (x : Rat) : Rat := if x = 0 then 0 else unitFactor (-absR x) / x

/-- Magnitude of a vector in q29. -/
def hypot29 (a b : Int) : Int := q29OfLsb (sqrtR ((a * a + b * b : Int) : Rat))

/-- Sine and cosine in q29. -/
def cosQ29 (a : Nat) : Int := unitLsb 0 2 [a] (cosR a * 536870912)
def sinQ29 (a : Nat) : Int := unitLsb 1 2 [a] (sinR a * 536870912)

/-- Clarke: three phases to α, β and the zero sequence. -/
def clarke (a b c : Int) : Int × Int × Int :=
  (unitLsb 2 1 [a, b, c] ((2 * a - b - c : Int) / (3 : Rat)),
   unitLsb 3 1 [a, b, c] ((b - c : Int) * (577350269189625764509 / 1000000000000000000000 : Rat)),
   unitLsb 4 1 [a, b, c] ((a + b + c : Int) / (3 : Rat)))

/-- Park: α and β to d and q in the frame of an angle. -/
def park (x y : Int) (th : Nat) : Int × Int :=
  (unitLsb 5 2 [x, y, th] ((x : Rat) * cosR th + y * sinR th), unitLsb 6 2 [x, y, th] ((y : Rat) * cosR th - x * sinR th))

/-- Inverse Park: d and q in the frame of an angle to α and β. -/
def invPark (x y : Int) (th : Nat) : Int × Int :=
  (unitLsb 7 2 [x, y, th] ((x : Rat) * cosR th - y * sinR th), unitLsb 8 2 [x, y, th] ((y : Rat) * cosR th + x * sinR th))

end Sys2Proof.Machine
end

