-- ==== Sys2Proof/Machine/Flags.lean ====
section
/-!
DEFINITION. The flag bytes that the spec builds bit by bit: FLAGS of an event entry (R59), of a fault record (R289), of a
loop context (R138), and SYNC_FLAGS (R172).
-/
namespace Sys2Proof.Machine

/-- FLAGS of an event entry (R59): bit 0 coalesced (set later), bit 1 lane B active, bits 3:2 the severity. -/
def eventFlags (sev : Nat) (laneB : Bool) : Nat := sev * 4 + b2n laneB * 2

/-- FLAGS of a fault record (R289): simultaneous sources, permanent, second fault in recovery, hold declared, retired,
withdrawn. -/
def recordFlags (simultaneous permanent second hold retired withdrawn : Bool) : Nat :=
  b2n simultaneous + 2 * b2n permanent + 4 * b2n second + 8 * b2n hold + 16 * b2n retired + 32 * b2n withdrawn

/-- CTX_FLAGS of a context after a tick that ran (R138): AT_MAX, AT_MIN, RATE_LIMITED, SP_LIMITED, and INJECTED in bit 5;
HELD, bit 4, stands for a tick that did not run. -/
def ctxFlags (atMax atMin rated shaped injected : Bool) : Nat :=
  b2n atMax + 2 * b2n atMin + 4 * b2n rated + 8 * b2n shaped + 32 * b2n injected

/-- SYNC_FLAGS (R172): frequency, phase, voltage and grid within their windows, and the request standing. -/
def syncFlagsOf (f phi v grid asking : Bool) : Nat :=
  b2n f + 2 * b2n phi + 4 * b2n v + 8 * b2n grid + 16 * b2n asking

end Sys2Proof.Machine
end

