-- ==== Sys2Proof/Machine/State.lean ====
section
/-!
DEFINITION. The state of the module: the commands that wait, the values that outlive a run, and the module
proper as plain data, one structure for each unit that a chapter describes. Entries of the object dictionary
hold their values in `Mod.obj`; the structures hold what the chapters give the machine beyond the entries.
Times named `Ps` are picoseconds since power-up; an `Option Nat` that names a deadline is a timer that runs.
-/
namespace Sys2Proof.Machine

/-- Reasons for which a step stops. -/
inductive Fault
  /-- Raised by an event command whose operands name a unit that the module does not have (a lane other than A
  and B, a section above 3, and so on): no such event can come about. Safe: the hardware does nothing there. -/
  | noSuchUnit
deriving DecidableEq, Repr

/-- Reasons for which a command has no meaning. -/
inductive Refusal
  /-- Raised by a command that the model rejects by its name. Safe. -/
  | notModelled (mnemonic : String)
deriving DecidableEq, Repr

/-! ### Host interface -/

/-- One entry of an event queue (R59). -/
structure EvEntry where
  time  : Nat
  ev    : Nat
  flags : Nat
  fault : Nat
  qseq  : Nat
  count : Nat
  arg   : Nat
deriving DecidableEq, Repr

/-- The event queue of one consumer (R58, R60, R377): entries oldest first, the four masks, EVQ_LOST, the
events lost since its last EV012, the TAI ns at which an entry was last added, and the slot of the oldest entry. -/
structure EvQueue where
  entries   : List EvEntry := []
  masks     : List Nat := [0xFFFFFFFF, 0xFFFFFFFF, 0xFFFFFFFF, 0xFFFFFFFF]
  lost      : Nat := 0
  lostNew   : Nat := 0
  lastAdded : Option Int := none
  first     : Nat := 0
deriving DecidableEq, Repr

/-- A response (R46): opcode without 80h, index, sub-index, sequence number, status, data, key slot, counter. -/
structure Rsp where
  op     : Nat
  idx    : Nat
  sub    : Nat
  seq    : Nat
  status : Nat
  data   : List Byte
  slot   : Nat := 0
  ctr    : Nat := 0
deriving DecidableEq, Repr

/-- An open group (R52, R53): sequence number of its GROUP_BEGIN, when it opened, and the held writes in order. -/
structure Group where
  beginSeq : Nat
  openedPs : Nat
  writes   : List (Nat × List Byte)
deriving DecidableEq, Repr

/-- The command channel of a mailbox or a session (R44, R47, R51, R53, R462, R464): the number of the last command
accepted, the response stored for it, the open group, the commands outstanding in order with the responses that are
already formed, the GHP3 session (key slot, key, role, counters in both directions), the instants of the last AUTH_FAIL
responses, and the end of a block. -/
structure Chan where
  kept      : Option Nat := none
  stored    : Option Rsp := none
  group     : Option Group := none
  out       : List (Nat × Option Rsp) := []
  slot      : Option Nat := none
  key       : List Byte := []
  role      : Nat := 0
  ctrIn     : Option Nat := none
  ctrOut    : Option Nat := none
  authFails : List Nat := []
  blocked   : Option Nat := none
deriving DecidableEq, Repr

/-- A mailbox of the host serial link (R40 to R44): generation in force, the generation waiting, the command
window's bytes, the response window's bytes, BUSY, RSP_READY, and the two FIFOs of GHP3. -/
structure Mailbox where
  chan     : Chan := {}
  gen      : Nat := 2
  nextGen  : Option Nat := none
  window   : List Byte := []
  rsp      : List Byte := []
  busy     : Bool := false
  rspReady : Bool := false
  cmdFifo  : List Byte := []
  rspFifo  : List Byte := []
deriving DecidableEq, Repr

/-- What a network connection carries (R389 to R391). -/
inductive SessKind
  | ghp3
  | modbus
  | dnp3
deriving DecidableEq, Repr

/-- A network connection (R58, R386, R389, R460, R461). `tls` is false until the handshake has ended.
`sent` entries of its event queue have gone out in `frames` event frames; `waitPs` ends the delay of REPORT_SPREAD;
`tx` holds the frames of the last sending. -/
structure Session where
  kind     : SessKind
  addr     : Nat
  tls      : Bool := false
  chan     : Chan := {}
  headEnd  : Bool := false
  bound    : Option Nat := none
  serial   : Nat := 0
  anchor   : Nat := 0
  evq      : EvQueue := {}
  sent     : Nat := 0
  frames   : Nat := 0
  waitPs   : Option Nat := none
  lastPs   : Nat := 0
  tx       : List (List Byte) := []
deriving DecidableEq, Repr

/-- A stream channel (R62): what it is bound to, who opened it, its arguments, the number of its next record,
and on the serial link the frames waiting, oldest first, with the bytes left of a frame that has been read in part;
whether data were lost, and whether the channel is closed. -/
structure Stream where
  idx   : Nat
  sub   : Nat
  snd   : Sender
  gen   : Nat
  args  : List Byte
  pos   : Nat := 0
  ring  : List Byte := []
  part  : Nat := 0
  gap   : Bool := false
  ended : Bool := false
deriving DecidableEq, Repr

/-- What a staged item does at its boundary (R72, R73, R515). -/
inductive Work
  | writes (ws : List (Nat × List Byte))
  | unitAct (idx : Nat) (args : List Nat)
deriving DecidableEq, Repr

/-- An item staged for a boundary: sender, sequence number, opcode, index and sub-index to be answered, its
work, whether it is a group, whether it missed a cutoff, the scheduled entry that it is, its order within its mailbox
(R381, R393), and the sections that ran when it came and whose OP_MODE it writes (R175). -/
structure Staged where
  snd     : Sender
  seq     : Nat
  op      : Nat
  idx     : Nat
  sub     : Nat
  work    : Work
  isGroup : Bool := false
  late    : Bool := false
  entry   : Option Nat := none
  order   : Nat := 0
  moves   : List Nat := []
deriving DecidableEq, Repr

/-- An action that takes effect at the next boundary without arbitration (R126, R369, R515). -/
inductive BoundaryAct
  | ctxReset (n : Nat)
  | traceForce
  | laneSwitchover
  | ageingRebase (kind unit : Nat)
  | timeStep (ns : Int)
  | trim (v : Int)
deriving DecidableEq, Repr

/-- An entry of the scheduled-action table (R380 to R383). -/
structure Sched where
  entry     : Nat
  applyAt   : Int
  snd       : Sender
  seq       : Nat
  writes    : List (Nat × List Byte)
  suspended : Bool := false
  order     : Nat
deriving DecidableEq, Repr

/-- The host serial link (R34 to R39): mode of the coming transactions, the switches of HL_CONFIG, the sticky
bits of HL_STATUS, READY, the bytes that the last read shifted out, and EVT_N: whether it is low, the instant of
the last pulse, whether another is due, the pulses so far, and whether it is held low (R473). -/
structure Link where
  quad         : Bool := false
  quadEn       : Bool := false
  evtPulse     : Bool := false
  rspIrq       : Bool := false
  streamIrq    : Bool := false
  takeover     : Bool := false
  doorbellLost : Bool := false
  frameError   : Bool := false
  ready        : Bool := false
  out          : List Byte := []
  lastPulsePs  : Option Nat := none
  pulseDue     : Bool := false
  pulses       : Nat := 0
  evtLow       : Bool := false
deriving DecidableEq, Repr

/-! ### Tick and clock -/

/-- Where the tick stands (R71): between the boundary and the samples, in the compute window, or past the commit deadline. -/
inductive Phase
  | boundary
  | compute
  | staging
deriving DecidableEq, Repr

/-- The clock: picoseconds since power-up, t0 of the present tick, TAI ns at power-up, whether the tick runs, its phase,
the ticks since the tick first ran, and the supervisor's time used since the instant of the last SUPERVISOR_LOAD (R74). -/
structure Clock where
  upPs    : Nat := 0
  t0Ps    : Nat := 0
  taiBase : Int := 0
  running : Bool := false
  phase   : Phase := .boundary
  tick    : Nat := 0
  busyPs  : Nat := 0
  loadPs  : Nat := 0
deriving DecidableEq, Repr

/-! ### PWM groups and pairs -/

/-- What the pins of a group carry: held low, the generator's gates, the first stage of a stop and of a trip (the inner
switches still held for SAFE_DT), the safe pattern, or high impedance (R261, R271 to R274). -/
inductive Pins
  | low
  | gates
  | falling
  | tripping
  | safe
  | hiZ
deriving DecidableEq, Repr

/-- A load of one pair that waits for the extremum of its own phase (R255): the pair within its group, the instant, the
compare value, the half period and the ratio with which it counts, whether the extremum is a valley, and whether the
ratio changed with it. -/
structure PhaseLoad where
  i      : Nat
  atPs   : Nat
  val    : Nat
  hp     : Nat
  ratio  : Nat
  valley : Bool
  moved  : Bool
deriving DecidableEq, Repr

/-- A PWM group (R250 to R276): its pins, whether its outputs run and run directly, whether a start or a stop waits
for the next carrier boundary, Serac's trip latch, whether an interlock, safe-state or demand trip set it; the duties
in the shadow registers of the active lane with its clamp set and whether that acts, the same two of the standby lane
(R25); the compare values in the active registers (none: not loaded since the outputs came on), the level that each
reference took at its load and the loads that wait; the ratio loaded, Serac's leg map and whether a report disagreed, and
whether a stop waits for the carrier boundary after the next (R213), and when the last stop or trip began. -/
structure GrpRt where
  pins     : Pins := .hiZ
  on       : Bool := false
  direct   : Bool := false
  starting : Bool := false
  stopping : Bool := false
  latched  : Bool := false
  demand   : Bool := false
  duty     : List Rat := []
  clampSet : List Rat := []
  clampOn  : Bool := false
  twin     : List Rat := []
  twinClmp : List Rat := []
  active   : List (Option Nat) := List.replicate 9 none
  level    : List Bool := List.replicate 9 false
  later    : List PhaseLoad := []
  ratio    : Nat := 1
  map      : Option LegMap := none
  mapBad   : Bool := false
  stopNext : Bool := false
  offPs    : Nat := 0
deriving DecidableEq, Repr

/-- A pair (R277 to R279): whether trimming pauses, whether the bound stops the trim of A and of B, and the effective
dead times that wait for the next boundary. -/
structure PairRt where
  paused  : Bool := false
  boundA  : Bool := false
  boundB  : Bool := false
  nextA   : Option Nat := none
  nextB   : Option Nat := none
deriving DecidableEq, Repr

/-! ### Protection -/

/-- One assertion of a trip source since the last boundary (R284, R290): when, its fault code, class, sources,
channels, legs, units, the units that were not at rest, whether it is evaluated per tick, and the lanes. -/
structure Assertion where
  atPs     : Nat
  fault    : Nat
  cls      : Nat
  sources  : Nat
  channels : Nat
  legs     : Nat
  units    : List Nat
  running  : List Nat
  trips    : List Nat
  perTick  : Bool
  oneLane  : Option Nat := none
deriving DecidableEq, Repr

/-- A fault record (R289) without its number, which is its place in the log. -/
structure FaultRec where
  time     : Nat
  fault    : Nat
  kind     : Nat
  unit     : Nat
  sources  : Nat
  channels : Nat
  legs     : Nat
  flags    : Nat
  count    : Nat
  state    : Nat
  lane     : Nat
  no       : Nat
deriving DecidableEq, Repr

/-- A fault in recovery (R294 to R298): its record, the end of the recovery delay, the end of
the retry timeout, the next check of a clear, whether it awaits that, the groups it tripped and those that were not at rest. -/
structure Recovery where
  record   : FaultRec
  endPs    : Nat
  retryPs  : Nat
  checkPs  : Nat
  awaiting : Bool
  trips    : List Nat
  running  : List Nat
deriving DecidableEq, Repr

/-- A counter instance (R292): class, unit, the instants of the faults kept (ticks for class 4), the fault not yet
settled, and t0 of the tick in which the last one settled (R294). -/
structure Inst where
  cls     : Nat
  unit    : Nat
  times   : List Nat := []
  recov   : Option Recovery := none
  settled : Option Nat := none
deriving DecidableEq, Repr

/-- One DC link channel (R284, R285): ticks in a row above DCL_OV_LEVEL, below DCL_UV_LEVEL, above DCL_WARN_HIGH and below the
re-arming level, whether the trip sources stand, and the arming of the warning. -/
structure LinkRt where
  overTicks : Nat := 0
  under    : Nat := 0
  warn     : Nat := 0
  calm     : Nat := 0
  overOn   : Bool := false
  underOn  : Bool := false
  armed    : Bool := true
deriving DecidableEq, Repr

/-- Protection as a whole: the log (newest last), the assertions since the last boundary, the instances that have
counted, when hold was declared, whether HOLD_MAX has been met, whether a safe stop stands, the links, the channels
whose detectors each lane sees beyond their level, the groups that each lane's trip lines request, the FLT inputs whose filter has completed (R270), a lane whose capture was at fault (R295), and the
t32 of the first crossing since the last boundary with the channels that crossed (R116), the channels whose alert
stands with the instants at which each asserted (R239), and the log records that cannot be read, as (lane, record number) (R314). -/
structure ProtRt where
  log      : List FaultRec := []
  pend     : List Assertion := []
  insts    : List Inst := []
  holdPs   : Option Nat := none
  maxMet   : Bool := false
  safeStop : Bool := false
  links    : List LinkRt := List.replicate 24 {}
  focLane  : List Nat := [0, 0]
  laneReq  : List Nat := [0, 0]
  fltOn    : Nat := 0
  capture  : Option Nat := none
  focFirst : Option Nat := none
  focMask  : Nat := 0
  focAlert : Nat := 0
  alertAt  : List Nat := List.replicate 24 0
  skip     : List (Nat × Nat) := []
deriving DecidableEq, Repr

/-! ### Safe disconnect -/

/-- The safe-disconnect function (R346 to R363): the last samples of both channels, the two drives with the instant
of their last edge, the request as channel A has it, whether it is ignored until it falls, the samples for which
SDR_A and SDR_B, the two contacts of each relay and the two readings of each pin disagree, the latched relay fault and
discrepancy fault, whether both inputs have read demand since the latter, bad cross-link frames in a row of each
channel, the demands of the active lane, of Serac's oscillator and of the overdue test, whether K2 is driven in
CLOSING, the TAI of the last passed test, the seal re-checks that differ, lockout, and whether RESET_N is low; then the instants
of the last sample, of the last reading of the seals and of the fall of RESET_N, and since when the readings hold for which the
sequence waits (R354). -/
structure SdcRt where
  a          : SdcInputs := ⟨true, true, true, true, true, true⟩
  b          : SdcInputs := ⟨true, true, true, true, true, true⟩
  k1         : Bool := false
  k2         : Bool := false
  k1Edge     : Option Nat := none
  k2Edge     : Option Nat := none
  request    : Bool := false
  ignored    : Bool := false
  discRun    : Nat := 0
  contacts   : List Nat := [0, 0]
  pins       : List Nat := [0, 0, 0, 0, 0, 0]
  relayFault : Option Nat := none
  discFault  : Bool := false
  bothSeen   : Bool := false
  lostA      : Nat := 0
  lostB      : Nat := 0
  laneDemand : Bool := false
  oscDemand  : Bool := false
  overdue    : Bool := false
  second     : Bool := false
  passedAt   : Option Int := none
  sealDiff   : Nat := 0
  lockout    : Bool := false
  resetLow   : Bool := false
  samplePs   : Nat := 0
  sealPs     : Nat := 0
  resetPs    : Nat := 0
  readyPs    : Option Nat := none
deriving DecidableEq, Repr

/-! ### AC sections and DC channels -/

/-- An AC section beyond what its engine keeps (R162 to R186, R202 to R205, R222 to R241): the start under way, whether
it asks for connection, whether it is joining, the state that hold left, whether it follows, whether its stop goes
without ramps, ends in DELAY, or holds its references at 0, its timers, the dead and the live bus, the code with
which its start has failed, whether RECONNECT_RAMP applies, the inrush hold, the identification, measured P and Q; then the
ride-through entry, the time spent in NORMAL with V_POS over it, entries and losses of synchronism in their windows,
Δφ over 2 ms, a jump that waits for a boundary, the islanding latch and timers, frequencies and phases of the past,
the single results of the identification, whether the first tick of PRESYNC is still to come, and the fleet index that
its last start took (R385). `transfer` says that a transfer between the modes has applied at this boundary. Then: since when
abs(P) and abs(Q) are small (R163); an injection that waits for its boundary, the ticks injected, and whether a whole
period has been injected that no result has used (R180, R185); the grid stops due at the boundary as (bit of RT_CAUSE, fault
code) (R228, R242); since when the phases lie in the shrunk window (R225), GRID_FREQ beyond each trip stage (R228), the angle
beyond LOS_ANGLE and position 12 at PLL_LIMIT (R240), with a pole slip and the angle difference of the last tick; when LOS_BLANK
ends and whether its end waits for the boundary (R241); and V_PH_LOW and V_PH_HIGH of the ticks of the last 1 ms (R222). -/
structure SecRt where
  fleet     : Nat := 0
  start     : Option Nat := none
  ask       : Bool := false
  joining   : Bool := false
  backTo    : Nat := 0
  follow    : Bool := false
  noRamps   : Bool := false
  toDelay   : Bool := false
  zeroRefs  : Bool := false
  confirmPs : Option Nat := none
  backoffPs : Option Nat := none
  delayPs   : Option Nat := none
  holdPs    : Option Nat := none
  syncEndPs : Option Nat := none
  closePs   : Option Nat := none
  rampPs    : Option Nat := none
  stopEndPs : Option Nat := none
  livePs    : Option Nat := none
  live      : Bool := false
  backed    : Bool := false
  failCode  : Nat := 0
  fromDead  : Bool := false
  reconnect : Bool := false
  recovRamp : Bool := false
  inrushHit : Bool := false
  transfer  : Bool := false
  weak      : Bool := false
  idRun     : Option Nat := none
  idOn      : Bool := false
  idSlot    : Int := 0
  idReg     : Nat := 0
  idRes     : List (Rat × Rat) := []
  pMeas     : Int := 0
  qMeas     : Int := 0
  tauPs     : Option Nat := none
  normal    : List (Nat × Int) := []
  entries   : List Nat := []
  losTimes  : List Nat := []
  dphis     : List (Nat × Int) := []
  jump      : Option Int := none
  isl       : Bool := false
  islNow    : Bool := false
  islWinPs  : Option Nat := none
  islRocPs  : Option Nat := none
  freqs     : List (Nat × Int) := []
  phases    : List (Nat × Int) := []
  acc       : Int := 0
  zs        : List (Int × Rat) := []
  zHits     : Nat := 0
  fresh     : Bool := false
  lowPs     : Option Nat := none
  idWait    : Bool := false
  idTicks   : Nat := 0
  idDone    : Bool := false
  stops     : List (Nat × Nat) := []
  recovPs   : Option Nat := none
  stagePs   : List (Option Nat) := [none, none, none, none]
  losPs     : Option Nat := none
  railPs    : Option Nat := none
  slip      : Bool := false
  losDiff   : Int := 0
  blankPs   : Option Nat := none
  blankEnds : Bool := false
  mags      : List (Nat × Int × Int) := []
deriving DecidableEq, Repr

/-- A DC channel (R208 to R217): the start under way, the end of a stop, whether the stop returns to WAIT, when the
limits expire and whether they have, V and P of the last MPPT period with the last sign and whether the next step is
STEP_MAX, and the scan: whether one runs, waits, its point (the points, then the check), P0 and V0, the best point, its
start and when the next is due. Then: whether an expiry waits for its boundary, and when it came (R212); since when the entry
conditions hold, P_SRC is low and the battery stands out of its window (R213); the period or dwell under way: its start, the
sum of the power over it with the ticks counted, and the sums of voltage and power over its last part (the last quarter of a
period, the second half of a dwell); V_MPP_REF and the mean power of the last full period (R215, R217). -/
structure DcRt where
  start    : Option Nat := none
  stopPs   : Option Nat := none
  toWait   : Bool := false
  limitPs  : Option Nat := none
  expDue   : Bool := false
  expired  : Bool := false
  expPs    : Nat := 0
  entryPs  : Option Nat := none
  pLowPs   : Option Nat := none
  outPs    : Option Nat := none
  vPrev    : Option Int := none
  pPrev    : Int := 0
  sign     : Int := 1
  big      : Bool := false
  scan     : Bool := false
  waits    : Bool := false
  point    : Nat := 0
  p0       : Int := 0
  v0       : Int := 0
  vBest    : Int := 0
  pBest    : Int := 0
  scanPs   : Nat := 0
  perPs    : Nat := 0
  perP     : Int := 0
  perN     : Nat := 0
  partV    : Int := 0
  partP    : Int := 0
  partN    : Nat := 0
  vRef     : Int := 0
  pMean    : Int := 0
deriving DecidableEq, Repr

/-! ### Field inputs and outputs -/

/-- A field channel (R398 to R410): filtered value, samples since its filter restarted, the last raw sample, the
changes counted in the chatter window, whether it is left out of the next chatter mask, since when the filtered
input reads 1 and whether EV117 was raised; for an output whether the switch is on, since when it limits, the run of
driven readbacks, whether its thermal protection acts, since when it draws too little, whether EV118 was raised, and whether it
went off in overload. -/
structure FieldRt where
  out      : Bool := false
  since    : Nat := 0
  raw      : Bool := false
  changes  : Nat := 0
  leftOut  : Bool := false
  onePs    : Option Nat := none
  maxDone  : Bool := false
  on       : Bool := false
  limitPs  : Option Nat := none
  driven   : Nat := 0
  hot      : Bool := false
  openPs   : Option Nat := none
  openDone : Bool := false
  overCur  : Bool := false
deriving DecidableEq, Repr

/-- A field group (R399, R404, R409, R412): whether the range event is armed, whether EV118 was raised, since when its total current
stands above 2.0 A or below 1.9 A, the instant of its last sample, and the start of the present chatter window. -/
structure FieldGrpRt where
  armed    : Bool := true
  overDone : Bool := false
  overPs   : Option Nat := none
  calmPs   : Option Nat := none
  samplePs : Nat := 0
  chatPs   : Nat := 0
deriving DecidableEq, Repr

/-- The Rime link of a lane (R411): frames missing in a row towards the field die and from it, good frames in
a row since a loss, whether the safe values apply, whether a good frame has come while the lane was named, and the instant of the
last good frame towards the field die. -/
structure RimeRt where
  missOut  : Nat := 0
  missIn   : Nat := 0
  good     : Nat := 0
  lost     : Bool := false
  first    : Bool := false
  outPs    : Nat := 0
deriving DecidableEq, Repr

/-! ### Lanes -/

/-- A lane (R316, R321 to R340, R474): released from reset, its ADPLL locked, its boot loader and its image verified,
the version it runs with BOOT_REASON, Floe trained, Rime trained, self-test passed, whether it withdrew and may not claim, the code
and the step of a start-up failure, when it was resynchronised, whether its last full test failed, consecutive ticks
without a good state frame and the tick of the last one, the sequence number of the last accepted Floe frame, corrected DRAM errors of the last
hour with the arming of EV010, failures of the present Cirque message, failed attempts at training Floe, bad safety-link frames in a row, and the
consecutive lock windows and misses of its detector (R438), and the bad attempts at the mirrored-write frame under
way (R316), and the instants of the last scrub passes of the run region and of Moraine (R312). -/
structure LaneRt where
  released   : Bool := false
  locked     : Bool := false
  boot       : Bool := false
  image      : Bool := false
  imageB     : Bool := false
  version    : Nat := 0
  reason     : Nat := 0
  floe       : Bool := false
  rime       : Bool := false
  rimeFailed : Bool := false
  tested     : Bool := false
  withdrawn  : Bool := false
  failCode   : Nat := 0
  failStep   : Nat := 0
  resyncs    : List Nat := []
  testFailed : Bool := false
  missing    : Nat := 0
  goodTick   : Nat := 0
  floeSeq    : Option Nat := none
  corr       : List (Nat × Nat) := []
  corrArmed  : Bool := true
  corrCalm   : Option Nat := none
  macFails   : Nat := 0
  tries      : Nat := 0
  good       : Nat := 0
  bad        : Nat := 0
  mwBad      : Nat := 0
  scrubPs    : List Nat := [0, 0]
deriving DecidableEq, Repr

/-- Arbitration and takeover (R321 to R341): the lane that holds the grant, since when none has, whether the rule of R336 is armed, the
withdrawal under way with its code and its instant, whether Serac has reported it, the incoming lane, the takeover
to be committed at the next boundary (outgoing lane, code, latency, narrow), withdrawals due at the next boundary,
whether a diagnosis runs and for which outcomes in the window, whether the standby lane adopts the active state, the
LANE_RESYNC under way, the tick at which a resynchronising lane adopted the state and whether it has passed its full test since,
when the present FULL_TEST_PERIOD began, the release of the lanes, the bits of the EV094 that the next boundary raises (R316), whether
the present tick began with a takeover (R140), and a boundary whose loads only the incoming lane has made, with whether it
was a valley (R25, R332), and the instant from which both lanes run (R458). -/
structure ArbRt where
  grant     : Option Nat := none
  noneAt    : Nat := 0
  armed     : Bool := false
  cause     : Option Nat := none
  twPs      : Nat := 0
  reported  : Bool := false
  incoming  : Option Nat := none
  commit    : Option (Nat × Nat × Nat × Bool) := none
  due       : List (Nat × Nat) := []
  diag      : Bool := false
  unexpl    : List Nat := []
  adopt     : Bool := false
  resyncSeq : Nat := 0
  syncTick  : Option Nat := none
  synced    : Bool := false
  testPs    : Nat := 0
  released  : Nat := 0
  floeEv    : Nat := 0
  took      : Bool := false
  missed    : Option Bool := none
  bothPs    : Nat := 0
deriving DecidableEq, Repr

/-! ### Control engines -/

/-- A loop context (R121, R123 to R126, R130, R133, R137): whether it runs, whether its next tick is its first, shaped
reference and slope, error, integrator, derivative, x_prev, output, feedforward, the notch's last inputs and outputs,
flags of R138, the notch centre in Hz with the one to load at the next boundary, and its bank. -/
structure CtxRt where
  on      : Bool := false
  fresh   : Bool := true
  r       : Int := 0
  s       : Rat := 0
  e       : Int := 0
  i       : Int := 0
  d       : Int := 0
  x       : Int := 0
  v       : Int := 0
  ff      : Int := 0
  notch   : List Int := [0, 0, 0, 0]
  flags   : Nat := 0
  centre  : Option Rat := none
  next    : Option Rat := none
  bank    : Bool := false
deriving DecidableEq, Repr

/-- The mode state of an AC section that its engine keeps (R156, R157, R160, R168, R229, R233, R237, R238): machine
angle, speed and its low-pass, mechanical power, filtered reactive power, shaped references, threshold impedance, the
unlimited reference magnitude of the last tick, whether the current limit acts and since when it could release, the
impedance added in a ramp, whether the shaper of r2 is held, the outputs held at entry into a ride-through, the
recovery ramp, Δφ, the references last formed (id+, iq+, id−, iq−), XV_POS_EFF and DAMP_EFF where they stand off
XV_POS and DAMP (R184), the parts of the speed and of its low-pass below one LSB, in 2^−32 LSB (R161), the two integrators on α
and on β of the DSOGI (vα′, qvα′, vβ′, qvβ′, R193), and the coefficients of the synchronisation loop as it entered FOLLOWING or as
they were written there (PLL_KP and PLL_KI, R194), since when the limit could release, and what the loops start from in the next
tick: 1 positions 8 to 11 from the clamp set, 2 positions 4 to 11 (R239, R241). -/
structure VsmRt where
  theta    : Nat := 0
  dw       : Int := 0
  dwLp     : Int := 0
  pM       : Int := 0
  qF       : Int := 0
  pRef     : Int := 0
  qRef     : Int := 0
  viAdd    : Int := 0
  mag      : Int := 0
  limited  : Bool := false
  rvAdd    : Int := 0
  held     : Bool := false
  idPre    : Int := 0
  iqPre    : Int := 0
  idRec    : Int := 0
  dphi     : Int := 0
  refs     : List Int := [0, 0, 0, 0]
  xv       : Option Rat := none
  damp     : Option Rat := none
  dwRem    : Int := 0
  lpRem    : Int := 0
  sogi     : List Int := [0, 0, 0, 0]
  calmPs   : Option Nat := none
  pll      : List Nat := [0, 0]
  start    : Nat := 0
deriving DecidableEq, Repr

/-- What the engines keep (R80, R92, R127): the contexts, the signals of sections and channels, the validity of each
channel's sample, the mode state of the sections, the shaped I_SET and the two effective limits of each DC channel,
the normal and the clamp duties that wait for the commit, and the injection's target before and after it. -/
structure EngRt where
  ctx    : List CtxRt := List.replicate 160 {}
  sig    : List (List Int) := List.replicate 4 (List.replicate 64 0)
  dsig   : List (List Int) := List.replicate 4 (List.replicate 16 0)
  valid  : List Bool := List.replicate 24 false
  vsm    : List VsmRt := List.replicate 4 {}
  iSet   : List Int := List.replicate 4 0
  iOut   : List Int := List.replicate 4 0
  iIn    : List Int := List.replicate 4 0
  duty   : List (List Rat) := List.replicate 8 []
  clamp  : List (List Rat) := List.replicate 8 []
  pre    : Int := 0
  post   : Int := 0
deriving DecidableEq, Repr

/-- A record of Moraine (R140). -/
structure TraceRec where
  t0    : Nat
  valid : Nat
  tick  : Nat
  flags : Nat
  vals  : List Int
deriving DecidableEq, Repr

/-- Moraine (R140 to R144): the records held, the number of the oldest, whether each side of an edge trigger has been
seen since arming, whether TRACE_FORCE or another trigger waits for its record, records since the trigger record,
records lost that no stream frame has told, the number of the next record to stream, whether an injection
started in the tick, the values and validity of the last committed tick, the record before the oldest one held, how
many of the tick's events were raised before arming, and the records whose words one lane has lost (lane, number; R313). -/
structure TraceRt where
  recs    : List TraceRec := []
  first   : Nat := 0
  low     : Bool := false
  high    : Bool := false
  fire    : Bool := false
  since   : Nat := 0
  gap     : Bool := false
  sent    : Nat := 0
  injNow  : Bool := false
  last    : List Int := []
  lastOk  : Nat := 0
  spare   : List TraceRec := []
  seen    : Nat := 0
  spoilt  : List (Nat × Nat) := []
deriving DecidableEq, Repr

/-- The injection generator (R146 to R150): whether it runs, its sequence number, point, phase, step, ticks of the
present stage, sums of the two captured nodes, register and bit of the PRBS, its signal, and the marks of R148. -/
structure InjRt where
  run    : Bool := false
  seq    : Nat := 0
  point  : Nat := 0
  ang    : Nat := 0
  step   : Nat := 0
  ticks  : Nat := 0
  aRe    : Rat := 0
  aIm    : Rat := 0
  bRe    : Rat := 0
  bIm    : Rat := 0
  reg    : Nat := 0
  sig    : Int := 0
  mark   : Nat := 0
deriving DecidableEq, Repr

/-! ### Measurement chain -/

/-- A measurement channel beyond its entries (R88 to R92, R98, R104, R108): the scaling product in force, the one that the last round
formed, k_temp as last formed; the captured bits, newest in bit 0; the good bits since it was lost or began to settle, the bits
captured since it was valid last (none: not yet a tick), and whether it is to become valid at the next boundary; the last instant at
which it was not valid; and since when all of its users are at rest with both relays open, with the window of OFFSET_TRACK under way:
its start, the sum of d − CAL_OFFSET and the samples in it. -/
structure MeasCh where
  prod    : Rat := 0
  next    : Option Rat := none
  kTemp   : Rat := 1
  win     : Nat := 0
  good    : Option Nat := none
  clean   : Option Nat := none
  settled : Bool := false
  badPs   : Option Nat := none
  restPs  : Option Nat := none
  trkPs   : Nat := 0
  trkSum  : Int := 0
  trkN    : Nat := 0
deriving DecidableEq, Repr

/-- What a channel has captured counts no more: it is lost, or it begins to settle (R92, R108). -/
def MeasCh.spoilt (x : MeasCh) : MeasCh := { x with good := none, clean := none, settled := false }

/-- The commissioning calibration (R100 to R102): the point that runs with its sequence number, its channel, the raw
f32 of the reference of a span, the blocks that it averages with the values so far, whether the zero point stands, and the kind of
the span that stands. -/
structure CalRt where
  run    : Option Nat := none
  seq    : Nat := 0
  chan   : Nat := 0
  ref    : Nat := 0
  blocks : Nat := 0
  vals   : List Int := []
  zero   : Bool := false
  span   : Nat := 0
deriving DecidableEq, Repr

/-- A plausibility check (R112, R113): ticks in a row in which its condition held, ticks in a row in which it did not, and whether it
has failed and is not armed again. -/
structure CheckRt where
  run    : Nat := 0
  calm   : Nat := 0
  failed : Bool := false
deriving DecidableEq, Repr

/-- Metering of a unit (R93, R94): the start of the block under way, the last upward zero of GRID_PHASE that no block has ended at, and
the energy below one mWh, out and in. -/
structure MeterRt where
  startPs : Nat := 0
  zeroPs  : Option Nat := none
  remOut  : Rat := 0
  remIn   : Rat := 0
deriving DecidableEq, Repr

/-- The measurement chain: the channels, the calibration, the filtered disagreement of each lane's references in 0.01 ppm and whether
it holds k_temp (R105), the mask of the channels whose stream was lost and has not settled since (R109, R301), the mask of those whose
users continue on the partner (R111), the checks of R112 (sums of the sections, pairs by their lower channel, split links of the
sections, clipping of the channels), and the metering of the units. -/
structure MeasRt where
  ch      : List MeasCh := List.replicate 24 {}
  cal     : CalRt := {}
  refFilt : List Rat := [0, 0]
  refHeld : List Bool := [false, false]
  lost    : Nat := 0
  fall    : Nat := 0
  checks  : List CheckRt := List.replicate 56 {}
  meter   : List MeterRt := List.replicate 8 {}
deriving DecidableEq, Repr

/-! ### Time and networks -/

/-- A trigger output (R379, R382): the TAI ns of its next pulse, the pulses left where they are counted, whether
TIME_REACQUIRE has suspended it, and the TAI ns of its last pulse. -/
structure TrigRt where
  next      : Option Int := none
  left      : Option Nat := none
  suspended : Bool := false
  last      : Option Int := none
deriving DecidableEq, Repr

/-- The timebase and PTP (R369 to R378): whether it has been stepped since power-up or TIME_REACQUIRE, whether the
source is qualified, the Sync and delay measurements of the parent, the last estimates of the offset, runs of small
and of large offsets, whether EV100 was raised in this episode, the Sync that waits for its Follow_Up (sequenceId,
receive instant, correction), the delay request sent (sequenceId, instant) with the two-step answer to a peer's,
the measured path delay in ns, the last Sync's offset without the delay, the instant of the loss, the edges of PPS_IN,
whether TIME_SET has supplied the seconds, whether PTP supplies UTC, the last pulse of PPS_OUT, the instant and the interval of the last Sync of the parent, and the
triggers. -/
structure TimeRt where
  stepped   : Bool := false
  qualified : Bool := false
  syncs     : Nat := 0
  delays    : Nat := 0
  est       : List Int := []
  small     : Nat := 0
  large     : Nat := 0
  alarmed   : Bool := false
  twoStep   : Option (Nat × Int × Int) := none
  request   : Option (Nat × Int) := none
  reqSeq    : Nat := 0
  pdelay    : Option (Nat × Int × Int) := none
  delay     : Option Int := none
  masterTo  : Option Int := none
  lostPs    : Option Nat := none
  ppsPs     : Option Nat := none
  ppsRun    : Nat := 0
  secondsOk : Bool := false
  utcByPtp  : Bool := false
  lastPps   : Option Int := none
  syncPs    : Option (Nat × Nat) := none
  trig      : List TrigRt := List.replicate 4 {}
deriving DecidableEq, Repr

/-- A DNP3 event that waits for its confirmation (R391): point, raw value, UTC ns. -/
structure DnpEvent where
  point : Nat
  value : Nat
  utc   : Int
deriving DecidableEq, Repr

/-- The network services (R388 to R393, R464): failed TLS handshakes as (address, instant), the addresses whose
connections are reset with the instant at which that ends, connections that wait for TLS, connections reset, the last
answer of Modbus (exception code and registers) and of DNP3 (status per control, values per point), the DNP3 events
with the values last reported, whether their buffer has overflowed, and the events of the last unsolicited response with how many
of those that wait have gone out in one. -/
structure NetRt where
  fails     : List (Nat × Nat) := []
  banned    : List (Nat × Nat) := []
  refused   : Nat := 0
  mbReply   : Option (Nat × List Nat) := none
  dnpReply  : List (Nat × Nat) := []
  dnpEvents : List DnpEvent := []
  dnpLast   : List (Nat × Nat) := []
  dnpOver   : Bool := false
  dnpUnsol  : List DnpEvent := []
  dnpSent   : Nat := 0
deriving DecidableEq, Repr

/-! ### Security -/

/-- Cirque and the security functions (R453 to R467): the keys of the 16 slots, the operational key pair and its
certificate, the four trust anchors, the CRL bytes with the serials they revoke, the bytes uploaded so far, the
FW_STAGE under way, the images verified by it, the images that run in the lanes, the value
CERTIFIED_MODE takes at the next power cycle, the debug challenge with its instant, the lane whose debug port is
unlocked, the certificates whose EV111 was raised, and the images (lane, 0 A or 1 B) that hold an uncorrectable codeword. -/
structure SecuRt where
  keys     : List (List Byte) := List.replicate 16 []
  opKey    : Bool := false
  opCert   : List Byte := []
  anchors  : List (List Byte) := List.replicate 4 []
  crl      : List Byte := []
  revoked  : List Nat := []
  upload   : List Byte := []
  staging  : Option Nat := none
  staged   : Option (ImageInfo × ImageInfo) := none
  safety   : Option ImageInfo := none
  running  : List (Option ImageInfo) := [none, none]
  certNext : Option Nat := none
  debug    : Option (Nat × List Byte) := none
  unlocked : Option Nat := none
  told     : List Nat := []
  badImg   : List (Nat × Nat) := []
deriving DecidableEq, Repr

/-! ### Temperatures, cooling drive, clocks and housekeeping -/

/-- One threshold (R421): whether it counts as reached, rounds in a row at or above it, rounds in a row below what
leaves it. -/
structure LevelRt where
  on   : Bool := false
  up   : Nat := 0
  down : Nat := 0
deriving DecidableEq, Repr

/-- Thermal management (R418 to R425): per sensor the rounds in a row beyond 8 K and, while SENSOR_RESTORE is under
way, the rounds in a row within; the levels (throttle, derate, stop, then NTC_DERATE and NTC_STOP of each NTC);
whether too few die sensors are valid; the end of the grace time; whether enforcement starts at the next boundary
or runs, with k; and the instant from which the next step of THROTTLE_STEP is timed. -/
structure ThermRt where
  beyond   : List Nat := List.replicate 16 0
  restore  : List (Option Nat) := List.replicate 16 none
  levels   : List LevelRt := List.replicate 19 {}
  few      : Bool := false
  gracePs  : Option Nat := none
  starts   : Bool := false
  enforce  : Bool := false
  k        : Rat := 1
  throtPs  : Option Nat := none
deriving DecidableEq, Repr

/-- The cooling drive (R426 to R431): the internal enable, whether CD_VBUS has been good since power-up, the instants
of the retries, whether the retry delay runs, duty in 0.01 % with the integrator of the speed loop, the Hall code with
the phases driven (high, low), and the bootstrap refreshes; since when CD_VBUS has been at least 36 V, the instants of the fault,
of the last Hall edge and of the last speed update, since when the duty has been at least 10 %, and since when the same high
side has been held on without a break. -/
structure CdRt where
  enable   : Bool := false
  busGood  : Bool := false
  retries  : List Nat := []
  waiting  : Bool := false
  duty     : Rat := 0
  integ    : Rat := 0
  phases   : Option (Nat × Nat) := none
  refresh  : Nat := 0
  goodPs   : Option Nat := none
  faultPs  : Nat := 0
  hallPs   : Nat := 0
  updPs    : Nat := 0
  dutyPs   : Option Nat := none
  heldPs   : Option Nat := none
deriving DecidableEq, Repr

/-- Clocks and housekeeping (R438 to R447): TCXO lost, windows for which N still moves after a trim, a change of REF
in the present window, the deviations that may be the largest of the last second per lane (instant, 0.01 ppm), the dither
register as last loaded, per converter the rounds in a row with a bad ground and a bad reference input, per converter
and input the conversions in a row outside the window with whether EV028 was raised, the urgent request (sequence
number, input, converter), the converters that took one in the present round, the instants of the last round of each
converter and of the last lock window of each lane, and the instant at which the TCXO was counted lost. -/
structure HkRt where
  tcxoLost  : Bool := false
  moving    : Nat := 0
  refMoved  : List Bool := [false, false]
  margins   : List (List (Nat × Nat)) := [[], []]
  dither    : Nat := 1
  groundBad : List Nat := [0, 0]
  refBad    : List Nat := [0, 0]
  rails     : List Nat := List.replicate 64 0
  railDone  : List Bool := List.replicate 64 false
  urgent    : Option (Nat × Nat × Nat) := none
  urgentIn  : List Bool := [false, false]
  roundPs   : List Nat := [0, 0]
  winPs     : List Nat := [0, 0]
  lossPs    : Nat := 0
deriving DecidableEq, Repr

/-! ### Ageing -/

/-- The targets of a plan (R487): k_I of each link channel in q29, the increments of the pairs' dead times (A then B,
ps), the decrements of the NTCs' thermal points and of DERATE_LEVEL (0.01 K). -/
structure Targets where
  kI     : List Nat := List.replicate 24 536870912
  dtInc  : List Nat := List.replicate 64 0
  ntc    : List Nat := List.replicate 8 0
  derate : Nat := 0
deriving DecidableEq, Repr

/-- A record of the plan log (R492). -/
structure PlanRec where
  gen     : Nat
  time    : Nat
  state   : Nat
  cause   : Nat
  flags   : Nat
  kI      : Nat
  cRatio  : Nat
  esrRatio : Nat
  rthRatio : Nat
  derate  : Int
  ntc     : Int
  dtInc   : Nat
  dtPair  : Nat
  prev    : Nat
deriving DecidableEq, Repr

/-- Ageing and margin planning (R484 to R493): the references of C and ESR that the module has learned as (link
channel, raw f32 of C, raw f32 of ESR), the applied factors, the applied increments of the dead times, the applied decrements of the NTCs and
of DERATE_LEVEL, the targets in force, the plans logged oldest first, the newest plan that waits under PLAN_FREEZE,
the units whose baseline is complete (0 link, 1 pair, 2 NTC, 3 cooling), estimates that are valid in the same form,
the warnings whose episode lasts, whether AGEING_REBASE has acted since the last plan, and whether a plan moves; the blocks of
each link (raw f32 of C and ESR, the last 100); the baselines of the turn-off delays (pair, bin, A and B in ps), of the thermal
resistances (raw f32) and of the cooling current (bin of 500 rpm, mA); the daily means of REF_DISAGREE of each lane, of TRIM and of
the die temperature over 30 days; the erase counts of the regions of each lane; DRAM_CORR_HOUR of each lane hour by hour over 30 days;
the hours of operation with the hour at which a baseline restarted (kind, unit, hour); and the instants of the last plan computed, of the
last step and of the last hour. -/
structure AgeRt where
  learned  : List (Nat × Nat × Nat) := []
  factor   : List Rat := List.replicate 24 1
  dtInc    : List Rat := List.replicate 64 0
  ntc      : List Rat := List.replicate 8 0
  derate   : Rat := 0
  target   : Targets := {}
  log      : List PlanRec := []
  frozen   : Option (PlanRec × Targets) := none
  based    : List (Nat × Nat) := []
  valid    : List (Nat × Nat) := []
  warned   : List Nat := []
  rebased  : Bool := false
  moving   : Bool := false
  blocks   : List (List (Nat × Nat)) := List.replicate 24 []
  toffBase : List (Nat × Nat × Int × Int) := []
  rthBase  : List (Option Nat) := List.replicate 8 none
  coolBase : List (Nat × Nat) := []
  refDays  : List (List Int) := [[], []]
  trimDays : List Int := []
  dieDays  : List Int := []
  erases   : List Nat := List.replicate 8 0
  dramHrs  : List (List Nat) := [[], []]
  opHours  : Nat := 0
  since    : List (Nat × Nat × Nat) := []
  planPs   : Nat := 0
  stepPs   : Nat := 0
  hourPs   : Nat := 0
deriving DecidableEq, Repr

/-! ### Power-up -/

/-- Power-up (R471 to R481): whether the logic supply stands, whether the lanes are released and the release's
instant, whether the safety die runs, the failures to report as (lane, step, code), whether the field die is at fault,
whether the readings of Serac's poles were unstable, whether the seals have been decided since power-up, and the instant before which Serac
releases nothing after a RESET_N pulse (R363). -/
structure BootRt where
  power    : Bool := false
  released : Option Nat := none
  safetyUp : Bool := false
  fails    : List (Nat × Nat × Nat) := []
  fieldBad : Bool := false
  sealBBad : Bool := false
  sealDone : Bool := false
  relPs    : Nat := 0
deriving DecidableEq, Repr

/-- The module proper. `hostSet` are the coefficient entries that the host has written (R154); `lost` the stored entries
whose record no copy holds any more (R314). `gens` are the generation numbers of the lanes' configuration regions (R476);
`idle` is what the pins of every pair outside a group in use carry (R251, R271). -/
structure Mod where
  clk     : Clock := {}
  obj     : List (Nat × Nat) := []
  sto     : List (Nat × Nat) := []
  gens    : List Nat := [0, 0]
  link    : Link := {}
  mbx     : List Mailbox := List.replicate 4 {}
  sess    : List (Nat × Session) := []
  hostQ   : EvQueue := {}
  qseq    : Nat := 0
  streams : List (Nat × Stream) := []
  staged  : List Staged := []
  acts    : List BoundaryAct := []
  sched   : List Sched := []
  order   : Nat := 0
  free    : Nat := 0
  seenEv  : List Nat := []
  grp     : List GrpRt := List.replicate 8 {}
  pairs   : List PairRt := List.replicate 32 {}
  idle    : Pins := .hiZ
  prot    : ProtRt := {}
  sdc     : SdcRt := {}
  sec     : List SecRt := List.replicate 4 {}
  dc      : List DcRt := List.replicate 4 {}
  fld     : List FieldRt := List.replicate 32 {}
  fgrp    : List FieldGrpRt := List.replicate 4 {}
  rime    : List RimeRt := List.replicate 2 {}
  lanes   : List LaneRt := List.replicate 2 {}
  arb     : ArbRt := {}
  eng     : EngRt := {}
  saved   : EngRt := {}
  trace   : TraceRt := {}
  inj     : InjRt := {}
  hostSet : List Nat := []
  lost    : List Nat := []
  meas    : MeasRt := {}
  time    : TimeRt := {}
  net     : NetRt := {}
  secu    : SecuRt := {}
  therm   : ThermRt := {}
  cd      : CdRt := {}
  hk      : HkRt := {}
  age     : AgeRt := {}
  power   : BootRt := {}
deriving DecidableEq, Repr

/-- What outlives every run until the stated moment: Cirque's 64 anti-rollback counters (R458) and the seal
readings of the last power-up with their state (R361, R362). -/
structure Kept where
  rollback  : List Nat := List.replicate 64 0
  sealA     : Nat := 0
  sealB     : Nat := 0
  sealState : Nat := 0
deriving DecidableEq, Repr

/-- The block: the commands that wait, first in first out, the module, and what it keeps. -/
structure State where
  pending : List Instr := []
  m       : Mod := {}
  kept    : Kept := {}
deriving DecidableEq, Repr

/-- The block before its logic supply rises: no command waits, every entry at its default, every unit at the value
its chapter gives for power-up (R471 to R474). DESIGN CHOICE, log entries 3 and 7; DEDUCED, log entry 4. -/
def State.reset : State := {}

end Sys2Proof.Machine
end

