-- ==== Sys2Proof/Machine/Wire.lean ====
section
/-!
DEFINITION. Frames that leave the module as bytes (R46, R47, R59, R61): the CRC-16/CCITT, responses in the three
generations, the signing of a GHP3 frame, and the event frames of a session.
-/
namespace Sys2Proof.Machine

/-! ### CRC-16/CCITT (R46) -/

/-- One bit of the CRC: polynomial 1021h, no reflection. -/
def crcBit (c : Nat) : Nat := if c < 32768 then c * 2 else (c * 2 % 65536) ^^^ 0x1021

/-- One byte of the CRC. -/
def crcByte (c : Nat) (b : Byte) : Nat :=
  crcBit (crcBit (crcBit (crcBit (crcBit (crcBit (crcBit (crcBit (c ^^^ (b.toNat * 256)))))))))

/-- The CRC over bytes, from FFFFh, with no final XOR. -/
def crc16 (l : List Byte) : Nat := l.foldl crcByte 0xFFFF

/-! ### Bytes of a response or an unsolicited frame -/

/-- GHP1, 64 bytes. -/
def ghp1Bytes (r : Rsp) : List Byte :=
  let d := r.data.take 56
  leBytes 1 (r.op + 128) ++ leBytes 1 r.status ++ leBytes 2 r.seq ++ leBytes 2 r.idx ++ leBytes 1 r.sub ++ leBytes 1 d.length
    ++ d ++ List.replicate (56 - d.length) 0

/-- GHP2, 12 bytes and the data. -/
def ghp2Bytes (r : Rsp) : List Byte :=
  let b := leBytes 1 2 ++ leBytes 1 (r.op + 128) ++ leBytes 2 r.seq ++ leBytes 2 (12 + r.data.length) ++ leBytes 2 r.idx
    ++ leBytes 1 r.sub ++ leBytes 1 r.status ++ r.data
  b ++ leBytes 2 (crc16 b)

/-- The HMAC field of a GHP3 frame over the bytes before it; 32 bytes of 00h in an AUTH_FAIL response (R47). -/
def hmacField (key : List Byte) (status : Nat) (b : List Byte) : List Byte :=
  if status = 0x20 then List.replicate 32 0 else (Config.hmacSha256 key b ++ List.replicate 32 0).take 32

/-- GHP3, 50 bytes and the data. -/
def ghp3Bytes (key : List Byte) (r : Rsp) : List Byte :=
  let b := leBytes 1 3 ++ leBytes 1 (r.op + 128) ++ leBytes 2 r.seq ++ leBytes 2 (50 + r.data.length) ++ leBytes 2 r.idx
    ++ leBytes 1 r.sub ++ leBytes 1 r.status ++ leBytes 1 r.slot ++ leBytes 1 0 ++ leBytes 4 r.ctr ++ r.data
  let c := b ++ hmacField key r.status b
  c ++ leBytes 2 (crc16 c)

/-- The largest data field of a generation (R40). -/
def dataLimit (gen : Nat) : Nat := if gen = 1 then 56 else if gen = 2 then 1012 else 974

/-! ### A GHP3 frame leaves -/

/-- The counter of the next frame that leaves a session (R47): one more than the last. -/
def Chan.nextCtr (c : Chan) : Nat := (c.ctrOut.getD 0 + 1) % 4294967296

/-- A GHP3 frame as it leaves, and the channel after it: the counter goes with the frame, but for an AUTH_FAIL response,
which repeats the last one, and the response to SESSION_OPEN, which starts at 0. -/
def Chan.sign (r : Rsp) (c : Chan) : List Byte × Chan :=
  if r.status = 0x20 then (ghp3Bytes c.key { r with ctr := c.ctrOut.getD 0 }, c)
  else if r.op = 4 && r.idx = 0x6421 && r.status = 0 then (ghp3Bytes c.key { r with ctr := 0 }, c)
  else (ghp3Bytes c.key { r with ctr := c.nextCtr }, { c with ctrOut := some c.nextCtr })

/-! ### Event frames (R59, R61) -/

/-- Bytes of an event entry (R59). -/
def EvEntry.bytes (e : EvEntry) : List Byte :=
  leBytes 4 e.time ++ leBytes 1 e.ev ++ leBytes 1 e.flags ++ leBytes 2 e.fault ++ leBytes 2 e.qseq ++ leBytes 2 e.count ++ leBytes 4 e.arg

/-- An unsolicited event frame of at most 60 entries: opcode 8Ah, index 0000h, the entries as data (R61). -/
def eventFrame (slot : Nat) (es : List EvEntry) : Rsp :=
  { op := 10, idx := 0, sub := 0, seq := 0, status := 0, data := es.flatMap EvEntry.bytes, slot := slot }

/-- The frames that carry entries, 60 in each, signed one after another (R47, R61); `fuel` bounds their number. -/
def eventFrames : Nat → List EvEntry → Chan → List (List Byte) × Chan
  | 0, _, c        => ([], c)
  | fuel + 1, es, c =>
    if es.isEmpty then ([], c)
    else
      let b := c.sign (eventFrame (c.slot.getD 255) (es.take 60))
      let r := eventFrames fuel (es.drop 60) b.2
      (b.1 :: r.1, r.2)

end Sys2Proof.Machine
end

