-- ==== Sys2Proof/Machine/Ops.lean ====
section
/-!
DEFINITION. The named operations that every meaning uses: the object store, the clock, the event queues, the
free values, and the lifting of a function on the module to an outcome of the block.
-/
namespace Sys2Proof.Machine

/-! ### The store of values

Values are (key, raw value) pairs with keys strictly rising, and no pair equal to what an unlisted key reads
as; so equal stores are equal data. -/

/-- The value under a key, or the default. -/
def cellGet (d : Nat → Nat) (k : Nat) : List (Nat × Nat) → Nat
  | []      => d k
  | p :: ps => if p.1 = k then p.2 else cellGet d k ps

/-- The store without a key. -/
def cellDrop (k : Nat) : List (Nat × Nat) → List (Nat × Nat)
  | []      => []
  | p :: ps => if p.1 = k then cellDrop k ps else p :: cellDrop k ps

/-- The store with a pair put in its place. -/
def cellPut (k v : Nat) : List (Nat × Nat) → List (Nat × Nat)
  | []      => [(k, v)]
  | p :: ps => if p.1 = k then (k, v) :: ps else if k < p.1 then (k, v) :: p :: ps else p :: cellPut k v ps

/-- The store after a write: the value an unlisted key reads as removes the pair. -/
def cellSet (d : Nat → Nat) (k v : Nat) (l : List (Nat × Nat)) : List (Nat × Nat) :=
  if v = d k then cellDrop k l else cellPut k v l

/-- The canonical form of a store, all keys above `lo`. -/
def cellsFrom (d : Nat → Nat) : Option Nat → List (Nat × Nat) → Bool
  | _, []       => true
  | lo, p :: ps => (match lo with | none => true | some b => b < p.1) && p.2 != d p.1 && cellsFrom d (some p.1) ps

/-- The canonical form of a store. -/
def cellsOk (d : Nat → Nat) (l : List (Nat × Nat)) : Bool := cellsFrom d none l

/-- The value in force of an entry (R10). -/
def Mod.get (m : Mod) (k : Nat) : Nat := cellGet dfltOf k m.obj

/-- The module with a value put in force. -/
def Mod.put (k v : Nat) (m : Mod) : Mod := { m with obj := cellSet dfltOf k v m.obj }

/-- Whether a lane applies the stores of the moment: before the first claim both do, then the active lane and a standby
lane that serves (R14, R17). DEDUCED, log entry 66. -/
def Mod.stores (m : Mod) (l : Nat) : Bool :=
  !m.arb.armed || m.get Ob.activeLane = l || (m.get (Ob.roleNow l) = 1 && m.get (Ob.health l) ≤ 1)

/-- The generation numbers of the two configuration regions after a store (R476). DEDUCED, log entry 66. -/
def Mod.gensNext (m : Mod) : List Nat :=
  (List.range 2).map (fun l => if m.stores l then (m.gens.getD l 0 + 1) % 4294967296 else m.gens.getD l 0)

/-- The module with a stored value written to flash and put in force (R12, R17). -/
def Mod.keep (k v : Nat) (m : Mod) : Mod :=
  { m with obj := cellSet dfltOf k v m.obj, sto := cellSet dfltOf k v m.sto, gens := m.gensNext }

/-- The module with a value written to flash alone (R12). -/
def Mod.keepOnly (k v : Nat) (m : Mod) : Mod := { m with sto := cellSet dfltOf k v m.sto, gens := m.gensNext }

/-- The type of the entry under a key; u32 where no table names it. -/
def tyOf (k : Nat) : ObjTy := match rowOfKey k with | some r => r.ty | none => .u32

/-- The reading of an entry in force: signed for the signed types (R5). -/
def Mod.getI (m : Mod) (k : Nat) : Int := (tyOf k).reading (m.get k)

/-- A q29, fmhz or s32 entry in force. -/
def Mod.getS (m : Mod) (k : Nat) : Int := Raw.signed 32 (m.get k)

/-- An s16 entry in force. -/
def Mod.getS16 (m : Mod) (k : Nat) : Int := Raw.signed 16 (m.get k)

/-- An f32 entry in force as a rational; 0 for an infinity or no number, which no write can bring (R13). -/
def Mod.getF (m : Mod) (k : Nat) : Rat := (f32Val (m.get k)).getD 0

/-- Put a q29 value in force, saturated (R6). -/
def Mod.putQ (k : Nat) (v : Int) (m : Mod) : Mod := m.put k (Raw.ofInt 32 (sat29 v))

/-- Put a signed 32-bit value in force, saturated. -/
def Mod.putS (k : Nat) (v : Int) (m : Mod) : Mod := m.put k (Raw.ofInt 32 (clampI (-2147483648) 2147483647 v))

/-- Put a signed 16-bit value in force, saturated. -/
def Mod.putS16 (k : Nat) (v : Int) (m : Mod) : Mod := m.put k (Raw.ofInt 16 (clampI (-32768) 32767 v))

/-- Put an f32 value in force. -/
def Mod.putF (k : Nat) (v : Rat) (m : Mod) : Mod := m.put k (f32Raw v)

/-- Add to a u32 counter, modulo 2^32. -/
def Mod.bump (k : Nat) (m : Mod) : Mod := m.put k ((m.get k + 1) % 4294967296)

/-- Apply a function for each number of a list in turn. -/
def Mod.each (l : List Nat) (f : Nat → Mod → Mod) (m : Mod) : Mod := l.foldl (fun m n => f n m) m

/-- Apply a function where a condition holds. -/
def Mod.when (c : Bool) (f : Mod → Mod) (m : Mod) : Mod := if c then f m else m

/-! ### Time (R5, R368) -/

/-- TAI in ns. -/
def Mod.tai (m : Mod) : Int := m.clk.taiBase + (m.clk.upPs / 1000 : Nat)

/-- The present t64. -/
def Mod.t64 (m : Mod) : Nat := (m.tai % 18446744073709551616).toNat

/-- The present t32. -/
def Mod.t32 (m : Mod) : Nat := (m.tai % 4294967296).toNat

/-- The t32 of an instant. -/
def Mod.t32At (ps : Nat) (m : Mod) : Nat := ((m.clk.taiBase + (ps / 1000 : Nat)) % 4294967296).toNat

/-- The present instant in ps since power-up. -/
def Mod.now (m : Mod) : Nat := m.clk.upPs

/-- Let `ps` pass. DESIGN CHOICE, log entry 1. -/
def Mod.pass (ps : Nat) (m : Mod) : Mod := { m with clk := { m.clk with upPs := m.clk.upPs + ps } }

/-- Let `ns` pass. DESIGN CHOICE, log entry 1. -/
def Mod.passNs (ns : Nat) (m : Mod) : Mod := m.pass (ns * 1000)

/-- Advance the clock to an instant that has not passed yet. DESIGN CHOICE, log entry 1. -/
def Mod.reach (ps : Nat) (m : Mod) : Mod := { m with clk := { m.clk with upPs := max m.clk.upPs ps } }

/-- Advance the clock to a TAI instant in ns that has not passed yet. -/
def Mod.reachTai (t : Int) (m : Mod) : Mod := m.reach ((t - m.clk.taiBase) * 1000).toNat

/-- ps of a number of ms. -/
def msPs (ms : Nat) : Nat := ms * 1000000000

/-- ps of a number of s. -/
def sPs (s : Nat) : Nat := s * 1000000000000

/-- The tick period in ps (R68): a carrier period of CARRIER_CYCLES × 1.25 ns, or half of it. -/
def Mod.tickPs (m : Mod) : Nat :=
  let c := m.get Ob.carrierCycles * 1250
  if m.get Ob.updateMode = 1 then c / 2 else c

/-- The tick period in seconds. -/
def Mod.tickS (m : Mod) : Rat := (m.tickPs : Rat) / (1000000000000 : Nat)

/-! ### Free values -/

/-- Draw a free number: the opaque constant of Config at the state's counter, which advances. DESIGN CHOICE, log entry 5. -/
def Mod.drawNat (m : Mod) : Nat × Mod := (Config.freeNat m.free, { m with free := m.free + 1 })

/-- Draw a free signed number. DESIGN CHOICE, log entry 5. -/
def Mod.drawInt (m : Mod) : Int × Mod := (Config.freeInt m.free, { m with free := m.free + 1 })

/-- Draw from the lane's random source (R165, R462, R466). DESIGN CHOICE, log entry 5. -/
def Mod.drawRandom (m : Mod) : Nat × Mod := (Config.random m.free, { m with free := m.free + 1 })

/-! ### Events (R58 to R61, R377) -/

/-- Severity codes of FLAGS bits 3:2 (R59). -/
def sevInfo : Nat := 0
def sevWarn : Nat := 1
def sevFault : Nat := 2
def sevStop : Nat := 3

/-- Whether a consumer takes an event: EVENTS_LOST and TIME_MARK whatever its mask, others by its mask bit (R58, R67, R377). -/
def EvQueue.wants (q : EvQueue) (ev : Nat) : Bool :=
  ev = 12 || ev = 96 || bit (q.masks.getD (ev / 32) 0) (ev % 32)

/-- Whether the queue holds an unacknowledged entry with the same event and fault code (R60). -/
def EvQueue.holds (q : EvQueue) (ev fault : Nat) : Bool :=
  q.entries.any (fun e => e.ev = ev && e.fault = fault)

/-- Whether an entry added at TAI `now` needs a marker before it (R377). -/
def EvQueue.needsMark (q : EvQueue) (now : Int) : Bool :=
  match q.lastAdded with
  | none   => true
  | some t => 2000000000 < now - t

/-- Whether an event makes this queue take a marker. -/
def EvQueue.takesMark (q : EvQueue) (e : EvEntry) (now : Int) : Bool :=
  q.wants e.ev && !q.holds e.ev e.fault && q.needsMark now && q.entries.length + 2 ≤ 256

/-- The queue with an entry at its end. DEDUCED, log entry 26. -/
def EvQueue.add (q : EvQueue) (e : EvEntry) (now : Int) : EvQueue :=
  { q with entries := q.entries ++ [e], lastAdded := some now }

/-- The first entry with the same event and fault code counts the occurrence and is flagged coalesced (R60). -/
def coalesce (ev fault : Nat) : List EvEntry → List EvEntry
  | []      => []
  | e :: es =>
    if e.ev = ev ∧ e.fault = fault then
      { e with count := satAt 65535 (e.count + 1), flags := setBit e.flags 0 true } :: es
    else e :: coalesce ev fault es

/-- A full queue counts the loss (R60). -/
def EvQueue.lose (q : EvQueue) : EvQueue :=
  { q with lost := satAt 4294967295 (q.lost + 1), lostNew := satAt 4294967295 (q.lostNew + 1) }

/-- A consumer's queue after an event (R58, R60, R377). -/
def EvQueue.take (q : EvQueue) (mark e : EvEntry) (now : Int) : EvQueue :=
  if !q.wants e.ev then q
  else if q.holds e.ev e.fault then { q with entries := coalesce e.ev e.fault q.entries }
  else if q.needsMark now then
    if q.entries.length + 2 ≤ 256 then (q.add mark now).add e now else q.lose
  else if q.entries.length + 1 ≤ 256 then q.add e now
  else q.lose

/-- EVT_N wants a pulse (R61): at once when the last lies 100 µs back, otherwise when that gap ends. -/
def Mod.wantPulse (m : Mod) : Mod :=
  if m.link.evtPulse then
    match m.link.lastPulsePs with
    | none => { m with link := { m.link with lastPulsePs := some m.now, pulses := m.link.pulses + 1 } }
    | some p =>
      if p + 100000000 ≤ m.now then
        { m with link := { m.link with lastPulsePs := some m.now, pulses := m.link.pulses + 1 } }
      else { m with link := { m.link with pulseDue := true } }
  else m

/-- Whether lane B is active (R64). -/
def Mod.laneB (m : Mod) : Bool := m.get Ob.activeLane = 1

/-- FLEET_INDEX as the rules use it: the low 18 bits of SERIAL_NUMBER where it is FFFFFFFFh (R385). DEDUCED, log entry 41. -/
def Mod.fleetNow (m : Mod) : Nat :=
  if m.get Ob.fleetIndex = 0xFFFFFFFF then Config.serialNumber % 262144 else m.get Ob.fleetIndex

/-- The delay of REPORT_SPREAD in ms (R386). -/
def Mod.spreadMs (m : Mod) : Nat := if m.get Ob.reportSpread = 0 then 0 else m.fleetNow % m.get Ob.reportSpread

/-- Whether a network connection is an open GHP3 session: its TLS handshake has ended. -/
def Session.isOpen (x : Session) : Bool := x.kind = .ghp3 && x.tls

/-- A session's waiting entries go out in frames of at most 60 (R61). -/
def Session.sendEvents (x : Session) : Session :=
  let r := eventFrames 5 (x.evq.entries.drop x.sent) x.chan
  { x with sent := x.evq.entries.length, chan := r.2, tx := r.1, frames := x.frames + r.1.length, waitPs := none }

/-- A session after an event has entered its queue (R386): a warning takes everything that waits with it at once; an
information starts the delay of REPORT_SPREAD, where one is set. -/
def Session.report (spread now sev : Nat) (x : Session) : Session :=
  if x.evq.entries.length ≤ x.sent then x
  else if 1 ≤ sev || spread = 0 then x.sendEvents
  else if x.waitPs.isSome then x
  else { x with waitPs := some (now + msPs spread) }

/-- An event enters the queue of every consumer that takes it (R58, R59, R377), with a marker before it where one is due.
DEDUCED, log entry 26. -/
def Mod.enterEvent (time ev sev fault arg : Nat) (m : Mod) : Mod :=
  let now := m.tai
  let flags := eventFlags sev m.laneB
  let probe : EvEntry := ⟨time, ev, flags, fault, 0, 1, arg % 4294967296⟩
  let marks := m.hostQ.takesMark probe now || m.sess.any (fun p => p.2.isOpen && p.2.evq.takesMark probe now)
  let q1 := if marks then (m.qseq + 1) % 65536 else m.qseq
  let mark : EvEntry := ⟨m.t32, 96, eventFlags sevInfo m.laneB, 0, m.qseq, 1, (now / 1000000000 % 4294967296).toNat⟩
  let e := { probe with qseq := q1 }
  { m with
    hostQ  := m.hostQ.take mark e now
    sess   := m.sess.map (fun p =>
      if p.2.isOpen then
        (p.1, Session.report m.spreadMs m.now sev { p.2 with evq := p.2.evq.take mark e now })
      else p)
    qseq   := (q1 + 1) % 65536
    seenEv := ev :: m.seenEv }

/-- Raise an event with the t32 of its entry, its severity, fault code and argument; EVT_N tells of a new entry (R61). -/
def Mod.raiseAt (time ev sev fault arg : Nat) (m : Mod) : Mod :=
  let m1 := m.enterEvent time ev sev fault arg
  if m1.hostQ.entries.length ≠ m.hostQ.entries.length then m1.wantPulse else m1

/-- Raise an event now. -/
def Mod.raise (ev sev fault arg : Nat) (m : Mod) : Mod := m.raiseAt m.t32 ev sev fault arg

/-- Raise an information event without a fault code. -/
def Mod.inform (ev arg : Nat) (m : Mod) : Mod := m.raise ev sevInfo 0 arg

/-! ### Units -/

/-- Whether a section number names a section. -/
def secOk (s : Nat) : Bool := s < 4
/-- Whether a DC channel number names a channel. -/
def dcOk (c : Nat) : Bool := c < 4
/-- Whether a lane number names a lane. -/
def laneOk (l : Nat) : Bool := l < 2

/-! ### From a function on the module to an outcome -/

/-- The outcome of a command that changes the module alone. -/
def onMod (s : State) (m : Mod) : Host.Outcome State Fault Refusal := .next { s with m := m }

/-- The same for an event that names a unit. DESIGN CHOICE, log entry 8. -/
def onUnit (ok : Bool) (s : State) (m : Mod) : Host.Outcome State Fault Refusal :=
  if ok then .next { s with m := m } else .fault .noSuchUnit

end Sys2Proof.Machine
end

