-- ==== Sys2Proof/Machine/Units.lean ====
section
/-!
DEFINITION. The units: AC sections are groups 0 to 3 and DC channels groups 4 to 7 (R250). What a group drives,
whether a unit is at rest, the changes of state with their events (R162, R192, R213, R221), going to REST at a trip
(R296), and the hold of a unit (R179, R200, R213).
-/
namespace Sys2Proof.Machine

/-! ### Access to one unit -/

def Mod.secAt (m : Mod) (s : Nat) : SecRt := m.sec.getD s {}
def Mod.dcAt (m : Mod) (c : Nat) : DcRt := m.dc.getD c {}
def Mod.grpAt (m : Mod) (g : Nat) : GrpRt := m.grp.getD g {}
def Mod.pairAt (m : Mod) (p : Nat) : PairRt := m.pairs.getD p {}

def Mod.modSec (s : Nat) (f : SecRt → SecRt) (m : Mod) : Mod := { m with sec := m.sec.modify s f }
def Mod.modDc (c : Nat) (f : DcRt → DcRt) (m : Mod) : Mod := { m with dc := m.dc.modify c f }
def Mod.modGrp (g : Nat) (f : GrpRt → GrpRt) (m : Mod) : Mod := { m with grp := m.grp.modify g f }
def Mod.modPair (p : Nat) (f : PairRt → PairRt) (m : Mod) : Mod := { m with pairs := m.pairs.modify p f }

/-! ### The contexts of a unit (R119, R120) -/

/-- The first context of a unit's block, and how many it has. -/
def ctxBlock (g : Nat) : Nat := if g < 4 then 24 * g else 96 + 6 * (g - 4)
def ctxCount (g : Nat) : Nat := if g < 4 then 24 else 6

/-- A context. -/
def Mod.ctxAt (m : Mod) (n : Nat) : CtxRt := m.eng.ctx.getD n {}
def Mod.modCtx (n : Nat) (f : CtxRt → CtxRt) (m : Mod) : Mod := { m with eng := { m.eng with ctx := m.eng.ctx.modify n f } }
def Mod.vsmAt (m : Mod) (s : Nat) : VsmRt := m.eng.vsm.getD s {}
def Mod.modVsm (s : Nat) (f : VsmRt → VsmRt) (m : Mod) : Mod := { m with eng := { m.eng with vsm := m.eng.vsm.modify s f } }

/-- The contexts of a unit stop when it reaches REST. -/
def Mod.stopCtx (g : Nat) (m : Mod) : Mod :=
  m.each ((List.range (ctxCount g)).map (ctxBlock g + ·)) (fun n m => m.modCtx n (fun x => { x with on := false, v := 0, r := 0 }))

/-! ### Groups (R250) -/

/-- LAYOUT of a group. -/
def Mod.layout (m : Mod) (g : Nat) : Nat := m.get (Ob.grpLayout g)

/-- Whether a group is in use. -/
def Mod.inUse (m : Mod) (g : Nat) : Bool := m.layout g ≠ 0

/-- Pairs per leg or phase (R250). -/
def pairsPerLeg (g layout : Nat) : Nat :=
  if g < 4 then (if layout = 1 then 1 else if layout = 2 then 2 else if layout = 3 then 2 else if layout = 4 then 3 else 0)
  else 1

/-- Legs or phases of a group (R250). -/
def legsOf (g layout : Nat) : Nat := if g < 4 then (if layout = 0 then 0 else 3) else layout

/-- Pairs that a layout takes (R250). -/
def pairsOf (g layout : Nat) : Nat := if layout = 0 then 0 else legsOf g layout * pairsPerLeg g layout

/-- The pairs of a group: consecutive from FIRST_PAIR. -/
def Mod.groupPairs (m : Mod) (g : Nat) : List Nat :=
  (List.range (pairsOf g (m.layout g))).map (fun i => m.get (Ob.firstPair g) + i)

/-- Whether a section is three-level. -/
def Mod.threeLevel (m : Mod) (g : Nat) : Bool := g < 4 && 2 ≤ m.layout g

/-- The groups in use. -/
def Mod.groupsInUse (m : Mod) : List Nat := (List.range 8).filter m.inUse

/-- The group that holds a pair. -/
def Mod.groupOfPair (m : Mod) (p : Nat) : Option Nat :=
  (List.range 8).find? (fun g => (m.groupPairs g).contains p)

/-- The bit of LEGS for the leg that holds a pair (R289). -/
def Mod.legBitOfPair (m : Mod) (p : Nat) : Nat :=
  match m.groupOfPair p with
  | none   => 0
  | some g =>
    let k := (p - m.get (Ob.firstPair g)) / pairsPerLeg g (m.layout g)
    if g < 4 then 2 ^ (3 * g + k) else 2 ^ (12 + 3 * (g - 4) + k)

/-- Half period of a group in edge units (R254). -/
def Mod.halfPeriod (m : Mod) (g : Nat) : Nat :=
  let r := if g < 4 then 1 else m.get (Ob.grpRatio g)
  m.get Ob.carrierCycles * 32 / (if r = 0 then 1 else r)

/-! ### States of units -/

/-- GF_STATE (R162). -/
def Mod.gf (m : Mod) (s : Nat) : Nat := m.get (Ob.gfState s)

def gfRest : Nat := 0
def gfDeadWait : Nat := 1
def gfBackoff : Nat := 2
def gfClosingDead : Nat := 3
def gfRamp : Nat := 4
def gfDelay : Nat := 5
def gfPresync : Nat := 6
def gfClosingLive : Nat := 7
def gfForming : Nat := 8
def gfFollowing : Nat := 9
def gfHold : Nat := 10
def gfStopping : Nat := 11

/-- The sections that run and whose OP_MODE the writes name (R175, R178). DEDUCED, log entry 32. -/
def Mod.movesOf (m : Mod) (ws : List (Nat × List Byte)) : List Nat :=
  (List.range 4).filter (fun s => m.gf s ≠ gfRest && ws.any (fun x => x.1 = Ob.opMode s))

/-- DC_STATE (R213). -/
def Mod.dcs (m : Mod) (c : Nat) : Nat := m.get (Ob.dcState c)

def dcRest : Nat := 0
def dcWait : Nat := 1
def dcRunning : Nat := 2
def dcHold : Nat := 3
def dcStopping : Nat := 4

/-- State of the unit of a group: GF_STATE or DC_STATE. -/
def Mod.unitState (m : Mod) (g : Nat) : Nat := if g < 4 then m.gf g else m.dcs (g - 4)

/-- Whether a group is at rest: its unit in REST and its PWM off (R11). -/
def Mod.atRest (m : Mod) (g : Nat) : Bool :=
  m.unitState g = 0 && !(m.grpAt g).on && !(m.grpAt g).starting

/-- Whether every group is at rest. -/
def Mod.allAtRest (m : Mod) : Bool := (List.range 8).all m.atRest

/-- Whether a group has PWM on. -/
def Mod.pwmOn (m : Mod) (g : Nat) : Bool := (m.grpAt g).on

/-- Whether an AC section has PWM on. -/
def Mod.anyAcOn (m : Mod) : Bool := (List.range 4).any m.pwmOn

/-- Whether any section asks for connection (R354). -/
def Mod.asks (m : Mod) : Bool := m.sec.any (fun x => x.ask)

/-! ### The relays as channel A and B read them (R354) -/

/-- A relay reads open when both of its signals are high in both channels. -/
def Mod.readsOpen (m : Mod) (k2 : Bool) : Bool :=
  if k2 then m.sdc.a.k2a && m.sdc.a.k2b && m.sdc.b.k2a && m.sdc.b.k2b
  else m.sdc.a.k1a && m.sdc.a.k1b && m.sdc.b.k1a && m.sdc.b.k1b

/-- A relay reads closed when both of its signals are low, in channel A. -/
def Mod.readsClosed (m : Mod) (k2 : Bool) : Bool :=
  if k2 then !m.sdc.a.k2a && !m.sdc.a.k2b else !m.sdc.a.k1a && !m.sdc.a.k1b

/-- Whether both relays read open. -/
def Mod.bothOpen (m : Mod) : Bool := m.readsOpen false && m.readsOpen true

/-- Whether both relays read closed. -/
def Mod.bothClosed (m : Mod) : Bool := m.readsClosed false && m.readsClosed true

/-! ### Requests and outputs -/

/-- Withdraw a section's request for connection. -/
def Mod.unask (s : Nat) (m : Mod) : Mod := m.modSec s (fun x => { x with ask := false, closePs := none })

/-- OUT_STATE of a group from its pins (R282). -/
def Mod.outCode (m : Mod) (g : Nat) : Nat :=
  let x := m.grpAt g
  if x.latched then (if x.pins = .hiZ then 5 else 4)
  else if m.get (Ob.forceEn g) ≠ 0 && m.inUse g then 3
  else if x.on then (if x.direct then 2 else 1)
  else 0

/-- Bring OUT_STATE up to date. -/
def Mod.showOut (g : Nat) (m : Mod) : Mod := m.put (Ob.outState g) (m.outCode g)

/-- The pins of a group as a stop leaves them (R261): inner switches of three-level legs follow SAFE_DT after the others;
a group whose outputs were off stays as it is. -/
def Mod.stopPins (g : Nat) (m : Mod) : Pins :=
  let x := m.grpAt g
  if x.latched then x.pins else if x.pins = .falling || (x.pins = .gates && m.threeLevel g) then .falling else m.idle

/-- PWM of a group off (R261). -/
def Mod.pwmOff (g : Nat) (m : Mod) : Mod :=
  (m.modGrp g (fun x => { x with on := false, direct := false, starting := false, stopping := false, stopNext := false, clampOn := false
                                 active := List.replicate 9 none, later := []
                                 offPs := if x.pins = .gates then m.now else x.offPs, pins := m.stopPins g })).showOut g

/-- A section enters a state; a change raises EV064 (R162, R192). -/
def Mod.gfTo (s new : Nat) (m : Mod) : Mod :=
  let old := m.gf s
  if old = new then m
  else (m.put (Ob.gfState s) new).inform 64 (new + 256 * old + 65536 * s)

/-- The start of a section under way ends: EV065 with its outcome (R162, R192). -/
def Mod.gfStartEnd (s : Nat) (failed : Bool) (fault : Nat) (m : Mod) : Mod :=
  match (m.secAt s).start with
  | none   => m
  | some q =>
    (m.modSec s (fun x => { x with start := none })).raise 65 (if failed then sevWarn else sevInfo) (if failed then fault else 0)
      (q + 65536 * s + (if failed then 2 ^ 24 else 0))

/-- RT_STATE changes with EV075 (R225, R249). -/
def Mod.rtTo (s new : Nat) (m : Mod) : Mod :=
  let old := m.get (Ob.rtState s)
  if old = new then m else (m.put (Ob.rtState s) new).inform 75 (new + 256 * old + 65536 * s)

/-- SCR × 10 as the events carry it (R192). -/
def scrTenths (scr : Rat) : Nat := satAt 255 (scr * 10).floor.toNat

/-- An ID_RUN that can no longer be carried out ends with EV069 and the SCR that stands (R185). -/
def Mod.endIdRun (s : Nat) (m : Mod) : Mod :=
  match (m.secAt s).idRun with
  | none   => m
  | some q => (m.modSec s (fun x => { x with idRun := none })).inform 69 (q + 65536 * s + 16777216 * scrTenths (m.getF (Ob.scr s)))

/-- A section reaches REST: its timers stop, its request falls, the mark of joining goes, and a start that had not
reached FORMING or FOLLOWING fails with the fault code given (R162, R170). -/
def Mod.gfToRest (s fault : Nat) (m : Mod) : Mod :=
  ((m.modSec s (fun x => { x with
      ask := false, joining := false, confirmPs := none, backoffPs := none, delayPs := none
      holdPs := none, syncEndPs := none, closePs := none, rampPs := none, stopEndPs := none
      noRamps := false, toDelay := false, zeroRefs := false, reconnect := false, recovRamp := false, transfer := false
      weak := false, backed := false, follow := false, idOn := false, idWait := false, idDone := false, isl := false
      islNow := false, tauPs := none, jump := none, fresh := false, stops := [], blankPs := none, blankEnds := false })).endIdRun s
    |>.rtTo s 0 |>.stopCtx s |>.pwmOff s |>.gfTo s gfRest |>.gfStartEnd s true (if fault = 0 then (m.secAt s).failCode else fault))

/-- A channel enters a state; a change raises EV071 (R213, R221). The start's number stands in ARG while it is under way. -/
def Mod.dcTo (c new sev fault : Nat) (m : Mod) : Mod :=
  let old := m.dcs c
  if old = new then m
  else
    let seq := (m.dcAt c).start.getD 0
    (m.put (Ob.dcState c) new).raise 71 sev fault (new + 256 * old + 65536 * c + 262144 * (seq % 16384))

/-- The contexts of a channel stop, it enters REST, and its timers stop; its PWM is another matter. -/
def Mod.dcRested (c sev fault : Nat) (m : Mod) : Mod :=
  ((m.stopCtx (4 + c)).dcTo c dcRest sev fault).modDc c (fun x => { x with
    start := none, stopPs := none, toWait := false, limitPs := none, expDue := false, entryPs := none, pLowPs := none, outPs := none
    scan := false, waits := false })

/-- A channel reaches REST with its PWM off at once. DEDUCED, log entry 64. -/
def Mod.dcToRest (c sev fault : Nat) (m : Mod) : Mod := (m.pwmOff (4 + c)).dcRested c sev fault

/-- A unit goes to REST at a trip or a retirement (R296): `fault` is the FAULT of the record. -/
def Mod.unitToRest (g fault : Nat) (m : Mod) : Mod :=
  if m.unitState g = 0 then (if (m.grpAt g).on then m.pwmOff g else m)
  else if g < 4 then m.gfToRest g fault else m.dcToRest (g - 4) sevInfo 0

/-- With no AC section's PWM on after a trip, every request for connection is withdrawn at once (R296). -/
def Mod.dropRequests (m : Mod) : Mod :=
  if m.anyAcOn then m else m.each (List.range 4) Mod.unask

/-- Stop a section under R163: in a state without PWM any request is withdrawn at once and STOPPING completes when
both relays read open; otherwise the shapers take targets of 0 unless it goes without ramps, and the request falls
when P and Q have been small for 20 ms or 10 s have passed. DEDUCED, log entry 55. -/
def Mod.gfStopNow (s : Nat) (noRamps : Bool) (m : Mod) : Mod :=
  let off := !(m.grpAt s).on
  let m1 := m.modSec s (fun x => { x with
    noRamps := noRamps, confirmPs := none, backoffPs := none, delayPs := none, holdPs := none, syncEndPs := none
    closePs := none, rampPs := none
    stopEndPs := if off then none else some (m.now + sPs 10)
    ask := if off then false else x.ask
    isl := false, islNow := false, idOn := false, idWait := false, idDone := false, stops := [], blankPs := none
    blankEnds := false, jump := none })
  (((m1.endIdRun s).put (Ob.islState s) 0).rtTo s 0).gfTo s gfStopping

end Sys2Proof.Machine
end

