-- ==== Sys2Proof/Machine/Pwm.lean ====
section
/-!
DEFINITION. PWM generation as operations (R250 to R279): Serac's trip latch and its clear, the sources still active,
leg maps, the loads at a carrier boundary with their counts, direct mode, and dead-time trimming.
-/
namespace Sys2Proof.Machine

/-! ### Trips and clears (R270 to R275) -/

/-- Serac trips a group in use: the pins leave the gates at once, towards the safe pattern in C1 and C2 and to high
impedance in C3 and C4, where they also stay while RESET_N is low (R271); the latch holds, the source is recorded, and
FORCE_EN becomes 0000h. DESIGN CHOICE, log entry 87. -/
def Mod.tripGroup (src g : Nat) (m : Mod) : Mod :=
  if m.inUse g then
    let hiZ := 3 ≤ m.get Ob.configClass || m.sdc.resetLow
    let m1 := m.modGrp g (fun x => { x with
      latched := true, on := false, direct := false, starting := false, stopping := false, clampOn := false
      active := List.replicate 9 none, later := [], offPs := if x.latched then x.offPs else m.now
      pins := if x.pins = .safe then .safe else if hiZ then .hiZ else .tripping })
    ((m1.put (Ob.forceEn g) 0).put (Ob.tripSources g) (m1.get (Ob.tripSources g) ||| src)).showOut g
  else m

/-- SAFE_DT after a trip or a stop the inner switches follow: the group stands in its safe pattern, or off (R261, R272).
DESIGN CHOICE, log entry 87. -/
def Mod.tripSettled (g : Nat) (m : Mod) : Mod :=
  let m1 := m.reach ((m.grpAt g).offPs + m.get (Ob.safeDt g))
  match (m.grpAt g).pins with
  | .tripping => m1.modGrp g (fun x => { x with pins := .safe })
  | .falling  => m1.modGrp g (fun x => { x with pins := m.idle })
  | _         => m

/-- Serac releases a group: its pins are driven low and its sources cleared (R275). -/
def Mod.clearGroup (g : Nat) (m : Mod) : Mod :=
  if (m.grpAt g).latched then
    ((m.modGrp g (fun x => { x with latched := false, demand := false, on := false, pins := .low })).put
      (Ob.tripSources g) 0).showOut g
  else m

/-- The owners of a measurement channel as a group mask: bits 3:0 sections, bits 7:4 DC channels (R89). -/
def Mod.owners (m : Mod) (n : Nat) : Nat := m.get (Ob.ownerMask n)

/-- Whether a lane's request for a group still stands: its trip line, a detector beyond its level, or a link source. -/
def Mod.laneAsserts (m : Mod) (l g : Nat) : Bool :=
  bit (m.prot.laneReq.getD l 0) g
  || (bitsOf 24 (m.prot.focLane.getD l 0)).any (fun n => bit (m.owners n) g)
  || (List.range 24).any (fun n =>
      let x := m.prot.links.getD n {}
      (x.overOn || x.underOn) && bit (m.owners n) g)

/-- The FLT inputs that are low and name a group in FLT_TARGET (R270). -/
def Mod.fltAsserts (m : Mod) (g : Nat) : Nat :=
  ((bitsOf 16 (m.get Ob.fltLevel)).filter (fun f => bit (m.get (Ob.fltTarget f)) g)).foldl (fun a f => a + 2 ^ f) 0

/-- TRIP_ACTIVE of a group (R282): the sources still asserting; 0 for a group not in use (R274). -/
def Mod.tripActive (m : Mod) (g : Nat) : Nat :=
  if m.inUse g then
    m.fltAsserts g + (if m.laneAsserts 0 g then 2 ^ 16 else 0) + (if m.laneAsserts 1 g then 2 ^ 17 else 0)
  else 0

/-! ### Leg maps (R265, R286) -/

/-- The leg map of a group as the active lane holds it. -/
def Mod.ownMap (m : Mod) (g : Nat) : LegMap :=
  { layout := m.layout g, firstPair := m.get (Ob.firstPair g), safePattern := m.get (Ob.safePattern g)
    safeDt := m.get (Ob.safeDt g)
    dts := (m.groupPairs g).map (fun p => (m.get (Ob.dtOnA p), m.get (Ob.dtOnB p)))
    cls := m.get Ob.configClass
    flts := ((List.range 16).filter (fun f => bit (m.get (Ob.fltTarget f)) g)).map
      (fun f => (m.get (Ob.fltPair f), m.get (Ob.fltMaskTime f))) }

/-- The active lane loads the leg map of a group: from the first map on, Serac holds every pin that no group drives low
instead of at high impedance, and a group still tripped as its trip says (R251, R265, R271 to R274). -/
def Mod.loadMap (g : Nat) (m : Mod) : Mod :=
  let m1 := m.modGrp g (fun x => { x with map := some (m.ownMap g), mapBad := false })
  if m.idle = .low then m1
  else
    let tripped : Pins := if 3 ≤ m.get Ob.configClass then .hiZ else .safe
    { m1 with idle := .low, grp := m1.grp.map (fun x => { x with pins := if x.latched then tripped else .low }) }

/-- PWM of a group on, from the carrier boundary at which it is called (R257, R261). -/
def Mod.pwmStart (direct : Bool) (g : Nat) (m : Mod) : Mod :=
  ((m.loadMap g).modGrp g (fun x => { x with
    on := true, direct := direct, starting := false, stopping := false, active := List.replicate 9 none, later := []
    pins := .gates })).showOut g

/-- A map that Serac reports disagrees: the group stays off or goes off at the next carrier boundary, with EV053 (R265).
DEDUCED, log entry 38. -/
def Mod.mapReport (g : Nat) (rep : LegMap) (m : Mod) : Mod :=
  if (m.grpAt g).map.isSome && m.inUse g then
    if rep = m.ownMap g then m.modGrp g (fun x => { x with map := some rep, mapBad := false })
    else (m.modGrp g (fun x => { x with map := some rep, mapBad := true, stopping := x.on })).raise 53 sevFault 0x4006 g
  else m

/-! ### Loads (R254, R255, R260) -/

/-- Whether a compare value stands beyond the period (R254). -/
def beyond (hp c : Nat) : Bool := hp ≤ c && c ≤ 0xFFFFFFFE

/-- A compare value as a length in edge units, 0 to `hp`. -/
def cmpLen (hp c : Nat) : Nat := if hp ≤ c then hp else c

/-- A time in ps as the nearest whole number of edge units, 19.53125 ps each (R258). -/
def edgeUnits (ps : Nat) : Nat := (ps * 64 + 625) / 1250

/-- Whether a pulse of `len` edge units with dead time `dt` ps is shorter than MIN_PULSE (R260). DEDUCED, log entry 57. -/
def shortPulse (len dt minPulse : Nat) : Bool :=
  0 < len && (len ≤ edgeUnits dt || len < edgeUnits dt + edgeUnits minPulse)

/-- Pulses that R260 drops or stretches in what one load of a pair brings: the A pulse about a valley and the B pulse
about a peak, `n` extrema up to the next load. The pulse that straddles the load is judged over both halves (R255).
DEDUCED, log entry 57. -/
def shortAtLoad (hp : Nat) (old : Option Nat) (new dtA dtB minPulse : Nat) (valley : Bool) (n : Nat) : Nat :=
  let a1 := cmpLen hp new
  let one (isA : Bool) (len : Nat) : Nat := b2n (len < 2 * hp && shortPulse len (if isA then dtA else dtB) minPulse)
  let whole (isA : Bool) : Nat := one isA (if isA then 2 * a1 else 2 * (hp - a1))
  let before := match old with | some v => (if valley then cmpLen hp v else hp - cmpLen hp v) | none => 0
  one valley (before + (if valley then a1 else hp - a1)) + (n - 1) / 2 * whole valley + n / 2 * whole (!valley)

/-- The level of a reference at an extremum (R254): active while the counter, 0 at the valley and HP at the peak, is
below the compare value. -/
def refLevel (hp c : Nat) (valley : Bool) : Bool := if valley then c ≠ 0 else hp ≤ c

/-- Where phase `k` of a group loads after a boundary (R253, R255): the edge units to its own first extremum of the kind
that SAMPLE_EDGE names, in double update of either kind, and whether it is a valley. AC groups and phase 0 load at once.
DESIGN CHOICE, log entry 35. -/
def Mod.loadPoint (valley : Bool) (g k : Nat) (m : Mod) : Nat × Bool :=
  if g < 4 then (0, valley)
  else
    let hp := m.halfPeriod g
    let delay := k * (2 * hp) / pairsOf g (m.layout g)
    let since := if valley then 0 else m.get Ob.carrierCycles * 32
    let pos := (since + 2 * hp - delay) % (2 * hp)
    if k = 0 then (0, pos = 0)
    else
      let next := if m.get Ob.updateMode = 1 then (pos + hp - 1) / hp * hp
                  else if valley then (pos + 2 * hp - 1) / (2 * hp) * (2 * hp)
                  else if pos ≤ hp then hp else 3 * hp
      (next - pos, next / hp % 2 = 0)

/-- One pair's reference takes its new value (R254, R255, R260): a value that comes to stand beyond the period raises
EV050 and counts. DEDUCED, log entry 57. -/
def Mod.loadPair (g : Nat) (l : PhaseLoad) (m : Mod) : Mod :=
  let x := m.grpAt g
  let p := m.get (Ob.firstPair g) + l.i
  let old := x.active.getD l.i none
  let shorts := shortAtLoad l.hp old l.val (m.get (Ob.dtOnAEff p)) (m.get (Ob.dtOnBEff p)) (m.get (Ob.minPulse g)) l.valley
    (if m.get Ob.updateMode = 1 then l.ratio else 2 * l.ratio)
  let m1 := m.modGrp g (fun y => { y with
    active := y.active.set l.i (some l.val), level := y.level.set l.i (refLevel l.hp l.val l.valley) })
  let m2 := if shorts = 0 then m1 else m1.put (Ob.minPulseCount g) ((m1.get (Ob.minPulseCount g) + shorts) % 4294967296)
  if beyond l.hp l.val && (l.moved || old ≠ some l.val) then
    (m2.bump (Ob.beyondCount g)).raiseAt (m2.t32At l.atPs) 50 sevWarn 0x4003 (p % 32 + 256 * g)
  else m2

/-- A duty as a compare value (R256): exactly 0 and exactly 1 keep no edges, any other rounds and stays within the period. -/
def cmpOfDuty (hp : Nat) (d : Rat) : Nat :=
  if d = 0 then 0
  else if d = 1 then 0xFFFFFFFF
  else
    let r := (d * hp + 1 / 2).floor
    if r < 1 then 1 else if (hp : Int) - 1 < r then hp - 1 else r.toNat

/-- The compare values that a group loads at a boundary (R255, R256): the host's in direct mode, otherwise the clamp set
while it acts or the engines' duties, with the RATIO in force. -/
def Mod.loadValues (g : Nat) (m : Mod) : List Nat :=
  let x := m.grpAt g
  if x.direct then (List.range (pairsOf g (m.layout g))).map (fun i => m.get (Ob.cmp g i))
  else (if x.clampOn then x.clampSet else x.duty).map (cmpOfDuty (m.halfPeriod g))

/-- One load of a group at a tick boundary (R255): the phases whose extremum lies at it take their values at once, the
others when their own comes; those of the boundary before have come by now. -/
def Mod.loadGroup (valley : Bool) (g : Nat) (m : Mod) : Mod :=
  let x := m.grpAt g
  if !x.on then m
  else
    let ratio := if g < 4 then 1 else m.get (Ob.grpRatio g)
    let vals := m.loadValues g
    let ls := (List.range (pairsOf g (m.layout g))).map (fun i =>
      let q := m.loadPoint valley g (if g < 4 then 0 else i)
      (q.1, (⟨i, m.now + q.1 * 1953125 / 100000, vals.getD i 0, m.halfPeriod g, ratio, q.2, x.ratio ≠ ratio⟩ : PhaseLoad)))
    let m1 := (x.later.foldl (fun m l => m.loadPair g l) m).modGrp g (fun y => { y with
      ratio := ratio, later := (ls.filter (fun l => 0 < l.1)).map (·.2) })
    ((ls.filter (fun l => l.1 = 0)).map (·.2)).foldl (fun m l => m.loadPair g l) m1

/-! ### Direct mode (R257) -/

/-- PWM_DIRECT starts a group: at the carrier boundary where the action applies. FAULT_STATE 03h returns to 00h (R307). -/
def Mod.directStart (g : Nat) (m : Mod) : Mod :=
  (if m.get (Ob.unitFaultState g) = 3 then m.put (Ob.unitFaultState g) 0 else m).pwmStart true g

/-- PWM_DIRECT stops a group. -/
def Mod.directStop (g : Nat) (m : Mod) : Mod := if (m.grpAt g).direct then m.pwmOff g else m

/-! ### Duties (R256, R266, R268) -/

/-- The duties of the A outputs of one leg (R266 step 5). -/
def legDuties (layout : Nat) (u : Rat) : List Rat :=
  if layout = 1 then [(1 + u) / 2]
  else if layout = 4 then (if 0 ≤ u then [u, 1, 0] else [0, 0, -u])
  else (if 0 ≤ u then [u, 1] else [0, 1 + u])

/-- Dead-time compensation of one duty (R266 step 6). -/
def compensate (d : Rat) (i : Rat) (dt period : Rat) : Rat :=
  if d = 0 || d = 1 then d
  else if (2 / 100 : Rat) ≤ absR i then (if i < 0 then d - dt / period else d + dt / period) else d

/-- Duties of the A outputs of a section from its three modulation references, phase currents (pu), the link voltage
and the peak phase base in volts, and the neutral-point shift (R266). -/
def Mod.sectionDuties (m : Mod) (g : Nat) (v i : List Rat) (vLink base shift : Rat) : List Rat :=
  let u0 := v.map (fun x => if vLink = 0 then 0 else x * base / (vLink / 2))
  let hi := u0.foldl maxR (u0.getD 0 0)
  let lo := u0.foldl minR (u0.getD 0 0)
  let u1 := if m.get (Ob.zseqMode g) = 1 then u0.map (fun x => x - (hi + lo) / 2) else u0
  let u2 := u1.map (fun x => clampR (-1) 1 (if m.threeLevel g then x + shift else x))
  let lay := m.layout g
  let ppl := pairsPerLeg g lay
  let period : Rat := (m.get Ob.carrierCycles : Rat) * 1250
  ((List.range 3).map (fun k =>
    let ds := legDuties lay (u2.getD k 0)
    (List.range ppl).map (fun j =>
      let d := ds.getD j 0
      if m.get (Ob.dtcEn g) = 1 then
        compensate d (i.getD k 0) (m.get (Ob.dtOnAEff (m.get (Ob.firstPair g) + k * ppl + j)) : Rat) period
      else d))).flatten

/-- Duties of the A outputs of a DC group: 1 − (reference + share), phase 0 taking the balance output (R268). -/
def dcDuties (phases : Nat) (ref bal : Rat) : List Rat :=
  (List.range phases).map (fun k =>
    1 - (ref + (if phases ≤ 1 then 0 else if k = 0 then bal else -bal / ((phases - 1 : Nat) : Rat))))

/-! ### Dead-time trimming (R277 to R279) -/

/-- One side's new effective dead time after a block: moved by the gap less the target, at most 1.25 ns, within DT_MIN
to the programmed value; with whether a bound stopped the change and which one. -/
def trimmed (eff lo hi : Nat) (gap target : Int) : Nat × Option Bool :=
  let step := clampI (-1250) 1250 (gap - target)
  let raw : Int := (eff : Int) - step
  if raw < lo then (lo, some false) else if (hi : Int) < raw then (hi, some true) else (raw.toNat, none)

/-- The class of a transition (R277): natural, forced, missing, or an edge in the 50 ns before the outgoing gate edge,
which is none of the three. -/
inductive EdgeClass
  | natural
  | forced
  | missing
  | early
deriving DecidableEq, Repr

/-- The class of a transition at the dead time in force of the incoming switch. DEDUCED, log entry 62. -/
def edgeClassAt (dt : Nat) (t : Transition) : EdgeClass :=
  match t.comfb with
  | none   => .missing
  | some c =>
    if c < t.off - 50000 || t.on + 2 * (dt : Int) < c then .missing
    else if c < t.off then .early
    else if c ≤ t.on then .natural
    else .forced

/-- The class of a transition of a pair. -/
def Mod.edgeClass (m : Mod) (p : Nat) (t : Transition) : EdgeClass :=
  edgeClassAt (m.get (if t.sideB then Ob.dtOnBEff p else Ob.dtOnAEff p)) t

/-- The natural transitions of one direction among some (R278). -/
def Mod.naturals (m : Mod) (p : Nat) (sideB : Bool) (es : List Transition) : List Transition :=
  es.filter (fun t => t.sideB = sideB && m.edgeClass p t = .natural)

/-- The mean of a measurement over transitions, in whole ps. DEDUCED, log entry 62. -/
def meanPs (f : Transition → Int) (es : List Transition) : Int :=
  wholeNear ((es.foldl (fun a t => a + f t) 0 : Int) / ((es.length : Nat) : Rat))

/-- The gap and the turn-off delay of a natural transition (R277). -/
def gapOf (t : Transition) : Int := t.on - t.comfb.getD 0
def toffOf (t : Transition) : Int := t.comfb.getD 0 - t.off

/-- A trim block of one direction (R278): the mean gap before that side turns on, and the mean turn-off delay of the other
side; with trimming on and not paused the effective dead time of the next boundary. DEDUCED, log entry 62. -/
def Mod.trimBlock (p : Nat) (sideB : Bool) (gap toff : Int) (m : Mod) : Mod :=
  let m1 := (m.put (if sideB then Ob.gapB p else Ob.gapA p) (Raw.ofInt 32 gap)).put
    (if sideB then Ob.toffA p else Ob.toffB p) (Raw.ofInt 32 toff)
  if m.get (Ob.trimEn p) = 1 && !(m.pairAt p).paused then
    let eff := m.get (if sideB then Ob.dtOnBEff p else Ob.dtOnAEff p)
    let prog := m.get (if sideB then Ob.dtOnB p else Ob.dtOnA p)
    let r := trimmed eff (m.get (Ob.dtMin p)) prog gap (m.get (Ob.trimTarget p))
    let was := if sideB then (m.pairAt p).boundB else (m.pairAt p).boundA
    let m2 := m1.modPair p (fun x =>
      if sideB then { x with nextB := some r.1, boundB := r.2.isSome } else { x with nextA := some r.1, boundA := r.2.isSome })
    match r.2 with
    | some top => if was then m2 else m2.raise 52 sevInfo 0x4005 (p + 32 * b2n sideB + 64 * b2n top)
    | none     => m2
  else m1

/-- The transitions of a block have come in (R278): TRIM_AVG natural ones of the direction complete it. -/
def Mod.trimEdges (p : Nat) (sideB : Bool) (es : List Transition) (m : Mod) : Mod :=
  let ns := m.naturals p sideB es
  if ns.length = m.get (Ob.trimAvg p) then m.trimBlock p sideB (meanPs gapOf ns) (meanPs toffOf ns) else m

/-- Whether some transitions hold 64 in a row at their end that are all missing, or that are all not (R279). -/
def Mod.lastMissing (m : Mod) (p : Nat) (es : List Transition) : Bool :=
  64 ≤ es.length && (es.drop (es.length - 64)).all (fun t => m.edgeClass p t = .missing)
def Mod.lastPresent (m : Mod) (p : Nat) (es : List Transition) : Bool :=
  64 ≤ es.length && (es.drop (es.length - 64)).all (fun t => m.edgeClass p t ≠ .missing)

/-- 64 missing transitions in a row: EV051, the programmed dead times from the next boundary, trimming paused (R279).
DEDUCED, log entry 62. -/
def Mod.comfbLost (p : Nat) (m : Mod) : Mod :=
  if (m.pairAt p).paused then m
  else
    let m1 := m.modPair p (fun x => { x with
      paused := true, nextA := some (m.get (Ob.dtOnA p)), nextB := some (m.get (Ob.dtOnB p)), boundA := false, boundB := false })
    (m1.put (Ob.comfbState p) 1).raise 51 sevWarn 0x4004 p

/-- 64 transitions in a row that are not missing: trimming resumes (R279). DEDUCED, log entry 62. -/
def Mod.comfbBack (p : Nat) (m : Mod) : Mod :=
  if (m.pairAt p).paused then
    (m.modPair p (fun x => { x with paused := false })).put (Ob.comfbState p) (if m.get (Ob.trimEn p) = 1 then 0 else 2)
  else m

/-- At a tick boundary the trimmed values wait no longer (R278, R279). -/
def Mod.applyTrim (p : Nat) (m : Mod) : Mod :=
  let x := m.pairAt p
  if x.nextA.isSome || x.nextB.isSome then
    let m1 := match x.nextA with | some v => m.put (Ob.dtOnAEff p) v | none => m
    let m2 := match x.nextB with | some v => m1.put (Ob.dtOnBEff p) v | none => m1
    m2.modPair p (fun y => { y with nextA := none, nextB := none })
  else m

end Sys2Proof.Machine
end

