-- ==== Sys2Proof/Machine/Field.lean ====
section
/-!
DEFINITION. Field inputs and outputs (R398 to R413): filters and validity of inputs, what switches an output on,
readback and its faults, group supplies, and the Rime link of each lane.
-/
namespace Sys2Proof.Machine

def Mod.fldAt (m : Mod) (n : Nat) : FieldRt := m.fld.getD n {}
def Mod.rimeAt (m : Mod) (l : Nat) : RimeRt := m.rime.getD l {}
def Mod.modFld (n : Nat) (f : FieldRt → FieldRt) (m : Mod) : Mod := { m with fld := m.fld.modify n f }
def Mod.modFgrp (g : Nat) (f : FieldGrpRt → FieldGrpRt) (m : Mod) : Mod := { m with fgrp := m.fgrp.modify g f }
def Mod.modRime (l : Nat) (f : RimeRt → RimeRt) (m : Mod) : Mod := { m with rime := m.rime.modify l f }

/-- A source asserts (R284): it waits for the next boundary, where the fault is recorded and counted. -/
def Mod.push (a : Assertion) (m : Mod) : Mod := { m with prot := { m.prot with pend := m.prot.pend ++ [a] } }

/-- Put one bit of an entry in force. -/
def Mod.putBit (k i : Nat) (b : Bool) (m : Mod) : Mod := m.put k (setBit (m.get k) i b)

/-- The lane that the active-select line names. -/
def Mod.lane (m : Mod) : Nat := m.get Ob.activeLane

/-- FAULT_STATE of a field channel (R307). -/
def Mod.fldState (m : Mod) (n : Nat) : Nat := m.get (Ob.unitFaultState (0x60 + n))

/-- Whether a field channel is retired (R408). -/
def Mod.fldRetired (m : Mod) (n : Nat) : Bool := 4 ≤ m.fldState n

/-- Whether a field channel is in recovery (R407). -/
def Mod.fldRecovering (m : Mod) (n : Nat) : Bool := m.fldState n = 1 || m.fldState n = 2

/-- Whether the field die applies safe values (R410): the named lane's link lost, or a safe stop. -/
def Mod.fieldSafeNow (m : Mod) : Bool := m.prot.safeStop || (m.rimeAt m.lane).lost

/-- Whether the field die has had its first good frame of the named lane since power-up or a reset, and is not at fault
(R21, R410, R479). -/
def Mod.fieldFrames (m : Mod) : Bool := m.rime.any (·.first) && !m.power.fieldBad

/-- Whether an output's switch is on (R405, R407, R408, R410, R412). DEDUCED, log entry 65. -/
def Mod.outputWants (m : Mod) (n : Nat) : Bool :=
  let gs := m.get (Ob.groupState (n / 8))
  if m.get (Ob.fioMode n) ≠ 2 || m.fldRetired n || m.fldRecovering n || gs = 1 || !m.fieldFrames then false
  else if m.fieldSafeNow then
    (let v := m.get (Ob.safeValue n); if v = 0 then false else if v = 1 then true else (m.fldAt n).on)
  else if gs = 2 then false
  else bit (m.get Ob.fieldOut) n

/-- Bring the switch of one output up to date. -/
def Mod.driveOutput (n : Nat) (m : Mod) : Mod :=
  let on := m.outputWants n
  (m.modFld n (fun x => { x with
    on := on, limitPs := if on then x.limitPs else none, openPs := if on then x.openPs else none, overCur := x.overCur && !on })).putBit
    Ob.fieldOutState n on

/-- Bring every output up to date. -/
def Mod.driveOutputs (m : Mod) : Mod := m.each (List.range 32) Mod.driveOutput

/-- An input's filter restarts at c = 0 and out = 0 (R402). -/
def Mod.restartInput (n : Nat) (m : Mod) : Mod :=
  (((m.modFld n (fun x => { x with out := false, since := 0, onePs := none, maxDone := false })).put (Ob.filterCount n) 0).putBit
    Ob.fieldIn n false).putBit Ob.fieldInValid n false

/-- Whether an input can be valid: its group has its supply and the lane gets frames (R402).
DEDUCED, log entries 65 and 115. -/
def Mod.inputLive (m : Mod) (n : Nat) : Bool :=
  m.get (Ob.fioMode n) = 1 && m.get (Ob.groupState (n / 8)) ≠ 1 && (m.rimeAt m.lane).missIn < 4 && !m.power.fieldBad

/-- The raw reading of an input at a pin voltage in mV (R399): between the levels it is undefined.
DESIGN CHOICE, log entry 63. -/
def rawReading (inType mv free : Nat) : Bool :=
  let hi := if inType = 1 then 11000 else 15000
  if hi ≤ mv then true else if mv ≤ 5000 then false else Config.fieldUndefined free

/-- One sample of an input (R399, R400, R402, R404). -/
def Mod.sampleInput (n mv : Nat) (m : Mod) : Mod :=
  if m.get (Ob.fioMode n) ≠ 1 then m
  else if !m.inputLive n then m
  else
    let raw := rawReading (m.get (Ob.inType n)) mv m.free
    let x := m.fldAt n
    let lim := m.get (Ob.filterN n)
    let c0 := m.get (Ob.filterCount n)
    let c := if raw then min (c0 + 1) lim else c0 - 1
    let out := if c = lim then true else if c = 0 then false else x.out
    let since := x.since + 1
    let valid := lim ≤ since
    let m0 : Mod := { m with free := m.free + 1 }
    let m1 := m0.modFld n (fun y => { y with
      raw := raw, out := out, since := min since lim, changes := if raw = y.raw then y.changes else y.changes + 1
      onePs := if out && valid then (match y.onePs with | some t => some t | none => some m.now) else none
      maxDone := if out && valid then y.maxDone else false })
    (((m1.put (Ob.filterCount n) c).putBit Ob.fieldInRaw n raw).putBit Ob.fieldInValid n valid).putBit
      Ob.fieldIn n (valid && out)

/-- A field-output fault (R406, R407): the output switches off, and the fault waits for the boundary. One that arises during a
recovery is a second fault (R294). -/
def Mod.outputFault (n fault : Nat) (m : Mod) : Mod :=
  if m.get (Ob.fioMode n) ≠ 2 || m.fldRetired n || m.get (Ob.groupState (n / 8)) = 1 then m
  else
    ((m.modFld n (fun x => { x with on := false, limitPs := none, openPs := none })).putBit Ob.fieldOutState n false).push
      { atPs := m.now, fault := fault, cls := 3, sources := 0, channels := 0, legs := 0, units := [n], running := []
        trips := [], perTick := false }

/-- The code of READBACK (R415). -/
def readbackCode (overCur limit hot driven isOpen : Bool) : Nat :=
  if driven then 4 else if hot then 3 else if overCur then 2 else if limit then 1 else if isOpen then 5 else 0

/-- The readback of an output (R406, R409). DEDUCED, log entry 116. -/
def Mod.sampleOutput (n mv cur : Nat) (limit hot : Bool) (m : Mod) : Mod :=
  if m.get (Ob.fioMode n) ≠ 2 || m.get (Ob.groupState (n / 8)) = 1 || m.fldRetired n then m
  else
    let x := m.fldAt n
    let drv := if !x.on && !bit (m.get Ob.fieldOut) n && 11000 ≤ mv then x.driven + 1 else 0
    let low := x.on && m.get (Ob.openLoadEn n) = 1 && cur < 5
    let m1 := m.modFld n (fun y => { y with
      driven := min drv 2, hot := hot
      limitPs := if x.on && limit then some (y.limitPs.getD m.now) else none
      openPs := if low then some (y.openPs.getD m.now) else none
      openDone := if low then y.openDone else false })
    let m2 := (m1.put (Ob.outCurrent n) (satAt 65535 cur)).put (Ob.readback n)
      (readbackCode x.overCur (limit && x.on) hot (2 ≤ drv) (low && x.openDone))
    if drv = 2 then m2.outputFault n 0x5403 else m2

/-- The total current of a group in mA (R409): since when it stands too high or has come back; EV118 is armed again after 1 s below
1.9 A. -/
def Mod.groupCurrentSeen (g total : Nat) (m : Mod) : Mod :=
  (m.put (Ob.groupCurrent g) (satAt 65535 total)).modFgrp g (fun x =>
    let calm := if total < 1900 then some (x.calmPs.getD m.now) else none
    { x with
      overPs := if 2000 < total then some (x.overPs.getD m.now) else none, calmPs := calm
      overDone := x.overDone && (match calm with | some t => m.now < t + sPs 1 | none => true) })

/-- One field sample of a group, once per SAMPLE_PERIOD (R399, R406). -/
def Mod.fieldSample (g : Nat) (rd : FieldReading) (m : Mod) : Mod :=
  let m0 := m.reach ((m.fgrp.getD g {}).samplePs + m.get (Ob.samplePeriod g) * 1000000)
  let m1 := (m0.modFgrp g (fun x => { x with samplePs := m0.now })).each (List.range 8) (fun k m =>
    let n := 8 * g + k
    (m.sampleInput n (rd.volts.getD k 0)).sampleOutput n (rd.volts.getD k 0) (rd.current.getD k 0)
      (rd.limit.getD k false) (rd.thermal.getD k false))
  (m1.groupCurrentSeen g (rd.current.foldl (· + ·) 0)).each ((List.range 8).map (fun k => 8 * g + k)) Mod.driveOutput

/-- An output stayed in current limit for LIMIT_TIME (R406). -/
def Mod.outputOverload (n : Nat) (m : Mod) : Mod :=
  match (m.fldAt n).limitPs with
  | none   => m
  | some t =>
    if (m.fldAt n).on && m.get (Ob.fioMode n) = 2 then
      (((m.reach (t + m.get (Ob.limitTime n) * 100000000)).modFld n (fun x => { x with overCur := true })).put (Ob.readback n) 2).outputFault
        n 0x5401
    else m

/-- An output's thermal protection acts (R406). -/
def Mod.outputThermal (n : Nat) (m : Mod) : Mod :=
  if (m.fldAt n).hot || m.get (Ob.fioMode n) ≠ 2 then m
  else ((m.modFld n (fun x => { x with hot := true })).put (Ob.readback n) 3).outputFault n 0x5402

/-- A filtered input stayed 1 for MAX_ACTIVE without a break (R403). -/
def Mod.inputMax (n : Nat) (m : Mod) : Mod :=
  let x := m.fldAt n
  match x.onePs with
  | none   => m
  | some t =>
    if m.get (Ob.maxActive n) ≠ 0 && bit (m.get Ob.fieldIn) n && !x.maxDone then
      ((m.reach (t + sPs (m.get (Ob.maxActive n)))).modFld n (fun y => { y with maxDone := true })).raise 117 sevWarn 0x5408 n
    else m

/-- A chatter window of CHATTER_WINDOW ends (R404): one EV116 for every input beyond the limit that is not left out. -/
def Mod.chatterEnd (m : Mod) : Mod :=
  let lim := m.get Ob.chatterLimit
  let ins := (List.range 32).filter (fun n => m.get (Ob.fioMode n) = 1)
  let bad := ins.filter (fun n => lim < (m.fldAt n).changes)
  let mask := (bad.filter (fun n => !(m.fldAt n).leftOut)).foldl (fun a n => a + 2 ^ n) 0
  let m0 := m.reach ((m.fgrp.getD 0 {}).chatPs + msPs (m.get Ob.chatterWindow))
  let m1 := ({ m0 with fgrp := m0.fgrp.map (fun x => { x with chatPs := m0.now }) } : Mod).each (List.range 32) (fun n m =>
    (m.put (Ob.chatterCount n) (satAt 65535 (m.fldAt n).changes)).modFld n (fun y =>
      { y with leftOut := bad.contains n, changes := 0 }))
  if mask = 0 then m1 else m1.raise 116 sevWarn 0x5407 mask

/-- A load warning once 1 s has passed (R409): an open load of channel `n`, or the total current of group `n`, which arms again after
1 s below 1.9 A. -/
def Mod.loadWarning (isGroup : Bool) (n : Nat) (present : Bool) (m : Mod) : Mod :=
  if isGroup then
    let x := m.fgrp.getD n {}
    match (if present then x.overPs else x.calmPs) with
    | none   => m
    | some t =>
      if present && x.overDone then m
      else
        let m1 := (m.reach (t + sPs 1)).modFgrp n (fun y => { y with overDone := present })
        if present then m1.raise 118 sevWarn 0x540A (256 * n) else m1
  else
    let x := m.fldAt n
    match x.openPs with
    | none   => m
    | some t =>
      if !present || x.openDone || m.get (Ob.openLoadEn n) ≠ 1 || !x.on then m
      else
        (((m.reach (t + sPs 1)).modFld n (fun y => { y with openDone := true })).put (Ob.readback n) 5).raise 118 sevWarn 0x5409 n

/-! ### Group supplies (R412) -/

/-- How many of the newest measurements in a row satisfy a condition. -/
def lastRun (p : Nat → Bool) (volts : List (Nat × Nat)) : Nat :=
  ((volts.reverse.takeWhile (fun v => p v.1)).map (·.2)).foldl (· + ·) 0

/-- The longest run of measurements that satisfy a condition. DEDUCED, log entry 114. -/
def longestRun (p : Nat → Bool) (volts : List (Nat × Nat)) : Nat :=
  (volts.foldl (fun (b : Nat × Nat) v => if p v.1 then (b.1 + v.2, max b.2 (b.1 + v.2)) else (0, b.2)) (0, 0)).2

/-- The newest measurement, as FSUP_VOLTAGE shows it. -/
def newestVolt (volts : List (Nat × Nat)) : Nat := satAt 65535 ((volts.getLast?.map (·.1)).getD 0)

/-- A supply measured every 50 µs lies below 19.2 V or above 30.0 V for 10 ms: EV113 once until 1 s within the range.
DEDUCED, log entry 114. -/
def Mod.fsupRange (g : Nat) (volts : List (Nat × Nat)) (m : Mod) : Mod :=
  let cv := newestVolt volts
  let inRange (v : Nat) : Bool := 1920 ≤ v && v ≤ 3000
  let armed := (m.fgrp.getD g {}).armed || 20000 ≤ longestRun inRange volts
  let m1 := m.put (Ob.fsupVoltage g) cv
  if armed && 200 ≤ lastRun (fun v => !inRange v) volts then
    (m1.modFgrp g (fun x => { x with armed := false })).raise 113 sevWarn 0x5405 (g + 65536 * cv)
  else m1.modFgrp g (fun x => { x with armed := armed })

/-- Below 16.0 V at two consecutive measurements the supply of a group is lost; a fault of its outputs at the same moment is not
recorded (R412, R413). DEDUCED, log entry 114. -/
def Mod.fsupLost (g : Nat) (volts : List (Nat × Nat)) (m : Mod) : Mod :=
  let cv := newestVolt volts
  let m1 := m.put (Ob.fsupVoltage g) cv
  if m.get (Ob.groupState g) = 1 || lastRun (fun v => v < 1600) volts < 2 then m1
  else
    let ns := (List.range 8).map (fun k => 8 * g + k)
    let m2 : Mod := { m1 with prot := { m1.prot with pend := m1.prot.pend.filter (fun a =>
      !(a.cls = 3 && a.atPs = m.now && a.units.any ns.contains)) } }
    (((m2.put (Ob.groupState g) 1).each ns Mod.driveOutput).each
      (ns.filter (fun n => m.get (Ob.fioMode n) = 1)) Mod.restartInput).raise 113 sevWarn 0x5404 (g + 65536 * cv)

/-- Above 18.0 V for 20 ms the supply of a group is back: inputs start under R402, and with AUTO_RESTORE the outputs take their
commands. DEDUCED, log entry 114. -/
def Mod.fsupBack (g : Nat) (volts : List (Nat × Nat)) (m : Mod) : Mod :=
  let m1 := m.put (Ob.fsupVoltage g) (newestVolt volts)
  if m.get (Ob.groupState g) = 1 && 400 ≤ lastRun (fun v => 1800 < v) volts then
    let ns := (List.range 8).map (fun k => 8 * g + k)
    let auto := m.get (Ob.autoRestore g) = 1
    let m2 := ((m1.put (Ob.groupState g) (if auto then 0 else 2)).each
      (ns.filter (fun n => m.get (Ob.fioMode n) = 1)) Mod.restartInput).each ns Mod.driveOutput
    m2.raise 114 sevInfo 0 (g + 256 * b2n auto)
  else m1

/-! ### Commands of the host (R398, R402, R405, R412) -/

/-- The three output words as they apply at one boundary: FIELD_OUT, then FIELD_OUT_SET, then FIELD_OUT_CLEAR;
bits of channels that are no outputs read 0; a group whose supply is back takes its commands. -/
def Mod.fieldCommand (out set clr : Option Nat) (m : Mod) : Mod :=
  let outs := (List.range 32).foldl (fun a n => if m.get (Ob.fioMode n) = 2 && !m.fldRetired n then a + 2 ^ n else a) 0
  let v0 := out.getD (m.get Ob.fieldOut)
  let v1 := v0 ||| set.getD 0
  let v2 := v1 - (v1 &&& clr.getD 0)
  let m1 := m.put Ob.fieldOut (v2 &&& outs)
  (m1.each (List.range 4) (fun g m => if m.get (Ob.groupState g) = 2 then m.put (Ob.groupState g) 0 else m)).driveOutputs

/-- A write of FIO_MODE, IN_TYPE or FILTER_N has applied (R398, R402). -/
def Mod.fieldConfigured (n : Nat) (m : Mod) : Mod :=
  let m1 := if m.get (Ob.fioMode n) = 2 then m else m.putBit Ob.fieldOut n false
  let m2 := if m.get (Ob.fioMode n) = 1 then m1.restartInput n
            else (m1.restartInput n).putBit Ob.fieldInRaw n false
  m2.driveOutput n

/-! ### Rime (R410, R411) -/

/-- Inputs become invalid after four missing frames, and restart when the frames come back (R402, R317). -/
def Mod.inputsRestart (m : Mod) : Mod :=
  m.each ((List.range 32).filter (fun n => m.get (Ob.fioMode n) = 1)) Mod.restartInput

/-- Four consecutive frames missing from the named lane: the safe values apply, EV115 once an episode (R410, R411). Frames that did
not come count from the last good one, one every 50 µs. -/
def Mod.rimeLoss (l : Nat) (m : Mod) : Mod :=
  let x := m.rimeAt l
  if l = m.lane && !x.lost then
    let m0 := if 4 ≤ x.missOut then m else m.reach (x.outPs + 200000000)
    (((m0.modRime l (fun x => { x with lost := true, good := 0, missOut := max 4 x.missOut })).put (Ob.rimeMissingMax l)
      (max (m.get (Ob.rimeMissingMax l)) 4)).driveOutputs).raise 115 sevFault 0x5406 (l + 256 * 4)
  else m

/-- A frame of lane `f.lane` (R317, R411): towards the field die it counts on the named lane's link alone; four missing in a row
apply the safe values, eight good in a row end them. DESIGN CHOICE, log entry 88; DEDUCED, log entry 115. -/
def Mod.rimeFrame (f : RimeFrame) (m : Mod) : Mod :=
  let l := f.lane
  let x := m.rimeAt l
  let got := f.good && !f.absent
  if f.toField then
    if got then
      let m1 := m.modRime l (fun y => { y with
        missOut := 0, outPs := m.now, first := y.first || l = m.lane, good := if y.lost then y.good + 1 else 0
        lost := y.lost && y.good + 1 < 8 })
      if if x.lost then 8 ≤ x.good + 1 else !x.first && l = m.lane then m1.driveOutputs else m1
    else if l = m.lane then
      let k := x.missOut + 1
      let m1 := (m.modRime l (fun y => { y with missOut := k, good := 0 })).put (Ob.rimeMissingMax l)
        (max (m.get (Ob.rimeMissingMax l)) (satAt 255 k))
      if k = 4 then m1.rimeLoss l else m1
    else m
  else if got then
    let m1 := m.modRime l (fun y => { y with missIn := 0 })
    if 4 ≤ x.missIn && l = m.lane then m1.inputsRestart else m1
  else
    let k := x.missIn + 1
    let m0 := if f.absent then m else m.bump (Ob.rimeCrcFail l)
    let m1 := (m0.modRime l (fun y => { y with missIn := k })).put (Ob.rimeMissingMax l)
      (max (m.get (Ob.rimeMissingMax l)) (satAt 255 k))
    if k = 4 && l = m.lane then m1.inputsRestart else m1

/-- Every output off with its pin at high impedance, as RESET_N low or power-up leaves it (R410). DEDUCED, log entry 65. -/
def Mod.fieldOff (m : Mod) : Mod :=
  let m1 : Mod := { m with fld := m.fld.map (fun x => { x with on := false }) }
  m1.put Ob.fieldOutState 0

end Sys2Proof.Machine
end

