-- ==== Sys2Proof/Machine/Sched.lean ====
section
/-!
DEFINITION. The tick's budget (R68, R71, R75 to R79): window and ceiling, the worst-case cost and the contexts of
each engine, where work is placed, and the admission of a schedule.
-/
namespace Sys2Proof.Machine

/-- Cycles of the compute window at a tick period in ps (R71): floor((T − 0.65 µs) × 600 MHz). -/
def windowCycles (tickPs : Nat) : Nat := (tickPs - 650000) * 6 / 10000

/-- The ceiling of R78. -/
def ceilingCycles (tickPs : Nat) : Nat := windowCycles tickPs * 9 / 10

/-- Cost of an AC section by its LAYOUT (R75): T2L 1240, T3N and T3T 1320, T3A 1360. -/
def secCost (layout : Nat) : Nat := if layout = 0 then 0 else if layout = 1 then 1240 else if layout = 4 then 1360 else 1320

/-- The engine of a unit (R76). -/
def unitEngine (g : Nat) : Nat := if g < 4 then g % 2 else (g - 4 + 1) % 2

/-- Cost of the unit of a group (R75). -/
def Mod.unitCost (m : Mod) (g : Nat) : Nat :=
  if g < 4 then secCost (m.layout g) else if m.inUse g then 200 else 0

/-- The group in whose block a context number lies (R119). -/
def ctxGroup (n : Nat) : Option Nat :=
  if n < 96 then some (n / 24) else if n < 120 then some (4 + (n - 96) / 6) else none

/-- Whether a context number belongs to a cascade whose unit is in use (R119). -/
def Mod.isCascade (m : Mod) (n : Nat) : Bool :=
  match ctxGroup n with
  | some g => m.inUse g
  | none   => false

/-- Whether a context is enabled as an additional one. -/
def Mod.isAdditional (m : Mod) (n : Nat) : Bool := m.get (Ob.ctxEnable n) = 1

/-- Whether a context runs in a cascade: its unit is in use, and it was not enabled as an additional one before (R119). -/
def Mod.inCascade (m : Mod) (n : Nat) : Bool := m.isCascade n && !m.isAdditional n

/-- The additional contexts that count beside the cascades (R119). -/
def Mod.extras (m : Mod) : List Nat := (List.range 160).filter (fun n => m.isAdditional n && !m.isCascade n)

/-- KIND of a context (R136). -/
def Mod.kindOf (m : Mod) (n : Nat) : Nat :=
  if m.isAdditional n then 3 else if m.isCascade n then (if n < 96 then 1 else 2) else 0

/-- ENGINE of a context (R136, R76). -/
def Mod.engineOf (m : Mod) (n : Nat) : Nat :=
  if m.isAdditional n then m.get (Ob.ctxEngine n)
  else if m.isCascade n then (match ctxGroup n with | some g => unitEngine g | none => 255)
  else 255

/-- Additional contexts on an engine. -/
def Mod.extrasOn (m : Mod) (eng : Nat) : Nat := (m.extras.filter (fun n => m.get (Ob.ctxEngine n) = eng)).length

/-- Worst-case cost of an engine (R75). -/
def Mod.engineCost (m : Mod) (eng : Nat) : Nat :=
  160 + (((List.range 8).filter (fun g => unitEngine g = eng)).map m.unitCost).foldl (· + ·) 0 + 16 * m.extrasOn eng

/-- Contexts in the store of an engine (R77). -/
def Mod.engineCtx (m : Mod) (eng : Nat) : Nat :=
  (((List.range 8).filter (fun g => unitEngine g = eng && m.inUse g)).map ctxCount).foldl (· + ·) 0 + m.extrasOn eng

/-- The stores' limits per engine and per lane (R77). -/
def ctxLimits (tickPs : Nat) : Nat × Nat := if tickPs < 10000000 then (48, 96) else (80, 160)

/-- Where an additional context goes when it is enabled (R76): the cheaper engine with room, engine 0 on a tie. -/
def Mod.placeOf (m : Mod) : Nat :=
  let lim := (ctxLimits m.tickPs).1
  let full0 := lim ≤ m.engineCtx 0
  let full1 := lim ≤ m.engineCtx 1
  if full0 && !full1 then 1 else if full1 then 0 else if m.engineCost 1 < m.engineCost 0 then 1 else 0

/-- Whether the tick period is one of R68. -/
def Mod.tickLegal (m : Mod) : Bool := 5000000 ≤ m.tickPs && m.tickPs ≤ 200000000

/-- The AC sections and the DC channels in use. -/
def Mod.secsInUse (m : Mod) : List Nat := (List.range 4).filter m.inUse
def Mod.dcsInUse (m : Mod) : List Nat := (List.range 4).filter (fun c => m.inUse (4 + c))

/-- The admission of the schedule in force (R78): none, or the engine and the cycles that EV018 reports.
DEDUCED, log entry 40. -/
def Mod.refusedSchedule (m : Mod) : Option (Nat × Nat) :=
  let ceil := ceilingCycles m.tickPs
  let lim := ctxLimits m.tickPs
  let c0 := m.engineCost 0
  let c1 := m.engineCost 1
  if ceil < c0 then some (0, c0)
  else if ceil < c1 then some (1, c1)
  else if lim.1 < m.engineCtx 0 then some (0, c0)
  else if lim.1 < m.engineCtx 1 then some (1, c1)
  else if lim.2 < m.engineCtx 0 + m.engineCtx 1 then some (if c0 < c1 then (1, c1) else (0, c0))
  else if m.tickPs < 10000000 && (2 < m.secsInUse.length || 2 < m.dcsInUse.length) then
    some (if c0 < c1 then (1, c1) else (0, c0))
  else none

/-- The entries of 1200h, 1201h and 4000h that follow from the configuration (R84, R251). -/
def Mod.showSchedule (m : Mod) : Mod :=
  let t := m.tickPs
  let pairs := (m.groupsInUse.map (fun g => pairsOf g (m.layout g))).foldl (· + ·) 0
  let m0 := (m.put Ob.configClass (max 1 m.secsInUse.length)).put Ob.pairsUsed pairs
  (((((((m0.put Ob.tickPeriod t).put Ob.contextLimit (ctxLimits t).2).put Ob.acSections m.secsInUse.length).put
    Ob.dcChannelMask (m.dcsInUse.foldl (fun a c => a + 2 ^ c) 0)).put Ob.windowCycles (windowCycles t)).put
    Ob.ceilingCycles (ceilingCycles t)).put Ob.eng0Worst (m.engineCost 0)).put Ob.eng1Worst (m.engineCost 1)

/-- Place every additional context that is enabled without a place, and take the place of every one that is not.
DEDUCED, log entry 93. -/
def Mod.placeContexts (m : Mod) : Mod :=
  m.each (List.range 160) (fun n m =>
    if m.isAdditional n then
      if m.get (Ob.ctxEngine n) = 255 then m.put (Ob.ctxEngine n) m.placeOf else m
    else if m.get (Ob.ctxEngine n) = 255 then m else m.put (Ob.ctxEngine n) 255)

end Sys2Proof.Machine
end

