-- ==== Sys2Proof/Machine/Engine.lean ====
section
/-!
DEFINITION. The control engines (R117 to R139): the coefficients of a context, its law with notch and shaper, the
nodes of the routing with their validity, enabling and clearing, the swap of the banks, and the notch's tracking.
-/
namespace Sys2Proof.Machine

/-! ### Coefficients (R122, R123, R135) -/

/-- The coefficients of a context in force, in seconds and per unit. -/
structure Coef where
  kp     : Rat
  ki     : Rat
  kd     : Rat
  tf     : Rat
  kb     : Rat
  onErr  : Bool
  lo     : Int
  hi     : Int
  rate   : Rat
  spRate : Rat
  spJerk : Rat
  npos   : Nat
  f0     : Rat
  depth  : Rat
  width  : Rat
deriving DecidableEq, Repr

/-- The coefficients of context `n` in force. -/
def Mod.coef (m : Mod) (n : Nat) : Coef :=
  { kp := m.getF (Ob.ctxKp n), ki := m.getF (Ob.ctxKi n), kd := m.getF (Ob.ctxKd n), tf := m.getF (Ob.ctxTf n)
    kb := m.getF (Ob.ctxKb n), onErr := m.get (Ob.dOn n) = 1, lo := m.getS (Ob.outMin n), hi := m.getS (Ob.outMax n)
    rate := m.getF (Ob.outRate n), spRate := m.getF (Ob.spRate n), spJerk := m.getF (Ob.spJerk n)
    npos := m.get (Ob.notchPos n), f0 := m.getF (Ob.notchF0 n), depth := m.getF (Ob.notchDepth n)
    width := m.getF (Ob.notchWidth n) }

/-- A derived coefficient with its relative error of at most 2^−31 (R122). -/
def derived (x : Rat) : Rat := x * (1 + clampR (-1 / 2147483648) (1 / 2147483648) (Config.coeffErr x))

/-- The discrete coefficients at tick period `t` (R121): KI × T, a, b, and KB_eff × T. -/
def Coef.kit (c : Coef) (t : Rat) : Rat := derived (c.ki * t)
def Coef.a (c : Coef) (t : Rat) : Rat := derived (c.tf / (c.tf + t))
def Coef.b (c : Coef) (t : Rat) : Rat := derived (c.kd / (c.tf + t))
def Coef.kbt (c : Coef) (t : Rat) : Rat :=
  derived (if 0 < c.kb then c.kb * t else if 0 < c.kp then c.ki / c.kp * t else 1 / 10)

/-- Whether R122 refuses a set of coefficients at tick period `t`. -/
def Coef.bad (c : Coef) (t : Rat) : Bool :=
  (0 < c.kd && c.tf < t) || 1 < c.ki * t || 1 < c.kb * t || c.hi ≤ c.lo

/-- The centre of a notch held between 1 Hz and 0.45 / T (R124). -/
def heldCentre (t f : Rat) : Rat := if f < 1 then 1 else if 45 / 100 / t < f then 45 / 100 / t else f

/-! ### The law (R121, R123, R133) -/

/-- The discrete coefficients b0 b1 b2 a1 a2 of the notch at tick period `t` (R122, R123): the analogue section by the
bilinear transform prewarped at its centre, with k = tan(π × f0 × T); 0 dB is unity. -/
def Coef.notch (c : Coef) (t centre : Rat) : List Rat :=
  if c.depth = 0 then [1, 0, 0, 0, 0]
  else
    let k := tanPi (centre * t)
    let zp := c.width
    let zz := zp * pow10 (-c.depth / 20)
    let a0 := 1 + 2 * zp * k + k * k
    let mid := derived (2 * (k * k - 1) / a0)
    [derived ((1 + 2 * zz * k + k * k) / a0), mid, derived ((1 - 2 * zz * k + k * k) / a0), mid,
     derived ((1 - 2 * zp * k + k * k) / a0)]

/-- One value through the notch, with its last two inputs and outputs (R123). -/
def notchRun (c : Coef) (t centre : Rat) (st : List Int) (x : Int) : Int × List Int :=
  let x1 := st.getD 0 0; let x2 := st.getD 1 0; let y1 := st.getD 2 0; let y2 := st.getD 3 0
  let k := c.notch t centre
  let y := q29OfLsb (k.getD 0 0 * x + k.getD 1 0 * x1 + k.getD 2 0 * x2 - k.getD 3 0 * y1 - k.getD 4 0 * y2)
  (y, [x, x1, y, y1])

/-- One tick of the shaper towards the target `g` (R133): r and the slope in pu/s. -/
def shape (spRate spJerk t : Rat) (g r : Int) (s : Rat) : Int × Rat :=
  if spRate = 0 then (g, 0)
  else
    let d : Rat := ((g - r : Int) : Rat) / 536870912
    let sg : Rat := if d < 0 then -1 else if d = 0 then 0 else 1
    let s1 :=
      if spJerk = 0 then clampR (-spRate) spRate (d / t)
      else
        let want := clampR (-spRate) spRate (sg * sqrtR (2 * spJerk * absR d))
        let s2 := clampR (s - spJerk * t) (s + spJerk * t) want
        if 0 < s2 * d && absR d ≤ absR s2 * t then d / t else s2
    (q29OfLsb ((r : Rat) + s1 * t * 536870912), s1)

/-- What a context takes in a tick: the target, the injection on r and on u, feedback, feedforward, whether every
node it reads is valid, and the limits and the SP_RATE in force where the mode sets them. -/
structure CtxIn where
  g     : Int
  y     : Int
  ff    : Int
  valid : Bool
  lo    : Int
  hi    : Int
  sp    : Rat
  jerk  : Rat
  still : Bool := false
  addR  : Int := 0
  addU  : Int := 0
  inj   : Bool := false
deriving DecidableEq, Repr

/-- One tick of a context (R121). A held context keeps every state (R125). DESIGN CHOICE, log entry 97. -/
def ctxStep (c : Coef) (t : Rat) (i : CtxIn) (x : CtxRt) : CtxRt :=
  if !i.valid then { x with flags := setBit x.flags 4 true }
  else
    let sh := if i.still then (x.r, x.s) else shape i.sp i.jerk t i.g x.r x.s
    let r := sat29 (sh.1 + i.addR)
    let centre := heldCentre t (x.centre.getD c.f0)
    let ny := if c.npos = 1 then notchRun c t centre x.notch i.y else (i.y, x.notch)
    let e := sat29 (r - ny.1)
    let xv := if c.onErr then e else sat29 (-ny.1)
    let prev := if x.fresh then xv else x.x
    let d := q29OfLsb (c.a t * x.d + c.b t * (xv - prev : Int))
    let u0 := q29OfLsb (derived c.kp * e + x.i + c.kit t * e + d + i.ff)
    let nu := if c.npos = 2 then notchRun c t centre ny.2 u0 else (u0, ny.2)
    let u := sat29 (nu.1 + i.addU)
    let v1 := clampI i.lo i.hi u
    let dv := c.rate * t * 536870912
    let v := if 0 < c.rate then q29OfLsb (clampR (x.v - dv) (x.v + dv) v1) else v1
    let iNew := q29OfLsb (x.i + c.kit t * e + c.kbt t * (v - u : Int))
    { x with
      fresh := false, r := sh.1, s := sh.2, e := e, i := iNew, d := d, x := xv, v := v, ff := i.ff, notch := nu.2
      flags := ctxFlags (v = i.hi) (v = i.lo) (v ≠ v1) (sh.1 ≠ i.g) i.inj }

/-! ### Nodes (R125, R127) -/

/-- Whether an address names a node (R127). -/
def isNode (a : Nat) : Bool :=
  a = 0 || (0x100 ≤ a && a ≤ 0x19F) || (0x200 ≤ a && a ≤ 0x217) || (0x300 ≤ a && a ≤ 0x39F)
  || (0x400 ≤ a && a ≤ 0x53F) || (0x600 ≤ a && a ≤ 0x61F) || (0x680 ≤ a && a ≤ 0x682)

/-- Whether a node is an angle (R127): signal 11h of a section. -/
def isAngNode (a : Nat) : Bool := 0x400 ≤ a && a < 0x500 && (a - 0x400) % 64 = 0x11

/-- Whether an address may stand as REF_SRC, FB_SRC or FF_SRC. -/
def isSource (a : Nat) : Bool := isNode a && !isAngNode a

/-- Signal j of a section and of a DC channel. -/
def EngRt.signal (e : EngRt) (s j : Nat) : Int := (e.sig.getD s []).getD j 0
def EngRt.dcSignal (e : EngRt) (c j : Nat) : Int := (e.dsig.getD c []).getD j 0

/-- The value of a node as some engine state holds it; unused addresses read 0. -/
def Mod.nodeIn (m : Mod) (e : EngRt) (a : Nat) : Int :=
  if 0x100 ≤ a && a ≤ 0x19F then (e.ctx.getD (a - 0x100) {}).v
  else if 0x200 ≤ a && a ≤ 0x217 then m.getS (Ob.sample (a - 0x200))
  else if 0x300 ≤ a && a ≤ 0x39F then (e.ctx.getD (a - 0x300) {}).r
  else if 0x400 ≤ a && a ≤ 0x4FF then e.signal ((a - 0x400) / 64) ((a - 0x400) % 64)
  else if 0x500 ≤ a && a ≤ 0x53F then e.dcSignal ((a - 0x500) / 16) ((a - 0x500) % 16)
  else if 0x600 ≤ a && a ≤ 0x61F then m.getS (Ob.setpoint (a - 0x600))
  else if a = 0x680 then m.inj.sig
  else if a = 0x681 then e.pre
  else if a = 0x682 then e.post
  else 0

/-- The engine that produces a node; none where no engine does. -/
def Mod.nodeEngine (m : Mod) (a : Nat) : Option Nat :=
  if 0x100 ≤ a && a ≤ 0x19F then some (m.engineOf (a - 0x100))
  else if 0x300 ≤ a && a ≤ 0x39F then some (m.engineOf (a - 0x300))
  else if 0x400 ≤ a && a ≤ 0x4FF then some (unitEngine ((a - 0x400) / 64))
  else if 0x500 ≤ a && a ≤ 0x53F then some (unitEngine (4 + (a - 0x500) / 16))
  else if a = 0x681 || a = 0x682 then some (m.engineOf (m.get Ob.injCtx))
  else none

/-- A node as engine `eng` reads it in the tick (R128): what this engine has produced so far, and from the other
engine the value of the previous tick, which `m.saved` holds. -/
def Mod.node (m : Mod) (eng a : Nat) : Int :=
  match m.nodeEngine a with
  | some k => if k = eng then m.nodeIn m.eng a else m.nodeIn m.saved a
  | none   => m.nodeIn m.eng a

/-- The channels with a role that a unit owns (R89), without those that only stand by for a lower-numbered one. -/
def Mod.assigned (m : Mod) (g r : Nat) : List Nat :=
  (List.range 24).filter (fun n => m.get (Ob.role n) = r && bit (m.owners n) g
    && !(m.get (Ob.redundantWith n) < n && m.get (Ob.role (m.get (Ob.redundantWith n))) = r
         && bit (m.owners (m.get (Ob.redundantWith n))) g))

/-- The channel in use for a channel: its partner, while its users continue on that (R111). -/
def Mod.inUseFor (m : Mod) (n : Nat) : Nat := if bit m.meas.fall n then m.get (Ob.redundantWith n) else n

/-- The channels that deliver a role to a unit now. -/
def Mod.roleChans (m : Mod) (g r : Nat) : List Nat := (m.assigned g r).map m.inUseFor

/-- The link channels of a unit: ROLE 04h, or ROLE 05h and ROLE 06h. -/
def Mod.linkChans (m : Mod) (g : Nat) : List Nat :=
  let whole := m.roleChans g 4
  if whole.isEmpty then m.roleChans g 5 ++ m.roleChans g 6 else whole

/-- Whether a section has a role on phases a, b and c. -/
def Mod.hasPhases (m : Mod) (s r : Nat) : Bool :=
  (List.range 3).all (fun k => (m.assigned s r).any (fun n => m.get (Ob.phase n) = k))

/-- The channels that R107 uses: the three of ROLE 03h when they are assigned, otherwise ROLE 02h. -/
def Mod.syncChans (m : Mod) (s : Nat) : List Nat := m.roleChans s (if m.hasPhases s 3 then 3 else 2)

/-- Whether REG_POINT names the grid side and the relays are closed (R157). -/
def Mod.regGrid (m : Mod) (s : Nat) : Bool := m.get (Ob.regPoint s) = 1 && m.bothClosed

/-- The channels of the voltage at REG_POINT. -/
def Mod.regChans (m : Mod) (s : Nat) : List Nat := m.roleChans s (if m.regGrid s then 3 else 2)

/-- The channels that signal j of section s depends on (R125). -/
def Mod.sigDeps (m : Mod) (s j : Nat) : List Nat :=
  let volts := if (m.secAt s).follow then m.syncChans s else m.roleChans s 2
  if j ≤ 2 then m.roleChans s 1
  else if j ≤ 5 then m.roleChans s 2
  else if j ≤ 8 then m.roleChans s 3
  else if j ≤ 0xC then m.roleChans s 1
  else if j ≤ 0x10 then volts
  else if j = 0x13 || j = 0x14 || j = 0x19 || j = 0x1E then m.roleChans s 1 ++ volts
  else if j = 0x15 then m.linkChans s
  else if j = 0x1A then (if (m.secAt s).follow then m.syncChans s else m.roleChans s 2 ++ m.roleChans s 3)
  else if j = 0x1B then m.roleChans s 2 ++ m.roleChans s 3
  else if j = 0x1F || j = 0x22 || j = 0x25 then m.regChans s
  else []

/-- The channels that a node depends on (R125). -/
def Mod.nodeDeps (m : Mod) (a : Nat) : List Nat :=
  if 0x200 ≤ a && a ≤ 0x217 then [a - 0x200]
  else if 0x400 ≤ a && a ≤ 0x4FF then m.sigDeps ((a - 0x400) / 64) ((a - 0x400) % 64)
  else if 0x500 ≤ a && a ≤ 0x53F then
    let c := (a - 0x500) / 16
    let j := (a - 0x500) % 16
    if j = 0 then m.roleChans (4 + c) 7 else if j = 1 then m.roleChans (4 + c) 8
    else if j = 2 then m.linkChans (4 + c)
    else if j = 0xC then m.roleChans (4 + c) 7 ++ m.roleChans (4 + c) 8 else []
  else []

/-- Whether a node is valid in the tick (R125, R195). -/
def Mod.nodeValid (m : Mod) (a : Nat) : Bool :=
  (m.nodeDeps a).all (fun n => m.eng.valid.getD n false)
  && !(0x400 ≤ a && a ≤ 0x4FF && (a - 0x400) % 64 = 0x1A && (m.secAt ((a - 0x400) / 64)).follow
       && m.get (Ob.angleValid ((a - 0x400) / 64)) = 0)

/-! ### Enabling, clearing and swapping (R126, R130 to R132) -/

/-- The state of a context that is enabled (R126): cleared, its shaper at the present value of its reference node. -/
def CtxRt.enabled (g : Int) (x : CtxRt) : CtxRt :=
  { x with on := true, fresh := true, r := g, s := 0, e := 0, i := 0, d := 0, v := 0, ff := 0, notch := [0, 0, 0, 0], flags := 0 }

/-- Where a notch that tracks starts (R124). -/
def Mod.trackStart (m : Mod) (n : Nat) : Option Rat :=
  match m.get (Ob.notchTrack n) with
  | 0 => none
  | k + 1 =>
    let f : Rat := m.getF (Ob.fRated k)
    let gfq : Rat := if m.get (Ob.angleValid k) = 1 then (m.getS (Ob.gridFreq k) : Rat) / 1000000 else 0
    some ((m.get (Ob.notchHarm n) : Rat) * (f + gfq))

/-- The integrator of a context such that its output in the coming tick is `v`, where its target, feedback and
feedforward are `g`, `y` and `ff` then (R176, R177, R200, R239). -/
def Mod.backCalc (c : Coef) (n : Nat) (g y ff v : Int) (m : Mod) : Mod :=
  m.modCtx n (fun x =>
    let i : CtxIn := { g := g, y := y, ff := ff, valid := true, lo := min29, hi := max29, sp := c.spRate, jerk := c.spJerk }
    let u := (ctxStep { c with rate := 0 } m.tickS i { x with i := 0 }).v
    { x with i := sat29 (v - u), v := v, ff := ff })

/-- Enable a context. -/
def Mod.enableCtx (n : Nat) (m : Mod) : Mod :=
  m.modCtx n (fun x => { x.enabled (m.nodeIn m.eng (m.get (Ob.refSrc n))) with centre := m.trackStart n })

/-- Enable a context whose target is `g` and whose output in the coming tick is `v`. -/
def Mod.presetCtx (c : Coef) (n : Nat) (g y ff v : Int) (m : Mod) : Mod :=
  ((m.enableCtx n).modCtx n (fun x => { x with r := g })).backCalc c n g y ff v

/-- Disable a context and clear every state of it. -/
def Mod.dropCtx (n : Nat) (m : Mod) : Mod := m.modCtx n (fun x => { x.enabled 0 with on := false })

/-- Disable a context: its output node reads 0. -/
def Mod.disableCtx (n : Nat) (m : Mod) : Mod := m.modCtx n (fun x => { x with on := false, v := 0, r := 0 })

/-- The clearing of R126 at CTX_RESET: a context that runs starts as if it were enabled now. -/
def Mod.clearCtx (n : Nat) (m : Mod) : Mod :=
  m.modCtx n (fun x => { x.enabled (m.nodeIn m.eng (m.get (Ob.refSrc n))) with on := x.on })

/-- The swap of one context (R131, R132) from the coefficients `old` to `new`. -/
def Mod.swapTo (old new : Coef) (n : Nat) (m : Mod) : Mod :=
  let t := m.tickS
  let x := m.ctxAt n
  let d := if old.kd = new.kd && old.tf = new.tf then x.d else 0
  let i := q29OfLsb ((x.v : Rat) - derived new.kp * x.e - new.kit t * x.e - d - x.ff)
  let cleared := new.ki = 0 && x.i ≠ 0
  let outside := x.v < new.lo || new.hi < x.v
  let s := if new.spRate = old.spRate && new.spJerk = old.spJerk then x.s
           else if new.spRate = 0 then 0 else clampR (-new.spRate) new.spRate x.s
  let m1 := m.modCtx n (fun x => { x with
    d := d, i := if cleared then 0 else i, s := s, bank := !x.bank })
  if cleared || outside then
    m1.raise 19 sevInfo 0x2401 (n + 256 * b2n cleared + 512 * b2n outside)
  else m1

/-- The frequency that the section measures, in Hz. -/
def Mod.gridHz (m : Mod) (s : Nat) : Rat := m.getF (Ob.fRated s) + (m.getS (Ob.gridFreq s) : Rat) / 1000000

/-- Every 1 ms: the centre of each tracking notch follows its section while the angle is valid (R124); so does the
notch that position 12 runs in FOLLOWING (R193). -/
def Mod.notchUpdate (m : Mod) : Mod :=
  (m.each (List.range 4) (fun s m =>
    if (m.secAt s).follow && m.get (Ob.angleValid s) = 1 then
      m.modCtx (24 * s + 12) (fun x => { x with next := some (2 * m.gridHz s) })
    else m)).each (List.range 160) (fun n m =>
    match m.get (Ob.notchTrack n) with
    | 0 => m
    | k + 1 =>
      if (m.ctxAt n).on && m.get (Ob.angleValid k) = 1 then
        m.modCtx n (fun x => { x with next := m.trackStart n })
      else m)

/-- At a boundary the recomputed notch coefficients are loaded (R124). -/
def Mod.loadNotches (m : Mod) : Mod :=
  { m with eng := { m.eng with ctx := m.eng.ctx.map (fun x =>
      match x.next with | some f => { x with centre := some f, next := none } | none => x) } }

/-! ### Running a context in a tick -/

/-- Whether the injection acts on a context, and where (R146). -/
def Mod.injectsAt (m : Mod) (n : Nat) (output : Bool) : Bool :=
  m.inj.run && m.get Ob.injCtx = n && (m.get Ob.injPoint = 1) = output

/-- EV020 at the tick in which a context begins to hold (R125). DEDUCED, log entry 50. -/
def Mod.noteHeld (n : Nat) (was : Bool) (m : Mod) : Mod :=
  if bit (m.ctxAt n).flags 4 && !was then m.raise 20 sevWarn 0x2402 n else m

/-- Whether the force of a group with SOURCE 00h holds a context of its cascade (R269). DEDUCED, log entry 50. -/
def Mod.forceHolds (m : Mod) (n : Nat) : Bool :=
  m.inCascade n && (match ctxGroup n with
    | some g => m.get (Ob.grpSource g) = 0 && m.get (Ob.forceEn g) % 2 ^ (m.groupPairs g).length ≠ 0
    | none   => false)

/-- Run context `n` on engine `eng` with coefficients `c`, its routing, an extra feedforward and what the mode changes.
DEDUCED, log entry 50. -/
def Mod.runCtxAs (c : Coef) (n eng : Nat) (extra : Int) (change : CtxIn → CtxIn) (m : Mod) : Mod :=
  let ref := m.get (Ob.refSrc n)
  let fb := m.get (Ob.fbSrc n)
  let ff := m.get (Ob.ffSrc n)
  let i : CtxIn := change {
    g := m.node eng ref, y := m.node eng fb, ff := sat29 (m.node eng ff + extra)
    valid := m.nodeValid ref && m.nodeValid fb && m.nodeValid ff && !m.forceHolds n, lo := c.lo, hi := c.hi, sp := c.spRate, jerk := c.spJerk
    addR := if m.injectsAt n false then m.inj.sig else 0
    addU := if m.injectsAt n true then m.inj.sig else 0
    inj := m.inj.run && m.get Ob.injCtx = n }
  let x := m.ctxAt n
  let y := ctxStep c m.tickS i x
  let m1 := (m.modCtx n (fun _ => y)).noteHeld n (bit x.flags 4)
  if i.inj then
    let pre := if m.get Ob.injPoint = 1 then
        if c.npos = 2 then y.notch.getD 2 0 else q29OfLsb (derived c.kp * y.e + x.i + c.kit m.tickS * y.e + y.d + i.ff) else y.r
    { m1 with eng := { m1.eng with pre := pre, post := sat29 (pre + m.inj.sig) } }
  else m1

/-- The same with the coefficients of its object. -/
def Mod.runCtxWith (n eng : Nat) (extra : Int) (change : CtxIn → CtxIn) (m : Mod) : Mod :=
  m.runCtxAs (m.coef n) n eng extra change

/-- Run context `n` as its routing says. -/
def Mod.runCtx (n eng : Nat) (m : Mod) : Mod := m.runCtxWith n eng 0 id

/-- The additional contexts of an engine in ascending ORDER, then number (R128). -/
def Mod.extraOrder (m : Mod) (eng : Nat) : List Nat :=
  sortBy (fun a b => m.get (Ob.ctxOrder a) < m.get (Ob.ctxOrder b) || (m.get (Ob.ctxOrder a) = m.get (Ob.ctxOrder b) && a ≤ b))
    ((List.range 160).filter (fun n => m.isAdditional n && m.get (Ob.ctxEngine n) = eng))

/-- Run the additional contexts of an engine. -/
def Mod.runExtras (eng : Nat) (m : Mod) : Mod := m.each (m.extraOrder eng) (fun n m => m.runCtx n eng)

/-- Bring the state objects of the contexts that run to what the last committed tick left (R137). -/
def Mod.ctxShown (m : Mod) (n sub : Nat) : Option Nat :=
  let e := if m.clk.phase = .compute then m.saved else m.eng
  let x := e.ctx.getD n {}
  match sub with
  | 1 => some (Raw.ofInt 32 x.r)
  | 2 => some (f32Raw x.s)
  | 3 => some (Raw.ofInt 32 x.e)
  | 4 => some (Raw.ofInt 32 x.i)
  | 5 => some (Raw.ofInt 32 x.d)
  | 6 => some (Raw.ofInt 32 x.v)
  | 7 => some (b2n x.bank)
  | 8 => some x.flags
  | _ => none

/-! ### What reads a context (R129, R136, R139) -/

/-- The contexts whose output context `n` may reach: those that name it in a source. -/
def Mod.readers (m : Mod) (n : Nat) : List Nat :=
  (List.range 160).filter (fun k => (m.isAdditional k || m.isCascade k) &&
    (m.get (Ob.refSrc k) = 0x100 + n || m.get (Ob.fbSrc k) = 0x100 + n || m.get (Ob.ffSrc k) = 0x100 + n))

/-- The groups whose cascades read a context's output, directly or through other contexts, within `fuel` steps. -/
def Mod.readingGroups (m : Mod) : Nat → List Nat → List Nat → List Nat
  | 0, _, _ => []
  | fuel + 1, seen, todo =>
    match todo with
    | [] => []
    | _ :: _ =>
      let next := (todo.flatMap m.readers)
      let casc := next.filter m.inCascade
      let fresh := ((next.filter (fun k => !m.inCascade k && !(seen.contains k))).eraseDups)
      casc.filterMap ctxGroup ++ m.readingGroups fuel (seen ++ fresh) fresh

/-- Groups that a change to context `n` affects (R129): its own unit for a cascade, the units that read it otherwise. -/
def Mod.ctxAffects (m : Mod) (n : Nat) : List Nat :=
  if m.inCascade n then (match ctxGroup n with | some g => [g] | none => [])
  else (m.readingGroups 160 [n] [n]).eraseDups

/-- Whether a context that a command would stop is read by a cascade that is not at rest. -/
def Mod.ctxBusy (m : Mod) (n : Nat) : Bool := (m.ctxAffects n).any (fun g => !m.atRest g)

end Sys2Proof.Machine
end

