-- ==== Sys2Proof/Machine/Cascade.lean ====
section
/-!
DEFINITION. What the engines compute each tick for a section and a DC channel: the signals of the routing, the virtual
synchronous machine and the loops of grid-forming operation (R154 to R160, R171, R179), the loops of grid-following
operation (R193 to R200), the references of a ride-through and the current limit (R229 to R238), and the DC cascade
(R210 to R212).
-/
namespace Sys2Proof.Machine

/-! ### Bases (R8, R89) -/

/-- √(2/3), to 12 places. DESIGN CHOICE, log entry 11. -/
def sqrt23 : Rat := 816496580928 / 1000000000000

/-- Peak phase voltage base of a section, V. -/
def Mod.vBase (m : Mod) (s : Nat) : Rat := m.getF (Ob.vRatedLl s) * sqrt23

/-- Peak current base of a section, A: √2 S / (√3 V). -/
def Mod.iBase (m : Mod) (s : Nat) : Rat :=
  let v := m.getF (Ob.vRatedLl s)
  if v = 0 then 0 else sqrt23 * m.getF (Ob.sRated s) / v

/-- Current base of a DC channel, A. -/
def Mod.iBaseDc (m : Mod) (c : Nat) : Rat :=
  let v := m.getF (Ob.vDcBase c)
  if v = 0 then 0 else m.getF (Ob.pRated c) / v

/-- Base of a link channel, V (R89): V_DC_BASE of its lowest DC channel, otherwise twice the peak phase voltage of its
lowest section. -/
def Mod.linkBaseOf (m : Mod) (n : Nat) : Rat :=
  match (List.range 4).find? (fun c => bit (m.owners n) (4 + c)) with
  | some c => m.getF (Ob.vDcBase c)
  | none =>
    match (List.range 4).find? (fun s => bit (m.owners n) s) with
    | some s => 2 * m.vBase s
    | none   => 0

/-- Base of the link that a unit uses. -/
def Mod.linkBase (m : Mod) (g : Nat) : Rat :=
  match m.linkChans g with
  | n :: _ => m.linkBaseOf n
  | []     => 0

/-! ### Samples and signals -/

/-- The channels of a unit's link, whatever delivers now (R209). -/
def Mod.linkId (m : Mod) (g : Nat) : List Nat :=
  let whole := m.assigned g 4
  if whole.isEmpty then m.assigned g 5 ++ m.assigned g 6 else whole

/-- k_I as applied to a unit: the lowest factor of the link channels that it uses (R487). DEDUCED, log entry 74. -/
def Mod.ageFactor (m : Mod) (g : Nat) : Rat := (m.linkId g).foldl (fun a n => minR a (m.age.factor.getD n 1)) 1

/-- I_MAX of a section as its limits use it: the value in force × k (R424, R494). -/
def Mod.iMaxNow (m : Mod) (s : Nat) : Int := if m.therm.k = 1 then m.getS (Ob.iMax s) else q29OfLsb ((m.getS (Ob.iMax s) : Rat) * m.therm.k)

/-- A DC limit scaled by k and by k_I of the channel's link (R424, R487). -/
def Mod.dcScaled (m : Mod) (c : Nat) (v : Int) : Int :=
  let f := m.therm.k * m.ageFactor (4 + c)
  if f = 1 then v else q29OfLsb ((v : Rat) * f)

/-- I_OUT_MAX and I_IN_MAX of a DC channel so scaled. -/
def Mod.iOutNow (m : Mod) (c : Nat) : Int := m.dcScaled c (m.getS (Ob.iOutMax c))
def Mod.iInNow (m : Mod) (c : Nat) : Int := m.dcScaled c (m.getS (Ob.iInMax c))

/-- Sum of the control samples of channels. -/
def Mod.sampleSum (m : Mod) (ns : List Nat) : Int := sat29 ((ns.map (fun n => m.getS (Ob.sample n))).foldl (· + ·) 0)

/-- The control sample of the channel that measures phase `k` of a role. -/
def Mod.phaseSample (m : Mod) (g r k : Nat) : Int :=
  match (m.assigned g r).find? (fun n => m.get (Ob.phase n) = k) with
  | some n => m.getS (Ob.sample (m.inUseFor n))
  | none   => 0

/-- The link voltage of a unit in pu of its base: the whole link, or both halves. -/
def Mod.linkSample (m : Mod) (g : Nat) : Int := m.sampleSum (m.linkChans g)

/-- Publish signal j of section s. -/
def Mod.sig (s j : Nat) (v : Int) (m : Mod) : Mod :=
  { m with eng := { m.eng with sig := m.eng.sig.modify s (fun l => l.set j v) } }

/-- Publish signal j of DC channel c. -/
def Mod.dsig (c j : Nat) (v : Int) (m : Mod) : Mod :=
  { m with eng := { m.eng with dsig := m.eng.dsig.modify c (fun l => l.set j v) } }

/-- Publish several signals from j on. -/
def Mod.sigs (s j : Nat) (vs : List Int) (m : Mod) : Mod :=
  (vs.foldl (fun (p : Nat × Mod) v => (p.1 + 1, p.2.sig s p.1 v)) (j, m)).2

/-- α and β of a phasor. -/
def vecOf (p : Phasor) : Int × Int := (mul29 p.mag (cosQ29 p.ang), mul29 p.mag (sinQ29 p.ang))

/-- d and q of a positive-sequence phasor in the frame of an angle. -/
def posDq (p : Phasor) (theta : Nat) : Int × Int := park (vecOf p).1 (vecOf p).2 theta

/-- d and q of a negative-sequence phasor in the frame that rotates backwards. -/
def negDq (p : Phasor) (theta : Nat) : Int × Int :=
  let a := posDq p theta
  (a.1, -a.2)

/-- α and β of a section's phase voltages of a role, from the samples in force. -/
def Mod.phaseVec (m : Mod) (s r : Nat) : Int × Int :=
  let v := clarke (m.phaseSample s r 0) (m.phaseSample s r 1) (m.phaseSample s r 2)
  (v.1, v.2.1)

/-- One tick of a second-order generalised integrator of gain `k` centred where the angle advances by `w` radians a tick
(R193): the input `x`, the state (v′, qv′). The rule gives no discretisation; the two integrators advance in turn.
DESIGN CHOICE, log entry 105. -/
def sogiStep (k w : Rat) (x v q : Int) : Int × Int :=
  let v1 := q29OfLsb ((v : Rat) + w * (k * ((x - v : Int) : Rat) - (q : Rat)))
  (v1, q29OfLsb ((q : Rat) + w * (v1 : Rat)))

/-- The DSOGI of a section advances on the voltages that R107 names (R193), centred on F_RATED × (1 + dw) of the last tick. -/
def Mod.sogiTick (s : Nat) (m : Mod) : Mod :=
  if m.get (Ob.syncMethod s) = 1 then
    let u := m.phaseVec s (if m.hasPhases s 3 then 3 else 2)
    let w := 2 * fxRat fxPi * m.getF (Ob.fRated s) * (1 + pu (m.vsmAt s).dw) * m.tickS
    let k := m.getF (Ob.sogiK s)
    m.modVsm s (fun v =>
      let a := sogiStep k w u.1 (v.sogi.getD 0 0) (v.sogi.getD 1 0)
      let b := sogiStep k w u.2 (v.sogi.getD 2 0) (v.sogi.getD 3 0)
      { v with sogi := [a.1, a.2, b.1, b.2] })
  else m

/-- vd+ and vq+ in FOLLOWING (R193): of the whole voltage, or of the positive sequence that the DSOGI separates. -/
def Mod.syncDq (m : Mod) (s : Nat) : Int × Int :=
  let v := m.vsmAt s
  if m.get (Ob.syncMethod s) = 1 then
    let g := v.sogi
    park (q29OfLsb ((g.getD 0 0 - g.getD 3 0 : Int) / (2 : Rat))) (q29OfLsb ((g.getD 1 0 + g.getD 2 0 : Int) / (2 : Rat))) v.theta
  else
    let u := m.phaseVec s (if m.hasPhases s 3 then 3 else 2)
    park u.1 u.2 v.theta

/-- Active and reactive power from the positive sequence (R156, R197). -/
def powerOf (vd vq i_d i_q : Int) : Int × Int := (sat29 (mul29 vd i_d + mul29 vq i_q), sat29 (mul29 vd i_q - mul29 vq i_d))

/-- The angle as the q29 pattern of the ang32 node. -/
def angNode (a : Nat) : Int := Raw.signed 32 a

/-- Signals 00h to 15h of a section from the samples of the tick (R127, R193). -/
def Mod.baseSignals (s : Nat) (x : SecMeas) (m : Mod) : Mod :=
  let th := (m.vsmAt s).theta
  let following := (m.secAt s).follow
  let vn := if following && m.hasPhases s 3 then x.gridNeg else x.convNeg
  let m0 := m.sogiTick s
  let v := if following then m0.syncDq s else posDq x.convPos th
  let vneg := negDq vn th
  let i := posDq x.curPos th
  let ineg := negDq x.curNeg th
  let pq := powerOf v.1 v.2 i.1 i.2
  let ph (r : Nat) : List Int := (List.range 3).map (m.phaseSample s r)
  (((((m0.sigs s 0 (ph 1)).sigs s 3 (ph 2 ++ ph 3)).sigs s 9 [i.1, i.2, ineg.1, ineg.2, v.1, v.2, vneg.1, vneg.2]).sigs s 0x13
    [pq.1, pq.2, m.linkSample s]).modSec s (fun y => { y with pMeas := pq.1, qMeas := pq.2 }))

/-- The positive-sequence magnitude at REG_POINT (R157): the converter side whenever the relays are open. -/
def Mod.regVolts (m : Mod) (s : Nat) (x : SecMeas) : Int := if m.regGrid s then x.gridPos.mag else x.convPos.mag

/-- Speed of the grid in pu of F_RATED as a deviation. -/
def Mod.gridDw (m : Mod) (s : Nat) : Int :=
  let f := m.getF (Ob.fRated s)
  if f = 0 then 0 else q29Of ((m.getS (Ob.gridFreq s) : Rat) / 1000000 / f)

/-- dw_set = F_SET / F_RATED. -/
def Mod.dwSet (m : Mod) (s : Nat) : Rat :=
  let f := m.getF (Ob.fRated s)
  if f = 0 then 0 else (m.getS (Ob.fSet s) : Rat) / 1000000 / f

/-- The advance of an angle in one tick at a speed deviation (R156, R193). -/
def Mod.advance (m : Mod) (s : Nat) (dw : Int) : Int :=
  (4294967296 * m.getF (Ob.fRated s) * (1 + pu dw) * m.tickS + 1 / 2).floor

/-! ### Set-points (R160) -/

/-- One tick of a set-point shaper of slope `rate`. -/
def ramped (rate t : Rat) (target now : Int) : Int := (shape rate 0 t target now 0).1

/-- P_ref and Q_ref of a tick (R160, R163, R167, R238): targets of 0 while a stop with ramps runs, P_ref at 0 in RAMP;
RECONNECT_RAMP and RT_P_RECOVERY act until P_ref first reaches P_SET. -/
def Mod.stepSetpoints (s : Nat) (m : Mod) : Mod :=
  let x := m.secAt s
  let v := m.vsmAt s
  let stopping := m.gf s = gfStopping && !x.noRamps
  let pT := if stopping then 0 else m.getS (Ob.pSet s)
  let qT := if stopping then 0 else m.getS (Ob.qSet s)
  let rate := if stopping then m.getF (Ob.pRamp s) else if x.reconnect then m.getF (Ob.reconnectRamp s) else if x.recovRamp then m.getF (Ob.rtPRecovery s)
              else m.getF (Ob.pRamp s)
  let p := if m.gf s = gfRamp then 0 else ramped rate m.tickS pT v.pRef
  let q := ramped (m.getF (Ob.qRamp s)) m.tickS qT v.qRef
  let m1 := m.modVsm s (fun v => { v with pRef := p, qRef := q })
  let m2 := if p = pT then m1.modSec s (fun x => { x with reconnect := false, recovRamp := false }) else m1
  m2.putQ (Ob.pRef s) p

/-! ### Effective impedance and damping (R184) -/

/-- Whether the section has a valid SCR result (R175, R184). -/
def Mod.scrKnown (m : Mod) (s : Nat) : Bool := m.get (Ob.idValid s) = 0 || !(m.secAt s).idRes.isEmpty

/-- The factor k from the latest valid SCR. -/
def Mod.adaptFactor (m : Mod) (s : Nat) : Rat :=
  if m.get (Ob.adaptEn s) = 1 then
    let r := m.getF (Ob.scr s)
    let lo := m.getF (Ob.scrWeak s)
    let hi := m.getF (Ob.scrStiff s)
    let top := m.getF (Ob.adaptMax s)
    if r ≤ lo then 1 else if hi ≤ r then top else 1 + (top - 1) * (r - lo) / (hi - lo)
  else 1

/-- A value moved towards a target by at most a step. -/
def towards (step target now : Rat) : Rat :=
  if target < now - step then now - step else if now + step < target then now + step else target

/-- XV_POS_EFF and DAMP_EFF. -/
def Mod.xvEff (m : Mod) (s : Nat) : Rat := (m.vsmAt s).xv.getD (m.getF (Ob.xvPos s))
def Mod.dampEffOf (m : Mod) (s : Nat) : Rat := (m.vsmAt s).damp.getD (m.getF (Ob.damp s))

/-- Both move by at most 5 % of XV_POS and DAMP per second; without a valid result they hold. -/
def Mod.adapt (s : Nat) (m : Mod) : Mod :=
  let v := m.vsmAt s
  if m.get (Ob.adaptEn s) = 0 && v.xv.isNone && v.damp.isNone then m
  else if m.get (Ob.adaptEn s) = 1 && !m.scrKnown s then
    m.modVsm s (fun v => { v with xv := some (m.xvEff s), damp := some (m.dampEffOf s) })
  else
    let k := m.adaptFactor s
    let xv0 := m.getF (Ob.xvPos s)
    let d0 := m.getF (Ob.damp s)
    let xv := towards (xv0 * m.tickS / 20) (xv0 * k) (m.xvEff s)
    let d := towards (d0 * m.tickS / 20) (d0 * k) (m.dampEffOf s)
    let off := m.get (Ob.adaptEn s) = 0
    m.modVsm s (fun v => { v with
      xv := if off && xv = xv0 then none else some xv, damp := if off && d = d0 then none else some d })

/-! ### Modulation (R159, R239, R266, R267) -/

/-- The three phases of a vector of both sequences at an angle (R159): the inverse transforms, summed. -/
def phasesOf (d q dn qn : Int) (theta : Nat) : List Int :=
  let p := invPark d q theta
  let n := invPark dn qn (angWrap (-(theta : Int)))
  let a := sat29 (p.1 + n.1)
  let b := sat29 (p.2 + n.2)
  let half : Rat := 866025403784438646764 / 1000000000000000000000
  [a, q29OfLsb (-(a : Rat) / 2 + half * b), q29OfLsb (-(a : Rat) / 2 - half * b)]

/-- The duties of a section for three modulation references. -/
def Mod.dutiesOf (m : Mod) (s : Nat) (refs : List Int) : List Rat :=
  let i := (List.range 3).map (fun k => pu (m.eng.signal s k))
  let p := m.eng.signal s 0x13
  let shift := pu (m.ctxAt (24 * s + 13)).v * (if p < 0 then -1 else if p = 0 then 0 else 1)
  m.sectionDuties s (refs.map pu) i (pu (m.eng.signal s 0x15) * m.linkBase s) (m.vBase s) shift

/-- The duties of the tick: the normal set from the references, the clamp set from the converter-side voltages (R239). With
an invalid link sample the section repeats its last (R266). -/
def Mod.modulate (s : Nat) (refs : List Int) (m : Mod) : Mod :=
  let m1 := m.sigs s 0x16 refs
  if !m1.nodeValid (0x415 + 0x40 * s) then m1 else
  let clamp := (List.range 3).map (fun k => m1.eng.signal s (3 + k))
  { m1 with eng := { m1.eng with
      duty := m1.eng.duty.set s (m1.dutiesOf s refs), clamp := m1.eng.clamp.set s (m1.dutiesOf s clamp) } }

/-- The neutral-point balance of a three-level section (R267). -/
def Mod.neutralPoint (s eng : Nat) (m : Mod) : Mod :=
  if m.threeLevel s && (m.ctxAt (24 * s + 13)).on then m.runCtx (24 * s + 13) eng else m

/-- Run a context of a cascade towards `g` with an extra feedforward; where `start` gives an output, its integrator is set
so that the tick starts from that. -/
def Mod.runFrom (start : Option Int) (n eng : Nat) (extra : Int) (change : CtxIn → CtxIn) (m : Mod) : Mod :=
  match start with
  | none   => m.runCtxWith n eng extra change
  | some v =>
    let i := change { g := m.node eng (m.get (Ob.refSrc n)), y := m.node eng (m.get (Ob.fbSrc n)), valid := true, lo := 0, hi := 0
                      ff := sat29 (m.node eng (m.get (Ob.ffSrc n)) + extra), sp := 0, jerk := 0 }
    (m.backCalc (m.coef n) n i.g i.y i.ff v).runCtxWith n eng extra change

/-- The converter-side voltage of the tick in the frame of the section: what positions 8 to 11 give where their duties start
from the clamp set (R239). -/
def Mod.clampDq (m : Mod) (s : Nat) : List Int :=
  let u := clarke (m.eng.signal s 3) (m.eng.signal s 4) (m.eng.signal s 5)
  let d := park u.1 u.2.1 (m.vsmAt s).theta
  [d.1, d.2, 0, 0]

/-- Positions 8 to 11 towards four current references, with the feedforward of R159; from the clamp set where they start
there (R239). -/
def Mod.currentLoops (s eng : Nat) (refs : List Int) (m0 : Mod) : Mod :=
  let c := m0.clampDq s
  let from0 (k : Nat) : Option Int := if (m0.vsmAt s).start = 0 then none else some (c.getD k 0)
  let m := m0.modVsm s (fun v => { v with start := 0 })
  let w := 1 + pu (m.vsmAt s).dw
  let l := m.getF (Ob.filterL s)
  let g (j : Nat) : Int := m.eng.signal s j
  let ff (v i : Nat) (sign : Rat) : Int := q29OfLsb ((g v : Rat) + sign * w * l * (g i))
  let b := 24 * s
  (((m.runFrom (from0 0) (b + 8) eng (ff 0x0D 0x0A (-1)) (fun i => { i with g := refs.getD 0 0 })).runFrom (from0 1) (b + 9) eng
    (ff 0x0E 0x09 1) (fun i => { i with g := refs.getD 1 0 })).runFrom (from0 2) (b + 10) eng
    (ff 0x0F 0x0C (-1)) (fun i => { i with g := refs.getD 2 0 })).runFrom (from0 3) (b + 11) eng
    (ff 0x10 0x0B 1) (fun i => { i with g := refs.getD 3 0 })

/-- The outputs of positions 8 to 11 as modulation references. -/
def Mod.voltagesOut (m : Mod) (s : Nat) : List Int :=
  let v (k : Nat) : Int := (m.ctxAt (24 * s + k)).v
  phasesOf (v 8) (v 9) (v 10) (v 11) (m.vsmAt s).theta

/-! ### Grid forming -/

/-- A value in pu from its q29 value and the part below one LSB, in 2^−32 LSB. -/
def fine (x rem : Int) : Rat := pu x + (rem : Rat) / 2305843009213693952

/-- That part of a value whose q29 value is `x`. -/
def remOf (v : Rat) (x : Int) : Int := ((v - pu x) * 2305843009213693952).floor

/-- The machine of a tick (R156), whose speed and low-pass carry 32 bits below one LSB, so that no error of the power is lost
in rounding (R161); in hold P_m is 0 (R179), and while the limit acts P stands for P_m (R238). DEDUCED, log entry 51. -/
def Mod.machine (s : Nat) (m : Mod) : Mod :=
  let v := m.vsmAt s
  let t := m.tickS
  let mp := m.getF (Ob.pfDroop s) / 100
  let set := m.dwSet s
  let u0 := (m.ctxAt (24 * s)).v
  let u3 := if m.get (Ob.linkReg s) = 1 then (m.ctxAt (24 * s + 3)).v else 0
  let p := m.eng.signal s 0x13
  let sum := q29Of (pu (v.pRef + u0 - u3) - (pu v.dw - set) / mp)
  let pm := if v.limited then p else if m.gf s = gfHold then 0 else sum
  let w0 := fine v.dw v.dwRem
  let l0 := fine v.dwLp v.lpRem
  let l1 := l0 + t / m.getF (Ob.dampTc s) * (w0 - l0)
  let w1 := clampR (-1 / 10) (1 / 10) (w0 + t / (2 * m.getF (Ob.gfH s)) * (pu pm - pu p - m.dampEffOf s * (w0 - l1)))
  let lp := q29Of l1
  let dw := q29Of w1
  m.modVsm s (fun v => { v with
    dw := dw, dwRem := remOf w1 dw, dwLp := lp, lpRem := remOf l1 lp, pM := pm, theta := angWrap (v.theta + m.advance s dw) })

/-- The speed of PRESYNC and CLOSING_LIVE (R171): the grid's plus the output of position 12. -/
def Mod.presyncSpeed (s : Nat) (m : Mod) : Mod :=
  let dw := sat29 (m.gridDw s + (m.ctxAt (24 * s + 12)).v)
  m.modVsm s (fun v => { v with dw := dw, dwRem := 0, lpRem := 0, theta := angWrap (v.theta + m.advance s dw) })

/-- The voltage references of R158 with the impedances of R168, R184 and R237. DEDUCED, log entry 51. -/
def Mod.voltageRefs (m : Mod) (s : Nat) : List Int :=
  let v := m.vsmAt s
  let r2 := (m.ctxAt (24 * s + 2)).r
  let v2 := (m.ctxAt (24 * s + 2)).v
  let xr := m.getF (Ob.viXr s)
  let add := pu v.viAdd / sqrtR (1 + xr * xr)
  let rp := m.getF (Ob.rvPos s) + pu v.rvAdd + add
  let xp := m.xvEff s + xr * add
  let rn := m.getF (Ob.rvNeg s)
  let xn := m.getF (Ob.xvNeg s)
  let g (j : Nat) : Rat := (m.eng.signal s j : Int)
  [q29OfLsb ((r2 + v2 : Int) - rp * g 9 + xp * g 0xA), q29OfLsb (-(rp * g 0xA) - xp * g 9),
   q29OfLsb (-(rn * g 0xB) - xn * g 0xC), q29OfLsb (-(rn * g 0xC) + xn * g 0xB)]

/-- The disturbance of an identification under way (R180): ±ID_AMPL by the last stage of its register. -/
def Mod.idSignal (m : Mod) (s : Nat) : Int :=
  if (m.secAt s).idOn then
    (if bit (m.secAt s).idReg (m.get (Ob.idOrder s) - 1) then m.getS (Ob.idAmpl s) else -m.getS (Ob.idAmpl s))
  else 0

/-- Positions 4 to 7 towards the voltage references; `lim` gives each its effective limits where the current limit acts. -/
def Mod.voltageLoops (s eng : Nat) (refs : List Int) (lim : Option (List Int)) (m : Mod) : Mod :=
  let w := 1 + pu (m.vsmAt s).dw
  let c := m.getF (Ob.filterC s)
  let ff (j : Nat) (sign : Rat) : Int := q29OfLsb (sign * w * c * (m.eng.signal s j : Int))
  let b := 24 * s
  let inj := if m.gf s = gfForming then m.idSignal s else 0
  let set (k : Nat) (i : CtxIn) : CtxIn :=
    let i1 := { i with g := refs.getD k 0, addR := i.addR + (if k = 0 then inj else 0) }
    match lim with
    | some l => { i1 with lo := l.getD k 0, hi := l.getD k 0 }
    | none   => if k < 2 then { i1 with lo := min29, hi := max29 } else i1
  let from0 (k : Nat) : Option Int := if (m.vsmAt s).start = 2 then some (m.eng.signal s (9 + k)) else none
  (((m.runFrom (from0 0) (b + 4) eng (ff 0x0E (-1)) (set 0)).runFrom (from0 1) (b + 5) eng (ff 0x0D 1) (set 1)).runFrom (from0 2) (b + 6) eng
    (ff 0x10 (-1)) (set 2)).runFrom (from0 3) (b + 7) eng (ff 0x0F 1) (set 3)

/-- The inrush hold of r2 in RAMP (R168): the first hold of a ramp raises EV068. -/
def Mod.inrush (s : Nat) (m : Mod) : Mod :=
  let top := ((List.range 3).map (fun k => absI (m.eng.signal s k))).foldl max 0
  let lim := m.getS (Ob.inrushLimit s)
  if m.gf s = gfRamp then
    if lim < top then
      let m1 := m.modVsm s (fun v => { v with held := true })
      if (m.secAt s).inrushHit then m1
      else
        let e := m.eng.signal s 0x19
        let part : Nat := if e ≤ 0 then 0 else ((m.ctxAt (24 * s + 2)).r * 16384 / e).toNat
        (m1.modSec s (fun y => { y with inrushHit := true })).raise 68 sevWarn 0x3004 (65536 * s + 262144 * (part % 16384))
    else if top * 10 < lim * 9 then m.modVsm s (fun v => { v with held := false })
    else m
  else m.modVsm s (fun v => { v with held := false })

/-- INRUSH_RV in RAMP, removed over 100 ms afterwards (R162, R168), and the threshold impedance (R237). -/
def Mod.addedImpedance (s : Nat) (m : Mod) : Mod :=
  let v := m.vsmAt s
  let rv := q29Of (m.getF (Ob.inrushRv s))
  let step := q29Of (m.getF (Ob.inrushRv s) * m.tickS * 10)
  let want := maxR (m.getF (Ob.viGain s) * (pu v.mag - pu (m.getS (Ob.viStart s)))) 0
  let now := pu v.viAdd
  let z := if now < want then want else maxR want (now - m.getF (Ob.viDecay s) * m.tickS)
  m.modVsm s (fun v => { v with
    rvAdd := if m.gf s = gfRamp then rv else if v.rvAdd ≤ step then 0 else v.rvAdd - step, viAdd := q29Of z })

/-- Scale a reference (R238). -/
def scaled (lim sum x : Int) : Int := if sum = 0 then 0 else q29OfLsb ((x * lim : Int) / (sum : Rat))

/-- Positions 4 to 7 with the current limit of R238. -/
def Mod.limitedVoltage (s eng : Nat) (m : Mod) : Mod :=
  let refs := m.voltageRefs s
  let free := m.voltageLoops s eng refs none
  let v (k : Nat) : Int := (free.ctxAt (24 * s + k)).v
  let pos := hypot29 (v 4) (v 5)
  let sum := pos + hypot29 (v 6) (v 7)
  let lim := m.iMaxNow s
  let m1 := if lim < sum then
      m.voltageLoops s eng refs (some [scaled lim sum (v 4), scaled lim sum (v 5), scaled lim sum (v 6), scaled lim sum (v 7)])
    else free
  m1.modVsm s (fun y => { y with
    mag := pos, limited := y.limited || lim < sum
    calmPs := if sum * 100 ≤ lim * 95 then some (y.calmPs.getD m.now) else none
    refs := [(m1.ctxAt (24 * s + 4)).v, (m1.ctxAt (24 * s + 5)).v, (m1.ctxAt (24 * s + 6)).v, (m1.ctxAt (24 * s + 7)).v] })

/-- Whether a state is before the closing of the relays with PWM on (R171). -/
def presyncing (st : Nat) : Bool := st = gfPresync || st = gfClosingLive

/-- The first tick of PRESYNC (R171): the machine starts from the measured bus. -/
def Mod.presyncStart (s : Nat) (m : Mod) : Mod :=
  if (m.secAt s).fresh then
    ((m.modSec s (fun x => { x with fresh := false })).modVsm s (fun v => { v with
      theta := m.get (Ob.gridPhase s), dw := m.gridDw s, dwLp := m.gridDw s, dwRem := 0, lpRem := 0 })).modCtx (24 * s + 2)
      (fun c => { c with r := m.getS (Ob.vPos s), s := 0, i := 0, v := 0 })
  else m

/-- One tick of grid-forming operation (R156 to R160, R171, R179). -/
def Mod.formTick (s eng : Nat) (x : SecMeas) (m : Mod) : Mod :=
  let b := 24 * s
  let st := m.gf s
  let m1 := (m.presyncStart s).stepSetpoints s |>.addedImpedance s
  let reg := m1.regVolts s x
  let v1 := m1.vsmAt s
  let m2 := ((m1.sigs s 0x1A [angDiff x.convPos.ang x.gridPos.ang / 4, sat29 (x.convPos.mag - m1.getS (Ob.vPos s))]).sigs s 0x1F
    [reg, v1.pRef, q29Of (pu v1.dw - m1.dwSet s), sat29 (reg - m1.getS (Ob.vSet s)), m1.getS (Ob.vLinkSet s)])
  let m3 := (m2.runCtx b eng).runCtx (b + 1) eng
  let m4 := if m.get (Ob.linkReg s) = 1 then m3.runCtx (b + 3) eng else m3
  let m5 := if presyncing st then (m4.runCtx (b + 12) eng).runCtx (b + 14) eng
            else if st = gfHold then m4.runCtx (b + 14) eng else m4
  let m6 := if presyncing st then m5.presyncSpeed s else m5.machine s
  let qf := q29Of (pu v1.qF + m6.tickS / m6.getF (Ob.qFiltTc s) * (pu (m6.eng.signal s 0x14) - pu v1.qF))
  let e := if presyncing st || st = gfHold then sat29 (m6.getS (Ob.vPos s) + (m6.ctxAt (b + 14)).v)
           else q29Of (pu (m6.getS (Ob.vSet s)) + pu (m6.ctxAt (b + 1)).v
                       + m6.getF (Ob.qvDroop s) / 100 * (pu v1.qRef - pu qf))
  let m7 := m6.modVsm s (fun v => { v with qF := qf })
  let v7 := m7.vsmAt s
  let m8 := ((m7.sigs s 0x11 [angNode v7.theta, v7.dw]).sig s 0x19 e).sigs s 0x1C [v7.dwLp, v7.pM, qf]
  let m9 := m8.inrush s
  let ramp := st = gfRamp
  let sp := if ramp then pu (m9.getS (Ob.vSet s)) / m9.getF (Ob.bsRampTime s) else m9.getF (Ob.spRate (b + 2))
  let jerk := if ramp then 0 else m9.getF (Ob.spJerk (b + 2))
  let m10 := m9.runCtxWith (b + 2) eng 0 (fun i => { i with sp := sp, jerk := jerk, still := (m9.vsmAt s).held })
  let m11 := m10.limitedVoltage s eng
  let refs := if (m11.secAt s).zeroRefs then [0, 0, 0, 0] else (m11.vsmAt s).refs
  let m12 := (m11.currentLoops s eng refs).neutralPoint s eng
  m12.modulate s (m12.voltagesOut s)

/-! ### Grid following -/

/-- db of R198. -/
def deadband (x w : Rat) : Rat :=
  let y := maxR (absR x - w) 0
  if x < 0 then -y else y

/-- The demands of R198, clamped to 1 pu. -/
def Mod.pqDemands (m : Mod) (s : Nat) (reg : Int) : Int × Int :=
  let v := m.vsmAt s
  let f := m.getF (Ob.fRated s)
  let u3 := if m.get (Ob.linkReg s) = 1 then (m.ctxAt (24 * s + 3)).v else 0
  let p0 := pu v.pRef - pu u3
  let p1 := if m.get (Ob.gflPfEn s) = 1 then
      p0 - deadband (pu v.dw - m.dwSet s) ((m.getS (Ob.fwDb s) : Rat) / 1000000 / f) / (m.getF (Ob.pfDroop s) / 100)
    else p0
  let q1 := if m.get (Ob.gflQvEn s) = 1 then
      pu v.qRef + deadband (pu (m.getS (Ob.vSet s)) - pu reg) (pu (m.getS (Ob.vvDb s))) / (m.getF (Ob.qvDroop s) / 100)
    else pu v.qRef
  (q29Of (clampR (-1) 1 p1), q29Of (clampR (-1) 1 q1))

/-- √(a² − b²) in q29, 0 where b is larger. -/
def legQ29 (a b : Int) : Int := q29OfLsb (sqrtR ((a * a - b * b : Int) : Rat))

/-- The allocation of I_MAX among active, reactive and negative-sequence demands (R230): id+, iq+ and in. -/
def allocate (priority : Nat) (iMax id_d iq_d in_d : Int) : Int × Int × Int :=
  if priority = 1 then
    let i_d := clampI (-iMax) iMax id_d
    let n := min in_d (iMax - absI i_d)
    let l := legQ29 (iMax - n) i_d
    (i_d, clampI (-l) l iq_d, n)
  else
    let iq := clampI (-iMax) iMax iq_d
    let n := min in_d (iMax - absI iq)
    let l := legQ29 (iMax - n) iq
    (clampI (-l) l id_d, iq, n)

/-- The references of a ride-through (R229, R230) in the order id+, iq+, id−, iq−, and whether the allocation limits. -/
def Mod.rideRefs (m : Mod) (s : Nat) (neg : Phasor) : List Int × Bool :=
  let v := m.vsmAt s
  let dv := pu (m.getS (Ob.vPre s)) - pu (m.getS (Ob.vPos s))
  let diq := q29Of (m.getF (Ob.kPos s) * deadband dv (pu (m.getS (Ob.kDb s))))
  let iq_d := sat29 (v.iqPre + diq)
  let in_d := q29Of (m.getF (Ob.kNeg s) * pu (m.getS (Ob.vNeg s)))
  let a := allocate (m.get (Ob.rtPriority s)) (m.iMaxNow s) v.idPre iq_d in_d
  let n := negDq ⟨a.2.2, angWrap ((neg.ang : Int) + angOfTurns (m.getF (Ob.negAngle s) / 360))⟩ v.theta
  ([a.1, a.2.1, n.1, n.2], a.1 ≠ v.idPre || a.2.1 ≠ iq_d || a.2.2 ≠ in_d)

/-- PLL_KP and PLL_KI as they stand come into force (R194): at an entry into FOLLOWING, and at a write there. -/
def Mod.takePll (s : Nat) (m : Mod) : Mod := m.modVsm s (fun v => { v with pll := [m.get (Ob.pllKp s), m.get (Ob.pllKi s)] })

/-- The coefficients with which position 12 runs in FOLLOWING (R193, R194). -/
def Mod.pllCoef (m : Mod) (s : Nat) : Coef :=
  { m.coef (24 * s + 12) with
    kp := (f32Val ((m.vsmAt s).pll.getD 0 0)).getD 0, ki := (f32Val ((m.vsmAt s).pll.getD 1 0)).getD 0, lo := q29Of (-(m.getF (Ob.pllLimit s))), hi := q29Of (m.getF (Ob.pllLimit s))
    npos := if m.get (Ob.syncMethod s) = 0 then 1 else 0, depth := 40, width := 3 / 10 }

/-- Δφ of R193: −vq+ / (π × V+), 1.0 for 180°. -/
def syncError (vd vq : Int) : Int := q29Of (-(pu vq) * recipR (fxRat fxPi * pu (hypot29 vd vq)))

/-- The synchronisation loop of a tick (R193 to R195). -/
def Mod.syncLoop (s eng : Nat) (m : Mod) : Mod :=
  let n := 24 * s + 12
  let vd := m.eng.signal s 0x0D
  let vq := m.eng.signal s 0x0E
  let dphi := syncError vd vq
  let pc := m.pllCoef s
  let m1 := (m.sig s 0x1A dphi).modVsm s (fun x => { x with dphi := dphi })
  let m2 := m1.runCtxAs pc n eng 0 (fun i => { i with lo := pc.lo, hi := pc.hi })
  let dw := (m2.ctxAt n).v
  let m3 := m2.modVsm s (fun x => { x with dw := dw, dwRem := 0, lpRem := 0, theta := angWrap (x.theta + m2.advance s dw) })
  m3.sigs s 0x11 [angNode (m3.vsmAt s).theta, dw]

/-- Positions 0 and 1 with their feedforwards (R198) and, as effective limits, the allocation of R230. -/
def Mod.powerLoops (s eng : Nat) (m : Mod) : Mod :=
  let b := 24 * s
  let vd := maxR (pu (m.eng.signal s 0x0D)) (1 / 10)
  let f0 := q29Of (pu (m.eng.signal s 0x24) * recipR vd)
  let f1 := q29Of (pu (m.eng.signal s 0x25) * recipR vd)
  let lim := m.iMaxNow s
  let first := if m.get (Ob.rtPriority s) = 1 then 0 else 1
  let run (k : Nat) (l : Int) (m : Mod) : Mod :=
    m.runCtxWith (b + k) eng (if k = 0 then f0 else f1) (fun i => { i with lo := -l, hi := l })
  let m1 := run first lim m
  run (1 - first) (legQ29 lim (m1.ctxAt (b + first)).v) m1

/-- The current references of a tick in FOLLOWING, by the ride-through state (R200, R205, R229 to R233, R241). -/
def Mod.followRefs (s eng : Nat) (x : SecMeas) (m : Mod) : Mod :=
  let b := 24 * s
  let rt := m.get (Ob.rtState s)
  if m.gf s = gfHold || (m.secAt s).zeroRefs || rt = 4 || rt = 5 then
    m.modVsm s (fun v => { v with refs := [0, 0, 0, 0], limited := false })
  else if rt = 1 || rt = 2 then
    let r := m.rideRefs s x.gridNeg
    m.modVsm s (fun v => { v with refs := r.1, limited := r.2 })
  else
    let m1 := m.powerLoops s eng
    let i_d := (m1.ctxAt b).v
    let iq := (m1.ctxAt (b + 1)).v
    let lim := m1.iMaxNow s
    if rt = 3 then
      let step := q29Of (m1.getF (Ob.rtPRecovery s) * m1.tickS)
      m1.modVsm s (fun v =>
        let r := clampI (v.idRec - step) (v.idRec + step) i_d
        { v with idRec := r, refs := [r, iq, 0, 0], limited := false })
    else
      m1.modVsm s (fun v => { v with refs := [i_d, iq, 0, 0], limited := lim ≤ hypot29 i_d iq })

/-- One tick of grid-following operation (R193 to R200). -/
def Mod.followTick (s eng : Nat) (x : SecMeas) (m : Mod) : Mod :=
  let m1 := (m.syncLoop s eng).stepSetpoints s
  let reg := m1.regVolts s x
  let m2 := (m1.sigs s 0x1F [reg, (m1.vsmAt s).pRef]).sig s 0x23 (m1.getS (Ob.vLinkSet s))
  let m3 := if m.get (Ob.linkReg s) = 1 then m2.runCtx (24 * s + 3) eng else m2
  let d := m3.pqDemands s reg
  let m4 := (m3.sigs s 0x24 [d.1, d.2, (m3.vsmAt s).qRef]).followRefs s eng x
  let r := (m4.vsmAt s).refs
  let m5 := m4.sig s 0x27 (hypot29 (r.getD 0 0) (r.getD 1 0))
  let inj := m5.idSignal s
  let m6 := (m5.currentLoops s eng (r.set 0 (sat29 (r.getD 0 0 + inj)))).neutralPoint s eng
  m6.modulate s (m6.voltagesOut s)

/-- Whether a section's engine runs a cascade, and which: it follows, or it forms. -/
def Mod.sectionTick (s eng : Nat) (x : SecMeas) (m : Mod) : Mod :=
  let st := m.gf s
  if !m.inUse s || !(m.grpAt s).on || st = gfRest then m
  else if (m.secAt s).follow then m.followTick s eng x
  else m.formTick s eng x

/-! ### DC channels (R210, R211, R268) -/

/-- The phase currents of a channel, one for each ROLE 07h channel. -/
def Mod.phaseCurrents (m : Mod) (c : Nat) : List Int := (m.roleChans (4 + c) 7).map (fun n => m.getS (Ob.sample n))

/-- Whether the phases of a channel are balanced (R210): two or three, each with its own ROLE 07h channel and PHASE set. -/
def Mod.balanced (m : Mod) (c : Nat) : Bool :=
  let n := m.layout (4 + c)
  (n = 2 || n = 3) && (List.range n).all (fun k => (m.assigned (4 + c) 7).any (fun ch => m.get (Ob.phase ch) = k))

/-- Signals 00h to 02h of a channel, with its set-points (R210). -/
def Mod.dcSignals (c : Nat) (m : Mod) : Mod :=
  let i := m.sampleSum (m.roleChans (4 + c) 7)
  let v := m.sampleSum ((m.roleChans (4 + c) 8).take 1)
  ((((((((m.dsig c 0 i).dsig c 1 v).dsig c 2 (m.linkSample (4 + c))).dsig c 4 (m.getS (Ob.vMppRef c))).dsig c 6
    (m.getS (Ob.dcLinkSet c))).dsig c 7 (m.getS (Ob.linkGuardHigh c))).dsig c 8 (m.getS (Ob.linkGuardLow c))).dsig c 9
    (m.getS (Ob.vChgMax c))).dsig c 0xA (m.getS (Ob.vDisMin c)) |>.dsig c 0xC (mul29 i v)

/-- One step of an effective limit (R212, R213): at its entry, or down to 0 at I_RAMP while the limits are expired or the
channel stops. -/
def stepLimit (down : Bool) (ramp t : Rat) (target now : Int) : Int :=
  if down then min target (ramped ramp t 0 (min now target)) else target

/-- The composition of R211: i_lo, i_hi and LIMIT_FLAGS bits 5:0 of the allowances that stand nearest. -/
def Mod.dcLimits (m : Mod) (c : Nat) : Int × Int :=
  let v (k : Nat) : Int := (m.ctxAt (96 + 6 * c + k)).v
  let out := m.eng.iOut.getD c 0
  let inn := m.eng.iIn.getD c 0
  if m.get (Ob.dcMode c) = 1 then (0, min out (v 1))
  else if m.get (Ob.batCtrl c) = 1 then (-(min inn (v 2)), min out (v 0))
  else (-(min inn (min (v 2) (v 5))), min out (min (v 0) (v 1)))

/-- LIMIT_FLAGS bits 5:0: which limit i* stands at (R220). -/
def Mod.dcFlags (m : Mod) (c : Nat) (lo hi star : Int) : Nat :=
  let v (k : Nat) : Int := (m.ctxAt (96 + 6 * c + k)).v
  let pv := m.get (Ob.dcMode c) = 1
  let reg := m.get (Ob.batCtrl c) = 1
  let top := star = hi
  let bottom := star = lo && !pv
  b2n (top && hi = v 1 && hi < m.eng.iOut.getD c 0 && (pv || !reg))
  + 2 * b2n (bottom && lo = -(v 5) && !reg && v 5 < m.eng.iIn.getD c 0) + 4 * b2n (bottom && lo = -(v 2) && v 2 < m.eng.iIn.getD c 0)
  + 8 * b2n (top && hi = v 0 && !pv && hi < m.eng.iOut.getD c 0) + 16 * b2n (top && hi = m.eng.iOut.getD c 0)
  + 32 * b2n (bottom && lo = -(m.eng.iIn.getD c 0))

/-- One tick of a DC channel (R210 to R213, R268). -/
def Mod.dcTick (c eng : Nat) (m : Mod) : Mod :=
  let st := m.dcs c
  if !m.inUse (4 + c) || !(m.grpAt (4 + c)).on || st = dcRest then m
  else
    let b := 96 + 6 * c
    let pv := m.get (Ob.dcMode c) = 1
    let reg := m.get (Ob.batCtrl c) = 1
    let t := m.tickS
    let ramp := m.getF (Ob.iRamp c)
    let down := (m.dcAt c).expired || st = dcStopping
    let out := stepLimit down ramp t (m.iOutNow c) (m.eng.iOut.getD c 0)
    let inn := stepLimit down ramp t (m.iInNow c) (m.eng.iIn.getD c 0)
    let set := ramped ramp t (m.getS (Ob.iSet c)) (m.eng.iSet.getD c 0)
    let m1 := { m with eng := { m.eng with
      iOut := m.eng.iOut.set c out, iIn := m.eng.iIn.set c inn, iSet := m.eng.iSet.set c set } }.dsig c 5 set
    let allow (k : Nat) (top : Int) (m : Mod) : Mod := m.runCtxWith (b + k) eng 0 (fun i => { i with lo := 0, hi := top })
    let m2 :=
      if pv then allow 1 out m1
      else if reg then allow 2 inn (allow 0 out m1)
      else allow 5 inn (allow 2 inn (allow 1 out (allow 0 out m1)))
    let lim := m2.dcLimits c
    let lo := min lim.1 lim.2
    let hi := lim.2
    let m3 :=
      if pv then m2.runCtxWith b eng 0 (fun i => { i with lo := lo, hi := hi })
      else if reg then m2.runCtxWith (b + 1) eng 0 (fun i => { i with lo := lo, hi := hi })
      else m2
    let demand := if pv then (m3.ctxAt b).v else if reg then (m3.ctxAt (b + 1)).v else set
    let star := if st = dcHold then 0 else clampI lo hi demand
    let m4 := ((m3.dsig c 0xB star).putQ (Ob.iStar c) star).put (Ob.limitFlags c)
      (m3.get (Ob.limitFlags c) / 64 * 64 + m3.dcFlags c lo hi star)
    let vs := pu (m4.eng.dcSignal c 1) * m4.getF (Ob.vDcBase c)
    let vl := pu (m4.eng.dcSignal c 2) * m4.linkBase (4 + c)
    let d := m4.drawInt
    let ff := if vl = 0 then sat29 d.1 else q29Of (1 - vs / vl)
    let m5 := (if vl = 0 then d.2 else m4).runCtxWith (b + 3) eng ff id
    let duty := (m5.ctxAt (b + 3)).v
    let m6 := m5.dsig c 3 duty
    let m7 := if m6.balanced c then
        let is := m6.phaseCurrents c
        let n : Int := (is.length : Nat)
        let mean := if n = 0 then 0 else q29OfLsb ((is.foldl (· + ·) 0 : Int) / (n : Rat))
        m6.runCtxWith (b + 4) eng 0 (fun i => { i with y := sat29 (is.getD 0 0 - mean) })
      else m6
    let ds := dcDuties (m7.layout (4 + c)) (pu duty) (if m7.balanced c then pu (m7.ctxAt (b + 4)).v else 0)
    { m7 with eng := { m7.eng with duty := m7.eng.duty.set (4 + c) ds } }

/-! ### One engine's tick (R76, R128) -/

/-- The work of an engine: the signals of its sections and channels, their cascades in ascending number, then its
additional contexts. -/
def Mod.engineTick (smp : Samples) (eng : Nat) (m : Mod) : Mod :=
  let none29 : Phasor := ⟨0, 0⟩
  let meas (s : Nat) : SecMeas := smp.sec.getD s ⟨none29, none29, none29, none29, none29, none29, [], []⟩
  let ss := (List.range 4).filter (fun s => s % 2 = eng && m.inUse s)
  let cs := (List.range 4).filter (fun c => unitEngine (4 + c) = eng && m.inUse (4 + c))
  let m1 := ((m.each ss Mod.adapt).each ss (fun s m => m.baseSignals s (meas s))).each cs Mod.dcSignals
  let m2 := (m1.each ss (fun s m => m.sectionTick s eng (meas s))).each cs (fun c m => m.dcTick c eng)
  m2.runExtras eng

end Sys2Proof.Machine
end

