-- ==== Sys2Proof/Machine/Hold.lean ====
section
/-!
DEFINITION. The hold of a unit (R179, R200, R213): how it enters HOLD and how it leaves it.
-/
namespace Sys2Proof.Machine

/-- A section enters HOLD (R179, R200): in FORMING position 14 starts afresh; the islanding latch clears (R205). -/
def Mod.holdSection (s : Nat) (m : Mod) : Mod :=
  let m1 := (m.modSec s (fun x => { x with backTo := m.gf s, idOn := false, idWait := false, isl := false, islNow := false })).put
    (Ob.islState s) 0
  (if m.gf s = gfForming then m1.enableCtx (24 * s + 14) else m1).gfTo s gfHold

/-- Hold of a unit (R179, R200, R213): a section in FORMING or FOLLOWING that no grid event stops at this boundary (R242)
enters HOLD, or stops without ramps where HOLD_FORM is 00h; a channel in RUNNING enters HOLD with i* at 0, its PWM off at the
carrier boundary after the tick that computes with it. -/
def Mod.holdUnit (g : Nat) (m : Mod) : Mod :=
  if g < 4 then
    if (m.gf g = gfForming || m.gf g = gfFollowing) && (m.secAt g).stops.isEmpty then
      if m.get (Ob.holdForm g) = 1 then m.holdSection g else m.gfStopNow g true
    else m
  else if m.dcs (g - 4) = dcRunning then
    ((m.putQ (Ob.iStar (g - 4)) 0).modGrp g (fun x => { x with stopNext := x.on })).dcTo (g - 4) dcHold sevInfo 0
  else m

/-- The integrators of positions 0 and 1 such that their outputs are 0 (R200). -/
def Mod.restIntegrators (s : Nat) (m : Mod) : Mod :=
  let b := 24 * s
  let vd := maxR (pu (m.eng.signal s 0x0D)) (1 / 10)
  let d := m.pqDemands s (m.eng.signal s 0x1F)
  let ff (x : Int) : Int := q29Of (pu x * recipR vd)
  (m.backCalc (m.coef b) b d.1 (m.eng.signal s 0x13) (ff d.1) 0).backCalc (m.coef (b + 1)) (b + 1) d.2 (m.eng.signal s 0x14) (ff d.2) 0

/-- A section leaves HOLD for the state before it (R179, R200): its references start from the measured P and Q, at P_RAMP and
Q_RAMP. -/
def Mod.unholdSection (s : Nat) (m : Mod) : Mod :=
  let x := m.secAt s
  let m1 := (m.modSec s (fun x => { x with reconnect := false, recovRamp := false })).modVsm s (fun v => { v with
    pRef := x.pMeas, qRef := x.qMeas })
  (if x.backTo = gfFollowing then (m1.restIntegrators s).takePll s else m1.dropCtx (24 * s + 14)).gfTo s x.backTo

/-- A unit leaves HOLD (R179, R200, R213): a channel checks its entry conditions again. -/
def Mod.unholdUnit (g : Nat) (m : Mod) : Mod :=
  if g < 4 then (if m.gf g = gfHold then m.unholdSection g else m)
  else if m.dcs (g - 4) = dcHold then m.dcTo (g - 4) dcWait sevInfo 0
  else m

end Sys2Proof.Machine
end

