-- ==== Sys2Proof/Machine/Protect.lean ====
section
/-!
DEFINITION. Protection (R284 to R309): trips, episodes and their records, windowed counting, recovery and retry,
retirement and reinstatement, hold, and safe stop.
-/
namespace Sys2Proof.Machine

/-! ### Units and classes (R284, R292, R307) -/

/-- Where a unit of a class has its status object: groups from 00h, channels from 20h, field channels from 60h. -/
def statusIx (cls unit : Nat) : Nat := if cls = 1 then unit else if cls = 2 then 0x20 + unit else 0x60 + unit

/-- FAULT_STATE of a unit. -/
def Mod.faultState (m : Mod) (cls unit : Nat) : Nat := m.get (Ob.unitFaultState (statusIx cls unit))

/-- Whether a unit is retired (R300, R301). -/
def Mod.retired (m : Mod) (cls unit : Nat) : Bool := 4 ≤ m.faultState cls unit

/-- Whether the unit of a group is in a running state: in any state but REST and STOPPING (R298). DEDUCED, log entry 58. -/
def Mod.running (m : Mod) (g : Nat) : Bool :=
  let s := m.unitState g
  if g < 4 then s ≠ gfRest && s ≠ gfStopping else s ≠ dcRest && s ≠ dcStopping

/-- The groups of a mask. -/
def groupsOf (mask : Nat) : List Nat := bitsOf 8 mask

/-- Whether a channel is valid (R114). -/
def Mod.chValid (m : Mod) (n : Nat) : Bool := m.get (Ob.chState n) = 0

/-- The valid partner of a channel (R111). -/
def Mod.partner (m : Mod) (n : Nat) : Option Nat :=
  let p := m.get (Ob.redundantWith n)
  if p < 24 && m.chValid p then some p else none

/-- The legs that a channel's PHASE names in the groups that own it (R289). -/
def Mod.legsOfChan (m : Mod) (n : Nat) : Nat :=
  let k := m.get (Ob.phase n)
  if k < 3 then
    ((groupsOf (m.owners n)).filter m.inUse).foldl (fun a g => a ||| 2 ^ (if g < 4 then 3 * g + k else 12 + 3 * (g - 4) + k)) 0
  else 0

/-- The leg that FLT_PAIR of a FLT input names (R289). -/
def Mod.legsOfFlt (m : Mod) (f : Nat) : Nat :=
  let p := m.get (Ob.fltPair f)
  if p < 32 then m.legBitOfPair p else 0

/-- A counter instance. -/
def Mod.inst (m : Mod) (cls unit : Nat) : Inst :=
  (m.prot.insts.find? (fun i => i.cls = cls && i.unit = unit)).getD { cls := cls, unit := unit }

/-- Change a counter instance. -/
def Mod.setInst (i : Inst) (m : Mod) : Mod :=
  let l := m.prot.insts
  let l' := if l.any (fun j => j.cls = i.cls && j.unit = i.unit)
    then l.map (fun j => if j.cls = i.cls && j.unit = i.unit then i else j) else l ++ [i]
  { m with prot := { m.prot with insts := l' } }

/-- Whether an instance of the power-path or the modulator class is in recovery (R302). -/
def Mod.anyRecovery (m : Mod) : Bool := m.prot.insts.any (fun i => i.cls ≤ 2 && i.recov.isSome)

/-- Whether a fault that tripped a group has not settled (R299). -/
def Mod.held (m : Mod) (g : Nat) : Bool :=
  m.prot.insts.any (fun i => match i.recov with | some r => r.trips.contains g | none => false)

/-- FAULT_W of a class in ps. -/
def Mod.windowPs (m : Mod) (cls : Nat) : Nat := msPs (m.get (Ob.faultW (cls - 1)))

/-- Faults of an instance in its window that ends at `at` ps (R293). -/
def Mod.inWindow (m : Mod) (cls unit atPs : Nat) : Nat :=
  ((m.inst cls unit).times.filter (fun t => t ≤ atPs && atPs < t + m.windowPs cls)).length

/-! ### Records (R289, R291) -/

/-- A record as the number that its 32 bytes spell. -/
def FaultRec.raw (r : FaultRec) : Nat :=
  r.time + 2 ^ 64 * r.fault + 2 ^ 80 * r.kind + 2 ^ 88 * r.unit + 2 ^ 96 * r.sources + 2 ^ 128 * r.channels
  + 2 ^ 160 * r.legs + 2 ^ 192 * r.flags + 2 ^ 200 * r.count + 2 ^ 208 * r.state + 2 ^ 216 * r.lane + 2 ^ 224 * r.no

/-- Write a record: it takes the next number, and the log keeps the last 16 384. -/
def Mod.writeRecord (r : FaultRec) (m : Mod) : Mod :=
  let no := (m.get Ob.recordCount + 1) % 4294967296
  let r' := { r with no := no, state := m.get Ob.moduleState, lane := m.lane }
  let log := m.prot.log ++ [r']
  let m1 : Mod := { m with prot := { m.prot with log := if 16384 < log.length then log.drop 1 else log } }
  (m1.keep Ob.recordCount no).put Ob.lastFault r'.raw

/-- RECORD_NO of the last record. -/
def Mod.lastNo (m : Mod) : Nat := m.get Ob.recordCount

/-- t64 of an instant in ps since power-up. -/
def Mod.t64At (m : Mod) (ps : Nat) : Nat := ((m.clk.taiBase + (ps / 1000 : Nat)) % 18446744073709551616).toNat

/-- A record of KIND 00h, at this instant. -/
def Mod.moduleRecord (fault : Nat) (m : Mod) : Mod :=
  m.writeRecord { time := m.t64, fault := fault, kind := 0, unit := 0xFF, sources := 0, channels := 0, legs := 0
                  flags := 0, count := 0, state := 0, lane := 0, no := 0 }

/-! ### Trips (R284, R296) -/

/-- A source trips groups: Serac acts on those in use at once, and the fault waits for the next boundary. A trip that
names no group in use writes no record and counts nothing (R274). `units` are those of class 2. -/
def Mod.assertTrip (fault cls sources channels legs : Nat) (groups units : List Nat) (perTick : Bool)
    (oneLane : Option Nat) (m : Mod) : Mod :=
  let gs := groups.filter m.inUse
  let us := if cls = 1 then gs else units
  if us = [] then m
  else
    (m.each gs (Mod.tripGroup sources)).push
      { atPs := if perTick then m.clk.t0Ps else m.now, fault := fault, cls := cls, sources := sources
        channels := channels, legs := legs, units := us, running := gs.filter m.running, trips := gs
        perTick := perTick, oneLane := oneLane }

/-- The request bits of lanes in SOURCES: bit 16 lane A, bit 17 lane B. -/
def laneBits (lanes : Nat) : Nat := (if bit lanes 0 then 2 ^ 16 else 0) + (if bit lanes 1 then 2 ^ 17 else 0)

/-- The one lane of a mask, where it names one only while both lanes run. -/
def Mod.oneLane (m : Mod) (lanes : Nat) : Option Nat :=
  if m.get Ob.redundant = 1 then (if lanes = 1 then some 0 else if lanes = 2 then some 1 else none) else none

/-- The lanes in service as a mask. -/
def Mod.lanesUp (m : Mod) : Nat := if m.get Ob.redundant = 1 then 3 else if m.laneB then 2 else 1

/-- The age of the gate edge that opened the newest mask window: an edge inside an open window opens none (R286). -/
def openedBy (mask : Nat) (edges : List Nat) : Option Nat :=
  edges.foldl (fun (o : Option Nat) e => match o with | some a => if a - e < mask then some a else some e | none => some e) none

/-- A time in ns rounded up to 10 ns (R282, R308). -/
def upTo10 (ns : Nat) : Nat := (ns + 9) / 10 * 10

/-- For how many ns the filter of a FLT input has counted (R286): since the input fell or its mask closed; none while it does not
count. -/
def fltCounts (mask : Nat) (x : FltInput) : Option Nat :=
  match x.fell, openedBy mask x.edges with
  | none, _        => none
  | some t, none   => some t
  | some t, some a => if a < mask then none else some (min t (a - mask))

/-- Whether the filter of FLT input `f` has completed: low for FLT_FILTER outside its mask (R270, R286). -/
def Mod.fltDone (m : Mod) (f : Nat) (x : FltInput) : Bool :=
  match fltCounts (if m.get (Ob.fltPair f) < 32 then upTo10 (m.get (Ob.fltMaskTime f)) else 0) x with
  | some t => upTo10 (m.get (Ob.fltFilter f)) ≤ t
  | none   => false

/-- FLT inputs (R270, R284, R286): each whose filter newly completes trips the groups of its FLT_TARGET, and its source stands until
the input rises. DEDUCED, log entry 62. -/
def Mod.fltTrip (inputs : List FltInput) (m : Mod) : Mod :=
  let x (f : Nat) : FltInput := inputs.getD f { fell := none }
  let low := (List.range 16).filter (fun f => (x f).fell.isSome)
  let fresh := low.filter (fun f => m.fltDone f (x f) && !bit m.prot.fltOn f)
  let on := low.filter (fun f => bit m.prot.fltOn f || m.fltDone f (x f))
  let m1 : Mod := { m with prot := { m.prot with fltOn := on.foldl (fun a f => a ||| 2 ^ f) 0 } }
  (m1.put Ob.fltLevel (low.foldl (fun a f => a ||| 2 ^ f) 0)).each fresh (fun f m =>
    m.assertTrip 0x4402 1 (2 ^ f) 0 (m.legsOfFlt f) (groupsOf (m.get (Ob.fltTarget f))) [] false none)

/-- A trip request on a lane's trip lines (R271); the groups that it newly names trip. Nothing but the request names
the fault, so it is recorded as the fast overcurrent that these lines carry first (R284). DEDUCED, log entries 58 and 62. -/
def Mod.laneTrip (l groups : Nat) (m : Mod) : Mod :=
  let old := m.prot.laneReq.getD l 0
  let fresh := (groupsOf groups).filter (fun g => !bit old g)
  let m1 : Mod := { m with prot := { m.prot with laneReq := m.prot.laneReq.set l (groups % 256) } }
  m1.assertTrip 0x4401 1 (laneBits (2 ^ l)) 0 0 fresh [] false (m1.oneLane (2 ^ l))

/-- The source of a DC link's trip `isOver` stands from here until the samples leave the level (R284). -/
def Mod.linkAsserts (n : Nat) (isOver : Bool) (m : Mod) : Mod :=
  let m1 : Mod := { m with prot := { m.prot with links := m.prot.links.modify n (fun y =>
    if isOver then { y with overOn := true } else { y with underOn := true }) } }
  m1.assertTrip (if isOver then 0x4404 else 0x4405) 1 (laneBits m.lanesUp) (2 ^ n) 0 (groupsOf (m.owners n)) [] true none

/-- The trip of a DC link once the level has stood for DCL_TIME ticks (R284). DEDUCED, log entry 58. -/
def Mod.dclinkTrip (n : Nat) (isOver : Bool) (m : Mod) : Mod :=
  let x := m.prot.links.getD n {}
  let run := if isOver then x.overTicks else x.under
  if (if isOver then x.overOn else x.underOn) || run < m.get (Ob.dclTime n) then m else m.linkAsserts n isOver

/-- EV062, once an episode, when the level has stood for DCL_TIME ticks (R285). -/
def Mod.dclinkWarn (n : Nat) (m : Mod) : Mod :=
  let x := m.prot.links.getD n {}
  if x.armed && m.get (Ob.dclTime n) ≤ x.warn then
    let m1 : Mod := { m with prot := { m.prot with links := m.prot.links.modify n (fun y => { y with armed := false, calm := 0 }) } }
    m1.raise 62 sevWarn 0x4404 n
  else m

/-! ### Availability and retirement (R300, R301) -/

/-- AC_AVAILABLE and DC_AVAILABLE (R308): in use and not retired. -/
def Mod.showAvail (m : Mod) : Mod :=
  let av := fun (l : List Nat) (o : Nat) => l.foldl (fun a g => if m.inUse (g + o) && !m.retired 1 (g + o) then a + 2 ^ g else a) 0
  (m.put Ob.acAvailable (av (List.range 4) 0)).put Ob.dcAvailable (av (List.range 4) 4)

/-- EV061 with the code of the record that retired the unit. -/
def Mod.derated (fault : Nat) (m : Mod) : Mod :=
  let m1 := m.showAvail
  m1.raise 61 sevWarn fault (m1.get Ob.acAvailable + 16 * m1.get Ob.dcAvailable)

/-- A unit is marked retired in flash, with EV057; a section or a DC channel also changes what is available. -/
def Mod.markRetired (cls unit fault how : Nat) (m : Mod) : Mod :=
  let ix := statusIx cls unit
  let m1 := (m.keep (Ob.unitFaultState ix) how).keep (Ob.unitRetiredTime ix) m.t64
  let m2 := (m1.setInst { m1.inst cls unit with recov := none }).raise 57 sevFault fault (unit + 256 * (cls - 1))
  if cls = 1 then (m2.unitToRest unit fault).derated fault
  else if cls = 2 then m2.put (Ob.chState unit) 5
  else m2.driveOutput unit

/-- The users of a retired channel: each continues on a valid partner, or retires with it with its own record. -/
def Mod.retireUsers (n fault how : Nat) (m : Mod) : Mod :=
  if (m.partner n).isSome then m
  else m.each ((groupsOf (m.owners n)).filter (fun g => m.inUse g && !m.retired 1 g)) (fun g m =>
    let m1 := m.writeRecord { time := m.t64, fault := fault, kind := 1, unit := g, sources := 0, channels := 2 ^ n
                              legs := m.legsOfChan n, flags := 16, count := satAt 255 (m.inWindow 1 g m.now), state := 0, lane := 0, no := 0 }
    (m1.put (Ob.unitLastRecord g) m1.lastNo).markRetired 1 g fault how)

/-- A unit retires with its effect (R300). -/
def Mod.retireUnit (cls unit fault how : Nat) (m : Mod) : Mod :=
  let m1 := m.markRetired cls unit fault how
  if cls = 2 then m1.retireUsers unit fault how else m1

/-! ### Episodes and counting (R290, R293 to R296) -/

/-- Split what has asserted since the last boundary into episodes: the first assertion with every one within 1 µs of
it and every one evaluated per tick. -/
def episodes : Nat → List Assertion → List (List Assertion)
  | 0, _ | _, [] => []
  | n + 1, a :: rest =>
    let near := fun (b : Assertion) => b.perTick || b.atPs ≤ a.atPs + 1000000
    (a :: rest.filter near) :: episodes n (rest.filter (fun b => !near b))

/-- A list without repeats, first places kept. -/
def dedupe : List Nat → List Nat
  | []      => []
  | x :: xs => x :: (dedupe xs).filter (fun y => y ≠ x)

/-- Number of set bits. -/
def bitCount (n v : Nat) : Nat := (bitsOf n v).length

/-- Sources of one assertion (R290): its FLT inputs and channels, or one. -/
def Assertion.sourceCount (a : Assertion) : Nat := max 1 (bitCount 16 a.sources + bitCount 24 a.channels)

/-- Whether an episode has more than one source, leg, unit or class. -/
def simultaneous (e : List Assertion) : Bool :=
  2 ≤ (e.map Assertion.sourceCount).foldl (· + ·) 0
  || 2 ≤ bitCount 24 (e.foldl (fun s a => s ||| a.legs) 0)
  || 2 ≤ (dedupe ((e.filter (fun a => a.cls ≤ 2)).flatMap (fun a => if a.cls = 1 then a.units else a.trips))).length
  || 2 ≤ (dedupe (e.map (fun a => a.cls))).length

/-- What the count decides for one unit. -/
structure Verdict where
  unit      : Nat
  times     : List Nat
  count     : Nat
  second    : Bool
  permanent : Bool
  gone      : Bool
deriving DecidableEq, Repr

/-- Count a fault at `atPs` of a unit (R293, R294, R295). A fault withdrawn from the counter is not kept in it. A
retired unit's fault is counted and decides nothing more. The instants kept span the longest FAULT_W. -/
def Mod.judge (cls atPs : Nat) (withdrawn : Bool) (m : Mod) (unit : Nat) : Verdict :=
  let i := m.inst cls unit
  let old := i.times.filter (fun t => atPs < t + sPs 3600)
  let times := if withdrawn then old else old ++ [atPs]
  let n := (times.filter (fun t => atPs < t + m.windowPs cls)).length
  let second := i.recov.isSome || i.settled = some m.clk.t0Ps
  let gone := m.retired cls unit
  { unit := unit, times := times, count := n, second := second && !gone
    permanent := !gone && (second || (!withdrawn && m.get (Ob.faultN (cls - 1)) ≤ n)), gone := gone }

/-- Settle what the verdict says of one unit: the transient fault starts its recovery, the permanent one retires. -/
def Mod.applyVerdict (cls : Nat) (r : FaultRec) (firstPs : Nat) (trips running : List Nat) (v : Verdict) (m : Mod) : Mod :=
  let ix := statusIx cls v.unit
  let m1 := (m.put (Ob.unitLastRecord ix) m.lastNo).bump (Ob.unitFaultTotal ix)
  let i := m1.inst cls v.unit
  if v.gone then m1.setInst { i with times := v.times }
  else if v.permanent then (m1.setInst { i with times := v.times, recov := none }).retireUnit cls v.unit r.fault 4
  else
    let mine := if cls = 1 then [v.unit] else trips
    let endPs := firstPs + msPs (m.get (Ob.recoveryDelay (cls - 1)))
    (m1.setInst { i with times := v.times, recov := some {
        record := r, endPs := endPs, retryPs := endPs + msPs (m.get (Ob.retryTimeout (cls - 1))), checkPs := endPs + msPs 100
        awaiting := false, trips := mine, running := running.filter (fun g => mine.contains g) } }).put (Ob.unitFaultState ix) 1

/-- One class of an episode: its record, the count of each of its units, EV054 or EV112, EV056, and what follows.
`declares` says whether this episode declares hold. -/
def Mod.classRecord (e : List Assertion) (declares : Bool) (cls : Nat) (m : Mod) : Mod :=
  match e.filter (fun a => a.cls = cls) with
  | []      => m
  | a :: as =>
    let es := a :: as
    let units := dedupe (es.flatMap (fun b => b.units))
    let trips := dedupe (es.flatMap (fun b => b.trips))
    let running := dedupe (es.flatMap (fun b => b.running))
    let firstPs := e.foldl (fun t b => min t b.atPs) a.atPs
    let withdrawn := m.prot.capture.isSome && es.all (fun b => b.oneLane.isSome && b.oneLane = m.prot.capture)
    let vs := units.map (m.judge cls firstPs withdrawn)
    let perm := vs.any (fun v => v.permanent)
    let flags := recordFlags (simultaneous e) perm (vs.any (fun v => v.second)) (declares && cls ≤ 2) perm withdrawn
    let r : FaultRec := {
      time := m.t64At firstPs, fault := a.fault, kind := cls, unit := units.getD 0 0xFF
      sources := es.foldl (fun s b => s ||| b.sources) 0, channels := es.foldl (fun s b => s ||| b.channels) 0
      legs := es.foldl (fun s b => s ||| b.legs) 0, flags := flags
      count := satAt 255 ((vs.head?.map (fun v => v.count)).getD 0), state := 0, lane := 0, no := 0 }
    let m1 := m.writeRecord r
    let no := m1.lastNo
    let m2 := if cls = 3 then m1.raise 112 sevFault a.fault no
      else if trips = [] then m1 else m1.raise 54 sevFault a.fault no
    let m3 := if perm then m2.raise 56 sevFault a.fault no else m2
    let shown := { r with no := no }
    vs.foldl (fun m v => m.applyVerdict cls shown firstPs trips running v) m3

/-- Whether an episode overlaps a fault in recovery of another instance (R302). -/
def Mod.overlaps (m : Mod) (e : List Assertion) : Bool :=
  e.any (fun a => a.cls ≤ 2 && a.units.any (fun u =>
    m.prot.insts.any (fun i => i.cls ≤ 2 && i.recov.isSome && !(i.cls = a.cls && i.unit = u))))

/-- Hold is declared (R302): the held units behave as R179, R200 and R213 lay down. DEDUCED, log entry 59. -/
def Mod.enterHold (no : Nat) (m : Mod) : Mod :=
  let m1 : Mod := { m with prot := { m.prot with holdPs := some m.now, maxMet := false } }
  let m2 := (m1.put Ob.holdState 1).put Ob.holdSince m.t64
  ((m2.put Ob.moduleState 3).each m2.groupsInUse Mod.holdUnit).raise 59 sevWarn 0x440D no

/-- One episode at the boundary, in the order of R296. -/
def Mod.episode (m : Mod) (e : List Assertion) : Mod :=
  let trips := dedupe (e.flatMap (fun a => a.trips))
  let declares := m.overlaps e && m.get Ob.holdState = 0
  let fault := (e.head?.map (fun a => a.fault)).getD 0
  let m1 := m.each trips (Mod.unitToRest · fault)
  let m2 := if trips = [] then m1 else m1.dropRequests
  let m3 := ((m2.classRecord e declares 1).classRecord e declares 2).classRecord e declares 3
  if declares then m3.enterHold (m2.lastNo + 1) else m3

/-- Hold ends (R303): each held unit leaves HOLD as its chapter lays down. -/
def Mod.leaveHold (m : Mod) : Mod :=
  let ms := (m.now - m.prot.holdPs.getD m.now) / 1000000000
  let m1 : Mod := { m with prot := { m.prot with holdPs := none, maxMet := false } }
  ((m1.put Ob.holdState 0).each m1.groupsInUse Mod.unholdUnit).raise 60 sevInfo 0 (satAt 4294967295 ms)

/-- Protection at a tick boundary: EV034, the episodes of the tick that ends, then the end of hold where no instance
of the two classes is in recovery. -/
def Mod.protectBoundary (m : Mod) : Mod :=
  let m0 := match m.prot.focFirst with
    | some t =>
      let m' : Mod := { m with prot := { m.prot with focFirst := none, focMask := 0 } }
      m'.raiseAt t 34 sevFault 0x2008 m.prot.focMask
    | none => m
  let es := episodes m0.prot.pend.length m0.prot.pend
  let m1 : Mod := { m0 with prot := { m0.prot with pend := [] } }
  let m2 := es.foldl Mod.episode m1
  let m3 : Mod := { m2 with prot := { m2.prot with capture := none } }
  if m3.get Ob.holdState = 1 && !m3.anyRecovery then m3.leaveHold else m3

/-! ### Recovery and retry (R297, R298) -/

/-- Whether a source of a fault is still active; for a modulator fault, whether its channel is not valid again. -/
def Mod.sourceActive (m : Mod) (cls unit : Nat) (r : Recovery) : Bool :=
  if cls = 2 then !m.chValid unit
  else if cls = 3 then (m.fldAt unit).hot || 2 ≤ (m.fldAt unit).driven
  else
    (bitsOf 16 r.record.sources).any (fun f => bit (m.get Ob.fltLevel) f)
    || (bitsOf 24 r.record.channels).any (fun n =>
        bit (m.prot.focLane.getD 0 0) n || bit (m.prot.focLane.getD 1 0) n
        || (let x := m.prot.links.getD n {}; x.overOn || x.underOn))
    || (bit r.record.sources 16 && bit (m.prot.laneReq.getD 0 0) unit)
    || (bit r.record.sources 17 && bit (m.prot.laneReq.getD 1 0) unit)

/-- Stage a unit action of the local safety source for the coming boundary (R515). -/
def Mod.stageLocal (idx : Nat) (args : List Nat) (m : Mod) : Mod :=
  { m with staged := m.staged ++ [{ snd := .localSafety, seq := 0, op := 3, idx := idx, sub := 0, work := .unitAct idx args }] }

/-- Whether the restart of a group is due (R298), its other conditions apart. DEDUCED, log entry 42. -/
def Mod.mayRestart (m : Mod) (cls g : Nat) (r : Recovery) : Bool :=
  m.get (Ob.retryStart (cls - 1)) = 1 && r.running.contains g && !m.retired 1 g
  && (m.get Ob.holdState = 0 || !m.anyRecovery)
  && (4 ≤ g || (List.range 4).all (fun s => s = g || !m.pwmOn s))

/-- A fault has recovered (R297): EV055, the clear of each group that no other fault holds, and the retry starts.
DEDUCED, log entry 58. -/
def Mod.recovered (cls unit : Nat) (r : Recovery) (m : Mod) : Mod :=
  let m1 := m.setInst { m.inst cls unit with recov := none, settled := some m.clk.t0Ps }
  let m2 := m1.put (Ob.unitFaultState (statusIx cls unit)) (if cls = 1 then 3 else 0)
  let free := r.trips.filter (fun g => !m2.held g && !m2.retired 1 g)
  let again := free.filter (fun g => m2.mayRestart cls g r)
  let m3 := if free = [] then m2 else m2.stageLocal (Ob.pwmTripClear / 256) [free.foldl (fun a g => a + 2 ^ g) 0]
  let m4 := m3.each again (fun g m => m.stageLocal ((if g < 4 then Ob.gfCommand g else Ob.dcCommand (g - 4)) / 256) [0])
  m4.inform 55 (unit + 256 * cls + 4096 * b2n (again ≠ []))

/-- The end of a recovery delay (R297). -/
def Mod.recoveryEnd (cls unit : Nat) (m : Mod) : Mod :=
  match (m.inst cls unit).recov with
  | none   => m
  | some r =>
    if r.awaiting then m
    else
      let m1 := m.reach r.endPs
      if m1.sourceActive cls unit r then
        (m1.setInst { m1.inst cls unit with recov := some { r with awaiting := true } }).put
          (Ob.unitFaultState (statusIx cls unit)) 2
      else m1.recovered cls unit r

/-- The check every 100 ms of a fault that awaits its clear, up to its retry timeout. -/
def Mod.clearRecheck (cls unit : Nat) (m : Mod) : Mod :=
  match (m.inst cls unit).recov with
  | none   => m
  | some r =>
    if !r.awaiting || r.retryPs ≤ r.checkPs then m
    else
      let m1 := m.reach r.checkPs
      if m1.sourceActive cls unit r then
        m1.setInst { m1.inst cls unit with recov := some { r with checkPs := r.checkPs + msPs 100 } }
      else m1.recovered cls unit r

/-- The retry timeout (R297): with a source still active the fault is permanent, with a record of code 4408h.
DEDUCED, log entry 59. -/
def Mod.retryTimeout (cls unit : Nat) (m : Mod) : Mod :=
  match (m.inst cls unit).recov with
  | none   => m
  | some r =>
    if !r.awaiting then m
    else
      let m1 := m.reach r.retryPs
      if m1.sourceActive cls unit r then
        let m2 := (m1.setInst { m1.inst cls unit with recov := none, settled := some m1.clk.t0Ps }).writeRecord
          { r.record with time := m1.t64, fault := 0x4408, flags := 18, count := satAt 255 (m1.inWindow cls unit m1.now) }
        ((m2.put (Ob.unitLastRecord (statusIx cls unit)) m2.lastNo).raise 56 sevFault 0x4408 m2.lastNo).retireUnit cls unit 0x4408 4
      else m1.recovered cls unit r

/-! ### Hold and safe stop (R303, R304) -/

/-- Hold has lasted HOLD_MAX: every held unit stops without ramps, and 440Ah is recorded. -/
def Mod.holdMax (m : Mod) : Mod :=
  if m.get Ob.holdState = 1 && !m.prot.maxMet && m.get Ob.holdMax ≠ 0 then
    let m0 := m.reach (m.prot.holdPs.getD 0 + sPs (m.get Ob.holdMax))
    let m1 : Mod := { m0 with prot := { m0.prot with maxMet := true } }
    (m1.each m1.groupsInUse (fun g m =>
      if g < 4 then (if m.gf g = gfHold then m.gfStopNow g true else m)
      else if m.dcs (g - 4) = dcHold then m.dcToRest (g - 4) sevInfo 0 else m)).moduleRecord 0x440A
  else m

/-- A safe stop, in the order of R304. DEDUCED, log entry 58. -/
def Mod.safeStop (cause : Nat) (m : Mod) : Mod :=
  if m.prot.safeStop then m
  else
    let gs := m.groupsInUse
    let m1 := (m.each gs (Mod.tripGroup 0)).each gs (Mod.unitToRest · 0x440C)
    let m2 : Mod := { m1.dropRequests with
      prot := { m1.dropRequests.prot with safeStop := true }, sdc := { m1.dropRequests.sdc with laneDemand := true } }
    let m3 := ((m2.driveOutputs).put Ob.moduleState 4).put Ob.safeStopCause cause
    (m3.moduleRecord 0x440C).raise 63 sevStop 0x440C cause

/-! ### RETIREMENT (R301) -/

/-- Whether a measurement channel that a unit needs is retired and no valid partner serves in its place. -/
def Mod.needsRetired (m : Mod) (g : Nat) : Bool :=
  (List.range 24).any (fun n => bit (m.owners n) g && m.get (Ob.role n) ≠ 0 && m.retired 2 n && (m.partner n).isNone)

/-- Whether a unit that op 00h names is at rest. DEDUCED, log entry 59. -/
def Mod.unitAtRest (m : Mod) (cls unit : Nat) : Bool :=
  if cls = 1 then m.atRest unit
  else if cls = 2 then (groupsOf (m.owners unit)).all m.atRest
  else !(m.fldAt unit).on

/-- Op 00h: retire a unit at rest, with record 440Bh. DEDUCED, log entry 58. -/
def Mod.retireOp (cls unit : Nat) (m : Mod) : Mod × Nat :=
  if m.retired cls unit || !m.unitAtRest cls unit then (m, 0x12)
  else
    let m1 := m.writeRecord { time := m.t64, fault := 0x440B, kind := cls, unit := unit, sources := 0
                              channels := if cls = 2 then 2 ^ unit else 0, legs := 0, flags := 16
                              count := satAt 255 (m.inWindow cls unit m.now), state := 0, lane := 0, no := 0 }
    ((m1.put (Ob.unitLastRecord (statusIx cls unit)) m1.lastNo).retireUnit cls unit 0x440B 5, 0)

/-- Whether a source of a unit is still active at a reinstatement, a fault of the same tick included (R301, R305).
DEDUCED, log entry 44. -/
def Mod.unitSourceActive (m : Mod) (cls unit : Nat) : Bool :=
  if cls = 1 then m.tripActive unit ≠ 0
  else if cls = 2 then
    bit m.meas.lost unit || m.get (Ob.mclkState (m.get (Ob.mclkSrc unit))) ≠ 0
  else (m.fldAt unit).hot || 2 ≤ (m.fldAt unit).driven

/-- Op 01h: reinstate a retired unit. `sameTick` says whether a fault of the unit fell into the tick that ends.
DEDUCED, log entry 59. -/
def Mod.reinstateOp (cls unit : Nat) (sameTick : Bool) (m : Mod) : Mod × Nat :=
  if !m.retired cls unit || sameTick || m.unitSourceActive cls unit || (cls = 1 && m.needsRetired unit) then (m, 0x12)
  else
    let ix := statusIx cls unit
    let m1 := ((m.keep (Ob.unitFaultState ix) 0).keep (Ob.unitRetiredTime ix) 0).setInst { cls := cls, unit := unit }
    let m2 := if cls = 1 then (m1.clearGroup unit).showAvail
      else if cls = 2 then ({ m1 with meas := { m1.meas with ch := m1.meas.ch.modify unit MeasCh.spoilt } } : Mod).put (Ob.chState unit) 4
      else (m1.putBit Ob.fieldOut unit false).driveOutput unit
    (m2.inform 58 (unit + 256 * (cls - 1)), 0)

end Sys2Proof.Machine
end

