-- ==== Sys2Proof/Machine/Lanes.lean ====
section
/-!
DEFINITION. Lane redundancy (R321 to R345): arbitration, withdrawal and takeover, mirror compare and its diagnosis,
the standby lane's self-test, running non-redundant, and resynchronisation.
-/
namespace Sys2Proof.Machine

def Mod.laneAt (m : Mod) (l : Nat) : LaneRt := m.lanes.getD l {}
def Mod.modLane (l : Nat) (f : LaneRt → LaneRt) (m : Mod) : Mod := { m with lanes := m.lanes.modify l f }
def Mod.modArb (f : ArbRt → ArbRt) (m : Mod) : Mod := { m with arb := f m.arb }

/-- The lane that is not active. -/
def Mod.standby (m : Mod) : Nat := 1 - m.lane

/-- HEALTH of a lane: 00h healthy, 01h full test running, 02h unhealthy, 03h resynchronising (R343). -/
def Mod.healthOf (m : Mod) (l : Nat) : Nat := m.get (Ob.health l)

/-- Whether the standby lane serves (R339). -/
def Mod.isRedundant (m : Mod) : Bool := m.get Ob.redundant = 1

/-- REDUNDANT from the standby lane's role and health (R339). -/
def Mod.showRedundant (m : Mod) : Mod :=
  let s := m.standby
  m.put Ob.redundant (b2n (m.get (Ob.roleNow s) = 1 && m.healthOf s ≤ 1 && m.arb.cause.isNone && m.arb.armed))

/-- Resynchronisations of a lane in the last 24 h. -/
def Mod.resyncsIn24h (m : Mod) (l : Nat) : Nat :=
  ((m.laneAt l).resyncs.filter (fun t => m.now < t + sPs 86400)).length

/-- The active lane starts the resynchronisation of an unhealthy lane (R340): Serac resets it, and it boots.
DEDUCED, log entry 76. -/
def Mod.startResync (l : Nat) (m : Mod) : Mod :=
  let keep := (m.laneAt l).resyncs.filter (fun t => m.now < t + sPs 86400)
  let m1 := m.modLane l (fun x => { x with
    locked := false, boot := false, image := false, floe := false, rime := false, rimeFailed := false, tested := false
    released := true, withdrawn := false, failCode := 0, failStep := 0, missing := 0, goodTick := m.clk.tick, floeSeq := none
    mwBad := 0, macFails := 0, tries := 0, good := 0, bad := 0
    resyncs := keep ++ [m.now] }) |>.modArb (fun a => { a with syncTick := none, synced := false })
  (((m1.put (Ob.health l) 3).put (Ob.roleNow l) 2).put (Ob.resync24h l) (satAt 255 (keep.length + 1))).showRedundant

/-- The sequence is started at once, unless the last full test failed or RESYNC_MAX is reached (R340).
DEDUCED, log entry 81. -/
def Mod.autoResync (l : Nat) (m : Mod) : Mod :=
  if (m.laneAt l).testFailed || m.get Ob.resyncMax ≤ m.resyncsIn24h l || !m.arb.armed || m.arb.grant.isNone then m
  else m.startResync l

/-- A lane that is not active turns unhealthy (R339, R340, R341): EV002 on leaving redundancy; a resynchronisation that
fails raises it with 480Ch; an incoming lane that fails cannot claim. DEDUCED, log entries 81 and 112. -/
def Mod.standbyUnhealthy (cause : Nat) (m : Mod) : Mod :=
  let s := m.standby
  if m.healthOf s = 2 then m
  else if m.arb.incoming.isSome then
    ((m.modArb (fun a => { a with incoming := none, grant := none, noneAt := m.now })).put (Ob.health s) 2).put (Ob.unhealthyCause s) cause
  else
    let was := m.healthOf s
    let m1 := ((m.modArb (fun a => { a with diag := false })).put (Ob.health s) 2).showRedundant
    if !m1.arb.armed then (m1.put (Ob.unhealthyCause s) cause)
    else if was = 3 then (((m1.modArb (fun a => { a with resyncSeq := 0 })).put (Ob.unhealthyCause s) 0x480C).raise 2 sevFault 0x480C s).autoResync s
    else ((m1.put (Ob.unhealthyCause s) cause).raise 2 sevWarn cause s).autoResync s

/-- The active lane withdraws its claim (R331, R332, R323): a withdrawal under way stands. -/
def Mod.withdraw (cause : Nat) (m : Mod) : Mod :=
  if m.arb.cause.isSome || m.arb.grant.isNone then m
  else m.modArb (fun a => { a with cause := some cause, twPs := m.now, reported := false, grant := none, noneAt := m.now })

/-- A claim pair stands in equal states (R20, R323): the claim of its lane counts as withdrawn, that of an incoming lane too;
a lane that claims nothing loses nothing. -/
def Mod.pairBroken (l : Nat) (m : Mod) : Mod :=
  if l = m.lane then m.withdraw 0x4809 else if m.arb.incoming = some l then m.standbyUnhealthy 0x4809 else m

/-- A lane gives up control for a reason, or is unhealthy for it when it is the standby lane. DEDUCED, log entry 60. -/
def Mod.laneFails (l cause : Nat) (m : Mod) : Mod :=
  if l = m.lane then m.withdraw cause else m.standbyUnhealthy cause

/-- The same, at the next tick boundary. -/
def Mod.laneFailsLater (l cause : Nat) (m : Mod) : Mod := m.modArb (fun a => { a with due := a.due ++ [(l, cause)] })

/-- The withdrawals that fall due at a boundary. -/
def Mod.lanesDue (m : Mod) : Mod :=
  let ds := m.arb.due
  ds.foldl (fun m d => m.laneFails d.1 d.2) (m.modArb (fun a => { a with due := [] }))

/-! ### Full test (R338) -/

/-- A resynchronising lane has run 10 000 ticks of mirror compare without a mismatch (R340). -/
def Mod.compared (m : Mod) : Bool := match m.arb.syncTick with | some t => t + 10000 ≤ m.clk.tick | none => false

/-- FULL_TEST_PERIOD expires: a healthy standby lane starts its full test; a resynchronising lane starts its own after the ticks
of mirror compare (R338, R340). -/
def Mod.fullTestStart (m : Mod) : Mod :=
  let s := m.standby
  if m.get (Ob.roleNow s) = 1 && m.healthOf s = 0 then
    let m1 := (m.reach (m.arb.testPs + sPs (60 * m.get Ob.fullTestPeriod))).put (Ob.health s) 1
    (m1.modArb (fun a => { a with testPs := m1.now })).put (Ob.lastFullTest s) m1.t64
  else if m.healthOf s = 3 && m.compared then m.put (Ob.lastFullTest s) m.t64
  else m

/-- The full test ends (R338, R345): `failed` has a bit for each slice that failed. -/
def Mod.selfTestDone (failed : Nat) (aborted : Bool) (m : Mod) : Mod :=
  let s := m.standby
  let h := m.healthOf s
  if h ≠ 1 && h ≠ 3 then m
  else
    let f := failed % 128
    let m1 := if h = 1 then m.put (Ob.health s) 0 else m
    let arg := s + 2 * f + 256 * b2n aborted
    if aborted then ((m1.put (Ob.fullTestResult s) 3).put (Ob.testFailSlice s) f).raise 90 sevInfo 0 arg
    else if f ≠ 0 then
      ((((m1.put (Ob.fullTestResult s) 2).put (Ob.testFailSlice s) f).modLane s (fun x => { x with testFailed := true })).raise 90
        sevFault 0x4807 arg).standbyUnhealthy 0x4807
    else
      ((((m1.put (Ob.fullTestResult s) 1).put (Ob.testFailSlice s) 0).modLane s (fun x => { x with testFailed := false })).modArb
        (fun a => { a with synced := a.synced || (h = 3 && m.compared) })).raise 90 sevInfo 0 arg

/-! ### Takeover (R332 to R336) -/

/-- Serac reports the withdrawal (R332, R333): the outgoing lane is unhealthy with its reason; a healthy standby lane
abandons its full test and claims. -/
def Mod.claimWithdrawn (m : Mod) : Mod :=
  match m.arb.cause with
  | none       => m
  | some cause =>
    if m.arb.reported then m
    else
      let a := m.lane
      let s := m.standby
      let ok := m.get (Ob.roleNow s) = 1 && m.healthOf s ≤ 1
      let m1 := (m.modArb (fun x => { x with reported := true, diag := false })).modLane a (fun x => { x with withdrawn := true })
      let m2 := ((m1.put (Ob.health a) 2).put (Ob.unhealthyCause a) cause)
      let m3 := if ok && m.healthOf s = 1 then m2.selfTestDone 0 true else m2
      if ok then (m3.modArb (fun x => { x with incoming := some s, grant := some s })).showRedundant else m3.showRedundant

/-- Serac's multiplexer passes the incoming lane's generator (R25, R332): its shadow registers, and the loads of a boundary
that the outgoing lane did not make; the field die counts missing frames anew on the link now named, and a loss episode goes on
(R411, R413). DEDUCED, log entries 106 and 107 and 110. -/
def Mod.pinsSwitch (m : Mod) : Mod :=
  let m1 := m.each (List.range 8) (fun g m => m.modGrp g (fun x => { x with
    duty := x.twin, clampSet := x.twinClmp, twin := x.duty, twinClmp := x.clampSet }))
  let m2 := match m1.arb.missed with
    | some valley => (m1.each (List.range 8) (Mod.loadGroup valley)).modArb (fun a => { a with missed := none })
    | none        => m1
  let lost := (m2.rimeAt m2.standby).lost
  (m2.modRime m2.lane (fun x => { x with missOut := 0, good := 0, lost := lost })).modRime m2.standby (fun x => { x with lost := false })

/-- The distance of an instant from the nearest edge, in ps. -/
def clearance (edges : List Nat) (x : Nat) : Option Nat :=
  (edges.map (fun e => if e ≤ x then x - e else e - x)).min?

/-- The instants at which the clearance can first suffice or be greatest within a tick period `t`: its ends, 200 ns from each edge,
and the middle between two edges. -/
def instants (edges : List Nat) (t : Nat) : List Nat :=
  let es := sortBy (fun (a b : Nat) => a ≤ b) edges
  sortBy (fun (a b : Nat) => a ≤ b) ((0 :: t :: es.map (· + 200000) ++ (es.zip es.tail).map (fun (p : Nat × Nat) => (p.1 + p.2) / 2)).filter (· ≤ t))

/-- The takeover instant that the incoming lane chooses, in ps after its claim, and whether it is narrow (R333): the first from which
no edge lies within 200 ns, otherwise the first of greatest clearance. -/
def chooseInstant (edges : List Nat) (t : Nat) : Nat × Bool :=
  let l := instants edges t
  let far (x : Nat) : Nat := (clearance edges x).getD 200000
  match l.find? (fun x => 200000 ≤ far x) with
  | some x => (x, false)
  | none   => (l.foldl (fun b x => if far b < far x then x else b) 0, true)

/-- The takeover instant (R333, R335): Serac switches every selected output to the incoming lane. `claim` is the delay of its claim
after the withdrawal in ns; `edges` are the edges of the pairs in use in the first tick period after it, in ps. -/
def Mod.takeoverInstant (claim : Nat) (edges : List Nat) (m : Mod) : Mod :=
  match m.arb.incoming with
  | none   => m
  | some s =>
    let out := m.lane
    let cause := m.arb.cause.getD 0
    let at_ := chooseInstant edges m.tickPs
    let latency := claim + at_.1 / 1000
    let m0 := m.reach (m.arb.twPs + claim * 1000 + at_.1)
    let m1 := m0.modArb (fun x => { x with
      incoming := none, cause := none, reported := false, grant := some s, commit := some (out, cause, latency, at_.2) })
    let m2 := ((m1.put Ob.activeLane s).put (Ob.roleNow s) 0).put (Ob.roleNow out) 1
    let m3 := ((m2.put Ob.lastTakeover m2.t64).put Ob.lastCause cause).put Ob.lastLatency (satAt 4294967295 latency)
    ((if at_.2 then m3.bump Ob.narrowTakeovers else m3).showRedundant).pinsSwitch

/-- At the boundary after the instant the incoming lane commits as active (R335): the count, TAKEOVER, EV001, EV002 for
the outgoing lane, and its resynchronisation. -/
def Mod.takeoverCommit (m : Mod) : Mod :=
  match m.arb.commit with
  | none => m.modArb (fun x => { x with took := false })
  | some (out, cause, latency, narrow) =>
    let m1 := (m.modArb (fun x => { x with commit := none, took := true })).bump Ob.takeoverCount
    let m2 : Mod := { m1 with link := { m1.link with takeover := true } }
    let m3 := m2.raise 1 sevWarn cause (satAt 65535 latency + 65536 * m.lane + 131072 * b2n narrow)
    (m3.raise 2 sevWarn cause out).autoResync out

/-- No lane holds the grant for 300 µs (R336): Serac trips every group, opens K2, and the module makes a safe stop.
DEDUCED, log entry 113. -/
def Mod.noGrant (m : Mod) : Mod :=
  if m.arb.armed && m.arb.grant.isNone then (m.reach (m.arb.noneAt + 300000000)).safeStop 0x480B else m

/-- A standby lane's claim while the active lane holds the grant (R323). -/
def Mod.splitClaim (m : Mod) : Mod :=
  if m.arb.grant.isSome && m.arb.armed then
    let s := m.standby
    ((m.bump Ob.splitClaims).raise 4 sevFault 0x4808 s).standbyUnhealthy 0x4808
  else m

/-! ### Mirror compare (R328 to R330) -/

/-- The standby lane finds a difference in item `item` of engine `eng` (R328): EV088 and the count, and a diagnosis unless one is under
way (R329); a lane that resynchronises fails the step (R340). DEDUCED, log entries 60 and 106. -/
def Mod.mirrorMismatch (item eng : Nat) (m : Mod) : Mod :=
  let s := m.standby
  let resync := m.healthOf s = 3 && m.get (Ob.roleNow s) = 1
  if !m.isRedundant && !resync then m
  else
    let m1 := (m.bump (Ob.mcMismatches s)).raise 88 sevWarn 0x4803
      (m.get Ob.tickCount % 65536 + 65536 * (eng % 2) + 131072 * (item % 8))
    if resync then m1.standbyUnhealthy 0x480C else m1.modArb (fun a => { a with diag := true })

/-- The diagnosis ends (R330): 0 active failed, 1 standby failed, 2 unexplained. -/
def Mod.mirrorDiagnosis (outcome : Nat) (m : Mod) : Mod :=
  if !m.arb.diag then m
  else
    let m1 := m.modArb (fun a => { a with diag := false })
    if outcome = 0 then (m1.raise 89 sevFault 0x4803 0).laneFailsLater m.lane 0x4803
    else if outcome = 1 then (m1.raise 89 sevFault 0x4803 1).standbyUnhealthy 0x4803
    else
      let w := sPs (m.get Ob.mcUnexplainedW)
      let l := m.arb.unexpl.filter (fun t => m.now < t + w) ++ [m.now]
      let m2 := m1.modArb (fun a => { a with unexpl := l, adopt := true })
      if m.get Ob.mcUnexplainedN ≤ l.length then (m2.raise 89 sevFault 0x4804 2).standbyUnhealthy 0x4804
      else m2.raise 89 sevInfo 0 2

/-- The carriers of the lanes differ by `ps` in the last ticks, the newest last (R324): beyond ±2.5 ns in eight consecutive ticks the
standby lane is unhealthy. -/
def Mod.carrierAlign (ps : List Int) (m : Mod) : Mod :=
  let s := m.standby
  match ps.getLast? with
  | none => m
  | some d =>
    let m1 := m.putS16 (Ob.carrierAlign s) d
    let last := ps.reverse.take 8
    if last.length = 8 && last.all (fun x => 2500 < absI x) && m.isRedundant then
      (m1.raise 91 sevWarn 0x4805 (Raw.ofInt 32 d)).standbyUnhealthy 0x4805
    else m1

/-! ### Resynchronisation (R340) -/

/-- The second lane has received the full state (R321), its configuration region with it: it is standby; while it
resynchronises it stays so. -/
def Mod.standbyReady (m : Mod) : Mod :=
  let s := m.standby
  let x := m.laneAt s
  if m.arb.armed && m.get (Ob.roleNow s) = 2 && (m.healthOf s = 0 || m.healthOf s = 3) && x.floe && x.tested then
    let m1 := (((m.put (Ob.roleNow s) 1).showRedundant).modLane s (fun y => { y with goodTick := m.clk.tick, missing := 0 })).modArb
      (fun a => { a with testPs := m.now, bothPs := m.now, syncTick := if m.healthOf s = 3 then some m.clk.tick else none, synced := false })
    { m1 with gens := List.replicate 2 (m.gens.getD m.lane 0) }
  else m

/-- The resynchronised lane has passed its ticks of mirror compare and its full test: it is healthy, EV003. -/
def Mod.redundancyRestored (m : Mod) : Mod :=
  let s := m.standby
  if m.healthOf s = 3 && m.get (Ob.roleNow s) = 1 && m.compared && m.arb.synced then
    ((((m.put (Ob.health s) 0).put (Ob.unhealthyCause s) 0).modArb (fun a => { a with resyncSeq := 0, syncTick := none, testPs := m.now, bothPs := m.now })).showRedundant).inform 3
      (s + 65536 * (m.arb.resyncSeq % 65536))
  else m

/-- LANE_RESYNC (R342): a status, and the sequence started whatever the limits. -/
def Mod.laneResync (seq : Nat) (m : Mod) : Mod × Nat :=
  if m.healthOf m.standby = 2 && m.arb.armed && m.arb.cause.isNone then
    ((m.startResync m.standby).modArb (fun a => { a with resyncSeq := seq }), 3)
  else (m, 0x12)

/-- Whether LANE_SWITCHOVER is refused (R341). -/
def Mod.switchRefused (m : Mod) : Bool := !m.isRedundant || m.arb.cause.isSome

/-! ### Interlock (R264, R331) -/

/-- Serac's second interlock trips the group of a pair, with EV048; the active lane withdraws at the next boundary.
DEDUCED, log entry 86. -/
def Mod.interlock (pair : Nat) (threeLevel : Bool) (m : Mod) : Mod :=
  match m.groupOfPair pair with
  | none   => m
  | some g =>
    (((m.assertTrip 0x4406 1 (2 ^ 18) 0 (m.legBitOfPair pair) [g] [] false none).raise 48 sevFault 0x4001
      (pair + 32 * b2n threeLevel + 256 * g))).laneFailsLater m.lane 0x4001

end Sys2Proof.Machine
end

