-- ==== Sys2Proof/Machine/Sdc.lean ====
section
/-!
DEFINITION. Safe disconnect and sealed configuration (R346 to R367): sampling and disagreements, the causes of the
safe state, the connection sequence with its weld test, latched faults and their clear, and the seal re-check.
-/
namespace Sys2Proof.Machine

def sdcOpen : Nat := 0
def sdcTestK1 : Nat := 1
def sdcTestK1Off : Nat := 2
def sdcTestK2 : Nat := 3
def sdcTestK2Off : Nat := 4
def sdcClosing : Nat := 5
def sdcClosed : Nat := 6
def sdcOpening : Nat := 7
def sdcSafe : Nat := 8
def sdcFault : Nat := 9
def sdcLockout : Nat := 10

/-- SDC_STATE (R354). -/
def Mod.sdcSt (m : Mod) : Nat := m.get Ob.sdcState

/-- Whether the weld test or the closing runs. -/
def testing (st : Nat) : Bool := sdcTestK1 ≤ st && st ≤ sdcClosing

def Mod.modSdc (f : SdcRt → SdcRt) (m : Mod) : Mod := { m with sdc := f m.sdc }

/-- A change of state raises EV080; the 5 ms of the next step begin anew (R354). -/
def Mod.sdcTo (new : Nat) (m : Mod) : Mod :=
  let old := m.sdcSt
  if old = new then m else ((m.modSdc (fun x => { x with readyPs := none })).put Ob.sdcState new).inform 80 (new + 256 * old)

/-- Drive K1; a rising edge counts a closing. -/
def Mod.driveK1 (v : Bool) (m : Mod) : Mod :=
  if m.sdc.k1 = v then m
  else
    let m1 := m.modSdc (fun x => { x with k1 := v, k1Edge := some m.now })
    if v then m1.keep Ob.k1Operations ((m.get Ob.k1Operations + 1) % 4294967296) else m1

/-- Drive K2; a rising edge counts a closing. -/
def Mod.driveK2 (v : Bool) (m : Mod) : Mod :=
  if m.sdc.k2 = v then m
  else
    let m1 := m.modSdc (fun x => { x with k2 := v, k2Edge := some m.now })
    if v then m1.keep Ob.k2Operations ((m.get Ob.k2Operations + 1) % 4294967296) else m1

/-- Both drives low. -/
def Mod.drivesLow (m : Mod) : Mod := (m.driveK1 false).driveK2 false

/-! ### The weld test (R354, R357) -/

/-- A test ends: 1 passed, 2 failed with its code, 3 aborted. -/
def Mod.testEnds (result fault : Nat) (m : Mod) : Mod :=
  let m1 := (m.keep Ob.lastTest m.t64).keep Ob.lastResult result
  let m2 := if result = 1 then (m1.modSdc (fun x => { x with passedAt := some m.tai })).put Ob.testDue 0 else m1
  m2.raise 84 (if result = 2 then sevFault else sevInfo) (if result = 2 then fault else 0) result

/-! ### The safe state (R349, R350) -/

/-- Whether a channel's SDR inputs hold a demand. -/
def demands (x : SdcInputs) : Bool := !x.sdrA || !x.sdrB

/-- SAFE_CAUSE as it stands: bit 0 SDR, 1 latched fault, 2 cross-link, 3 other channel, 4 lane request.
DEDUCED, log entry 61. -/
def Mod.safeCauses (m : Mod) : Nat :=
  let x := m.sdc
  b2n (demands x.a) + 2 * b2n (x.relayFault.isSome || x.discFault) + 4 * b2n (3 ≤ x.lostA || 3 ≤ x.lostB)
  + 8 * b2n ((demands x.b && !demands x.a) || x.oscDemand) + 16 * b2n x.laneDemand

/-- LATCHED_FAULT (R366): a relay fault stands before a discrepancy fault. -/
def Mod.showLatched (m : Mod) : Mod :=
  m.put Ob.latchedFault (match m.sdc.relayFault with | some c => c | none => if m.sdc.discFault then 0x4A01 else 0)

/-- A demand takes every AC section that is not in REST to REST, and Serac trips every AC group; neither counts. -/
def Mod.demandTrip (m : Mod) : Mod :=
  let gs := (List.range 4).filter m.inUse
  let m1 := m.each gs (fun g m => (m.tripGroup 0 g).modGrp g (fun x => { x with demand := true }))
  m1.each (List.range 4) (Mod.unitToRest · 0)

/-- The safe state is entered, as SAFE or as FAULT (R349, R354, R359): both drives low, a test aborted, the demand
acts on the sections, and a request that stands is ignored until it has been withdrawn. -/
def Mod.enterSafe (new : Nat) (m : Mod) : Mod :=
  let st := m.sdcSt
  if st = sdcLockout || st = new || (st = sdcFault && new = sdcSafe) then m.put Ob.safeCause m.safeCauses
  else
    let m1 := m.drivesLow
    let m2 := if testing st && new = sdcSafe then m1.testEnds 3 0 else m1
    let m3 := m2.modSdc (fun x => { x with ignored := x.request, second := false, overdue := false })
    let m4 := (m3.put Ob.safeCause m3.safeCauses).sdcTo new
    let m5 := if st = sdcSafe then m4 else m4.raise 81 sevWarn 0 m3.safeCauses
    m5.demandTrip

/-- The causes of R349 are judged: any of them brings the safe state. -/
def Mod.sdcJudge (m : Mod) : Mod :=
  if m.safeCauses = 0 then m else m.enterSafe sdcSafe

/-- The safe state ends when no cause stands (R350): OPEN, and the latches that the demand set clear. -/
def Mod.sdcRelease (m : Mod) : Mod :=
  if (m.sdcSt = sdcSafe || m.sdcSt = sdcFault) && m.safeCauses = 0 && !demands m.sdc.b then
    ((m.put Ob.safeCause 0).sdcTo sdcOpen).each (List.range 4) (fun g m => if (m.grpAt g).demand then m.clearGroup g else m)
  else m

/-- A relay fault latches in both channels (R354, R356, R358): EV082, a running test fails with the codes of R355 or is
aborted by another, sections that wait for their close fail their sequence, and the safe state follows. -/
def Mod.latchRelay (code : Nat) (m : Mod) : Mod :=
  if m.sdc.relayFault.isSome then m
  else
    let weld := 0x4A02 ≤ code && code ≤ 0x4A05
    let m1 := ((m.modSdc (fun x => { x with relayFault := some code })).showLatched).raise 82 sevFault code 3
    let m2 := if testing m.sdcSt then m1.testEnds (if weld then 2 else 3) code else m1
    let waits := (List.range 4).filter (fun s => m.gf s = gfClosingDead || m.gf s = gfClosingLive)
    let m3 := m2.each waits (fun s m => (m.raise 67 sevWarn 0x3005 (65536 * s)).gfToRest s 0x3005)
    m3.enterSafe sdcFault

/-! ### Sampling (R346, R351 to R353) -/

/-- The next count of a disagreement. -/
def nextRun (differs : Bool) (n : Nat) : Nat := if differs then n + 1 else 0

/-- The count of SDR_A against SDR_B in Serac (R351, R352). DEDUCED, log entry 60. -/
def Mod.discrepancy (m : Mod) : Mod :=
  let x := m.sdc
  let d := m.get Ob.discTime
  if x.b.sdrA ≠ x.b.sdrB then
    let n := x.discRun + 1
    let m1 := m.modSdc (fun y => { y with discRun := n })
    if n = d && !x.discFault then
      ((m1.modSdc (fun y => { y with discFault := true, bothSeen := false })).showLatched).raise 82 sevFault 0x4A01 2
    else m1
  else
    let m1 := m.modSdc (fun y => { y with discRun := 0, bothSeen := y.bothSeen || (y.discFault && !y.b.sdrA && !y.b.sdrB) })
    let m2 := if 0 < x.discRun && x.discRun < d then
        ((m1.bump Ob.discCount).put Ob.discLast x.discRun).inform 83 x.discRun
      else m1
    if m2.sdc.discFault && m2.sdc.bothSeen && x.b.sdrA && x.b.sdrB then
      (m2.modSdc (fun y => { y with discFault := false, bothSeen := false })).showLatched
    else m2

/-- The mirror contacts of each relay, and the two readings of each pin, against D (R353). DEDUCED, log entry 61. -/
def Mod.disagreements (m : Mod) : Mod :=
  let x := m.sdc
  let d := m.get Ob.discTime
  let c := [nextRun (x.a.k1a ≠ x.a.k1b || x.b.k1a ≠ x.b.k1b) (x.contacts.getD 0 0),
            nextRun (x.a.k2a ≠ x.a.k2b || x.b.k2a ≠ x.b.k2b) (x.contacts.getD 1 0)]
  let diffs : List Bool := [x.a.sdrA != x.b.sdrA, x.a.sdrB != x.b.sdrB, x.a.k1a != x.b.k1a, x.a.k1b != x.b.k1b,
                x.a.k2a != x.b.k2a, x.a.k2b != x.b.k2b]
  let p := (List.range 6).map (fun i => nextRun (diffs.getD i false) (x.pins.getD i 0))
  let m1 := m.modSdc (fun y => { y with contacts := c, pins := p })
  let m2 := if c.any (fun n => n = d) then m1.latchRelay 0x4A06 else m1
  if p.any (fun n => n = d) then m2.latchRelay 0x4A07 else m2

/-- A relay whose drive is low for longer than RELEASE_MAX and that reads closed is welded; in CLOSED a relay that reads
open has failed to stay closed (R354, R355). DEDUCED, log entry 61. -/
def Mod.relayReadings (m : Mod) : Mod :=
  let rel := msPs (m.get Ob.releaseMax)
  let late := fun (e : Option Nat) => match e with | none => true | some t => t + rel ≤ m.now
  let x := m.sdc
  if !x.k1 && m.readsClosed false && late x.k1Edge then m.latchRelay 0x4A03
  else if !x.k2 && m.readsClosed true && late x.k2Edge then m.latchRelay 0x4A05
  else if m.sdcSt = sdcClosed && x.a.k1a && x.a.k1b then m.latchRelay 0x4A02
  else if m.sdcSt = sdcClosed && x.a.k2a && x.a.k2b then m.latchRelay 0x4A04
  else m

/-- SDR_LEVEL and FB_LEVEL (R366). -/
def Mod.showLevels (m : Mod) : Mod :=
  let x := m.sdc
  (m.put Ob.sdrLevel (b2n x.a.sdrA + 2 * b2n x.a.sdrB + 4 * b2n x.b.sdrA + 8 * b2n x.b.sdrB)).put Ob.fbLevel
    (b2n x.a.k1a + 2 * b2n x.a.k1b + 4 * b2n x.a.k2a + 8 * b2n x.a.k2b
     + 16 * b2n x.b.k1a + 32 * b2n x.b.k1b + 64 * b2n x.b.k2a + 128 * b2n x.b.k2b)

/-- Whether the readings are those that the sequence waits for (R354). -/
def Mod.stepReady (m : Mod) : Bool :=
  let st := m.sdcSt
  let o1 := m.readsOpen false
  let o2 := m.readsOpen true
  let c1 := m.readsClosed false
  let c2 := m.readsClosed true
  if st = sdcTestK1 then c1 && o2
  else if st = sdcTestK1Off then o1
  else if st = sdcTestK2 then c2 && o1
  else if st = sdcTestK2Off then o2
  else if st = sdcClosing then c1 && (!m.sdc.second || c2)
  else st = sdcOpening && o1 && o2

/-- Since when they are. -/
def Mod.noteReady (m : Mod) : Mod :=
  m.modSdc (fun x => { x with readyPs := if m.stepReady then some (x.readyPs.getD m.now) else none })

/-- One sample of both channels, every 1 ms (R346 to R353). While RESET_N is low and in lockout nothing but the levels follows. -/
def Mod.sdcSample (a b : SdcInputs) (m : Mod) : Mod :=
  let m0 := m.reach (m.sdc.samplePs + msPs 1)
  let m1 := (m0.modSdc (fun x => { x with a := a, b := b, samplePs := m0.now })).showLevels
  if m.sdc.resetLow || m.sdc.lockout then m1
  else ((m1.discrepancy.disagreements.relayReadings).sdcJudge).sdcRelease.noteReady

/-- A cross-link frame of each channel (R317, R346). A request that is withdrawn for a frame counts again when it is raised
(R350). DESIGN CHOICE, log entry 48. -/
def Mod.crosslinkFrame (okA okB : Bool) (m : Mod) : Mod :=
  let m1 := m.modSdc (fun x => { x with
    lostA := if okA then 0 else x.lostA + 1, lostB := if okB then 0 else x.lostB + 1, ignored := x.ignored && x.request })
  if m.sdc.resetLow then m1 else m1.sdcJudge

/-- Three bad safety-link frames in a row at a channel (R317, R349). -/
def Mod.safetyLinkLoss (chanB : Bool) (m : Mod) : Mod :=
  if m.sdc.resetLow then m
  else (m.modSdc (fun x => if chanB then { x with lostB := max 3 x.lostB } else { x with lostA := max 3 x.lostA })).sdcJudge

/-! ### Connection (R354, R356) -/

/-- The request is in force: the test starts from OPEN. -/
def Mod.startTest (m : Mod) : Mod :=
  if m.sdcSt = sdcOpen && m.sdc.request && !m.sdc.ignored && m.safeCauses = 0 && !m.sdc.resetLow then
    (m.driveK1 true).sdcTo sdcTestK1
  else m

/-- The record and EV082 of the overdue test, once the relays open (R357). -/
def Mod.overdueEnds (m : Mod) : Mod :=
  if m.sdc.overdue then
    let m1 := m.modSdc (fun x => { x with overdue := false })
    ((m1.put Ob.safeCause m1.safeCauses).moduleRecord 0x4A0C).raise 82 sevFault 0x4A0C 0
  else m

/-- The active lane raises the request, which some section's stands behind, or withdraws it (R354). DEDUCED, log entry 61. -/
def Mod.connectionRequest (raised : Bool) (m : Mod) : Mod :=
  if raised then
    if m.sdc.request || !m.asks then m
    else
      let blocked := m.sdcSt = sdcSafe || m.sdcSt = sdcFault || m.sdcSt = sdcLockout || m.safeCauses ≠ 0
      (m.modSdc (fun x => { x with request := true, ignored := x.ignored || blocked })).startTest
  else
    let m1 := m.modSdc (fun x => { x with request := false })
    let st := m.sdcSt
    if testing st then (((m1.modSdc (fun x => { x with second := false })).drivesLow).testEnds 3 0).sdcTo sdcOpen
    else if st = sdcClosed then (m1.drivesLow.sdcTo sdcOpening).overdueEnds
    else m1

/-- The step of the sequence that its readings allow (R354). -/
def Mod.stepTaken (m : Mod) : Mod :=
  let st := m.sdcSt
  if st = sdcTestK1 then (m.driveK1 false).sdcTo sdcTestK1Off
  else if st = sdcTestK1Off then (m.driveK2 true).sdcTo sdcTestK2
  else if st = sdcTestK2 then (m.driveK2 false).sdcTo sdcTestK2Off
  else if st = sdcTestK2Off then ((m.driveK1 true).modSdc (fun x => { x with second := false })).sdcTo sdcClosing
  else if st = sdcClosing then
    (if m.sdc.second then ((m.modSdc (fun x => { x with second := false })).testEnds 1 0).sdcTo sdcClosed
     else (m.driveK2 true).modSdc (fun x => { x with second := true, readyPs := none }))
  else (m.sdcTo sdcOpen).startTest

/-- The sequence advances where the readings that its state waits for have been held for 5 ms, and only while a section's request
stands (R166, R354). -/
def Mod.stepConfirmed (m : Mod) : Mod :=
  if testing m.sdcSt && !m.asks then m.connectionRequest false
  else match m.sdc.readyPs with
    | none   => m
    | some t => if m.stepReady then (m.reach (t + msPs 5)).stepTaken else m

/-- A relay fault once a time in ms has passed since a drive edge. -/
def Mod.latchAfter (edge : Option Nat) (ms code : Nat) (m : Mod) : Mod :=
  (m.reach (match edge with | some t => t + msPs ms | none => 0)).latchRelay code

/-- A step exceeds its time (R355): the finding follows from the state and the readings, and its time counts from the drive edge. -/
def Mod.relayTimeout (m : Mod) : Mod :=
  let st := m.sdcSt
  let o1 := m.readsOpen false
  let o2 := m.readsOpen true
  let c1 := m.readsClosed false
  let c2 := m.readsClosed true
  let close1 := m.latchAfter m.sdc.k1Edge (m.get Ob.operateMax) 0x4A02
  let open1 := m.latchAfter m.sdc.k1Edge (m.get Ob.releaseMax) 0x4A03
  let close2 := m.latchAfter m.sdc.k2Edge (m.get Ob.operateMax) 0x4A04
  let open2 := m.latchAfter m.sdc.k2Edge (m.get Ob.releaseMax) 0x4A05
  if st = sdcTestK1 then (if !c1 then close1 else if !o2 then open2 else m)
  else if st = sdcTestK1Off then (if !o1 then open1 else m)
  else if st = sdcTestK2 then (if !c2 then close2 else if !o1 then open1 else m)
  else if st = sdcTestK2Off then (if !o2 then open2 else m)
  else if st = sdcClosing then (if !c1 then close1 else if m.sdc.second && !c2 then close2 else m)
  else if st = sdcLockout then m
  else if !m.sdc.k1 && !o1 then open1
  else if !m.sdc.k2 && !o2 then open2
  else m

/-- SDR_A and SDR_B have disagreed for D (R351): the samples count it. -/
def Mod.discFault (m : Mod) : Mod :=
  if m.get Ob.discTime ≤ m.sdc.discRun && m.sdc.b.sdrA ≠ m.sdc.b.sdrB && !m.sdc.discFault then
    (((m.modSdc (fun y => { y with discFault := true, bothSeen := false })).showLatched).raise 82 sevFault 0x4A01 2).sdcJudge
  else m

/-! ### Test interval (R357) -/

/-- The end of the `n`-th test interval since the last passed test, TAI in ns. -/
def Mod.testEnd (n : Nat) (m : Mod) : Int := m.sdc.passedAt.getD m.tai + (n * m.get Ob.testInterval * 3600000000000 : Nat)

/-- TEST_INTERVAL expires in CLOSED: EV086 and TEST_DUE. -/
def Mod.weldDue (m : Mod) : Mod :=
  if m.sdcSt = sdcClosed && m.get Ob.testDue = 0 && m.sdc.passedAt.isSome then
    let m1 := m.reachTai (m.testEnd 1)
    (m1.put Ob.testDue 1).raise 86 sevWarn 0x4A0C ((m1.tai - m1.sdc.passedAt.getD m1.tai) / 3600000000000).toNat
  else m

/-- A further interval in CLOSED: every section stops under R163, and the permission goes. DEDUCED, log entry 61. -/
def Mod.weldOverdue (m : Mod) : Mod :=
  if m.sdcSt = sdcClosed && m.get Ob.testDue = 1 && !m.sdc.overdue then
    let m1 := (m.reachTai (m.testEnd 2)).modSdc (fun x => { x with overdue := true })
    (m1.put Ob.safeCause (m1.safeCauses + 32)).each (List.range 4) (fun s m =>
      if m.gf s = gfRest || m.gf s = gfStopping then m else m.gfStopNow s false)
  else m

/-! ### SDC_FAULT_CLEAR, Serac's oscillator, seals -/

/-- SDC_FAULT_CLEAR (R358). -/
def Mod.sdcClear (m : Mod) : Mod × Nat :=
  let x := m.sdc
  if x.relayFault.isNone then (m, 0)
  else if m.readsClosed false || m.readsClosed true || !x.b.k1a && !x.b.k1b || !x.b.k2a && !x.b.k2b
      || x.a.k1a ≠ x.a.k1b || x.a.k2a ≠ x.a.k2b || x.b.k1a ≠ x.b.k1b || x.b.k2a ≠ x.b.k2b
      || demands x.a || demands x.b then (m, 0x16)
  else
    let m1 := (m.modSdc (fun y => { y with relayFault := none })).showLatched
    (if m1.safeCauses = 0 then m1.sdcRelease else (m1.put Ob.safeCause m1.safeCauses).sdcTo sdcSafe, 0)

/-- Serac's oscillator cannot be trusted (R348): a demand with no way back but a power cycle. -/
def Mod.oscFault (m : Mod) : Mod :=
  if m.sdc.oscDemand then m
  else ((m.modSdc (fun x => { x with oscDemand := true })).raise 82 sevFault 0x4A0D 2).sdcJudge

/-- A reading of the seals every 1 s (R362): three in a row that differ set SEAL_PENDING, with EV092 once. -/
def Mod.sealRecheck (keptA keptB a b : Nat) (m : Mod) : Mod :=
  let m0 := m.reach (m.sdc.sealPs + sPs 1)
  let n := if a ≠ keptA || b ≠ keptB then m.sdc.sealDiff + 1 else 0
  let m1 := m0.modSdc (fun x => { x with sealDiff := n, sealPs := m0.now })
  if 3 ≤ n && m.get Ob.sealPending = 0 then (m1.put Ob.sealPending 1).raise 92 sevWarn 0 (a % 256 + 256 * (b % 256)) else m1

end Sys2Proof.Machine
end

