-- ==== Sys2Proof/Machine/Trace.lean ====
section
/-!
DEFINITION. Moraine (R140 to R145) and the injection generator with its response capture (R146 to R151).
-/
namespace Sys2Proof.Machine

def Mod.modTrace (f : TraceRt → TraceRt) (m : Mod) : Mod := { m with trace := f m.trace }
def Mod.modInj (f : InjRt → InjRt) (m : Mod) : Mod := { m with inj := f m.inj }

/-! ### Moraine -/

def traceIdle : Nat := 0
def traceArming : Nat := 1
def traceArmed : Nat := 2
def traceTriggered : Nat := 3
def traceDoneState : Nat := 4
def traceRunning : Nat := 5

/-- TRACE_STATE (R143). -/
def Mod.traceSt (m : Mod) : Nat := m.get Ob.traceState

/-- Size of a record (R140). DEDUCED, log entry 56. -/
def Mod.recordBytes (m : Mod) : Nat := 12 + 4 * m.get Ob.nodeCount

/-- RECORD_SIZE and MAX_DEPTH follow NODE_COUNT (R140). -/
def Mod.showTraceSize (m : Mod) : Mod :=
  (m.put Ob.recordSize m.recordBytes).put Ob.maxDepth (50331648 / m.recordBytes)

/-- DEPTH and PRE in force: no more records than the store holds at the present NODE_COUNT (R140), and fewer before the
trigger than in all. DEDUCED, log entry 56. -/
def Mod.depthNow (m : Mod) : Nat := min (m.get Ob.traceDepth) (50331648 / m.recordBytes)
def Mod.preNow (m : Mod) : Nat := min (m.get Ob.tracePre) (m.depthNow - 1)

/-- The nodes recorded. -/
def Mod.traceNodes (m : Mod) : List Nat := (List.range (m.get Ob.nodeCount)).map (fun i => m.get (Ob.traceNode i))

/-- Bytes of a record (R140). -/
def TraceRec.bytes (r : TraceRec) : List Byte :=
  leBytes 4 r.t0 ++ leBytes 4 r.valid ++ leBytes 2 r.tick ++ leBytes 1 r.flags ++ leBytes 1 0
    ++ r.vals.flatMap (fun v => leBytes 4 (Raw.ofInt 32 v))

/-- The records held as the active lane reads them (R16, R313): one whose words it has lost reads VALID 0 and node values 0. -/
def Mod.traceRecs (m : Mod) : List TraceRec :=
  (List.range m.trace.recs.length).zipWith (fun i r =>
    if m.trace.spoilt.contains (m.lane, m.trace.first + i) then { r with valid := 0, vals := r.vals.map (fun _ => 0) } else r) m.trace.recs

/-- Whether the trace records. -/
def Mod.tracing (m : Mod) : Bool :=
  let s := m.traceSt
  s = traceArming || s = traceArmed || s = traceTriggered || s = traceRunning

/-- TRACE_ARM (R143): the buffer is cleared and recording starts; refused outside IDLE and DONE. -/
def Mod.traceArm (m : Mod) : Mod :=
  let st := if m.get Ob.traceMode = 1 then traceRunning else if m.preNow = 0 then traceArmed else traceArming
  let m1 := m.modTrace (fun _ => { seen := m.seenEv.length })
  ((((m1.put Ob.traceState st).put Ob.traceRecords 0).put Ob.triggerRecord 0).put Ob.triggerT0 0).put Ob.gapCount 0

/-- The trace stops: EV022, DONE; a single trace's records are numbered from 0 (R143). -/
def Mod.traceEnd (m : Mod) : Mod :=
  let m1 := if m.get Ob.traceMode = 1 then m else m.modTrace (fun t => { t with first := 0, spoilt := t.spoilt.map (fun p => (p.1, p.2 - t.first)) })
  (m1.put Ob.traceState traceDoneState).inform 22 (m.get Ob.traceRecords)

/-- TRACE_STOP: in any state but IDLE. -/
def Mod.traceStop (m : Mod) : Mod := if m.traceSt = traceIdle then m else m.traceEnd

/-- The PRE records are recorded: the trigger is evaluated from now on. -/
def Mod.tracePreFilled (m : Mod) : Mod :=
  if m.traceSt = traceArming && m.preNow ≤ m.trace.recs.length then
    (m.put Ob.traceState traceArmed).modTrace (fun t => { t with seen := m.seenEv.length })
  else m

/-- The records from the trigger record on are complete. -/
def Mod.traceDone (m : Mod) : Mod :=
  if m.traceSt = traceTriggered && m.depthNow - m.preNow ≤ m.trace.since then m.traceEnd else m

/-- The trigger fires in a tick whose t0 is `t0` (R142, R143): the record that follows is the trigger record. -/
def Mod.traceFire (t0 : Nat) (m : Mod) : Mod :=
  ((m.modTrace (fun t => { t with fire := true })).put Ob.triggerT0 t0)

/-- The last record held is the trigger record: EV021. -/
def Mod.markTrigger (m : Mod) : Mod :=
  let n := m.trace.recs.length
  if n = 0 then m
  else
    let m1 := m.modTrace (fun t => { t with
      recs := t.recs.modify (n - 1) (fun r => { r with flags := setBit r.flags 3 true }), fire := false, since := 1 })
    ((m1.put Ob.triggerRecord (n - 1)).put Ob.traceState traceTriggered).inform 21 (n - 1)

/-- Whether a node condition fires, with the sides of the level seen so far (R142). -/
def Mod.nodeTrigger (m : Mod) (v : Int) : Bool :=
  let lev := m.getS Ob.trigLevel
  let rising := m.trace.low && lev ≤ v
  let falling := m.trace.high && v ≤ lev
  match m.get Ob.trigSource with
  | 1 => rising
  | 2 => falling
  | 3 => rising || falling
  | 4 => v < lev || m.getS Ob.levelHigh < v
  | _ => false

/-- The sides of the level that the node has been on since arming. -/
def Mod.noteSides (v : Int) (m : Mod) : Mod :=
  let lev := m.getS Ob.trigLevel
  let h := m.getS Ob.hyst
  m.modTrace (fun t => { t with low := t.low || v ≤ lev - h, high := t.high || lev + h ≤ v })

/-- t0 of the present tick as a t64. -/
def Mod.tickT0 (m : Mod) : Nat := ((m.clk.taiBase + (m.clk.t0Ps / 1000 : Nat)) % 18446744073709551616).toNat

/-- The trigger of a tick, evaluated at its commit deadline (R142): node conditions skip an overrun tick. -/
def Mod.traceTrigger (overrun : Bool) (m : Mod) : Mod :=
  let st := m.traceSt
  let t0 := m.tickT0
  let v := m.nodeIn m.eng (m.get Ob.trigNode)
  let src := m.get Ob.trigSource
  let due := !m.trace.fire &&
    ((!overrun && m.nodeTrigger v)
     || (src = 6 && t0 ≤ m.get Ob.trigTime && m.get Ob.trigTime < t0 + m.tickPs / 1000)
     || (src = 7 && m.trace.injNow))
  let m1 := if st = traceArmed && due then m.traceFire t0 else m
  let m2 := if overrun then m1 else if st = traceArming || st = traceArmed then m1.noteSides v else m1
  m2.modTrace (fun t => { t with injNow := false })

/-- A ring that has overwritten records not yet streamed counts them, once an occurrence with EV023 (R143). -/
def Mod.traceGap (lost : Nat) (m : Mod) : Mod :=
  if lost = 0 then m
  else
    let n := (m.get Ob.gapCount + lost) % 4294967296
    ((m.put Ob.gapCount n).modTrace (fun t => { t with gap := true, sent := t.first })).raise 23 sevWarn 0x7001 n

/-- Keep a record (R143): before the trigger the last PRE, with the one before them to spare, after it up to DEPTH − PRE
from the trigger record on, in a ring the last DEPTH. -/
def Mod.keepRecord (r : TraceRec) (m : Mod) : Mod :=
  let st := m.traceSt
  let depth := m.depthNow
  let pre := m.preNow
  if st = traceTriggered then
    if m.trace.since < depth - pre then
      let m1 := m.modTrace (fun t => { t with recs := t.recs ++ [r], since := t.since + 1 })
      m1.put Ob.traceRecords m1.trace.recs.length
    else m
  else
    let cap := if st = traceRunning then depth else if m.trace.fire then pre + 1 else pre
    let all := m.trace.recs ++ [r]
    let cut := all.length - cap
    let m1 := m.modTrace (fun t => { t with
      recs := all.drop cut, first := t.first + cut, spare := if st = traceRunning then [] else (all.take cut).drop (cut - 1) })
    let lost := if st = traceRunning then m1.trace.first - m1.trace.sent else 0
    let m2 := (m1.put Ob.traceRecords m1.trace.recs.length).traceGap lost
    if m.trace.fire && st ≠ traceRunning then m2.markTrigger else m2

/-- The record of a tick, made at its commit deadline where TICK_COUNT mod DECIM = 0 (R141). -/
def Mod.traceRecord (overrun takeover : Bool) (m : Mod) : Mod :=
  let now := m.traceNodes.map (m.nodeIn m.eng)
  let nowOk := ((List.range (m.get Ob.nodeCount)).filter (fun i => m.nodeValid (m.get (Ob.traceNode i)))).foldl (fun a i => a + 2 ^ i) 0
  let old := overrun && !m.trace.last.isEmpty
  let vals := if old then m.trace.last else now
  let ok := if old then m.trace.lastOk else nowOk
  let dec := m.get Ob.decim
  let due := m.tracing && (dec = 0 || m.get Ob.tickCount % dec = 0)
  let m1 := m.traceTrigger overrun
  let m2 := if due then
      m1.keepRecord ⟨m.tickT0 % 4294967296, ok, m.get Ob.tickCount % 65536,
        b2n overrun + 2 * b2n takeover + 4 * b2n m.inj.run, vals⟩
    else m1
  m2.modTrace (fun t => { t with last := vals, lastOk := ok })

/-- The event trigger, judged as a boundary is reached (R142): the tick that ends is the trigger tick where TRIG_EVENT was raised
in it since arming; its own record, where it made one, is the trigger record. What is raised from now on belongs to the next tick.
DEDUCED, log entry 56. -/
def Mod.traceEvent (m : Mod) : Mod :=
  let seen := m.seenEv.take (m.seenEv.length - m.trace.seen)
  let m0 : Mod := ({ m with seenEv := [] } : Mod).modTrace (fun t => { t with seen := 0 })
  if m.traceSt = traceArmed && m.get Ob.trigSource = 5 && !m.trace.fire && seen.contains (m.get Ob.trigEvent) then
    let m1 := m0.traceFire m.tickT0
    let recs := m1.trace.spare ++ m1.trace.recs
    match recs.getLast? with
    | some r =>
      if r.tick = m.get Ob.tickCount % 65536 then
        ((m1.modTrace (fun t => { t with recs := recs, first := t.first - t.spare.length, spare := [] })).put Ob.traceRecords
          recs.length).markTrigger
      else m1
    | none   => m1
  else m0

/-- TRACE_FORCE takes effect (R142, R143): it fires where the state has a trigger to give; one that waits for its record stands.
DEDUCED, log entry 56. -/
def Mod.traceForce (m : Mod) : Mod :=
  if (m.traceSt = traceArming || m.traceSt = traceArmed) && !m.trace.fire then
    m.traceFire m.tickT0
  else m

/-! ### Injection -/

/-- The taps of a PRBS order (R149). -/
def prbsTaps (order : Nat) : List Nat :=
  match order with
  | 7  => [7, 6]
  | 8  => [8, 6, 5, 4]
  | 9  => [9, 5]
  | 10 => [10, 7]
  | 11 => [11, 9]
  | 12 => [12, 11, 10, 4]
  | 13 => [13, 12, 11, 8]
  | 14 => [14, 13, 12, 2]
  | 15 => [15, 14]
  | _  => []

/-- The next state of a Fibonacci register of an order: the stages shift up and stage 1 takes the taps' sum. -/
def prbsNext (order reg : Nat) : Nat :=
  let b := ((prbsTaps order).filter (fun t => bit reg (t - 1))).length % 2
  (reg * 2 + b) % 2 ^ order

/-- The step of the sweep's phase at a frequency (R147): round(f × T × 2^32). -/
def Mod.sweepStep (m : Mod) (p : Nat) : Nat :=
  let f := if m.get Ob.injPoints ≤ 1 then m.getF Ob.fStart
           else Sys2Proof.Machine.sweepFreq (m.getF Ob.fStart) (m.getF Ob.fStop) p (m.get Ob.injPoints)
  (f * m.tickS * 4294967296 + 1 / 2).floor.toNat

/-- Correlation ticks of a point (R147): M = round(MEAS / (f × T)) with f × T = Δθ / 2^32. -/
def Mod.sweepTicks (m : Mod) : Nat :=
  if m.inj.step = 0 then 0 else ((m.get Ob.injMeas : Rat) * 4294967296 / (m.inj.step : Nat) + 1 / 2).floor.toNat

/-- Ticks of a PRBS injection. -/
def Mod.prbsTicks (m : Mod) : Nat := (2 ^ m.get Ob.prbsOrder - 1) * m.get Ob.bitTicks * m.get Ob.injPeriods

/-- Whether the injection is past its last tick and only its end is outstanding. -/
def Mod.injFinished (m : Mod) : Bool :=
  if m.get Ob.injState = 3 then m.prbsTicks ≤ m.inj.ticks else m.get Ob.injPoints ≤ m.inj.point

/-- The generator's signal of the tick that starts (R146, R147, R149). DESIGN CHOICE, log entry 99. -/
def Mod.injAdvance (m : Mod) : Mod :=
  if !m.inj.run then (if m.inj.sig = 0 then m else m.modInj (fun i => { i with sig := 0 }))
  else if m.injFinished then m.modInj (fun i => { i with sig := 0 })
  else if m.get Ob.injState = 3 then
    let every := m.get Ob.bitTicks
    let shift := m.inj.ticks ≠ 0 && m.inj.ticks % (if every = 0 then 1 else every) = 0
    let reg := if shift then prbsNext (m.get Ob.prbsOrder) m.inj.reg else m.inj.reg
    let one := bit reg (m.get Ob.prbsOrder - 1)
    let a := m.getS Ob.injAmpl
    m.modInj (fun i => { i with reg := reg, sig := if one then a else -a, ticks := i.ticks + 1 })
  else
    let ang := (m.inj.ang + m.inj.step) % 4294967296
    m.modInj (fun i => { i with ang := ang, sig := mul29 (m.getS Ob.injAmpl) (cosQ29 ang), ticks := i.ticks + 1 })

/-- One measuring tick is captured (R147, R148). -/
def Mod.injCapture (m : Mod) : Mod :=
  if m.inj.run && m.get Ob.injState = 2 && !m.injFinished && m.inj.ticks ≤ m.sweepTicks then
    let c : Rat := pu (cosQ29 m.inj.ang)
    let s : Rat := pu (sinQ29 m.inj.ang)
    let a := pu (m.nodeIn m.eng (m.get Ob.captureA))
    let b := pu (m.nodeIn m.eng (m.get Ob.captureB))
    let f := (m.ctxAt (m.get Ob.injCtx)).flags
    let mark := if f % 8 ≠ 0 then 1
                else if bit f 4 || !m.nodeValid (m.get Ob.captureA) || !m.nodeValid (m.get Ob.captureB) then 2 else 0
    m.modInj (fun i => { i with
      aRe := i.aRe + a * c, aIm := i.aIm - a * s, bRe := i.bRe + b * c, bIm := i.bIm - b * s
      mark := if i.mark = 0 then mark else i.mark })
  else m

/-- A swap on the target marks the point being measured (R148). DEDUCED, log entry 39. -/
def Mod.injSwapped (n : Nat) (m : Mod) : Mod :=
  if m.inj.run && m.get Ob.injState = 2 && m.get Ob.injCtx = n && m.inj.mark = 0 then m.modInj (fun i => { i with mark := 4 })
  else m

/-- The sections and channels that the injection's target belongs to or acts on. -/
def Mod.injGroups (m : Mod) : List Nat := m.ctxAffects (m.get Ob.injCtx)

/-- Why INJ_RUN refuses a start (R149, R150): a status, or none. -/
def Mod.injRefusal (m : Mod) : Option Nat :=
  let prbs := m.get Ob.injType = 1
  if m.inj.run then some 0x12
  else if !(m.ctxAt (m.get Ob.injCtx)).on then some 0x12
  else if m.injGroups.any (fun g => g < 4 && (m.secAt g).idOn) then some 0x12
  else if prbs && !(m.traceSt = traceArmed && m.get Ob.trigSource = 7) then some 0x12
  else if prbs && (m.depthNow - m.preNow) * m.get Ob.decim < m.prbsTicks then some 0x11
  else none

/-- INJ_RUN starts (R147, R149, R151): every result object is cleared. -/
def Mod.injStart (seq : Nat) (m : Mod) : Mod :=
  let m1 := m.each (List.range 64) (fun p m =>
    ((((m.put (Ob.sweepFreq p) 0).put (Ob.sweepGain p) 0).put (Ob.sweepPhase p) 0).put (Ob.aAmpl p) 0).put (Ob.sweepValid p) 3)
  let prbs := m.get Ob.injType = 1
  let m2 := (m1.put Ob.injState (if prbs then 3 else 1)).put Ob.injPointNow 0
  (m2.modInj (fun _ => { run := true, seq := seq, reg := 2 ^ m.get Ob.prbsOrder - 1, step := m.sweepStep 0 })).modTrace
    (fun t => { t with injNow := true })

/-- The injection is over: the generator is idle. -/
def Mod.injIdle (m : Mod) : Mod :=
  (m.put Ob.injState 0).modInj (fun i => { i with run := false, sig := 0 })

/-- Points of a sweep that are finished. -/
def Mod.pointsDone (m : Mod) : Nat := if m.get Ob.injState = 3 then 0 else m.inj.point

/-- The injection is stopped: EV025; the points it finished stay (R150). -/
def Mod.injAbort (m : Mod) : Mod :=
  if m.inj.run then m.injIdle.raise 25 sevWarn 0x2410 (m.inj.seq + 65536 * m.pointsDone) else m

/-- Whether R150 stops the injection: a trip, a ride-through state other than normal, a transfer, a disabled target. -/
def Mod.injMustStop (m : Mod) : Bool :=
  m.inj.run && (!(m.ctxAt (m.get Ob.injCtx)).on ||
    m.injGroups.any (fun g => (m.grpAt g).latched || (g < 4 && (m.get (Ob.rtState g) ≠ 0 || (m.secAt g).transfer))))

/-- The settling periods of a point have run (R147). -/
def Mod.sweepSettled (m : Mod) : Mod :=
  if m.inj.run && m.get Ob.injState = 1 && m.get Ob.injSettle * 4294967296 ≤ m.inj.ticks * m.inj.step then
    (m.put Ob.injState 2).modInj (fun i => { i with ticks := 0, aRe := 0, aIm := 0, bRe := 0, bIm := 0, mark := 0 })
  else m

/-- The results of a point (R147, R151); a response of magnitude 0 at CAPTURE_A leaves H without a stated value.
DESIGN CHOICE, log entry 52. -/
def Mod.storePoint (m : Mod) : Mod :=
  let p := m.inj.point
  let i := m.inj
  let mm : Rat := (m.sweepTicks : Nat)
  let a2 := i.aRe * i.aRe + i.aIm * i.aIm
  let b2 := i.bRe * i.bRe + i.bIm * i.bIm
  let m1 := ((m.putF (Ob.sweepFreq p) ((i.step : Nat) / (4294967296 * m.tickS))).put (Ob.sweepValid p) i.mark).putF (Ob.aAmpl p)
    (if mm = 0 then 0 else sqrtExact a2 * 2 / mm)
  if a2 = 0 then
    let d1 := m1.drawNat
    let d2 := d1.2.drawNat
    (d2.2.put (Ob.sweepGain p) (d1.1 % 4294967296)).put (Ob.sweepPhase p) (d2.1 % 4294967296)
  else
    (m1.putF (Ob.sweepGain p) (sqrtExact (b2 / a2))).putF (Ob.sweepPhase p)
      (Sys2Proof.Machine.angleDeg (i.bRe * i.aRe + i.bIm * i.aIm) (i.bIm * i.aRe - i.bRe * i.aIm))

/-- The measuring ticks of a point end (R147): its results are stored and the next point starts, the phase going on. -/
def Mod.sweepMeasured (m : Mod) : Mod :=
  if m.inj.run && m.get Ob.injState = 2 && !m.injFinished && m.sweepTicks ≤ m.inj.ticks then
    let m1 := m.storePoint
    let p := m.inj.point + 1
    let m2 := m1.modInj (fun i => { i with point := p, ticks := 0, step := m1.sweepStep p })
    if m.get Ob.injPoints ≤ p then m2 else (m2.put Ob.injState 1).put Ob.injPointNow p
  else m

/-- The sweep or the PRBS periods finish: EV024 (R150). -/
def Mod.injDone (m : Mod) : Mod :=
  if m.inj.run && m.injFinished then m.injIdle.inform 24 m.inj.seq else m

/-! ### The commands of this chapter without a frame -/

/-- NOTCH_UPDATE. -/
def execNotchUpdate (s : State) : Host.Outcome State Fault Refusal := onMod s s.m.notchUpdate
/-- TRACE_PRE_FILLED. -/
def execTracePreFilled (s : State) : Host.Outcome State Fault Refusal := onMod s s.m.tracePreFilled
/-- TRACE_DONE. -/
def execTraceDone (s : State) : Host.Outcome State Fault Refusal := onMod s s.m.traceDone
/-- SWEEP_SETTLED. -/
def execSweepSettled (s : State) : Host.Outcome State Fault Refusal := onMod s s.m.sweepSettled
/-- SWEEP_POINT_MEASURED. -/
def execSweepPointMeasured (s : State) : Host.Outcome State Fault Refusal := onMod s s.m.sweepMeasured
/-- INJECTION_DONE. -/
def execInjectionDone (s : State) : Host.Outcome State Fault Refusal := onMod s s.m.injDone

end Sys2Proof.Machine
end

