-- ==== Sys2Proof/Machine/Start.lean ====
section
/-!
DEFINITION. What a start of a section or a DC channel needs (R86, R89, R99, R119, R153, R209, R243, R252, R300, R314,
R516), the defaults and the routing that a start writes (R154, R196, R210, R267), and the enabling of the contexts.
-/
namespace Sys2Proof.Machine

/-! ### Conditions of every start -/

/-- The per-unit base of a channel (R89). DESIGN CHOICE, log entry 95. -/
def Mod.chBase (m : Mod) (n : Nat) : Rat :=
  let s := ((List.range 4).find? (fun s => bit (m.owners n) s)).getD 0
  let c := ((List.range 4).find? (fun c => bit (m.owners n) (4 + c))).getD 0
  match m.get (Ob.role n) with
  | 1 => m.iBase s
  | 2 => m.vBase s
  | 3 => m.vBase s
  | 4 => m.linkBaseOf n
  | 5 => m.linkBaseOf n
  | 6 => m.linkBaseOf n
  | 7 => m.iBaseDc c
  | 8 => m.getF (Ob.vDcBase c)
  | 9 => m.getF (Ob.fsPhys n)
  | _ => 0

/-- Whether a channel breaks the second rule of R99. -/
def Mod.focRuleBroken (m : Mod) (n : Nat) : Bool :=
  let r := m.get (Ob.role n)
  let b := m.chBase n
  (r = 1 || r = 4 || r = 5 || r = 6 || r = 7) && m.get (Ob.focEn n) = 1
    && (b = 0 || 95 / 100 * m.getF (Ob.fsPhys n) / b < pu (m.getS (Ob.focTrip n)))

/-- The channels of a unit. -/
def Mod.ownChans (m : Mod) (g : Nat) : List Nat :=
  (List.range 24).filter (fun n => m.get (Ob.role n) ≠ 0 && bit (m.owners n) g)

/-- Whether an entry belongs to a unit: to its own objects, its pairs, its channels, its contexts, or the module.
DESIGN CHOICE, log entry 84. -/
def Mod.usesEntry (m : Mod) (g key : Nat) : Bool :=
  let i := key / 256
  if 0x3000 ≤ i && i < 0x3500 then g < 4 && i % 4 = g
  else if 0x3500 ≤ i && i < 0x3600 then 4 ≤ g && i % 4 = g - 4
  else if 0x3700 ≤ i && i < 0x3780 then g < 4 && i % 4 = g
  else if 0x1020 ≤ i && i < 0x1028 then g < 4 && i = 0x1020 + g
  else if 0x1028 ≤ i && i < 0x1030 then i + 4 = 0x1028 + g
  else if 0x4010 ≤ i && i < 0x4018 then i = 0x4010 + g
  else if 0x4040 ≤ i && i < 0x4060 then (m.groupPairs g).contains (i - 0x4040)
  else if 0x2000 ≤ i && i < 0x2060 then (m.ownChans g).contains ((i - 0x2000) % 32)
  else if 0x2400 ≤ i && i < 0x2600 then ctxGroup ((i - 0x2400) % 256) = some g
  else i = 0x1200 || i = 0x4000 || (0x4401 ≤ i && i ≤ 0x4404) || i = 0x4A01 || i = 0x4A02

/-- Whether the unit's block of contexts has a number enabled as an additional context (R119). -/
def Mod.blockTaken (m : Mod) (g : Nat) : Bool :=
  (List.range (ctxCount g)).any (fun k => m.isAdditional (ctxBlock g + k))

/-- Whether a unit regulates its link (R209). -/
def Mod.regulates (m : Mod) (g : Nat) : Bool :=
  if g < 4 then m.get (Ob.linkReg g) = 1 else m.get (Ob.dcMode (g - 4)) = 2 && m.get (Ob.batCtrl (g - 4)) = 1

/-- Whether a unit runs only while its link has a regulator. -/
def Mod.needsRegulator (m : Mod) (g : Nat) : Bool :=
  4 ≤ g && (m.get (Ob.dcMode (g - 4)) = 1 || (m.get (Ob.dcMode (g - 4)) = 2 && m.get (Ob.batCtrl (g - 4)) = 0))

/-- Units that run on the link of a unit: in any state but REST and STOPPING. -/
def Mod.linkRunning (m : Mod) (g : Nat) : List Nat :=
  (List.range 8).filter (fun k => m.running k && m.linkId k = m.linkId g && !(m.linkId g).isEmpty)

/-- Whether a set of running units is one that R209 allows. -/
def Mod.linkOk (m : Mod) (units : List Nat) : Bool :=
  let regs := (units.filter m.regulates).length
  regs ≤ 1 && (regs = 1 || !(units.any m.needsRegulator))

/-- What R86, R99, R119, R209, R300, R314 and R516 ask of a start. DESIGN CHOICE, log entry 84. -/
def Mod.startBlocked (m : Mod) (g : Nat) : Bool :=
  !m.inUse g || (m.grpAt g).latched || m.retired 1 g || m.blockTaken g
  || (m.ownChans g).any (fun n => m.get (Ob.mclkFreq (m.get (Ob.mclkSrc n))) = 255 || m.focRuleBroken n)
  || m.lost.any (m.usesEntry g)
  || !m.linkOk (g :: (m.linkRunning g).filter (· ≠ g))

/-- Whether both halves of the link are measured. -/
def Mod.hasHalves (m : Mod) (g : Nat) : Bool := !(m.assigned g 5).isEmpty && !(m.assigned g 6).isEmpty

/-- The channels of R153 and R252. -/
def Mod.sectionChannels (m : Mod) (s : Nat) : Bool :=
  m.hasPhases s 1 && m.hasPhases s 2 && m.hasPhases s 3 && (!(m.assigned s 4).isEmpty || m.hasHalves s)
  && (!m.threeLevel s || m.hasHalves s)

/-- Whether the profile's rated frequency admits the section (R243). -/
def Mod.profileAdmits (m : Mod) (s : Nat) : Bool :=
  let f := m.getF (Ob.fRated s)
  match m.get Ob.profileFRated with
  | 1 => f = 50
  | 2 => f = 60
  | _ => true

/-! ### What a start writes -/

/-- A default of a cascade entry, where the host has not written the entry. DEDUCED, log entry 82. -/
def Mod.dflt (k v : Nat) (m : Mod) : Mod := if m.hostSet.contains k then m else m.put k v
def Mod.dfltF (k : Nat) (v : Rat) (m : Mod) : Mod := m.dflt k (f32Raw v)
def Mod.dfltQ (k : Nat) (v : Rat) (m : Mod) : Mod := m.dflt k (Raw.ofInt 32 (q29Of v))

/-- Routing and defaults of one position: REF_SRC, FB_SRC, KP, KI, OUT_MIN, OUT_MAX. -/
def Mod.position (n ref fb : Nat) (kp ki lo hi : Rat) (m : Mod) : Mod :=
  (((((m.put (Ob.refSrc n) ref).put (Ob.fbSrc n) fb).dfltF (Ob.ctxKp n) kp).dfltF (Ob.ctxKi n) ki).dfltQ (Ob.outMin n) lo).dfltQ
    (Ob.outMax n) hi

/-- The notch defaults of R154. -/
def Mod.notchDefault (n s : Nat) (m : Mod) : Mod :=
  ((((m.dflt (Ob.notchPos n) 1).dflt (Ob.notchTrack n) (1 + s)).dflt (Ob.notchHarm n) 2).dfltF (Ob.notchDepth n) 40).dfltF
    (Ob.notchWidth n) (3 / 10)

/-- Routing and defaults of the positions that both AC modes share (R154, R196, R267). DEDUCED, log entry 82. -/
def Mod.acShared (s : Nat) (m : Mod) : Mod :=
  let b := 24 * s
  let j := 0x400 + 0x40 * s
  let m1 := (((((m.position (b + 3) (j + 0x23) (j + 0x15) 2 20 (-1) 1).position (b + 10) (0x100 + b + 6) (j + 0x0B) 2 50 (-3 / 10)
    (3 / 10)).position (b + 11) (0x100 + b + 7) (j + 0x0C) 2 50 (-3 / 10) (3 / 10)).position (b + 12) 0 (j + 0x1A) 2 1 (-4 / 1000)
    (4 / 1000)).position (b + 14) 0 (j + 0x1B) 0 5 (-1 / 10) (1 / 10))
  let m2 := m1.each [b + 8, b + 9, b + 10, b + 11] (fun n m => m.notchDefault n s)
  if m.threeLevel s then
    m2.position (b + 13) (0x200 + (m.assigned s 6).headD 0) (0x200 + (m.assigned s 5).headD 0) (1 / 2) 20 (-5 / 100) (5 / 100)
  else m2

/-- Routing of a section in grid-forming operation (R154). DEDUCED, log entry 82. -/
def Mod.formRouting (s : Nat) (m : Mod) : Mod :=
  let b := 24 * s
  let j := 0x400 + 0x40 * s
  let m1 := ((((m.acShared s).position b 0 (j + 0x21) 0 0 (-1 / 10) (1 / 10)).position (b + 1) 0 (j + 0x22) 0 0 (-1 / 10)
    (1 / 10)).position (b + 2) (j + 0x19) (j + 0x1F) 0 10 (-1 / 10) (1 / 10))
  let m2 := (((m1.position (b + 4) 0 (j + 0x0D) 1 200 (-1) 1).position (b + 5) 0 (j + 0x0E) 1 200 (-1) 1).position (b + 6) 0
    (j + 0x0F) (1 / 2) 100 (-2 / 10) (2 / 10)).position (b + 7) 0 (j + 0x10) (1 / 2) 100 (-2 / 10) (2 / 10)
  let m3 := (m2.position (b + 8) (0x104 + b) (j + 0x09) 2 50 (-12 / 10) (12 / 10)).position (b + 9) (0x105 + b) (j + 0x0A) 2 50
    (-12 / 10) (12 / 10)
  m3.each [b + 4, b + 5, b + 6, b + 7] (fun n m => m.notchDefault n s)

/-- Routing of a section in grid-following operation (R196). DEDUCED, log entry 82. -/
def Mod.followRouting (s : Nat) (m : Mod) : Mod :=
  let b := 24 * s
  let j := 0x400 + 0x40 * s
  let m1 := ((m.acShared s).position b (j + 0x24) (j + 0x13) (2 / 10) 20 (-1) 1).position (b + 1) (j + 0x25) (j + 0x14) (2 / 10) 20 (-1) 1
  let m2 := (m1.position (b + 8) (0x100 + b) (j + 0x09) 2 50 (-12 / 10) (12 / 10)).position (b + 9) (0x101 + b) (j + 0x0A) 2 50
    (-12 / 10) (12 / 10)
  (m2.put (Ob.refSrc (b + 10)) 0).put (Ob.refSrc (b + 11)) 0

/-- Routing and defaults of a DC channel (R210). DEDUCED, log entry 82. -/
def Mod.dcRouting (c : Nat) (m : Mod) : Mod :=
  let b := 96 + 6 * c
  let j := 0x500 + 0x10 * c
  let pv := m.get (Ob.dcMode c) = 1
  let reg := m.get (Ob.batCtrl c) = 1
  let m1 := if pv then m.position b (j + 1) (j + 4) 2 100 0 1 else m.position b (j + 1) (j + 0xA) 2 100 0 1
  let m2 := if !pv && reg then m1.position (b + 1) (j + 6) (j + 2) 5 200 (-1) 1 else m1.position (b + 1) (j + 7) (j + 2) 5 200 0 1
  let m3 := ((m2.position (b + 2) (j + 9) (j + 1) 5 100 0 1).position (b + 3) (j + 0xB) j (1 / 2) 500 0 1).position (b + 4) 0 j
    (2 / 10) 100 (-1 / 10) (1 / 10)
  m3.position (b + 5) (j + 2) (j + 8) 5 200 0 1

/-- Enable a list of contexts afresh. -/
def Mod.enableAll (l : List Nat) (m : Mod) : Mod := m.each l Mod.enableCtx

/-- The signals that belong to the mode read 0 until the mode publishes them. -/
def Mod.clearModeSignals (s : Nat) (m : Mod) : Mod := m.sigs s 0x19 (List.replicate 39 0)

/-- Enable the contexts of grid forming (R154): positions 12 and 14 only for PRESYNC, 3 only with LINK_REG, 13 only in
three-level topologies. -/
def Mod.enableForming (s : Nat) (presync : Bool) (m : Mod) : Mod :=
  let b := 24 * s
  let m1 := (m.formRouting s).clearModeSignals s
  m1.enableAll ([b, b + 1, b + 2] ++ (if m.get (Ob.linkReg s) = 1 then [b + 3] else [])
    ++ (List.range 8).map (fun k => b + 4 + k) ++ (if presync then [b + 12, b + 14] else [])
    ++ (if m.threeLevel s then [b + 13] else []))

/-- Enable the contexts of a DC channel (R210). -/
def Mod.enableDc (c : Nat) (m : Mod) : Mod :=
  let b := 96 + 6 * c
  let pv := m.get (Ob.dcMode c) = 1
  let reg := m.get (Ob.batCtrl c) = 1
  m.enableAll ([b, b + 1, b + 3] ++ (if pv then [] else [b + 2]) ++ (if m.balanced c then [b + 4] else [])
    ++ (if pv || reg then [] else [b + 5]))

end Sys2Proof.Machine
end

