-- ==== Sys2Proof/Machine/Gf.lean ====
section
/-!
DEFINITION. The sequences of a section (R162 to R179, R199, R200), impedance identification (R180 to R185, R201) and
islanding detection (R202 to R206).
-/
namespace Sys2Proof.Machine

/-! ### The bus (R162, R169, R223) -/

/-- Whether the grid-side channels of a section are all valid. -/
def Mod.gridValid (m : Mod) (s : Nat) : Bool := (m.roleChans s 3).all (fun n => m.eng.valid.getD n false)

/-- Whether the bus is dead in this tick. -/
def Mod.busDead (m : Mod) (s : Nat) : Bool := m.gridValid s && m.getS (Ob.vPos s) < m.getS (Ob.deadLevel s)

/-- Whether the grid is normal in this tick (R223). -/
def Mod.gridNormal (m : Mod) (s : Nat) : Bool :=
  m.getS (Ob.normVLow s) ≤ m.getS (Ob.vPhLow s) && m.getS (Ob.vPhHigh s) ≤ m.getS (Ob.normVHigh s)
  && m.getS (Ob.normFLow s) ≤ m.getS (Ob.gridFreq s) && m.getS (Ob.gridFreq s) ≤ m.getS (Ob.normFHigh s)
  && m.get (Ob.angleValid s) = 1

/-- BS_OUTCOME with EV066. DEDUCED, log entry 54. -/
def Mod.bsOutcome (s v : Nat) (m : Mod) : Mod := (m.put (Ob.bsOutcome s) v).inform 66 (v + 65536 * s)

/-- EV067: a sequence has failed with a code (R192). -/
def Mod.seqFailed (s code : Nat) (m : Mod) : Mod :=
  (m.modSec s (fun x => { x with failCode := code })).raise 67 sevWarn code (65536 * s)

/-- A section enters DELAY (R170): the delay runs while the grid is normal. -/
def Mod.toDelay (s : Nat) (m : Mod) : Mod :=
  ((m.modSec s (fun x => { x with
    confirmPs := none, backoffPs := none, backed := false, toDelay := false, stopEndPs := none, noRamps := false
    zeroRefs := false, follow := false, isl := false, islNow := false
    delayPs := if m.gridNormal s then some m.now else none })).gfTo s gfDelay)

/-- The bus is live before this section has energised it (R162, R166): it joins. DEDUCED, log entry 54. -/
def Mod.joins (s outcome : Nat) (m : Mod) : Mod :=
  (((m.unask s).modSec s (fun x => { x with joining := true })).bsOutcome s outcome).toDelay s

/-- Request connection (R162). -/
def Mod.request (s new : Nat) (m : Mod) : Mod :=
  (m.modSec s (fun x => { x with ask := true, closePs := some m.now, holdPs := none })).gfTo s new

/-- The bus is live: V_POS has stood at DEAD_LEVEL or above for 5 ms, or a grid-side channel is invalid. -/
def Mod.busLive (s : Nat) (m : Mod) : Mod :=
  let st := m.gf s
  let m1 := m.modSec s (fun x => { x with live := true })
  if st = gfDeadWait || st = gfBackoff then m1.joins s 2
  else if st = gfClosingDead && !(m.sdcSt = sdcClosed && m.bothClosed) then m1.joins s 3
  else m1

/-- V_POS has stood at DEAD_LEVEL or above for 5 ms (R162); without a tick at it there is no such event. -/
def Mod.busTurnsLive (s : Nat) (m : Mod) : Mod :=
  match (m.secAt s).livePs with
  | some t => (m.reach (t + msPs 5)).busLive s
  | none   => m

/-- Start of a section (R153, R162, R164, R199, R516): a status (03h answered QUEUED, 12h BAD_STATE).
DEDUCED, log entry 41. -/
def Mod.gfStart (s seq : Nat) (m : Mod) : Mod × Nat :=
  let follow := m.get (Ob.opMode s) = 2
  let dead := m.busDead s
  if m.gf s ≠ gfRest || m.startBlocked s || !m.sectionChannels s || !m.profileAdmits s
      || (dead && (follow || m.get (Ob.startKind s) = 0)) then (m, 0x12)
  else
    let m1 := if m.faultState 1 s = 3 then m.put (Ob.unitFaultState s) 0 else m
    let m2 := ((m1.modSec s (fun x => { x with
      fleet := m.fleetNow, start := some seq, joining := false, failCode := 0, inrushHit := false, fromDead := false, reconnect := false })).put
      (Ob.bsOutcome s) 0).loadMap s |>.formRouting s
    (if dead then (m2.modSec s (fun x => { x with confirmPs := some m.now })).gfTo s gfDeadWait else m2.toDelay s, 3)

/-- Stop of a section at the host's command (R163, R164). DEDUCED, log entry 55. -/
def Mod.gfStop (s : Nat) (m : Mod) : Mod :=
  if m.gf s = gfRest || m.gf s = gfStopping then m else m.gfStopNow s false

/-! ### Timers of the sequence -/

/-- DEAD_CONFIRM has passed with the bus dead: the backoff is drawn (R165). -/
def Mod.deadConfirmed (s : Nat) (m : Mod) : Mod :=
  if m.gf s = gfDeadWait && (m.secAt s).confirmPs.isSome then
    let d := (m.reach ((m.secAt s).confirmPs.getD 0 + msPs (m.get (Ob.deadConfirm s)))).drawRandom
    let slots := m.get (Ob.bsSlots s)
    let ms := m.get (Ob.bsSlot s) * ((m.secAt s).fleet % (if slots = 0 then 1 else slots)) + d.1 % (m.get (Ob.bsJitter s) + 1)
    ((d.2.put (Ob.backoffMs s) (ms % 65536)).modSec s (fun x => { x with
      confirmPs := none, backoffPs := some (d.2.now + msPs ms), backed := false })).gfTo s gfBackoff
  else m

/-- The backoff expires: with the bus dead the section requests connection, otherwise it waits (R162). -/
def Mod.backoffExpires (s : Nat) (m : Mod) : Mod :=
  if m.gf s = gfBackoff then
    let m1 := (m.reach ((m.secAt s).backoffPs.getD 0)).modSec s (fun x => { x with backed := true, backoffPs := none })
    if m.busDead s then m1.request s gfClosingDead else if (m.secAt s).live then m1.joins s 2 else m1
  else m

/-- CLOSE_TIMEOUT expires before both relays close. -/
def Mod.closeTimeout (s : Nat) (m : Mod) : Mod :=
  if m.gf s = gfClosingDead || m.gf s = gfClosingLive then
    (((m.reach ((m.secAt s).closePs.getD 0 + msPs (m.get (Ob.closeTimeout s)))).unask s).seqFailed s 0x3002).gfToRest s 0x3002 else m

/-- r2 has reached E_target in RAMP (R162, R167). -/
def Mod.rampComplete (s : Nat) (m : Mod) : Mod :=
  if m.gf s = gfRamp && (m.ctxAt (24 * s + 2)).r = m.eng.signal s 0x19 then
    (((m.modSec s (fun x => { x with rampPs := none })).bsOutcome s (if (m.secAt s).fromDead then 1 else 2)).gfTo s
      gfForming).gfStartEnd s false 0
  else m

/-- 4 × BS_RAMP_TIME in ps. -/
def Mod.rampLimitPs (m : Mod) (s : Nat) : Nat := (m.getF (Ob.bsRampTime s) * 4000000000000).floor.toNat

/-- 4 × BS_RAMP_TIME has passed in RAMP. -/
def Mod.rampTimeout (s : Nat) (m : Mod) : Mod :=
  if m.gf s = gfRamp then ((m.reach ((m.secAt s).rampPs.getD 0 + m.rampLimitPs s)).seqFailed s 0x3003).gfStopNow s false else m

/-- The enter-service delay in ps: BS_JOIN_DELAY for a section marked joining, otherwise RECONNECT_DELAY (R170). -/
def Mod.enterServicePs (m : Mod) (s : Nat) : Nat :=
  if (m.secAt s).joining then msPs (m.get (Ob.bsJoinDelay s)) else sPs (m.get (Ob.reconnectDelay s))

/-- The enter-service delay ends: PWM starts at the next carrier boundary with the relays open (R171). -/
def Mod.delayEnds (s : Nat) (m : Mod) : Mod :=
  if m.gf s = gfDelay && (m.secAt s).delayPs.isSome && m.gridNormal s then
    let m0 := m.reach ((m.secAt s).delayPs.getD 0 + m.enterServicePs s)
    (((m0.enableForming s true).modSec s (fun x => { x with
      delayPs := none, fresh := true, holdPs := none, follow := false
      syncEndPs := some (m0.now + sPs (m.get (Ob.syncTimeout s))) })).modGrp s (fun g => { g with starting := true })).gfTo s gfPresync
  else m

/-- The windows have held for SYNC_HOLD. -/
def Mod.syncHeld (s : Nat) (m : Mod) : Mod :=
  if m.gf s = gfPresync && (m.secAt s).holdPs.isSome then
    ((m.reach ((m.secAt s).holdPs.getD 0 + msPs (m.get (Ob.syncHold s)))).putBit (Ob.syncFlags s) 4 true).request s gfClosingLive
  else m

/-- SYNC_TIMEOUT expires in PRESYNC. -/
def Mod.syncExpires (s : Nat) (m : Mod) : Mod :=
  if m.gf s = gfPresync then ((m.reach ((m.secAt s).syncEndPs.getD 0)).seqFailed s 0x3001).gfToRest s 0x3001 else m

/-- Since when abs(P) and abs(Q) have both been at most 0.02 pu, from a tick's samples (R163). -/
def Mod.watchPower (s : Nat) (m : Mod) : Mod :=
  m.modSec s (fun x => { x with
    lowPs := if absI x.pMeas * 50 ≤ one29 && absI x.qMeas * 50 ≤ one29 then some (x.lowPs.getD m.now) else none })

/-- The instant of step 2 of a stop (R163): P and Q small for 20 ms, or 10 s after the stop. -/
def Mod.stopLowPs (m : Mod) (s end10 : Nat) : Nat :=
  match (m.secAt s).lowPs with
  | some t => min (t + msPs 20) end10
  | none   => end10

/-- Step 2 of a stop (R163): the section withdraws its request. -/
def Mod.stopLow (s : Nat) (m : Mod) : Mod :=
  match (m.secAt s).stopEndPs with
  | some e =>
    if m.gf s = gfStopping then ((m.reach (m.stopLowPs s e)).unask s).modSec s (fun x => { x with stopEndPs := none }) else m
  | none   => m

/-- The end of a stop: REST, or DELAY after a grid event. -/
def Mod.stopEnds (s : Nat) (m : Mod) : Mod :=
  if (m.secAt s).toDelay then ((m.stopCtx s).pwmOff s).toDelay s else m.gfToRest s 0

/-- Step 3 of a stop: with both mirror contacts open PWM goes off at the next carrier boundary. -/
def Mod.stopDone (s : Nat) (m : Mod) : Mod :=
  if m.gf s = gfStopping && (m.secAt s).stopEndPs.isNone && m.bothOpen then
    if (m.grpAt s).on then m.modGrp s (fun g => { g with stopping := true }) else m.stopEnds s
  else m

/-! ### Synchronisation windows (R172) -/

/-- The windows of a tick with SYNC_FLAGS and DELTA_PHI, the first tick of PRESYNC among them, whose dw is the grid's; a failure restarts SYNC_HOLD, and in CLOSING_LIVE withdraws
the request. -/
def Mod.syncWindows (s : Nat) (x : SecMeas) (m : Mod) : Mod :=
  if m.gf s = gfPresync || m.gf s = gfClosingLive then
    let v := m.vsmAt s
    let f := m.getF (Ob.fRated s)
    let d := angDiff x.convPos.ang x.gridPos.ang
    let dv := x.convPos.mag - m.getS (Ob.vPos s)
    let dw := if (m.secAt s).fresh then m.gridDw s else v.dw
    let okF := absR (pu dw * f - (m.getS (Ob.gridFreq s) : Rat) / 1000000) ≤ m.getF (Ob.syncDf s)
    let okP := absR (degOf d) ≤ m.getF (Ob.syncDphi s)
    let okV := absI dv ≤ m.getS (Ob.syncDv s)
    let okG := m.gridNormal s
    let all := okF && okP && okV && okG
    let m1 := (m.put (Ob.syncFlags s) (syncFlagsOf okF okP okV okG (m.gf s = gfClosingLive && all))).putF (Ob.deltaPhi s) (degOf d)
    if m.gf s = gfPresync then
      m1.modSec s (fun y => { y with holdPs := if all then some (y.holdPs.getD m.now) else none })
    else if all || (m.sdcSt = sdcClosed && m.bothClosed) then m1
    else ((m1.unask s).modSec s (fun y => { y with holdPs := none })).gfTo s gfPresync
  else m

/-- What a section's supervision reads from a tick's samples: the dead and the live bus, the enter-service delay, and
the windows (R162, R166, R170, R172). -/
def Mod.watchBus (s : Nat) (x : SecMeas) (m : Mod) : Mod :=
  let low := m.getS (Ob.vPos s) < m.getS (Ob.deadLevel s)
  let ok := m.gridValid s
  let m1 := m.modSec s (fun y => { y with
    live := if ok && low then false else y.live
    livePs := if ok && low then none else some (y.livePs.getD m.now) })
  let m2 := if !ok && m1.gf s ≠ gfRest then m1.busLive s else m1
  let st := m2.gf s
  if st = gfDeadWait then
    m2.modSec s (fun y => { y with confirmPs := if low then some (y.confirmPs.getD m.now) else none })
  else if st = gfBackoff && (m2.secAt s).backed && low then m2.request s gfClosingDead
  else if st = gfDelay then
    m2.modSec s (fun y => { y with delayPs := if m2.gridNormal s then some (y.delayPs.getD m.now) else none })
  else m2.syncWindows s x

/-! ### Closing and transfers (R167, R173, R176, R177) -/

/-- The phase of a cosine at F_RATED that is zero at every whole TAI second. DEDUCED, log entry 46. -/
def Mod.taiPhase (m : Mod) (s : Nat) : Nat :=
  angOfTurns (m.getF (Ob.fRated s) * ((m.tai % 1000000000 : Int) : Rat) / 1000000000)

/-- RAMP starts at the boundary (R167). -/
def Mod.rampStart (s : Nat) (m : Mod) : Mod :=
  let dead := m.busDead s
  let set := q29Of (m.dwSet s)
  let m1 := (m.enableForming s false).modVsm s (fun v =>
    if dead then { v with theta := m.taiPhase s, dw := set, dwLp := set, dwRem := 0, lpRem := 0, pRef := 0, limited := false, viAdd := 0 }
    else { v with theta := m.get (Ob.gridPhase s), dw := m.gridDw s, dwLp := m.gridDw s, dwRem := 0, lpRem := 0, pRef := 0
                  limited := false, viAdd := 0 })
  let m2 := (m1.modCtx (24 * s + 2) (fun c => { c with r := if dead then 0 else m.getS (Ob.vPos s), s := 0 })).modSec s
    (fun x => { x with fromDead := dead, closePs := none, inrushHit := false, follow := false, rampPs := some m.now })
  (m2.pwmStart false s).gfTo s gfRamp

/-- The machine resumes at the closing onto a live grid (R173). -/
def Mod.joinGrid (s : Nat) (m : Mod) : Mod :=
  let v14 := (m.ctxAt (24 * s + 14)).v
  let x := m.secAt s
  ((((m.modVsm s (fun v => { v with
    dwLp := v.dw, lpRem := v.dwRem, pRef := x.pMeas, qRef := x.qMeas })).modCtx (24 * s + 2) (fun c => { c with
    r := sat29 (c.r - v14), i := sat29 (c.i + v14), v := sat29 (c.v + v14) })).disableCtx (24 * s + 12)).dropCtx
    (24 * s + 14)).modSec s (fun x => { x with reconnect := true, closePs := none })

/-- Transfer to grid-following (R176): the outputs of positions 0, 1 and 12 start from the references and the speed in force. -/
def Mod.toFollowing (s : Nat) (m : Mod) : Mod :=
  let b := 24 * s
  let v := m.vsmAt s
  let g (j : Nat) : Int := m.eng.signal s j
  let m1 := (((m.followRouting s).clearModeSignals s).modSec s (fun x => { x with follow := true, weak := false })).takePll s
  let d := m1.pqDemands s (g 0x1F)
  let vd := maxR (pu (g 0x0D)) (1 / 10)
  let ff (x : Int) : Int := q29Of (pu x * recipR vd)
  let m2 := (m1.presetCtx (m1.coef b) b d.1 (g 0x13) (ff d.1) (v.refs.getD 0 0)).presetCtx (m1.coef (b + 1)) (b + 1) d.2 (g 0x14)
    (ff d.2) (v.refs.getD 1 0)
  let m3 := (m2.enableCtx (b + 12)).modCtx (b + 12) (fun c => { c with centre := some (2 * m.gridHz s), r := 0 })
  let m4 := m3.backCalc (m3.pllCoef s) (b + 12) 0 (syncError (g 0x0D) (g 0x0E)) 0 v.dw
  ((m4.each [b + 2, b + 4, b + 5, b + 6, b + 7] Mod.disableCtx).dropCtx (b + 14)).gfTo s gfFollowing

/-- Transfer to grid-forming (R177): the outputs of positions 4 to 7 start from the references in force. -/
def Mod.toForming (s : Nat) (m : Mod) : Mod :=
  let b := 24 * s
  let v := m.vsmAt s
  let g (j : Nat) : Rat := (m.eng.signal s j : Int)
  let dw := (m.ctxAt (b + 12)).v
  let r2 := q29OfLsb (g 0x0D + m.getF (Ob.rvPos s) * g 9 - m.xvEff s * g 0xA)
  let u3 := if m.get (Ob.linkReg s) = 1 then (m.ctxAt (b + 3)).v else 0
  let p := q29Of (pu (m.secAt s).pMeas + (pu dw - m.dwSet s) * 100 / m.getF (Ob.pfDroop s) + pu u3)
  let q := (m.secAt s).qMeas
  let m1 := ((m.formRouting s).clearModeSignals s).modSec s (fun x => { x with follow := false, weak := false, reconnect := false })
  let m2 := (m1.enableAll [b, b + 1, b + 2]).modVsm s (fun v => { v with
    dw := dw, dwLp := dw, dwRem := 0, lpRem := 0, pRef := p, qRef := q, qF := q, limited := false, viAdd := 0, rvAdd := 0 })
  let m3 := m2.modCtx (b + 2) (fun c => { c with r := r2, i := 0, v := 0 })
  let w := 1 + pu dw
  let c := m.getF (Ob.filterC s)
  let ff (j : Nat) (sign : Rat) : Int := q29OfLsb (sign * w * c * g j)
  let target := m3.voltageRefs s
  let set (k j : Nat) (f : Int) (m : Mod) : Mod :=
    m.presetCtx (m.coef (b + 4 + k)) (b + 4 + k) (target.getD k 0) (m.eng.signal s j) f (v.refs.getD k 0)
  let m4 := (((m3 |> set 0 0x0D (ff 0x0E (-1))) |> set 1 0x0E (ff 0x0D 1)) |> set 2 0x0F (ff 0x10 (-1))) |> set 3 0x10 (ff 0x0F 1)
  (m4.disableCtx (b + 12)).gfTo s gfForming

/-- Whether a transfer is allowed at this boundary (R175, R178): `scr` says whether the SCR condition counts.
DEDUCED, log entry 39. -/
def Mod.mayTransfer (m : Mod) (s : Nat) (toFollow scr : Bool) : Bool :=
  (m.gf s = gfForming || m.gf s = gfFollowing) && m.get (Ob.angleValid s) = 1 && m.get (Ob.rtState s) = 0
  && !(m.grpAt s).latched && !(m.secAt s).islNow
  && (!toFollow || !scr || m.getF (Ob.gflMinScr s) = 0 || (m.scrKnown s && m.getF (Ob.gflMinScr s) ≤ m.getF (Ob.scr s)))

/-- ps of TAI since the newest slot of the section began. -/
def Mod.slotAge (m : Mod) (s : Nat) : Int := (m.tai - (m.secAt s).idSlot) * 1000

/-- A transfer between the modes has applied at this boundary: an injection on the section stops (R150), and the slot under
way is skipped: it adds no result and breaks the pair of the active check (R185, R204). DEDUCED, log entry 39. -/
def Mod.transferred (s : Nat) (m : Mod) : Mod :=
  m.modSec s (fun x =>
    let inSlot := x.idWait || x.idOn || (x.idDone && m.slotAge s < 12500000000)
    { x with transfer := true, idWait := false, idOn := false, idDone := x.idDone && !inSlot, zHits := if inSlot then 0 else x.zHits })

/-- The transfer that a write of OP_MODE brings at its boundary. DEDUCED, log entry 32. -/
def Mod.transferTo (s mode : Nat) (m : Mod) : Mod :=
  if mode = 2 && m.gf s = gfForming then (m.toFollowing s).transferred s
  else if mode = 1 && m.gf s = gfFollowing then (m.toForming s).transferred s
  else m

/-- A stop of a section at a grid event (R174, R205, R228): without ramps, then DELAY. -/
def Mod.gridStop (s : Nat) (m : Mod) : Mod :=
  (m.gfStopNow s true).modSec s (fun x => { x with toDelay := true })

/-- The islanding decision at the boundary that follows it (R174, R205). -/
def Mod.islandingActs (s : Nat) (m : Mod) : Mod :=
  if (m.secAt s).islNow then
    let m1 := m.modSec s (fun x => { x with islNow := false })
    if !(m.gf s = gfForming || m.gf s = gfFollowing) then m1
    else if m.get (Ob.islandAction s) = 1 then
      if m.gf s = gfFollowing then
        if m1.mayTransfer s false false then (m1.toForming s).transferred s
        else (m1.modSec s (fun x => { x with zeroRefs := true })).gridStop s
      else m1
    else (m1.modSec s (fun x => { x with zeroRefs := true })).gridStop s
  else m

/-- The transfer of WEAK_ACTION, tried at each boundary until it passes (R201). -/
def Mod.weakActs (s : Nat) (m : Mod) : Mod :=
  if (m.secAt s).weak && m.gf s = gfFollowing && m.mayTransfer s false false then (m.toForming s).transferred s else m

/-- An injection whose slot has begun starts at this boundary (R181). -/
def Mod.idBegins (s : Nat) (m : Mod) : Mod :=
  if (m.secAt s).idWait then m.modSec s (fun x => { x with idWait := false, idOn := true, idTicks := 0 }) else m

/-- What a boundary brings a section: closings, the end of a stop, islanding and weak-grid transfers. -/
def Mod.sectionBoundary (s : Nat) (m : Mod) : Mod :=
  let closed := m.sdcSt = sdcClosed && m.bothClosed
  let st := m.gf s
  if st = gfClosingDead && closed then m.rampStart s
  else if st = gfClosingLive && closed then
    let m1 := m.joinGrid s
    if m.get (Ob.opMode s) = 2 then ((m1.toFollowing s).modSec s (fun x => { x with reconnect := true })).gfStartEnd s false 0
    else (m1.gfTo s gfForming).gfStartEnd s false 0
  else if st = gfStopping && (m.grpAt s).stopping then m.stopEnds s
  else ((m.islandingActs s).weakActs s).idBegins s

/-! ### Impedance identification (R180 to R185, R201) -/

/-- ID_ORDER at a tick period in ps (R180); 0 where none. -/
def idOrderOf (tickPs : Nat) : Nat :=
  if tickPs ≤ 24400000 then 9 else if tickPs ≤ 48800000 then 8 else if tickPs ≤ 97600000 then 7 else 0

/-- ID_ORDER and ID_VALID follow the tick period. -/
def Mod.showIdOrder (m : Mod) : Mod :=
  m.each (List.range 4) (fun s m =>
    let o := idOrderOf m.tickPs
    let m1 := m.put (Ob.idOrder s) o
    if o = 0 then m1.put (Ob.idValid s) 3 else if m.get (Ob.idValid s) = 3 then m1.put (Ob.idValid s) 2 else m1)

/-- Whether the section is in FORMING or FOLLOWING. -/
def Mod.joined (m : Mod) (s : Nat) : Bool := m.gf s = gfForming || m.gf s = gfFollowing

/-- Whether a slot is skipped (R185). -/
def Mod.slotSkipped (m : Mod) (s : Nat) : Bool :=
  (m.inj.run && m.injGroups.contains s) || m.get (Ob.rtState s) ≠ 0 || !m.joined s

/-- The instant, in TAI ns, of the section's next slot (R181): k × 200 ms + (FLEET_INDEX mod 16) × 12.5 ms, now or later, and
after the slot taken last. -/
def Mod.nextSlot (m : Mod) (s : Nat) : Int :=
  let off : Int := ((m.secAt s).fleet % 16 : Nat) * 12500000
  let t := max m.tai ((m.secAt s).idSlot + 1)
  off + -((off - t) / 200000000) * 200000000

/-- A slot of the section begins (R181): the register is seeded, and the injection starts at the first tick boundary at or after
it; a slot that is skipped breaks the pair of the active check (R204). -/
def Mod.idSlot (s : Nat) (m : Mod) : Mod :=
  let o := m.get (Ob.idOrder s)
  let t := m.nextSlot s
  let m1 := m.reachTai t
  if (m.get (Ob.idEn s) = 1 || (m.secAt s).idRun.isSome) && o ≠ 0 && !m.slotSkipped s then
    m1.modSec s (fun x => { x with
      idWait := true, idOn := false, idDone := false, idTicks := 0, idSlot := t, idReg := (m.secAt s).fleet % (2 ^ o - 1) + 1 })
  else m1.modSec s (fun x => { x with idSlot := t, idDone := false, zHits := 0 })

/-- Ticks of one period of the sequence (R180). -/
def Mod.idPeriod (m : Mod) (s : Nat) : Nat := 2 ^ m.get (Ob.idOrder s) - 1

/-- A tick has been injected: the register of a running injection advances by one bit (R180). -/
def Mod.idAdvance (s : Nat) (m : Mod) : Mod :=
  if (m.secAt s).idOn && (m.secAt s).idTicks < m.idPeriod s then
    m.modSec s (fun x => { x with idReg := prbsNext (m.get (Ob.idOrder s)) x.idReg, idTicks := x.idTicks + 1 })
  else m

/-- One sequence period has been injected (R180): the injection is over, and its result may come. -/
def Mod.idEnds (s : Nat) (m : Mod) : Mod :=
  if (m.secAt s).idOn && m.idPeriod s ≤ (m.secAt s).idTicks then m.modSec s (fun x => { x with idOn := false, idDone := true }) else m

/-- EV070 with the latch of R205. -/
def Mod.islanded (s cause : Nat) (m : Mod) : Mod :=
  if cause = 0 || (m.secAt s).isl then m
  else
    ((((m.put (Ob.islState s) 2).put (Ob.islCause s) cause).put (Ob.islTime s) m.t64).modSec s (fun x => { x with
      isl := true, islNow := true })).raise 70 sevWarn 0x3401 (cause + 65536 * s + 16777216 * m.get (Ob.islandAction s))

/-- The mean of rationals; 0 of none. -/
def meanR (l : List Rat) : Rat := if l.isEmpty then 0 else l.foldl (· + ·) 0 / (l.length : Nat)

/-- The reference of the active check (R204): results whose slots lie between ISL_Z_REF_TIME and 2 s before `t`.
DEDUCED, log entry 83. -/
def Mod.zReference (m : Mod) (s : Nat) (t : Int) : Option Rat :=
  let w : Int := (m.get (Ob.islZRefTime s) : Nat) * 1000000000
  let l := ((m.secAt s).zs.filter (fun p => t - w ≤ p.1 && p.1 ≤ t - 2000000000)).map (·.2)
  if l.length < 5 then none else some (meanR l)

/-- The active islanding check on one valid single result (R204). DESIGN CHOICE, log entry 52; DEDUCED, log entry 83. -/
def Mod.activeCheck (s : Nat) (z : Rat) (m : Mod) : Mod :=
  let t := (m.secAt s).idSlot
  let ref := m.zReference s t
  let m1 := m.modSec s (fun x => { x with zs := ((t, z) :: x.zs).takeWhile (fun p => t - 600000000000 ≤ p.1) })
  match ref with
  | none => m1.modSec s (fun x => { x with zHits := 0 })
  | some r =>
    let m2 := if r = 0 then (let d := m1.drawNat; d.2.put (Ob.zRatio s) (d.1 % 4294967296)) else m1.putF (Ob.zRatio s) (z / r)
    let hit := m.getF (Ob.islZRatio s) * r ≤ z
    let n := if hit then (m.secAt s).zHits + 1 else 0
    let m3 := m2.modSec s (fun x => { x with zHits := n })
    if 2 ≤ n && m.get (Ob.islActiveEn s) = 1 && m.joined s && m.get (Ob.rtState s) = 0 then m3.islanded s 8 else m3

/-- The frequency of a bin in Hz: its number over the period of the sequence. -/
def Mod.binHz (m : Mod) (s : Nat) (b : IdBin) : Rat :=
  let p := (m.idPeriod s : Rat) * m.tickS
  if p = 0 then 0 else (b.k : Rat) / p

/-- The distance of a frequency from the nearest multiple of another. -/
def offHarmonic (f g : Rat) : Rat := if g ≤ 0 then f else absR (f - g * ((f / g + 1 / 2).floor : Int))

/-- The bins that the fit uses (R182): up to the lower of 0.2 / T and 2500 Hz, none within 25 Hz of a multiple of the grid
frequency. DEDUCED, log entry 100. -/
def Mod.fitBins (m : Mod) (s : Nat) (bins : List IdBin) : List IdBin :=
  bins.filter (fun b =>
    let f := m.binHz s b
    1 ≤ b.k && f * m.tickS ≤ 2 / 10 && f ≤ 2500 && 25 < offHarmonic f (m.gridHz s) && 0 < b.sii)

/-- The mean coherence over the bins of the fit; 0 of none. DEDUCED, log entry 100. -/
def meanCoherence (bins : List IdBin) : Rat :=
  meanR (bins.map (fun b => if b.svv = 0 then 0 else ((b.re * b.re + b.im * b.im : Int) : Rat) / ((b.sii * b.svv : Nat) : Rat)))

/-- R_G and X_G: the least-squares fit of Zg(f) = R_G + j × X_G × f / F_RATED over the bins (R182). -/
def Mod.fitZ (m : Mod) (s : Nat) (bins : List IdBin) : Rat × Rat :=
  let x (b : IdBin) : Rat := m.binHz s b / m.getF (Ob.fRated s)
  let xx := (bins.map (fun b => x b * x b)).foldl (· + ·) 0
  let xy := (bins.map (fun b => x b * ((b.im : Rat) / (b.sii : Rat)))).foldl (· + ·) 0
  (meanR (bins.map (fun b => (b.re : Rat) / (b.sii : Rat))), if xx = 0 then 0 else xy / xx)

/-- abs(R + jX). -/
def absZ (z : Rat × Rat) : Rat := sqrtExact (z.1 * z.1 + z.2 * z.2)

/-- The results of the last ID_AVG valid injections are published (R182): the means of R_G, X_G and SCR.
DESIGN CHOICE, log entry 52. -/
def Mod.publishZ (s : Nat) (l : List (Rat × Rat)) (m : Mod) : Mod :=
  let m1 := ((((m.modSec s (fun y => { y with idRes := l })).putF (Ob.idRG s) (meanR (l.map (·.1)))).putF (Ob.idXG s)
    (meanR (l.map (·.2)))).put (Ob.idValid s) 0).put (Ob.idTime s) (((m.secAt s).idSlot % 18446744073709551616).toNat)
  if l.any (fun z => absZ z = 0) then (let d := m1.drawNat; d.2.put (Ob.scr s) (d.1 % 4294967296))
  else m1.putF (Ob.scr s) (meanR (l.map (fun z => 1 / absZ z)))

/-- Whether a result moves SCR across a limit (R192). -/
def crosses (limit old new : Rat) : Bool := (old < limit) != (new < limit)

/-- What a valid result brings beyond its objects (R192, R201, R204): EV069 for an ID_RUN, or for a periodic result that moves SCR
across a limit; EV074 and WEAK_ACTION; and the active check. -/
def Mod.idTold (s : Nat) (req : Option Nat) (had : Bool) (old : Rat) (z : Rat) (m : Mod) : Mod :=
  let scr := m.getF (Ob.scr s)
  let told := 65536 * s + 16777216 * scrTenths scr
  let m1 := match req with
    | some q => m.inform 69 (q + told)
    | none   => if had && (crosses (m.getF (Ob.scrWeak s)) old scr || crosses (m.getF (Ob.scrStiff s)) old scr) then m.inform 69 told else m
  let lim := m.getF (Ob.gflMinScr s)
  let low := 0 < lim && scr < lim && m.gf s = gfFollowing
  let m2 := if low then m1.raise 74 sevWarn 0x3402 told else m1
  (m2.modSec s (fun y => { y with weak := low && m.get (Ob.weakAction s) = 1 })).activeCheck s z

/-- The supervisor completes the fit of an injection (R182, R185); without a whole period injected there is none.
DESIGN CHOICE, log entry 85. -/
def Mod.idResult (s : Nat) (bins : List IdBin) (m : Mod) : Mod :=
  if (m.secAt s).idDone then
    let bs := m.fitBins s bins
    let c := meanCoherence bs
    let req := (m.secAt s).idRun
    let m1 := (m.putF (Ob.coherence s) c).modSec s (fun y => { y with idRun := none, idDone := false })
    if 8 / 10 ≤ c then
      let z := m.fitZ s bs
      (m1.publishZ s ((z :: (m.secAt s).idRes).take (max 1 (m.get (Ob.idAvg s))))).idTold s req (m.scrKnown s) (m.getF (Ob.scr s))
        (absZ z)
    else
      let m2 := (m1.put (Ob.idValid s) 1).modSec s (fun y => { y with zHits := 0 })
      match req with
      | some q => m2.inform 69 (q + 65536 * s + 16777216 * scrTenths (m.getF (Ob.scr s)))
      | none   => m2
  else m

/-- ID_RUN (R185): a status. -/
def Mod.idRunOp (s seq : Nat) (m : Mod) : Mod × Nat :=
  if !m.joined s || m.get (Ob.idValid s) = 3 then (m, 0x12)
  else (m.modSec s (fun x => { x with idRun := some seq }), 3)

/-! ### Passive islanding checks (R202, R203) -/

/-- The newest entry of a history at or before an instant; the history stands newest first. DEDUCED, log entry 83. -/
def histAt (l : List (Nat × Int)) (t : Nat) : Option Int := (l.find? (fun p => p.1 ≤ t)).map (·.2)

/-- The history with a new entry, entries older than `keep` ps dropped. DEDUCED, log entry 83. -/
def histAdd (now : Nat) (v : Int) (keep : Nat) (l : List (Nat × Int)) : List (Nat × Int) :=
  (now, v) :: l.takeWhile (fun p => now ≤ p.1 + keep)

/-- Change of frequency per second over ROCOF_WINDOW, Hz/s. -/
def Mod.rocofNow (m : Mod) (s : Nat) : Option Rat :=
  let w := m.get (Ob.rocofWindow s)
  (histAt (m.secAt s).freqs (m.now - msPs w)).map (fun f =>
    ((m.getS (Ob.gridFreq s) - f : Int) : Rat) / 1000000 * 1000 / (w : Nat))

/-- The vector shift of R202 in degrees: the phase against the one extrapolated over a nominal cycle. -/
def Mod.vectorShift (m : Mod) (s : Nat) : Option Rat :=
  let f := m.getF (Ob.fRated s)
  if f = 0 then none
  else
    let cyc := (1000000000000 / f).floor.toNat
    match histAt (m.secAt s).phases (m.now - cyc), histAt (m.secAt s).freqs (m.now - 2 * cyc) with
    | some p, some q => some (degOf ((m.secAt s).acc - p) - 360 * (f + (q : Rat) / 1000000) / f)
    | _, _ => none

/-- One evaluation of the passive checks, every 1 ms. DEDUCED, log entry 83. -/
def Mod.islandingCheck (s : Nat) (m : Mod) : Mod :=
  let keep := msPs (m.get (Ob.rocofWindow s) + 100)
  let m0 := m.modSec s (fun x => { x with freqs := histAdd m.now (m.getS (Ob.gridFreq s)) keep x.freqs })
  let roc := m.rocofNow s
  let m1 := match roc with | some r => m0.putF (Ob.rocof s) r | none => m0
  if !m.joined s then (m1.modSec s (fun x => { x with islWinPs := none, islRocPs := none })).put (Ob.islState s) 0
  else if (m.secAt s).isl then m1
  else if m.get (Ob.rtState s) ≠ 0 then
    (m1.modSec s (fun x => { x with islWinPs := none, islRocPs := none })).put (Ob.islState s) 1
  else
    let mask := m.get (Ob.islPassiveMask s)
    let valid := m.get (Ob.angleValid s) = 1
    let f := m.getS (Ob.gridFreq s)
    let v := m.getS (Ob.vPos s)
    let out := !valid || f < m.getS (Ob.islFLow s) || m.getS (Ob.islFHigh s) < f || v < m.getS (Ob.islVLow s) || m.getS (Ob.islVHigh s) < v
    let fast := valid && (match roc with | some r => m.getF (Ob.rocofLimit s) < absR r | none => false)
    let win := if out then some ((m.secAt s).islWinPs.getD m.now) else none
    let rocPs := if fast then some ((m.secAt s).islRocPs.getD m.now) else none
    let due (p : Option Nat) (ms : Nat) : Bool := match p with | some t => t + msPs ms ≤ m.now | none => false
    let shift := valid && (match m.vectorShift s with | some d => m.getF (Ob.vsLimit s) < absR d | none => false)
    let cause := b2n (bit mask 0 && due win (m.get (Ob.islWinTime s))) + 2 * b2n (bit mask 1 && due rocPs (m.get (Ob.rocofTime s)))
      + 4 * b2n (bit mask 2 && shift)
    let st := if m.get (Ob.islActiveEn s) = 1 && (m.zReference s (m.secAt s).idSlot).isNone then 3 else 0
    ((m1.modSec s (fun x => { x with islWinPs := win, islRocPs := rocPs })).put (Ob.islState s) st).islanded s cause

end Sys2Proof.Machine
end

