-- ==== Sys2Proof/Machine/Ride.lean ====
section
/-!
DEFINITION. Fault ride-through (R222 to R242): the states of a section, the curves and the trips, recovery, phase jumps,
loss of synchronism, and the current clamp.
-/
namespace Sys2Proof.Machine

/-- Apply a change to the engines' present state and, within the compute window, also to the state that an overrun
restores (R80), so that no overrun undoes it. -/
def Mod.alsoSaved (f : Mod → Mod) (m : Mod) : Mod :=
  let m1 := f m
  if m.clk.phase = .compute then { m1 with saved := (f { m with eng := m.saved }).eng } else m1

def rtNormal : Nat := 0
def rtLvrt : Nat := 1
def rtHvrt : Nat := 2
def rtRecovery : Nat := 3
def rtCeased : Nat := 4
def rtLos : Nat := 5

/-- RT_STATE of a section. -/
def Mod.rt (m : Mod) (s : Nat) : Nat := m.get (Ob.rtState s)

/-- Whether the detector runs (R222). -/
def Mod.detects (m : Mod) (s : Nat) : Bool := m.joined s || m.gf s = gfHold

/-- τ in ms since the entry. -/
def Mod.tauMs (m : Mod) (s : Nat) : Nat :=
  match (m.secAt s).tauPs with
  | some t => (m.now - t) / 1000000000
  | none   => 0

/-- RT_EVT_IN_WINDOW and LOS_IN_WINDOW from the instants kept (R234, R240). -/
def Mod.rtEvents (m : Mod) (s : Nat) : Nat :=
  ((m.secAt s).entries.filter (fun t => m.now < t + sPs (m.get (Ob.rtEvtW s)))).length
def Mod.losEvents (m : Mod) (s : Nat) : Nat :=
  ((m.secAt s).losTimes.filter (fun t => m.now < t + sPs (m.get (Ob.losW s)))).length

/-- A stop of R228 with its cause bit and code is due at the next boundary. -/
def Mod.rtStop (s causeBit fault : Nat) (m : Mod) : Mod :=
  if m.detects s && !(m.grpAt s).latched then m.modSec s (fun x => { x with stops := x.stops ++ [(causeBit, fault)] }) else m

/-- The stops of R228 that are due act as one at the boundary (R242): RT_CAUSE shows every cause, and EV076 carries the code of
the first. A trip latch set meanwhile acts instead. DEDUCED, log entry 53. -/
def Mod.rideActs (s : Nat) (m : Mod) : Mod :=
  let l := (m.secAt s).stops
  if l.isEmpty then m
  else if m.detects s && !(m.grpAt s).latched then
    let old := if m.rt s = rtNormal then 0 else m.get (Ob.rtCause s)
    let cause := l.foldl (fun a p => setBit a p.1 true) old
    let tau := satAt 16383 (m.tauMs s)
    let m1 := (m.put (Ob.rtCause s) cause).gridStop s
    match l.find? (fun p => p.1 ≠ 6) with
    | some p => m1.raise 76 sevWarn p.2 (cause + 65536 * s + 262144 * tau)
    | none   => m1
  else m.modSec s (fun x => { x with stops := [] })

/-- V_PRE at an entry (R225): the mean over the last 1 s spent in NORMAL, or 1.0 pu. DEDUCED, log entry 55. -/
def Mod.vPreNow (m : Mod) (s : Nat) : Int :=
  let l := (m.secAt s).normal
  if l.length * m.tickPs < 1000000000000 then one29
  else q29OfLsb (((l.map (·.2)).foldl (· + ·) 0 : Int) / ((l.length : Nat) : Rat))

/-- Entry into LVRT or HVRT (R225, R229, R234): the outputs of positions 0 and 1 of the last committed tick are held. -/
def Mod.rtEnter (s : Nat) (low high : Bool) (m : Mod) : Mod :=
  let hold (e : EngRt) : EngRt := { e with vsm := e.vsm.modify s (fun v =>
    { v with idPre := (m.saved.ctx.getD (24 * s) {}).v, iqPre := (m.saved.ctx.getD (24 * s + 1) {}).v }) }
  let m1 := (((m.putQ (Ob.vPre s) (m.vPreNow s)).put (Ob.rtCause s) (b2n low + 2 * b2n high)).put (Ob.rtEntryTime s) m.t64).modSec s
    (fun x => { x with tauPs := some m.now, entries := m.now :: x.entries.take 255 })
  let m2 := { m1 with eng := hold m1.eng, saved := hold m1.saved }.rtTo s (if low then rtLvrt else rtHvrt)
  let m3 := m2.put (Ob.rtEvtInWindow s) (satAt 255 (m2.rtEvents s))
  if m.get (Ob.rtEvtN s) < m3.rtEvents s then m3.rtStop s 5 0x3704 else m3

/-- The phase-jump rule of R235 on a section in FOLLOWING: a change of Δφ within 2 ms of at least PJ_LEVEL, none of its changes in
that time as large as LOS_ANGLE; the jump acts at the next boundary. -/
def Mod.watchJump (s : Nat) (m : Mod) : Mod :=
  if (m.secAt s).follow && m.joined s then
    let d := (m.vsmAt s).dphi
    let l := (m.secAt s).dphis.filter (fun p => m.now ≤ p.1 + 2000000000)
    let lev := m.getF (Ob.pjLevel s) / 180
    let top := m.getF (Ob.losAngle s) / 180
    let hit := l.any (fun p => lev ≤ absR (pu (d - p.2))) && l.all (fun p => absR (pu (d - p.2)) < top)
    m.modSec s (fun x => { x with
      dphis := (m.now, d) :: l, jump := if hit && x.jump.isNone then some d else x.jump })
  else m.modSec s (fun x => { x with dphis := [] })

/-! ### What stands for a time (R222, R225, R228, R240) -/

/-- Since when a condition has held. -/
def since (now : Nat) (c : Bool) (old : Option Nat) : Option Nat := if c then some (old.getD now) else none

/-- Whether GRID_FREQ lies beyond the level of a stage (R228): 0 UF1, 1 UF2, 2 OF1, 3 OF2. -/
def Mod.beyondStage (m : Mod) (s stage : Nat) : Bool :=
  let f := m.getS (Ob.gridFreq s)
  if stage = 0 then f < m.getS (Ob.uf1F s) else if stage = 1 then f < m.getS (Ob.uf2F s)
  else if stage = 2 then m.getS (Ob.of1F s) < f else m.getS (Ob.of2F s) < f

/-- The time of a stage in ms. -/
def Mod.stageMs (m : Mod) (s stage : Nat) : Nat :=
  m.get (if stage = 0 then Ob.uf1T s else if stage = 1 then Ob.uf2T s else if stage = 2 then Ob.of1T s else Ob.of2T s)

/-- Whether all phases lie within the shrunk window (R225). -/
def Mod.inShrunk (m : Mod) (s : Nat) : Bool :=
  m.getS (Ob.normVLow s) + m.getS (Ob.recovHyst s) ≤ m.getS (Ob.vPhLow s)
  && m.getS (Ob.vPhHigh s) ≤ m.getS (Ob.normVHigh s) - m.getS (Ob.recovHyst s)

/-- Whether a ride-through state is one from which the shrunk window leads to RECOVERY. -/
def riding (st : Nat) : Bool := st = rtLvrt || st = rtHvrt || st = rtCeased

/-- The magnitudes of the last 1 ms, the time in the shrunk window and beyond each frequency stage, from a tick (R222, R225, R228). -/
def Mod.watchTimes (s : Nat) (m : Mod) : Mod :=
  let ok := m.get (Ob.angleValid s) = 1
  m.modSec s (fun x => { x with
    mags    := (m.now, m.getS (Ob.vPhLow s), m.getS (Ob.vPhHigh s)) :: x.mags.takeWhile (fun p => m.now < p.1 + 1000000000)
    recovPs := since m.now (riding (m.rt s) && m.inShrunk s) x.recovPs
    stagePs := (List.range 4).map (fun k => since m.now (ok && m.beyondStage s k) (x.stagePs.getD k none)) })

/-- The angle between the machine of a section in FORMING and the grid, before its engine runs (R240): since when it stands above
LOS_ANGLE, and whether it has passed through ±180° since the last tick. -/
def Mod.watchAngle (s : Nat) (m : Mod) : Mod :=
  if (m.secAt s).follow then m
  else if m.joined s && m.rt s ≠ rtLos then
    let d := angDiff (m.vsmAt s).theta (m.get (Ob.gridPhase s))
    m.modSec s (fun x => { x with
      losPs := since m.now (m.getF (Ob.losAngle s) < absR (degOf d)) x.losPs, railPs := none
      slip := x.slip || 2147483648 < absI (d - x.losDiff), losDiff := d })
  else m.modSec s (fun x => { x with losPs := none, railPs := none, slip := false, losDiff := 0 })

/-- Δφ and position 12 of a section in FOLLOWING, after its engine has run (R240). -/
def Mod.watchLoop (s : Nat) (m : Mod) : Mod :=
  if !(m.secAt s).follow then m
  else
    let on := m.joined s && m.rt s ≠ rtLos && m.get (Ob.angleValid s) = 1
    let lim := q29Of (m.getF (Ob.pllLimit s))
    m.modSec s (fun x => { x with
      losPs  := since m.now (on && m.getF (Ob.losAngle s) < absR (pu (m.vsmAt s).dphi * 180)) x.losPs
      railPs := since m.now (on && lim ≤ absI (m.ctxAt (24 * s + 12)).v) x.railPs, slip := false, losDiff := 0 })

/-- What the detector does with a tick's phase magnitudes (R224, R225). -/
def Mod.watchRide (s : Nat) (m : Mod) : Mod :=
  if m.detects s then
    let lo := m.getS (Ob.vPhLow s)
    let hi := m.getS (Ob.vPhHigh s)
    let low := lo < m.getS (Ob.normVLow s)
    let high := m.getS (Ob.normVHigh s) < hi
    let mc := m.getS (Ob.mcLevel s)
    let st := m.rt s
    let m0 := if st = rtNormal && !low && !high then
        let keep := 1000000000000 / (if m.tickPs = 0 then 1 else m.tickPs)
        m.modSec s (fun x => { x with normal := ((m.now, m.getS (Ob.vPos s)) :: x.normal).take (keep + 1) })
      else m
    let m1 := ((m0.watchJump s).watchLoop s).watchTimes s
    if (st = rtNormal || st = rtRecovery) && (low || high) then m1.rtEnter s low high
    else if st = rtLvrt && 0 < mc && lo < mc then m1.rtTo s rtCeased
    else if st = rtCeased && mc + m.getS (Ob.recovHyst s) ≤ lo then m1.rtTo s rtLvrt
    else if st = rtLvrt && !low && high then m1.rtTo s rtHvrt
    else m1
  else m.modSec s (fun x => { x with
    normal := [], dphis := [], jump := none, mags := [], recovPs := none, stagePs := [none, none, none, none], losPs := none
    railPs := none, slip := false, losDiff := 0 })

/-! ### Curves and trips (R227, R228) -/

/-- The boundary of a curve at `tau` ms, from its points (T in ms, V raw). -/
def curveAt (linear : Bool) (tau : Nat) : List (Nat × Int) → Rat
  | []              => 0
  | [p]             => p.2
  | p :: q :: rest  =>
    if tau < q.1 then
      if linear && p.1 < q.1 then (p.2 : Rat) + ((q.2 - p.2 : Int) : Rat) * ((tau - p.1 : Nat) : Rat) / ((q.1 - p.1 : Nat) : Rat)
      else p.2
    else curveAt linear tau (q :: rest)

/-- The points of the two curves. -/
def Mod.lvPoints (m : Mod) (s : Nat) : List (Nat × Int) :=
  (List.range (m.get (Ob.lvCount s))).map (fun k => (m.get (Ob.lvT s k), m.getS (Ob.lvV s k)))
def Mod.hvPoints (m : Mod) (s : Nat) : List (Nat × Int) :=
  (List.range (m.get (Ob.hvCount s))).map (fun k => (m.get (Ob.hvT s k), m.getS (Ob.hvV s k)))

/-- Whether a curve is one that R227 admits: times rising strictly from 0, voltages not falling (or not rising). -/
def curveOk (rising : Bool) : List (Nat × Int) → Bool
  | []      => false
  | p :: ps => p.1 = 0 && go p ps
where
  go : Nat × Int → List (Nat × Int) → Bool
    | _, []      => true
    | p, q :: qs => p.1 < q.1 && (if rising then p.2 ≤ q.2 else q.2 ≤ p.2) && go q qs

/-- The voltage of the present curve at τ (R227, R248), in LSB. -/
def Mod.curveNow (m : Mod) (s : Nat) (high : Bool) : Rat :=
  if high then curveAt (m.get (Ob.hvShape s) = 1) (m.tauMs s) (m.hvPoints s)
  else curveAt (m.get (Ob.lvShape s) = 1) (m.tauMs s) (m.lvPoints s)

/-- The mean of whole values in LSB. -/
def meanLsb (l : List Int) : Rat := if l.isEmpty then 0 else ((l.foldl (· + ·) 0 : Int) : Rat) / (l.length : Nat)

/-- The check of the curves every 1 ms, on the magnitudes averaged over 1 ms (R222, R227). -/
def Mod.curveCheck (s : Nat) (m : Mod) : Mod :=
  let l := (m.secAt s).mags
  if m.detects s && riding (m.rt s) && !l.isEmpty then
    let m1 := m.putQ (Ob.boundary s) (q29OfLsb (m.curveNow s (m.rt s = rtHvrt)))
    if meanLsb (l.map (·.2.1)) < m.curveNow s false then m1.rtStop s 2 0x3701
    else if m.curveNow s true < meanLsb (l.map (·.2.2)) then m1.rtStop s 3 0x3702
    else m1
  else m

/-- A frequency trip stage fires (R228): GRID_FREQ has stood beyond its level for its time. -/
def Mod.freqTrip (s stage : Nat) (m : Mod) : Mod :=
  match (m.secAt s).stagePs.getD stage none with
  | some t => (m.reach (t + msPs (m.stageMs s stage))).rtStop s 4 0x3703
  | none   => m

/-! ### Recovery (R233) -/

/-- Entry into RECOVERY: the active reference starts from its present value. -/
def Mod.rtRecover (s : Nat) (m : Mod) : Mod :=
  (m.modVsm s (fun v => { v with idRec := v.refs.getD 0 0 })).rtTo s rtRecovery

/-- RECOV_TIME has passed with all phases within the shrunk window. -/
def Mod.recovTimeMet (s : Nat) (m : Mod) : Mod :=
  match (m.secAt s).recovPs with
  | some t => if m.detects s && riding (m.rt s) then (m.reach (t + msPs (m.get (Ob.recovTime s)))).rtRecover s else m
  | none   => m

/-- Whether a recovery is complete: in FOLLOWING the active current reference equals the output of position 0 (R233); in FORMING
the limit has released and P_ref has reached P_SET (R238). -/
def Mod.rideOver (m : Mod) (s : Nat) : Bool :=
  let v := m.vsmAt s
  if (m.secAt s).follow then v.refs.getD 0 0 = (m.ctxAt (24 * s)).v else !v.limited && v.pRef = m.getS (Ob.pSet s)

/-- The recovery is complete. -/
def Mod.rtComplete (s : Nat) (m : Mod) : Mod :=
  if m.rt s = rtRecovery && m.rideOver s then (m.modSec s (fun x => { x with tauPs := none })).rtTo s rtNormal else m

/-- The current limit of a section in FORMING releases (R238): the sum has stood at most at 0.95 × I_MAX for RELEASE_TIME. -/
def Mod.limitRelease (s : Nat) (m : Mod) : Mod :=
  match (m.vsmAt s).calmPs with
  | none   => m
  | some t =>
    let v := m.vsmAt s
    if v.limited && !(m.secAt s).follow then
      let u0 := (m.ctxAt (24 * s)).v
      let u3 := if m.get (Ob.linkReg s) = 1 then (m.ctxAt (24 * s + 3)).v else 0
      let p := q29Of (pu (m.secAt s).pMeas + (pu v.dw - m.dwSet s) * 100 / m.getF (Ob.pfDroop s) - pu u0 + pu u3)
      (((m.reach (t + msPs (m.get (Ob.releaseTime s)))).modVsm s (fun v => { v with limited := false, pRef := p })).modSec s
        (fun x => { x with recovRamp := true }))
    else m

/-! ### Loss of synchronism and the clamp (R239 to R241) -/

/-- The instant of a loss of synchronism that stands (R240): a pole slip at once, otherwise LOS_TIME after its condition. -/
def Mod.losAt (m : Mod) (s : Nat) : Option Nat :=
  let x := m.secAt s
  let t := msPs (m.get (Ob.losTime s))
  if x.slip then some m.now
  else match x.losPs, x.railPs with
    | some a, some b => some (min a b + t)
    | some a, none   => some (a + t)
    | none, some b   => some (b + t)
    | none, none     => none

/-- A loss of synchronism is detected (R240). DEDUCED, log entry 53. -/
def Mod.lossOfSync (s : Nat) (m : Mod) : Mod :=
  match m.losAt s with
  | none   => m
  | some t =>
    if m.joined s && m.rt s ≠ rtLos then
      let m0 := m.reach t
      let m1 := m0.modSec s (fun x => { x with
        losTimes := m0.now :: x.losTimes.take 255, slip := false, losPs := none, railPs := none, losDiff := 0 })
      let n := m1.losEvents s
      let m2 := m1.put (Ob.losInWindow s) (satAt 255 n)
      let over1 := m.get (Ob.losN s) < n
      let m3 := m2.raise 78 sevWarn (if over1 then 0x3706 else 0x3705) (satAt 255 n + 65536 * s)
      if over1 then m3.rtStop s 6 0x3706
      else (m3.modSec s (fun x => { x with jump := none, recovPs := none, blankPs := some m0.now, blankEnds := false })).rtTo s rtLos
    else m

/-- LOS_BLANK has elapsed (R241): the section resynchronises at the next boundary. -/
def Mod.losBlankEnd (s : Nat) (m : Mod) : Mod :=
  match (m.secAt s).blankPs with
  | some t =>
    if m.rt s = rtLos then
      (m.reach (t + msPs (m.get (Ob.losBlank s)))).modSec s (fun x => { x with blankPs := none, blankEnds := true })
    else m
  | none   => m

/-- The values with which a section resynchronises (R241). -/
def Mod.resync (s : Nat) (m : Mod) : Mod :=
  let dw := m.gridDw s
  let b := 24 * s
  let m1 := m.modVsm s (fun v => { v with theta := m.get (Ob.gridPhase s), dw := dw, dwRem := 0, lpRem := 0 })
  if (m.secAt s).follow then
    m1.backCalc (m1.pllCoef s) (b + 12) 0 (syncError (m.eng.signal s 0x0D) (m.eng.signal s 0x0E)) 0 dw
  else
    (m1.modVsm s (fun v => { v with dwLp := dw, start := 2 })).modCtx (b + 2) (fun x => { x with
      r := m.getS (Ob.vPos s), s := 0, i := 0, v := 0 })

/-- A section whose LOS_BLANK has elapsed resynchronises at a boundary; while the angle is not valid the blanking goes on (R241). -/
def Mod.blankActs (s : Nat) (m : Mod) : Mod :=
  if (m.secAt s).blankEnds && m.rt s = rtLos && m.get (Ob.angleValid s) = 1 then
    let m2 := (m.resync s).modSec s (fun x => { x with
      blankEnds := false, tauPs := some (x.tauPs.getD m.now), dphis := [], jump := none })
    if m.getS (Ob.vPhLow s) < m.getS (Ob.normVLow s) + m.getS (Ob.recovHyst s) then m2.rtTo s rtLvrt
    else if !m.inShrunk s then m2.rtTo s rtHvrt
    else m2.rtRecover s
  else m

/-- A phase jump acts at its boundary (R235): θ steps by Δφ and EV077 is raised. DEDUCED, log entry 51. -/
def Mod.jumpActs (s : Nat) (m : Mod) : Mod :=
  match (m.secAt s).jump with
  | none   => m
  | some d =>
    let deg := pu d * 180
    let arg := Raw.ofInt 16 (clampI (-32768) 32767 (deg * 100 + 1 / 2).floor)
    if m.rt s = rtLos then m.modSec s (fun x => { x with jump := none })
    else
      ((m.modSec s (fun x => { x with jump := none, dphis := [] })).modVsm s (fun v => { v with theta := angWrap (v.theta - d * 4) })).inform
        77 (arg + 65536 * s)

/-- Whether the alert of a channel stands and asserted at least 50 ns ago (R239). -/
def Mod.alertDue (m : Mod) (n : Nat) : Bool := bit m.prot.focAlert n && m.prot.alertAt.getD n 0 + 50000 ≤ m.now

/-- Whether the clamp set applies at a boundary: an alert of a ROLE 01h channel of the section stands, or a section in
FORMING is in LOS (R239, R241). A group in direct mode has no clamp set (R257). -/
def Mod.clampDue (m : Mod) (s : Nat) : Bool :=
  (m.grpAt s).on && !(m.grpAt s).direct
  && ((m.assigned s 1).any (fun n => m.alertDue (m.inUseFor n)) || (m.rt s = rtLos && !(m.secAt s).follow))

/-- The clamp at a boundary: each activation counts with EV079; at its release the current loops of the next tick start from it. -/
def Mod.clampBoundary (s : Nat) (m : Mod) : Mod :=
  let was := (m.grpAt s).clampOn
  let now := m.clampDue s
  let m1 := m.modGrp s (fun g => { g with clampOn := now })
  if now && !was then (m1.bump (Ob.clampCount s)).raise 79 sevWarn 0x3707 (65536 * s)
  else if was && !now && (m.grpAt s).on then m1.modVsm s (fun v => { v with start := max v.start 1 })
  else m1

/-! ### The commands of a section without a frame -/

/-- The effect of a section's event, undone by no overrun. -/
def secStep (sec : Nat) (f : Mod → Mod) (s : State) : Host.Outcome State Fault Refusal :=
  onUnit (secOk sec) s (s.m.alsoSaved f)

/-- DEAD_CONFIRM_EXPIRY. -/
def execDeadConfirmExpiry (sec : Nat) (s : State) : Host.Outcome State Fault Refusal := secStep sec (Mod.deadConfirmed sec) s
/-- BACKOFF_EXPIRY. -/
def execBackoffExpiry (sec : Nat) (s : State) : Host.Outcome State Fault Refusal := secStep sec (Mod.backoffExpires sec) s
/-- BUS_LIVE. -/
def execBusLive (sec : Nat) (s : State) : Host.Outcome State Fault Refusal := secStep sec (Mod.busTurnsLive sec) s
/-- CLOSE_TIMEOUT. -/
def execCloseTimeout (sec : Nat) (s : State) : Host.Outcome State Fault Refusal := secStep sec (Mod.closeTimeout sec) s
/-- RAMP_COMPLETE. -/
def execRampComplete (sec : Nat) (s : State) : Host.Outcome State Fault Refusal := secStep sec (Mod.rampComplete sec) s
/-- RAMP_TIMEOUT. -/
def execRampTimeout (sec : Nat) (s : State) : Host.Outcome State Fault Refusal := secStep sec (Mod.rampTimeout sec) s
/-- ENTER_SERVICE_DELAY_END. -/
def execEnterServiceDelayEnd (sec : Nat) (s : State) : Host.Outcome State Fault Refusal := secStep sec (Mod.delayEnds sec) s
/-- SYNC_HOLD_MET. -/
def execSyncHoldMet (sec : Nat) (s : State) : Host.Outcome State Fault Refusal := secStep sec (Mod.syncHeld sec) s
/-- SYNC_TIMEOUT. -/
def execSyncTimeout (sec : Nat) (s : State) : Host.Outcome State Fault Refusal := secStep sec (Mod.syncExpires sec) s
/-- STOP_POWER_LOW. -/
def execStopPowerLow (sec : Nat) (s : State) : Host.Outcome State Fault Refusal := secStep sec (Mod.stopLow sec) s
/-- STOP_COMPLETE. -/
def execStopComplete (sec : Nat) (s : State) : Host.Outcome State Fault Refusal := secStep sec (Mod.stopDone sec) s
/-- ID_SLOT_START. -/
def execIdSlotStart (sec : Nat) (s : State) : Host.Outcome State Fault Refusal := secStep sec (Mod.idSlot sec) s
/-- ID_INJECTION_END. -/
def execIdInjectionEnd (sec : Nat) (s : State) : Host.Outcome State Fault Refusal := secStep sec (Mod.idEnds sec) s
/-- ID_RESULT. -/
def execIdResult (sec : Nat) (bins : List IdBin) (s : State) : Host.Outcome State Fault Refusal :=
  secStep sec (Mod.idResult sec bins) s
/-- ISLANDING_CHECK. -/
def execIslandingCheck (sec : Nat) (s : State) : Host.Outcome State Fault Refusal := secStep sec (Mod.islandingCheck sec) s
/-- RT_CURVE_CHECK. -/
def execRtCurveCheck (sec : Nat) (s : State) : Host.Outcome State Fault Refusal := secStep sec (Mod.curveCheck sec) s
/-- FREQ_TRIP_STAGE. -/
def execFreqTripStage (sec stage : Nat) (s : State) : Host.Outcome State Fault Refusal :=
  onUnit (secOk sec && stage < 4) s (s.m.alsoSaved (Mod.freqTrip sec stage))
/-- RECOV_TIME_MET. -/
def execRecovTimeMet (sec : Nat) (s : State) : Host.Outcome State Fault Refusal := secStep sec (Mod.recovTimeMet sec) s
/-- RT_RECOVERY_COMPLETE. -/
def execRtRecoveryComplete (sec : Nat) (s : State) : Host.Outcome State Fault Refusal := secStep sec (Mod.rtComplete sec) s
/-- LOSS_OF_SYNC. -/
def execLossOfSync (sec : Nat) (s : State) : Host.Outcome State Fault Refusal := secStep sec (Mod.lossOfSync sec) s
/-- LOS_BLANK_END. -/
def execLosBlankEnd (sec : Nat) (s : State) : Host.Outcome State Fault Refusal := secStep sec (Mod.losBlankEnd sec) s
/-- CURRENT_LIMIT_RELEASE. -/
def execCurrentLimitRelease (sec : Nat) (s : State) : Host.Outcome State Fault Refusal := secStep sec (Mod.limitRelease sec) s

end Sys2Proof.Machine
end

