-- ==== Sys2Proof/Machine/Dc.lean ====
section
/-!
DEFINITION. The DC channels: their states (R208, R209, R212 to R214), maximum power point tracking (R215, R216) and the
global scan (R217).
-/
namespace Sys2Proof.Machine

/-- Start of a channel (R208, R209, R214, R516): a status. -/
def Mod.dcStart (c seq : Nat) (m : Mod) : Mod × Nat :=
  let g := 4 + c
  let roles := !(m.assigned g 7).isEmpty && !(m.assigned g 8).isEmpty && (!(m.assigned g 4).isEmpty || m.hasHalves g)
  if m.dcs c ≠ dcRest || m.startBlocked g || !roles || m.get (Ob.dcMode c) = 0 then (m, 0x12)
  else
    let m1 := if m.faultState 1 g = 3 then m.put (Ob.unitFaultState g) 0 else m
    let m2 := (m1.modDc c (fun x => { x with
      start := some seq, toWait := false, expired := false, expDue := false, entryPs := none
      limitPs := if m.get (Ob.limitTimeout c) = 0 then none else some (m.now + msPs (m.get (Ob.limitTimeout c))) })).loadMap g |>.dcRouting c
    ((m2.putBit (Ob.limitFlags c) 6 false).dcTo c dcWait sevInfo 0, 3)

/-- The stop of a channel begins: i_hi and i_lo ramp to 0 from where they stand. -/
def Mod.dcWindDown (c : Nat) (back : Bool) (m : Mod) : Mod :=
  let l := m.dcLimits c
  let e (x : EngRt) : EngRt := { x with iOut := x.iOut.set c (max 0 l.2), iIn := x.iIn.set c (max 0 (-l.1)) }
  ({ m with eng := e m.eng, saved := e m.saved }.modDc c (fun x => { x with
    toWait := back, stopPs := some (m.now + sPs 10), scan := false, waits := false })).dcTo c dcStopping sevInfo 0

/-- A period or a dwell begins: its sums start at 0 (R215, R217). -/
def Mod.periodBegins (c : Nat) (m : Mod) : Mod :=
  m.modDc c (fun x => { x with perPs := m.now, perP := 0, perN := 0, partV := 0, partP := 0, partN := 0 })

/-- A scan that runs is over (R217): V_MPP_REF at `v`, SCAN_RESULT `r`. -/
def Mod.scanOver (c r : Nat) (v : Int) (m : Mod) : Mod :=
  ((m.putQ (Ob.vMppRef c) v).put (Ob.scanResult c) r).modDc c (fun x => { x with scan := false, big := true, vPrev := none }) |>.periodBegins c

/-- Stop of a channel at the host's command (R213, R214). -/
def Mod.dcStop (c : Nat) (m : Mod) : Mod :=
  let st := m.dcs c
  if st = dcRunning then m.dcWindDown c false
  else if st = dcWait || st = dcHold then m.dcToRest c sevInfo 0
  else if st = dcStopping then m.modDc c (fun x => { x with toWait := false })
  else m

/-- The link and the source of a channel in this tick: the entry conditions of R213, their times apart. -/
def Mod.dcEntryOk (m : Mod) (c : Nat) : Bool :=
  let v := m.eng.dcSignal c 1
  let vs := pu v * m.getF (Ob.vDcBase c)
  let vl := pu (m.eng.dcSignal c 2) * m.linkBase (4 + c)
  let valid := (m.linkChans (4 + c)).all (fun n => m.eng.valid.getD n false)
  let src := if m.get (Ob.dcMode c) = 1 then m.getS (Ob.pvVStart c) ≤ v
             else m.getS (Ob.vDisMin c) ≤ v && v ≤ m.getS (Ob.vChgMax c)
  valid && src && vs ≤ 95 / 100 * vl

/-- The entry time of a channel in ps (R213). -/
def Mod.entryTimePs (m : Mod) (c : Nat) : Nat := if m.get (Ob.dcMode c) = 1 then sPs (m.get (Ob.pvStartDelay c)) else msPs 100

/-- A limit as it stands at an instant where it has ramped to 0 at I_RAMP since its expiry (R212). -/
def Mod.limitAtEntry (m : Mod) (c : Nat) (v : Int) : Int :=
  let x := m.dcAt c
  if x.expired then max 0 (v - q29Of (m.getF (Ob.iRamp c) * ((m.now - x.expPs : Nat) : Rat) / 1000000000000)) else v

/-- The entry conditions have held for their time: PWM starts at the next carrier boundary (R213). -/
def Mod.dcEntryMet (c : Nat) (m0 : Mod) : Mod :=
  match (m0.dcAt c).entryPs with
  | none   => m0
  | some t =>
    if m0.dcs c = dcWait then
      let m := m0.reach (t + m0.entryTimePs c)
      let e (x : EngRt) : EngRt := { x with
        iSet := x.iSet.set c 0, iOut := x.iOut.set c (m.limitAtEntry c (m.iOutNow c)), iIn := x.iIn.set c (m.limitAtEntry c (m.iInNow c)) }
      let v := m.eng.dcSignal c 1
      let m1 := ((m.enableDc c).putQ (Ob.vMppRef c) v).modGrp (4 + c) (fun g => { g with starting := true })
      let m2 := (m1.modDc c (fun x => { x with
        vPrev := none, sign := 1, big := false, scan := false, waits := false, scanPs := m.now, entryPs := none, pLowPs := none
        outPs := none, vRef := v, pMean := 0 })).periodBegins c
      { m2 with eng := e m2.eng, saved := e m2.saved }.dcTo c dcRunning sevInfo 0
    else m0

/-- P_SRC has stayed at most 0.002 pu for 60 s (R213). -/
def Mod.pvLow (c : Nat) (m : Mod) : Mod :=
  match (m.dcAt c).pLowPs with
  | some t => if m.dcs c = dcRunning && m.get (Ob.dcMode c) = 1 then (m.reach (t + sPs 60)).dcWindDown c true else m
  | none   => m

/-- Whether the source of a battery stands out of its window by more than 0.02 pu (R213). -/
def Mod.batteryBeyond (m : Mod) (c : Nat) : Bool :=
  let v := m.eng.dcSignal c 1
  m.getS (Ob.vChgMax c) + 10737418 < v || v < m.getS (Ob.vDisMin c) - 10737418

/-- The battery has stood out of its window for 10 ms (R213): PWM off at the next carrier boundary, 3502h. -/
def Mod.batteryOut (c : Nat) (m : Mod) : Mod :=
  match (m.dcAt c).outPs with
  | some t =>
    if m.dcs c = dcRunning && m.get (Ob.dcMode c) = 2 then
      ((m.reach (t + msPs 10)).modGrp (4 + c) (fun g => { g with stopping := true })).dcRested c sevFault 0x3502
    else m
  | none   => m

/-- The stop of a channel ends (R213), with abs(i) at most 0.01 pu or 10 s after its entry: PWM off at the next carrier boundary,
REST, or WAIT after a low-power stop. -/
def Mod.dcStopDone (c : Nat) (m : Mod) : Mod :=
  if m.dcs c = dcStopping then
    let m0 := if absI (m.eng.dcSignal c 0) * 100 ≤ one29 then m else m.reach ((m.dcAt c).stopPs.getD 0)
    let m1 := m0.modGrp (4 + c) (fun g => { g with stopping := g.on })
    if (m.dcAt c).toWait then
      ((m1.stopCtx (4 + c)).modDc c (fun x => { x with stopPs := none, toWait := false, entryPs := none })).dcTo c dcWait sevInfo 0
    else m1.dcRested c sevInfo 0
  else m

/-- LIMIT_TIMEOUT has passed without a write of a limit (R212): the limits expire at the next boundary, unless a limit is written for
it. -/
def Mod.limitsExpire (c : Nat) (m : Mod) : Mod :=
  match (m.dcAt c).limitPs with
  | some t => if m.dcs c ≠ dcRest then (m.reach t).modDc c (fun x => { x with expDue := true, limitPs := none }) else m
  | none   => m

/-- An expiry that no write has met acts at its boundary (R212). -/
def Mod.expireActs (c : Nat) (m : Mod) : Mod :=
  if (m.dcAt c).expDue then
    ((m.modDc c (fun x => { x with expDue := false, expired := true, expPs := m.now })).putBit (Ob.limitFlags c) 6 true).raise
      72 sevWarn 0x3503 (65536 * c)
  else m

/-- A write of a limit at its boundary (R212): the timer restarts, and the limits are fresh. -/
def Mod.limitsFresh (c : Nat) (m : Mod) : Mod :=
  let t := m.get (Ob.limitTimeout c)
  (m.modDc c (fun x => { x with
    expired := false, expDue := false, limitPs := if t = 0 || m.dcs c = dcRest then none else some (m.now + msPs t) })).putBit
    (Ob.limitFlags c) 6 false

/-- A write of LIMIT_TIMEOUT (R212): 0 disables the timer. -/
def Mod.timeoutWritten (c : Nat) (m : Mod) : Mod :=
  if m.get (Ob.limitTimeout c) = 0 then m.modDc c (fun x => { x with limitPs := none, expDue := false }) else m

/-! ### MPPT (R215, R216) -/

/-- Sign of a number. -/
def sgn (x : Int) : Int := if x < 0 then -1 else if x = 0 then 0 else 1
def sgnR (x : Rat) : Rat := if x < 0 then -1 else if x = 0 then 0 else 1

/-- V_MPP_REF held within its bounds (R215). -/
def Mod.mppClamp (m : Mod) (c : Nat) (v : Int) : Int :=
  let vl := pu (m.eng.dcSignal c 2) * m.linkBase (4 + c)
  let b := m.getF (Ob.vDcBase c)
  let top := if b = 0 then m.getS (Ob.vMppMax c) else min (m.getS (Ob.vMppMax c)) (q29Of (95 / 100 * vl / b))
  min (clampI (m.getS (Ob.vMppMin c)) (m.getS (Ob.vMppMax c)) v) top

/-- Whether a cap of R216 is set. -/
def Mod.capped (m : Mod) (c : Nat) : Bool := bit (m.get (Ob.limitFlags c)) 0 || bit (m.get (Ob.limitFlags c)) 4

/-- Whether a scan has to wait or to end (R217): a cap, a ride-through or a hold of a section on the link. -/
def Mod.scanBlocked (m : Mod) (c : Nat) : Bool :=
  m.capped c || (List.range 4).any (fun s => m.inUse s && m.linkId s = m.linkId (4 + c) && (m.rt s ≠ 0 || m.gf s = gfHold))

/-- The voltage of scan point `k`: equal steps from SCAN_V_HIGH down to SCAN_V_LOW. -/
def Mod.scanVolts (m : Mod) (c k : Nat) : Int :=
  let hi := m.getS (Ob.scanVHigh c)
  let n := m.get (Ob.scanPoints c)
  if n ≤ 1 then hi else q29OfLsb ((hi : Rat) - ((hi - m.getS (Ob.scanVLow c) : Int) : Rat) * (k : Nat) / ((n - 1 : Nat) : Rat))

/-- A global scan starts (R217): P0 and V0 are those of the last full MPPT period. -/
def Mod.scanStart (c : Nat) (m : Mod) : Mod :=
  let m1 := (m.modDc c (fun x => { x with
    scan := true, waits := false, point := 0, p0 := x.pMean, v0 := x.vRef, vBest := 0, pBest := min29, scanPs := m.now })).periodBegins c
  (m1.put (Ob.scanTime c) m.t64).putQ (Ob.vMppRef c) (m.scanVolts c 0)

/-- A scan that meets its condition returns to V0 at once and waits (R217). -/
def Mod.scanAbort (c : Nat) (m : Mod) : Mod :=
  (m.scanOver c 3 (m.dcAt c).v0).modDc c (fun x => { x with waits := true })

/-- The step of R215 from the previous period to this one. -/
def Mod.mpptMove (m : Mod) (c : Nat) (v p vPrev pPrev sign : Int) (big : Bool) : Int × Int :=
  let ref := m.getS (Ob.vMppRef c)
  let lo := m.getS (Ob.stepMin c)
  let hi := m.getS (Ob.stepMax c)
  let dV := v - vPrev
  let dP := p - pPrev
  let s0 := m.getF (Ob.stepGain c) * pu (absI dP) / maxR (pu (absI dV)) (pu lo)
  let step := if big then hi else clampI lo hi (q29Of s0)
  if m.getS (Ob.pvPLimit c) < p then (ref + hi, sign)
  else if m.get (Ob.mpptMethod c) = 0 then
    if absI dP ≤ m.getS (Ob.pDeadband c) then (ref + sign * lo, sign)
    else
      let s1 := sgn dP * sgn dV
      (ref + s1 * step, s1)
  else
    let iK : Rat := if v = 0 then 0 else (p : Rat) / (v : Rat)
    let iP : Rat := if vPrev = 0 then 0 else (pPrev : Rat) / (vPrev : Rat)
    let g : Rat := if dV = 0 then sgnR (iK - iP) else (iK - iP) / pu dV + (if v = 0 then 0 else iK / pu v)
    if iK < 0 || absR g * pu v ≤ m.getF (Ob.incTol c) * iK then (ref, sign)
    else (q29OfLsb ((ref : Rat) + sgnR g * step), sign)

/-- The mean of a sum over a number of ticks, in LSB; 0 over none. -/
def meanOver (sum : Int) (n : Nat) : Int := if n = 0 then 0 else q29OfLsb ((sum : Rat) / (n : Rat))

/-- The means of the period that ends: its power is P_SRC, and P0 and V0 of a scan that starts next (R215, R217). -/
def Mod.periodEnds (c : Nat) (m : Mod) : Mod :=
  let x := m.dcAt c
  let p := meanOver x.perP x.perN
  ((m.putQ (Ob.pSrc c) p).modDc c (fun y => { y with pMean := p, vRef := m.getS (Ob.vMppRef c) })).periodBegins c

/-- One MPPT period ends (R215 to R217): V_k and P_k are the means over its last quarter; without a tick in it there is no step. -/
def Mod.mpptStep (c : Nat) (m : Mod) : Mod :=
  let x := m.dcAt c
  if m.dcs c ≠ dcRunning || m.get (Ob.dcMode c) ≠ 1 || x.scan || x.partN = 0 then m
  else
    let v := meanOver x.partV x.partN
    let p := meanOver x.partP x.partN
    let m1 := ((m.reach (x.perPs + msPs (m.get (Ob.mpptPeriod c)))).periodEnds c).putBit (Ob.limitFlags c) 7 (m.getS (Ob.pvPLimit c) < p)
    if m.capped c then
      (m1.putQ (Ob.vMppRef c) (m.eng.dcSignal c 1)).modDc c (fun y => { y with vPrev := some v, pPrev := p })
    else if x.waits && !m.scanBlocked c then m1.scanStart c
    else
      let r := match x.vPrev with
        | some vp => m1.mpptMove c v p vp x.pPrev x.sign x.big
        | none    =>
          if m.getS (Ob.pvPLimit c) < p then (m.getS (Ob.vMppRef c) + m.getS (Ob.stepMax c), x.sign)
          else (m.getS (Ob.vMppRef c) + x.sign * (if x.big then m.getS (Ob.stepMax c) else m.getS (Ob.stepMin c)), x.sign)
      (m1.putQ (Ob.vMppRef c) (m1.mppClamp c r.1)).modDc c (fun y => { y with vPrev := some v, pPrev := p, sign := r.2, big := false })

/-- SCAN_PERIOD expires (R217): dropped while a scan runs, waiting under its conditions. -/
def Mod.scanDue (c : Nat) (m : Mod) : Mod :=
  if m.dcs c = dcRunning && m.get (Ob.dcMode c) = 1 && m.get (Ob.scanPeriod c) ≠ 0 && !(m.dcAt c).scan then
    let m1 := m.reach ((m.dcAt c).scanPs + sPs (m.get (Ob.scanPeriod c)))
    if m1.scanBlocked c then m1.modDc c (fun x => { x with waits := true }) else m1.scanStart c
  else m

/-- SCAN_RUN (R217): a status. -/
def Mod.scanRunOp (c : Nat) (m : Mod) : Mod × Nat :=
  if m.dcs c ≠ dcRunning || m.get (Ob.dcMode c) ≠ 1 || m.scanBlocked c then (m, 0x12)
  else if (m.dcAt c).scan then (m, 3)
  else (m.scanStart c, 3)

/-- SCAN_DWELL ends at a point (R217), with the mean power of its second half: the next voltage, or V_best for the check. -/
def Mod.scanDwell (c : Nat) (m : Mod) : Mod :=
  let x := m.dcAt c
  if m.dcs c = dcRunning && x.scan && x.point < m.get (Ob.scanPoints c) && x.partN ≠ 0 then
    let p := meanOver x.partP x.partN
    let v := m.scanVolts c x.point
    let best := x.pBest < p
    let m1 := ((m.reach (x.perPs + msPs (m.get (Ob.scanDwell c)))).modDc c (fun y => { y with
      point := x.point + 1, vBest := if best then v else y.vBest, pBest := if best then p else y.pBest })).periodBegins c
    let y := m1.dcAt c
    if y.point < m.get (Ob.scanPoints c) then m1.putQ (Ob.vMppRef c) (m.scanVolts c y.point)
    else ((m1.putQ (Ob.vMppRef c) y.vBest).putQ (Ob.scanVBest c) y.vBest).putQ (Ob.scanPBest c) y.pBest
  else m

/-- The check period at V_best ends (R217): V_best stays, or the point returns to V0; EV073. DEDUCED, log entry 92. -/
def Mod.scanCheck (c : Nat) (m : Mod) : Mod :=
  let x := m.dcAt c
  if m.dcs c = dcRunning && x.scan && m.get (Ob.scanPoints c) ≤ x.point && x.perN ≠ 0 then
    let p := meanOver x.perP x.perN
    let keep := pu x.p0 * (1 + m.getF (Ob.scanMinGain c) / 100) ≤ pu p
    let m1 := ((m.reach (x.perPs + msPs (m.get (Ob.mpptPeriod c)))).periodEnds c).scanOver c (if keep then 1 else 2)
      (if keep then x.vBest else x.v0)
    let tenth : Nat := (x.pBest / 32768 % 16384).toNat
    m1.inform 73 ((if keep then 1 else 2) + 65536 * c + 262144 * tenth)
  else m

/-! ### What a tick adds (R213, R215, R217) -/

/-- Whether the tick lies in the part of a period whose means count: the last quarter, or the second half of a dwell. -/
def Mod.inPart (m : Mod) (c : Nat) : Bool :=
  let x := m.dcAt c
  if x.scan && x.point < m.get (Ob.scanPoints c) then x.perPs * 2 + msPs (m.get (Ob.scanDwell c)) ≤ m.now * 2
  else x.perPs * 4 + 3 * msPs (m.get (Ob.mpptPeriod c)) ≤ m.now * 4

/-- The sums of a period or a dwell with a tick's source voltage and power. -/
def Mod.addPower (c : Nat) (m : Mod) : Mod :=
  let v := m.eng.dcSignal c 1
  let p := m.eng.dcSignal c 0xC
  let part := m.inPart c
  m.modDc c (fun x => { x with
    perP := x.perP + p, perN := x.perN + 1, partV := if part then x.partV + v else x.partV, partP := if part then x.partP + p else x.partP
    partN := if part then x.partN + 1 else x.partN })

/-- What a channel's supervision reads from a tick: since when its conditions hold, its sums, and a scan that has to end. -/
def Mod.watchDc (c : Nat) (m : Mod) : Mod :=
  let st := m.dcs c
  let pv := m.get (Ob.dcMode c) = 1
  let m1 := m.modDc c (fun x => { x with
    entryPs := since m.now (st = dcWait && m.dcEntryOk c) x.entryPs
    pLowPs  := since m.now (st = dcRunning && pv && m.getS (Ob.pSrc c) * 500 ≤ one29) x.pLowPs
    outPs   := since m.now (st = dcRunning && !pv && m.batteryBeyond c) x.outPs })
  if st = dcRunning && pv then
    let m2 := m1.addPower c
    if (m2.dcAt c).scan && m2.scanBlocked c then m2.scanAbort c else m2
  else m1

/-! ### Consequential stops (R288) -/

/-- Units that R209 no longer allows to run, because a trip or a retirement took their link's regulator, stop without
ramps at the boundary: i* becomes 0 and the unit goes to REST with PWM off at the next carrier boundary. -/
def Mod.consequentialStops (m : Mod) : Mod :=
  m.each [4, 5, 6, 7] (fun g m =>
    let c := g - 4
    if m.running g && m.needsRegulator g && !((m.linkRunning g).any m.regulates) then
      ((m.putQ (Ob.iStar c) 0).modGrp g (fun x => { x with stopping := x.on, starting := false })).dcRested c sevInfo 0
    else m)

/-! ### The commands of a channel without a frame -/

/-- The effect of a channel's event, undone by no overrun. -/
def dcStep (chan : Nat) (f : Mod → Mod) (s : State) : Host.Outcome State Fault Refusal :=
  onUnit (dcOk chan) s (s.m.alsoSaved f)

/-- DC_ENTRY_CONDITIONS_MET. -/
def execDcEntryConditionsMet (chan : Nat) (s : State) : Host.Outcome State Fault Refusal := dcStep chan (Mod.dcEntryMet chan) s
/-- PV_LOW_POWER. -/
def execPvLowPower (chan : Nat) (s : State) : Host.Outcome State Fault Refusal := dcStep chan (Mod.pvLow chan) s
/-- BATTERY_OUT_OF_WINDOW. -/
def execBatteryOutOfWindow (chan : Nat) (s : State) : Host.Outcome State Fault Refusal := dcStep chan (Mod.batteryOut chan) s
/-- DC_STOP_COMPLETE. -/
def execDcStopComplete (chan : Nat) (s : State) : Host.Outcome State Fault Refusal := dcStep chan (Mod.dcStopDone chan) s
/-- DC_LIMITS_EXPIRED. -/
def execDcLimitsExpired (chan : Nat) (s : State) : Host.Outcome State Fault Refusal := dcStep chan (Mod.limitsExpire chan) s
/-- MPPT_STEP. -/
def execMpptStep (chan : Nat) (s : State) : Host.Outcome State Fault Refusal := dcStep chan (Mod.mpptStep chan) s
/-- SCAN_DUE. -/
def execScanDue (chan : Nat) (s : State) : Host.Outcome State Fault Refusal := dcStep chan (Mod.scanDue chan) s
/-- SCAN_DWELL_END. -/
def execScanDwellEnd (chan : Nat) (s : State) : Host.Outcome State Fault Refusal := dcStep chan (Mod.scanDwell chan) s
/-- SCAN_CHECK_END. -/
def execScanCheckEnd (chan : Nat) (s : State) : Host.Outcome State Fault Refusal := dcStep chan (Mod.scanCheck chan) s

end Sys2Proof.Machine
end

