-- ==== Sys2Proof/Machine/Filter.lean ====
section
/-!
DEFINITION. The filters on a bitstream (R88 to R91, R95): the window of captured bits, sinc3 with decimation ratio OSR for the
control samples, and sinc2 with ratio 16 for the fast-overcurrent detectors. A window is a number whose bit 0 is the newest bit.
-/
namespace Sys2Proof.Machine

/-- Bits that a window keeps: the longest, of OSR 256, has 766. -/
def windowBits : Nat := 768

/-- A window after `k` further bits, the newest in bit 0 of `w`. -/
def pushBits (win k w : Nat) : Nat := (win * 2 ^ k + w % 2 ^ k) % 2 ^ windowBits

/-- The 32 newest bits of a window are identical (R109). -/
def stuck32 (win : Nat) : Bool := win % 4294967296 = 0 || win % 4294967296 = 4294967295

/-- n choose 2. -/
def choose2 (n : Nat) : Nat := n * (n - 1) / 2

/-- Weight of the bit `j` places before the newest in a sinc3 filter of ratio `r`: the coefficient of z^j in the cube of
1 + z + … + z^(r − 1). -/
def sinc3Weight (r j : Nat) : Nat :=
  choose2 (j + 2) + (if 2 * r ≤ j then 3 * choose2 (j + 2 - 2 * r) else 0) - (if r ≤ j then 3 * choose2 (j + 2 - r) else 0)

/-- Weight of that bit in a sinc2 filter of ratio `r`. -/
def sinc2Weight (r j : Nat) : Nat := if j < r then j + 1 else 2 * r - 1 - j

/-- The sum of the weights whose bits are 1. -/
def weighted (f : Nat → Nat) (n win : Nat) : Nat := (List.range n).foldl (fun a j => if win.testBit j then a + f j else a) 0

/-- The control filter's result d in q29 from −1 to +1 (R90). -/
def sinc3 (r win : Nat) : Int :=
  let cube := r * r * r
  if cube = 0 then 0
  else q29OfLsb ((536870912 * (2 * (weighted (sinc3Weight r) (3 * r - 2) win : Int) - cube) : Int) / (cube : Rat))

/-- The detector's result of its 31 newest bits in q29 (R95); it is a whole number of LSB. -/
def sinc2 (win : Nat) : Int := 2097152 * (2 * (weighted (sinc2Weight 16) 31 win : Int) - 256)

end Sys2Proof.Machine
end

