-- ==== Sys2Proof/Machine/Measure.lean ====
section
/-!
DEFINITION. The measurement chain (R86 to R116): scaling with temperature compensation, the calibration, loss of a
clock or a stream, plausibility, the fast-overcurrent detectors, metering, grid frequency and phase, and the compute
phase that starts when the samples are ready.
-/
namespace Sys2Proof.Machine

/-- A mask of numbers. -/
def maskOf (l : List Nat) : Nat := l.foldl (fun a k => a ||| 2 ^ k) 0

def Mod.modMeas (f : MeasRt → MeasRt) (m : Mod) : Mod := { m with meas := f m.meas }
def Mod.modCh (n : Nat) (f : MeasCh → MeasCh) (m : Mod) : Mod := m.modMeas (fun x => { x with ch := x.ch.modify n f })
def Mod.chAt (m : Mod) (n : Nat) : MeasCh := m.meas.ch.getD n {}

/-- Whether every user of a channel is at rest. -/
def Mod.usersRest (m : Mod) (n : Nat) : Bool := (groupsOf (m.owners n)).all (fun g => !m.inUse g || m.atRest g)

/-! ### Scaling (R98) -/

/-- k_temp from the latest reading of the sensor that TEMP_SRC names. -/
def Mod.kTempNow (m : Mod) (n : Nat) : Rat :=
  let k := m.get (Ob.tempSrc n)
  if k = 255 then 1
  else 1 + (m.getS16 (Ob.tempco n) : Rat) / 10000000 * ((m.getS16 (Ob.thermTemp k) : Rat) / 100 - m.getF (Ob.tempRef n))

/-- The lane whose converter's readings the module acts on (R417, R446). -/
def Mod.hkActing (m : Mod) : Option Nat :=
  if m.get (Ob.hkState m.lane) = 0 then some m.lane
  else if m.get (Ob.hkState (1 - m.lane)) = 0 then some (1 - m.lane) else none

/-- k_temp in force: held while the references of the lane whose readings it uses disagree (R105), and while the sensor that TEMP_SRC
names is not valid (R98, R419). DEDUCED, log entry 45. -/
def Mod.kTempOf (m : Mod) (n : Nat) : Rat :=
  let k := m.get (Ob.tempSrc n)
  if k ≠ 255 && (m.meas.refHeld.getD (m.hkActing.getD m.lane) false || m.get (Ob.sensorState k) ≠ 0) then (m.chAt n).kTemp else m.kTempNow n

/-- The product CAL_GAIN × k_temp × FS_PHYS / base. -/
def Mod.productOf (m : Mod) (n : Nat) (kTemp : Rat) : Rat :=
  let b := m.chBase n
  if b = 0 then 0 else (m.get (Ob.calGain n) : Rat) / 1073741824 * kTemp * m.getF (Ob.fsPhys n) / b

/-- Once per housekeeping round: the product that applies at the next boundary, moved by at most 10 ppm.
DEDUCED, log entry 45. -/
def Mod.formProducts (m : Mod) : Mod :=
  m.each (List.range 24) (fun n m =>
    let k := m.kTempOf n
    let old := (m.chAt n).prod
    m.modCh n (fun x => { x with kTemp := k, next := some (towards (absR old / 100000) (m.productOf n k) old) }))

/-- Whether the offset of a channel may be tracked (R104): all of its users at rest, and both relays open. -/
def Mod.quiet (m : Mod) (n : Nat) : Bool := m.usersRest n && m.bothOpen

/-- At a boundary: the product of a round, or in full where every user is at rest; and since when the channel is quiet.
DEDUCED, log entry 45. -/
def Mod.applyProducts (m : Mod) : Mod :=
  m.each (List.range 24) (fun n m =>
    let restPs := if m.quiet n then some ((m.chAt n).restPs.getD m.now) else none
    if m.usersRest n then
      m.modCh n (fun x => { x with
        prod := m.productOf n (m.kTempOf n), kTemp := m.kTempOf n, next := none, restPs := restPs
        trkPs := if x.restPs.isNone then m.now else x.trkPs })
    else m.modCh n (fun x => { x with prod := x.next.getD x.prod, next := none, restPs := restPs }))

/-- The references of a lane's converter in a round of 10 ms (R105): their disagreement in 0.01 ppm, filtered with a time constant of
10 s; 500 ppm and EV040, until below 400 ppm. -/
def Mod.refDisagree (lane : Nat) (v : Int) (m : Mod) : Mod :=
  let old := m.meas.refFilt.getD lane 0
  let f := old + ((v : Rat) - old) / 1000
  let m1 := (m.modMeas (fun x => { x with refFilt := x.refFilt.set lane f })).putS (if lane = 0 then Ob.refDisagreeA else Ob.refDisagreeB)
    (wholeNear f)
  let held := m.meas.refHeld.getD lane false
  if !held && 50000 ≤ absR f then
    (m1.modMeas (fun x => { x with refHeld := x.refHeld.set lane true })).raise 40 sevWarn 0x200C lane
  else if held && absR f < 40000 then m1.modMeas (fun x => { x with refHeld := x.refHeld.set lane false })
  else m1

/-- A reading of a lane's converter, corrected by the filtered disagreement of its references (R105).
DESIGN CHOICE, log entry 117. -/
def Mod.corrected (m : Mod) (lane : Nat) (t : Int) : Int :=
  let f := m.meas.refFilt.getD lane 0
  if f = 0 then t else Config.refCorrected t f

/-! ### States of the channels (R86, R108) -/

/-- CH_STATE and MCLK_STATE as the configuration in force has them. -/
def Mod.showChannels (m : Mod) : Mod :=
  let m1 := m.each (List.range 4) (fun k m =>
    if m.get (Ob.mclkFreq k) = 255 then m.put (Ob.mclkState k) 1
    else if m.get (Ob.mclkState k) = 1 then m.put (Ob.mclkState k) 0 else m)
  m1.each (List.range 24) (fun n m =>
    let st := m.get (Ob.chState n)
    if m.get (Ob.role n) = 0 then m.put (Ob.chState n) 255
    else if m.retired 2 n then m.put (Ob.chState n) 5
    else if m.get (Ob.mclkFreq (m.get (Ob.mclkSrc n))) = 255 then m.put (Ob.chState n) 1
    else if st = 255 then m.put (Ob.chState n) 4
    else m)

/-- What a channel has captured counts no more: it is lost, or it begins to settle (R92, R108). -/
def Mod.spoilBits (n : Nat) (m : Mod) : Mod := m.modCh n (fun x => { x.spoilt with badPs := some m.now })

/-- The MCLK of a channel has changed: it settles. DEDUCED, log entry 44. -/
def Mod.resettle (n : Nat) (m : Mod) : Mod :=
  if m.get (Ob.chState n) = 255 || m.get (Ob.chState n) = 5 then m else (m.put (Ob.chState n) 4).spoilBits n

/-- MCLK `k` has another frequency, or none any more (R86). DEDUCED, log entry 94. -/
def Mod.mclkChanged (k : Nat) (m : Mod) : Mod :=
  (m.put (Ob.mclkState k) (if m.get (Ob.mclkFreq k) = 255 then 1 else 0)).each
    ((List.range 24).filter (fun n => m.get (Ob.mclkSrc n) = k)) Mod.resettle

/-- 3 × OSR + 31 good bits have arrived since the channel was lost or its MCLK changed (R108): it becomes valid at the next boundary.
DEDUCED, log entry 44. -/
def Mod.channelSettled (n : Nat) (m : Mod) : Mod :=
  let st := m.get (Ob.chState n)
  if 1 ≤ st && st ≤ 5 && m.get (Ob.mclkFreq (m.get (Ob.mclkSrc n))) ≠ 255
      && 3 * m.get (Ob.osr n) + 31 ≤ (m.chAt n).good.getD 0 then
    m.modCh n (fun x => { x with settled := true })
  else m

/-- A channel that has settled becomes valid at a boundary, one retired apart, and its MCLK counts as running (R108, R109, R301). -/
def Mod.settleActs (n : Nat) (m : Mod) : Mod :=
  if (m.chAt n).settled then
    let k := m.get (Ob.mclkSrc n)
    let m1 := ((if 2 ≤ m.get (Ob.mclkState k) then m.put (Ob.mclkState k) 0 else m).modMeas (fun x => { x with
      lost := setBit x.lost n false })).modCh n (fun x => { x with settled := false, clean := none })
    if m.get (Ob.chState n) = 5 then m1 else m1.put (Ob.chState n) 0
  else m

/-- The channels whose users continue on the partner from this boundary on (R111): invalid ones with a valid partner. -/
def Mod.fallBack (m : Mod) : Mod :=
  m.modMeas (fun x => { x with fall := maskOf ((List.range 24).filter (fun n => !m.chValid n && (m.partner n).isSome)) })

/-! ### Calibration (R100 to R103) -/

def Mod.modCal (f : CalRt → CalRt) (m : Mod) : Mod := m.modMeas (fun x => { x with cal := f x.cal })

/-- CAL_STATE. -/
def Mod.showCal (m : Mod) : Mod :=
  let c := m.meas.cal
  m.put Ob.calState (if c.run.isSome then 1 else if c.zero && c.span ≠ 0 then 4 else if c.span ≠ 0 then 3 else if c.zero then 2 else 0)

/-- The gain that point 03h computes; none where it has no value. DEDUCED, log entry 43; DESIGN CHOICE, log entry 52. -/
def Mod.newGainOf (m : Mod) : Option Rat :=
  let c := m.meas.cal
  let d := if c.span = 1 then pu (m.getS Ob.dSpan - m.getS Ob.dZero) else pu (m.getS Ob.dSpan)
  let q := m.getF (Ob.fsPhys c.chan) * d
  if q = 0 then none else some ((f32Val c.ref).getD 0 / q)

/-- A gain as the raw value of CAL_GAIN: 1.0 is 2^30. -/
def gainRaw (g : Rat) : Int := wholeNear (g * 1073741824)

/-- NEW_OFFSET and NEW_GAIN once both points stand. DEDUCED, log entry 43. -/
def Mod.showNew (m : Mod) : Mod :=
  if m.meas.cal.zero && m.meas.cal.span ≠ 0 then
    let m1 := m.put Ob.newOffset (m.get Ob.dZero)
    match m.newGainOf with
    | some g => m1.put Ob.newGain (clampI 0 4294967295 (gainRaw g)).toNat
    | none   => let d := m1.drawNat; d.2.put Ob.newGain (d.1 % 4294967296)
  else m

/-- Whether R101 refuses a point of a channel. DEDUCED, log entry 43. -/
def Mod.calRefused (m : Mod) (n : Nat) (mayRun : Bool) : Bool :=
  !m.usersRest n || !m.chValid n || (m.meas.cal.run.isSome && !(mayRun && m.meas.cal.chan = n))

/-- Points 00h, 01h and 02h: the averaging starts (a status). A point of another channel drops the points that stand. -/
def Mod.calPoint (pt n ref seq blocks : Nat) (m : Mod) : Mod × Nat :=
  if m.calRefused n false then (m, 0x12)
  else
    let c := m.meas.cal
    let same := c.chan = n
    ((m.modCal (fun x => { x with
      run := some pt, seq := seq, chan := n, blocks := blocks, vals := []
      ref := if pt = 0 then (if same then c.ref else 0) else ref
      zero := same && c.zero && pt ≠ 0, span := if same && pt = 0 then c.span else 0 })).showCal, 3)

/-- The mean of whole numbers. -/
def meanV (l : List Int) : Rat := if l.isEmpty then 0 else ((l.foldl (· + ·) 0 : Int) : Rat) / (l.length : Nat)

/-- The standard deviation of whole numbers: the root of the mean square distance from their mean. DEDUCED, log entry 102. -/
def spreadV (l : List Int) : Rat :=
  let a := meanV l
  if l.isEmpty then 0 else sqrtExact ((l.map (fun (x : Int) => ((x : Rat) - a) * ((x : Rat) - a))).foldl (· + ·) 0 / (l.length : Nat))

/-- The point ends once its blocks are in (R101): the average and the standard deviation of their values. -/
def Mod.calPointDone (m : Mod) : Mod :=
  let c := m.meas.cal
  match c.run with
  | none    => m
  | some pt =>
    if c.vals.length < c.blocks then m
    else
      let m1 := (m.putQ (if pt = 0 then Ob.dZero else Ob.dSpan) (q29OfLsb (meanV c.vals))).putQ Ob.calSpread (q29OfLsb (spreadV c.vals))
      let m2 := m1.modCal (fun x => { x with run := none, vals := [], zero := x.zero || pt = 0, span := if pt = 0 then x.span else pt })
      (m2.showCal.showNew).inform 38 c.seq

/-- The running point is aborted with EV039. -/
def Mod.calAborted (m : Mod) : Mod :=
  if m.meas.cal.run.isSome then
    ((m.modCal (fun x => { x with run := none, vals := [] })).showCal).raise 39 sevWarn 0x200B m.meas.cal.seq
  else m

/-- A running point whose channel is not valid any more is aborted (R101). -/
def Mod.calWatch (m : Mod) : Mod := if m.chValid m.meas.cal.chan then m else m.calAborted

/-- Point 03h (R102). -/
def Mod.calApply (n : Nat) (m : Mod) : Mod × Nat :=
  let c := m.meas.cal
  if m.calRefused n false || c.chan ≠ n || !c.zero || c.span = 0 then (m, 0x12)
  else
    let off := m.getS Ob.dZero
    match m.newGainOf with
    | none   => (m, 0x11)
    | some g =>
      if absR (pu off) ≤ 5 / 100 && 9 / 10 ≤ g && g ≤ 11 / 10 then
        let m1 := (((m.keep (Ob.calOffset n) (m.get Ob.dZero)).keep (Ob.calGain n) (gainRaw g).toNat).put (Ob.offsetTrack n) 0).put
          (Ob.calTime n) m.t64
        ((m1.modCal (fun x => { x with zero := false, span := 0 })).showCal, 0)
      else (m, 0x11)

/-- Point 04h. -/
def Mod.calAbort (n : Nat) (m : Mod) : Mod × Nat :=
  if m.calRefused n true then (m, 0x12)
  else ((m.calAborted.modCal (fun x => { x with zero := false, span := 0 })).showCal, 0)

/-- OFFSET_TRACK from the mean of d − CAL_OFFSET over the 200 ms that end, once the channel has been quiet for 1 s (R104); the next
200 ms begin. DEDUCED, log entry 104. -/
def Mod.offsetTrackUpdate (n : Nat) (m : Mod) : Mod :=
  let r := m.get (Ob.role n)
  let x := m.chAt n
  match x.restPs with
  | none   => m
  | some t =>
    let endPs := x.trkPs + msPs 200
    if m.get (Ob.trackEn n) = 1 && (r = 1 || r = 7) && m.quiet n && t + sPs 1 ≤ endPs && x.trkN ≠ 0 then
      let mean : Rat := (x.trkSum : Rat) / (x.trkN : Nat)
      let m0 := m.reach endPs
      let m1 := m0.modCh n (fun y => { y with trkPs := m0.now, trkSum := 0, trkN := 0 })
      if 5 / 1000 * 536870912 < absR mean then m1.raise 41 sevWarn 0x200D n else m1.putQ (Ob.offsetTrack n) (q29OfLsb mean)
    else m

/-! ### Modulator faults (R109 to R113) -/

/-- Note a finding that only one lane made (R111, R295): the active lane's is a fault of its capture and it withdraws at
the next boundary; the standby lane's makes that lane unhealthy there. The answer says whether the finding acts. -/
def Mod.finding (lanes : Nat) (m : Mod) : Bool × Mod :=
  match m.oneLane lanes with
  | none   => (true, m)
  | some l =>
    if l = m.lane then
      let m1 : Mod := { m with prot := { m.prot with capture := some l } }
      (true, m1.laneFailsLater l 0x480A)
    else (false, m.laneFailsLater l 0x480A)

/-- A modulator fault on a channel (R111), found by `lanes`: it is lost; a valid partner serves in its place where `fallback` allows it
(EV037), otherwise its owners trip; and the modulator counter of the channel counts it. -/
def Mod.modulatorFault (st : Nat) (fallback : Bool) (perTick : Bool) (lanes : Nat) (n : Nat) (m : Mod) : Mod :=
  let k := m.get (Ob.chState n)
  if k = 255 || (1 ≤ k && k ≤ 3) then m
  else
    let m0 := ((if m.meas.cal.run.isSome && m.meas.cal.chan = n then m.calAborted else m).modMeas (fun x =>
      { x with lost := setBit x.lost n true })).spoilBits n
    let one := if perTick then none else m.oneLane lanes
    let m1 := if k = 5 then m0 else m0.put (Ob.chState n) st
    match (if fallback then m1.partner n else none) with
    | some p => (m1.assertTrip 0x4407 2 (laneBits lanes) (2 ^ n) (m.legsOfChan n) [] [n] perTick one).raise 37 sevWarn 0x200A (n + 256 * p)
    | none   => m1.assertTrip 0x4407 2 (laneBits lanes) (2 ^ n) (m.legsOfChan n) (groupsOf (m.owners n)) [n] perTick one

/-- A stream with 32 identical bits (R109): EV032. DEDUCED, log entry 44. -/
def Mod.streamLost (n : Nat) (clipped : Bool) (lanes : Nat) (m : Mod) : Mod :=
  let k := m.get (Ob.chState n)
  if k = 255 || (1 ≤ k && k ≤ 3) then m
  else
    let f := m.finding lanes
    if f.1 then
      (f.2.modulatorFault 2 true false lanes n).raise 32 sevFault (if clipped then 0x2004 else 0x2001) n
    else f.2

/-- Number of the lowest set bit below 4. -/
def lowestBit (v : Nat) : Nat := (bitsOf 4 v).headD 0

/-- The MCLKs of a mask that run. -/
def Mod.mclksOn (m : Mod) (mask : Nat) : List Nat := (bitsOf 4 mask).filter (fun k => m.get (Ob.mclkFreq k) ≠ 255)

/-- MCLKs lost at their pins (R109): a modulator fault on every channel of each, and one EV033. -/
def Mod.mclkLost (mask lanes : Nat) (m : Mod) : Mod :=
  let ks := (m.mclksOn mask).filter (fun k => m.get (Ob.mclkState k) ≠ 2)
  if ks.isEmpty then m
  else
    let f := m.finding lanes
    if f.1 then
      let m1 := f.2.each ks (fun k m => m.put (Ob.mclkState k) 2)
      let hit := (List.range 24).filter (fun n => m.get (Ob.role n) ≠ 0 && ks.contains (m.get (Ob.mclkSrc n)))
      (m1.each hit (Mod.modulatorFault 1 true false lanes)).raise 33 sevFault 0x2002
        (lowestBit (maskOf ks) + 256 * maskOf ks)
    else f.2

/-- A lane finds its own generators lost (R111): EV033, and the lane gives up control or is unhealthy. -/
def Mod.mclkLostInLane (l mask : Nat) (m : Mod) : Mod :=
  let ks := m.mclksOn mask
  if ks.isEmpty then m
  else
    let m1 := if l = m.lane then m.each ks (fun k m => m.put (Ob.mclkState k) 3) else m
    (m1.raise 33 sevFault 0x2003 (lowestBit (maskOf ks) + 256 * maskOf ks)).laneFails l 0x2003

/-! ### Plausibility (R112, R113) -/

/-- The place of a check: 0 current sum of a section, 1 redundant pair by its lower channel, 2 split link of a section, 3 clipping of
a channel. -/
def checkIx (kind unit : Nat) : Nat :=
  if kind = 0 then unit else if kind = 1 then 4 + unit else if kind = 2 then 28 + unit else 32 + unit

/-- Whether the control sample of a channel is valid in the tick. -/
def Mod.sampleOk (m : Mod) (n : Nat) : Bool := m.eng.valid.getD n false

/-- The first section in the owners of a channel. -/
def Mod.firstSection (m : Mod) (n : Nat) : Option Nat := (List.range 4).find? (fun s => bit (m.owners n) s)

/-- The channels that a check involves; none where it does not run. -/
def Mod.checkChans (m : Mod) (kind u : Nat) : List Nat :=
  if kind = 0 then (if m.get (Ob.sumCheckEn u) = 1 && m.hasPhases u 1 then m.roleChans u 1 else [])
  else if kind = 1 then
    let p := m.get (Ob.redundantWith u)
    if u < p && p < 24 && m.get (Ob.redundantWith p) = u && m.get (Ob.role u) ≠ 0 && (m.firstSection u).isSome then [u, p] else []
  else if kind = 2 then
    if (m.assigned u 4).isEmpty || (m.assigned u 5).isEmpty || (m.assigned u 6).isEmpty then []
    else m.roleChans u 4 ++ m.roleChans u 5 ++ m.roleChans u 6
  else if m.get (Ob.role u) ≠ 0 then [u] else []

/-- Whether the condition of a check holds in the tick, on valid samples. DEDUCED, log entry 103. -/
def Mod.checkHolds (m : Mod) (kind u : Nat) : Bool :=
  let l := m.checkChans kind u
  let x (n : Nat) : Int := m.getS (Ob.sample n)
  let sum (r : Nat) : Int := ((m.roleChans u r).map x).foldl (· + ·) 0
  !l.isEmpty && l.all m.sampleOk &&
    (if kind = 0 then m.getS (Ob.sumLimit u) < absI (sum 1)
     else if kind = 1 then m.getS (Ob.pairLimit ((m.firstSection u).getD 0)) < absI (x (l.getD 0 0) - x (l.getD 1 0))
     else if kind = 2 then m.getS (Ob.dclLimit u) < absI (sum 5 + sum 6 - sum 4)
     else 49 * one29 ≤ 50 * absI (m.getS (Ob.rawD u)))

/-- The ticks in a row after which a check fails. DEDUCED, log entry 103. -/
def Mod.checkTicks (m : Mod) (kind u : Nat) : Nat :=
  if kind = 0 then m.get (Ob.sumTime u) else if kind = 1 then m.get (Ob.pairTime ((m.firstSection u).getD 0))
  else if kind = 2 then 4 else 8

/-- A check after a tick in which its condition held or did not; it is armed again after 100 ticks without it. -/
def CheckRt.after (holds : Bool) (x : CheckRt) : CheckRt :=
  if holds then { x with run := min 1000 (x.run + 1), calm := 0 }
  else { run := 0, calm := min 100 (x.calm + 1), failed := x.failed && x.calm < 99 }

/-- The checks of a tick's samples. DEDUCED, log entry 103. -/
def Mod.runChecks (m : Mod) : Mod :=
  let of (kind n : Nat) : List CheckRt :=
    (List.range n).map (fun u => (m.meas.checks.getD (checkIx kind u) {}).after (m.checkHolds kind u))
  m.modMeas (fun x => { x with checks := of 0 4 ++ of 1 24 ++ of 2 4 ++ of 3 24 })

/-- A check that has held for its ticks fails, once an episode (R113): a modulator fault on every channel it involves. -/
def Mod.plausibility (kind u : Nat) (m : Mod) : Mod :=
  let x := m.meas.checks.getD (checkIx kind u) {}
  let ns := m.checkChans kind u
  if ns.isEmpty || x.failed || x.run < m.checkTicks kind u then m
  else
    let m0 := m.modMeas (fun y => { y with checks := y.checks.set (checkIx kind u) { x with failed := true } })
    let m1 := m0.each ns (Mod.modulatorFault (if kind = 3 then 2 else 3) false true m.lanesUp)
    if kind = 3 then m1.raise 32 sevFault 0x2004 u
    else m1.raise 36 sevFault (if kind = 0 then 0x2005 else if kind = 1 then 0x2006 else 0x2007) (maskOf ns)

/-! ### Fast-overcurrent detectors (R95 to R97, R116, R284) -/

/-- The fault code of a detector's trip by the role of its channel (R309). -/
def focFault (role : Nat) : Nat :=
  if role = 1 || role = 7 then 0x4401 else if 4 ≤ role && role ≤ 6 then 0x4403 else 0x4409

/-- The channels whose detectors act: in a role and enabled; on ROLE 01h it is never off (R97). -/
def Mod.focWatched (m : Mod) (n : Nat) : Bool := m.get (Ob.role n) ≠ 0 && (m.get (Ob.focEn n) = 1 || m.get (Ob.role n) = 1)

/-- Whether the detector's result on a window, scaled as R98, exceeds a level in magnitude. -/
def Mod.focExceeds (m : Mod) (n : Nat) (level : Int) (win : Nat) : Bool :=
  let p := (m.chAt n).prod
  level * p.den < absI ((sinc2 win - m.getS (Ob.calOffset n) - m.getS (Ob.offsetTrack n)) * p.num)

/-- The channels whose last FOC_QUAL evaluations all exceed the level `ob` (R95): `wins` holds the 34 newest bits of each channel. -/
def Mod.focCrossed (m : Mod) (ob : Nat → Nat) (wins : List Nat) : List Nat :=
  (List.range 24).filter (fun n => m.focWatched n
    && (List.range (m.get (Ob.focQual n))).all (fun k => m.focExceeds n (m.getS (ob n)) (wins.getD n 0 / 2 ^ k)))

/-- A trip of a detector that another lane has asserted in this tick already: it takes the lane's bit too (R26, R289). -/
def joinTrip (by_ n : Nat) (a : Assertion) : Assertion :=
  if a.cls = 1 && a.channels = 2 ^ n && 65536 ≤ a.sources then { a with sources := a.sources ||| laneBits by_, oneLane := none } else a

/-- FOC_TRIP (R95): the lanes of `lanes` evaluate the windows; each channel that newly crosses in a lane is a trip request of it.
DEDUCED, log entry 47. -/
def Mod.focTrip (lanes : Nat) (wins : List Nat) (m : Mod) : Mod :=
  let ns := m.focCrossed Ob.focTrip wins
  let old (l : Nat) : Nat := m.prot.focLane.getD l 0
  let now (l : Nat) : Nat := if bit lanes l then maskOf ns else old l
  let newly (n : Nat) : Nat := maskOf ((List.range 2).filter (fun l => bit lanes l && !bit (old l) n))
  let seen := ns.filter (fun n => bit (newly n) m.lane)
  let m1 : Mod := { m with prot := { m.prot with
    focLane := [now 0, now 1]
    focFirst := if seen.isEmpty then m.prot.focFirst else some (m.prot.focFirst.getD m.t32)
    focMask := m.prot.focMask ||| maskOf seen } }
  m1.each (ns.filter (fun n => newly n ≠ 0)) (fun n m =>
    if bit (old 0 ||| old 1) n then { m with prot := { m.prot with pend := m.prot.pend.map (joinTrip (newly n) n) } }
    else m.assertTrip (focFault (m.get (Ob.role n))) 1 (laneBits (newly n)) (2 ^ n) (m.legsOfChan n) (groupsOf (m.owners n)) [] false
      (m.oneLane (newly n)))

/-- FOC_ALERT (R95): the flag to the current clamp, and EV035 for the channels that newly cross. DEDUCED, log entry 47. -/
def Mod.focAlert (wins : List Nat) (m : Mod) : Mod :=
  let now := maskOf (m.focCrossed Ob.focAlert wins)
  let fresh := (bitsOf 24 now).filter (fun n => !bit m.prot.focAlert n)
  let m1 : Mod := { m with prot := { m.prot with
    focAlert := now, alertAt := (List.range 24).map (fun n => if fresh.contains n then m.now else m.prot.alertAt.getD n 0) } }
  if fresh.isEmpty then m1 else m1.raise 35 sevWarn 0x2009 (maskOf fresh)

/-! ### Grid frequency and phase (R107) -/

/-- The phase, at an instant in ps since power-up, of a cosine at F_RATED that is zero at every whole TAI second. -/
def Mod.refPhase (m : Mod) (s : Nat) (ps : Int) : Nat :=
  angOfTurns (m.getF (Ob.fRated s) * (((m.clk.taiBase * 1000 + ps) % 1000000000000 : Int) : Rat) / 1000000000000)

/-- Period of an MCLK in ps by its code. -/
def mclkPs (code : Nat) : Nat := if code = 0 then 100000 else if code = 1 then 80000 else if code = 2 then 50000 else 40000

/-- The group delay of a channel in ps (R90). -/
def Mod.groupDelay (m : Mod) (n : Nat) : Nat :=
  mclkPs (m.get (Ob.mclkFreq (m.get (Ob.mclkSrc n)))) * 3 * (m.get (Ob.osr n) - 1) / 2

/-- What a section's voltages show in a tick: phase, magnitudes, validity (from 0.1 pu on), and the
history behind GRID_FREQ. DEDUCED, log entry 46; DESIGN CHOICE, log entries 85 and 118. -/
def Mod.gridMeasure (s : Nat) (x : SecMeas) (m : Mod) : Mod :=
  let grid := m.hasPhases s 3
  let p := if grid then x.gridPos else x.convPos
  let n := if grid then x.gridNeg else x.convNeg
  let mags := if grid then x.gridMag else x.convMag
  let cs := m.syncChans s
  let ok := 3 ≤ cs.length && cs.all (fun c => m.eng.valid.getD c false) && 53687092 ≤ p.mag
  let at0 : Int := (m.clk.t0Ps : Int) - (m.groupDelay (cs.headD 0) : Int)
  let step := angDiff p.ang (m.get (Ob.gridPhase s))
  let m1 := m.modSec s (fun y => { y with
    acc := y.acc + step, phases := histAdd m.now (y.acc + step) (msPs 100) y.phases }) |>.modMeas (fun y => { y with
    meter := if 0 < step && p.ang < m.get (Ob.gridPhase s) then y.meter.modify s (fun z => { z with zeroPs := some m.now }) else y.meter })
  ((((((m1.put (Ob.gridPhase s) p.ang).put (Ob.gridPhasorAngle s) (angWrap ((p.ang : Int) - m.refPhase s at0))).putQ (Ob.vPos s)
    p.mag).putQ (Ob.vNeg s) n.mag).put (Ob.angleValid s) (b2n ok)).putQ (Ob.vPhLow s) (mags.foldl min (mags.headD 0))).putQ (Ob.vPhHigh s)
    (mags.foldl max (mags.headD 0))

/-- GRID_FREQ from the rate of GRID_PHASE over the last 20 ms, in µHz off F_RATED; nothing changes before 20 ms of it exist.
DEDUCED, log entry 46. -/
def Mod.gridFreqUpdate (s : Nat) (m : Mod) : Mod :=
  let l := (m.secAt s).phases
  match l.head?, l.find? (fun p => p.1 + msPs 20 ≤ m.now) with
  | some a, some b =>
    if a.1 = b.1 then m
    else
      let hz : Rat := ((a.2 - b.2 : Int) : Rat) / 4294967296 * 1000000000000 / ((a.1 - b.1 : Nat) : Rat)
      m.putS (Ob.gridFreq s) (wholeNear ((hz - m.getF (Ob.fRated s)) * 1000000))
  | _, _ => m

/-! ### The samples of a tick (R71, R90, R92, R98) -/

/-- The state of a channel after the bits of a tick (R88, R92, R104, R108): the window, the good bits, the bits captured while valid, and
the sum for OFFSET_TRACK. A window of 200 ms that ends before the channel has been quiet for 1 s is dropped.
DEDUCED, log entries 44 and 104. -/
def Mod.takeBits (m : Mod) (b : Nat × Nat) (n : Nat) (x : MeasCh) : MeasCh :=
  let win := pushBits x.win b.1 b.2
  let count (o : Option Nat) : Option Nat := some (match o with | some k => min 1023 (k + b.1) | none => 0)
  { x with
    win := win, good := if stuck32 win then none else count x.good, clean := if m.chValid n then count x.clean else none
    badPs := if m.chValid n then x.badPs else some m.now
    trkPs := if x.trkPs + msPs 200 ≤ m.now && x.trkPs + msPs 200 < x.restPs.getD m.now + sPs 1 then m.now else x.trkPs }

/-- Whether a control sample is valid (R92): its channel is, and none of the bits of its window was captured while it was not. -/
def Mod.windowOk (m : Mod) (n : Nat) : Bool := m.chValid n && 3 * m.get (Ob.osr n) - 2 ≤ (m.chAt n).clean.getD 0

/-- A result d of a channel in pu, in LSB (R98). -/
def Mod.scaledD (m : Mod) (n : Nat) (d : Int) : Rat :=
  ((d - m.getS (Ob.calOffset n) - m.getS (Ob.offsetTrack n) : Int) : Rat) * (m.chAt n).prod

/-- The sample of a channel from its window, with what OFFSET_TRACK sums up. -/
def Mod.takeSample (n : Nat) (m : Mod) : Mod :=
  let d := sinc3 (m.get (Ob.osr n)) (m.chAt n).win
  let ok := m.windowOk n
  let fresh := (m.chAt n).trkPs = m.now
  let m1 := m.modCh n (fun x => { x with
    trkSum := if fresh then 0 else if ok then x.trkSum + (d - m.getS (Ob.calOffset n)) else x.trkSum
    trkN := if fresh then 0 else if ok then x.trkN + 1 else x.trkN })
  (m1.putQ (Ob.rawD n) d).putQ (Ob.sample n) (q29OfLsb (m.scaledD n d))

/-- RAW_D, SAMPLE and the validity of every channel that has a role, from the bits of the tick.
DESIGN CHOICE, log entry 85. -/
def Mod.takeSamples (bits : List (Nat × Nat)) (m : Mod) : Mod :=
  let m1 := m.each ((List.range 24).filter (fun n => m.get (Ob.role n) ≠ 0)) (fun n m =>
    (m.modCh n (m.takeBits (bits.getD n (0, 0)) n)).takeSample n)
  { m1 with eng := { m1.eng with valid := (List.range 24).map m1.windowOk } }

/-- Whether a channel carries the objects of a DC link (R285): ROLE 04h, or ROLE 05h on a link without ROLE 04h. -/
def Mod.isLink (m : Mod) (n : Nat) : Bool :=
  let gs := groupsOf (m.owners n)
  m.get (Ob.role n) = 4 || (m.get (Ob.role n) = 5 && gs.all (fun g => (m.assigned g 4).isEmpty))

/-- One link after a tick with its voltage `v`, none where a sample of it is invalid (R284, R285): the ticks in a row; a source ends
where its level no longer stands, and the warning arms after 100 ticks below DCL_WARN_HIGH − 0.02 pu. -/
def LinkRt.after (ov uv warn : Int) (uvActs : Bool) (v : Option Int) (x : LinkRt) : LinkRt :=
  let holds (p : Int → Bool) : Bool := match v with | some y => p y | none => false
  let runs (c : Bool) (k : Nat) : Nat := if c then min 255 (k + 1) else 0
  let isOver := holds (fun y => ov < y)
  let isUnder := uvActs && holds (fun y => y < uv)
  let calm := runs (holds (fun y => y < warn - q29Of (2 / 100))) x.calm
  { overTicks := runs isOver x.overTicks, under := runs isUnder x.under, warn := runs (holds (fun y => warn < y)) x.warn
    overOn := x.overOn && isOver, underOn := x.underOn && isUnder
    calm := if x.armed then 0 else calm, armed := x.armed || 100 ≤ calm }

/-- The whole-link voltage of a link channel against its levels in a tick. -/
def Mod.watchLink (n : Nat) (m : Mod) : Mod :=
  if !m.isLink n then m
  else
    let gs := groupsOf (m.owners n)
    let cs := m.linkChans (gs.headD 8)
    let v := if cs.isEmpty || !cs.all m.sampleOk then none else some (m.sampleSum cs)
    let y := (m.prot.links.getD n {}).after (m.getS (Ob.dclOvLevel n)) (m.getS (Ob.dclUvLevel n)) (m.getS (Ob.dclWarnHigh n))
      (m.get (Ob.dclUvEn n) = 1 && gs.any m.pwmOn) v
    { m with prot := { m.prot with links := m.prot.links.set n y } }

/-- Both engines run their tick on the samples (R71, R128), with what each section's supervision reads from them.
DEDUCED, log entry 46. -/
def Mod.samplesReady (smp : Samples) (m : Mod) : Mod :=
  if !m.clk.running || m.clk.phase ≠ .boundary then m
  else
    let none29 : Phasor := ⟨0, 0⟩
    let meas (s : Nat) : SecMeas := smp.sec.getD s ⟨none29, none29, none29, none29, none29, none29, [], []⟩
    let m0 := m.reach (m.clk.t0Ps + 250000)
    let m1 : Mod := { m0 with clk := { m0.clk with phase := .compute } }
    let ss := m.secsInUse
    let m2 := (m1.takeSamples smp.bits).each ss (fun s m => (m.gridMeasure s (meas s)).watchAngle s)
    let m3 := (m2.each (List.range 24) Mod.watchLink).runChecks
    let m4 : Mod := { m3 with saved := m3.eng }
    let m5 := m4.injAdvance.each ss (fun s m => m.watchBus s (meas s))
    ((m5.engineTick smp 0).engineTick smp 1).each ss (fun s m => ((m.idAdvance s).watchPower s).watchRide s) |>.each
      ((List.range 4).filter (fun c => m.inUse (4 + c))) Mod.watchDc

/-! ### Commands -/

/-- The instant of a supervision finding: `dt` ns since the previous command. -/
def atDt (dt : Nat) (f : Mod → Mod) (m : Mod) : Mod := f (m.passNs dt)

/-- SAMPLES_READY (R71). -/
def execSamplesReady (smp : Samples) (s : State) : Host.Outcome State Fault Refusal := onMod s (s.m.samplesReady smp)
/-- FOC_TRIP (R95). -/
def execFocTrip (dt lanes : Nat) (wins : List Nat) (s : State) : Host.Outcome State Fault Refusal :=
  onMod s (atDt dt (Mod.focTrip lanes wins) s.m)
/-- FOC_ALERT (R95). -/
def execFocAlert (dt : Nat) (wins : List Nat) (s : State) : Host.Outcome State Fault Refusal :=
  onMod s (atDt dt (Mod.focAlert wins) s.m)
/-- MCLK_LOST (R109). -/
def execMclkLost (dt mclks lanes : Nat) (s : State) : Host.Outcome State Fault Refusal :=
  onMod s (atDt dt (Mod.mclkLost mclks lanes) s.m)
/-- MCLK_LOST_IN_LANE (R111). -/
def execMclkLostInLane (dt lane mclks : Nat) (s : State) : Host.Outcome State Fault Refusal :=
  onUnit (laneOk lane) s (atDt dt (Mod.mclkLostInLane lane mclks) s.m)
/-- STREAM_LOST (R111). -/
def execStreamLost (dt chan : Nat) (clipped : Bool) (lanes : Nat) (s : State) : Host.Outcome State Fault Refusal :=
  onUnit (chan < 24) s (atDt dt (Mod.streamLost chan clipped lanes) s.m)
/-- PLAUSIBILITY (R112, R113). -/
def execPlausibility (kind unit : Nat) (s : State) : Host.Outcome State Fault Refusal :=
  onUnit (kind < 4 && (if kind = 0 || kind = 2 then secOk unit else unit < 24)) s (s.m.plausibility kind unit)
/-- CHANNEL_SETTLED (R108). -/
def execChannelSettled (chan : Nat) (s : State) : Host.Outcome State Fault Refusal :=
  onUnit (chan < 24) s (s.m.channelSettled chan)
/-- CAL_POINT_DONE (R101). -/
def execCalPointDone (s : State) : Host.Outcome State Fault Refusal := onMod s s.m.calPointDone
/-- OFFSET_TRACK_UPDATE (R104). -/
def execOffsetTrackUpdate (chan : Nat) (s : State) : Host.Outcome State Fault Refusal :=
  onUnit (chan < 24) s (s.m.offsetTrackUpdate chan)
/-- GRID_FREQ_UPDATE (R107). -/
def execGridFreqUpdate (sec : Nat) (s : State) : Host.Outcome State Fault Refusal :=
  onUnit (secOk sec) s (s.m.gridFreqUpdate sec)

end Sys2Proof.Machine
end

