-- ==== Sys2Proof/Machine/Sessions.lean ====
section
/-!
DEFINITION. The senders and their command channels (R47, R51, R56), and the network sessions: how one closes, what
closes with it, and EV102 (R29, R58, R62, R389, R397). GHP3 sessions have the keys 0 to 7, Modbus TCP connections 8 to
11, the DNP3 master 12.
-/
namespace Sys2Proof.Machine

/-! ### Sessions -/

def Mod.sessAt (m : Mod) (k : Nat) : Option Session := (m.sess.find? (fun p => p.1 = k)).map (·.2)

def Mod.modSess (k : Nat) (f : Session → Session) (m : Mod) : Mod :=
  { m with sess := m.sess.map (fun p => if p.1 = k then (p.1, f p.2) else p) }

/-- The count of open GHP3 sessions (R397). -/
def Mod.openSessions (m : Mod) : Nat := (m.sess.filter (fun p => p.2.isOpen)).length

/-- The lowest free key among `n` keys from `base`. -/
def Mod.freeKey (m : Mod) (base n : Nat) : Option Nat :=
  ((List.range n).map (base + ·)).find? (fun k => (m.sessAt k).isNone)

/-- EV102 of a session (R397): its mailbox and source, whether it closed, and the sessions open now.
DEDUCED, log entry 27. -/
def Mod.sessionChange (x : Session) (closed : Bool) (m : Mod) : Mod :=
  m.inform 102 (x.bound.getD 0 % 4 + 4 * (if x.headEnd then 2 else 3) + (if closed then 16 else 0) + 256 * m.openSessions)

/-- A session closes: its stream channels and its open group go with it, the group without EV013 (R29, R62, R63).
DEDUCED, log entry 27. -/
def Mod.closeSession (k : Nat) (m : Mod) : Mod :=
  match m.sessAt k with
  | none   => m
  | some x =>
    let m1 : Mod := { m with
      sess    := m.sess.filter (fun p => p.1 ≠ k)
      streams := m.streams.filter (fun p => p.2.snd ≠ Sender.session k) }
    if x.isOpen then m1.sessionChange x true else m1

/-- Every network session closes (R29, R315, R388). -/
def Mod.closeAll (m : Mod) : Mod := m.each (m.sess.map (·.1)) Mod.closeSession

/-! ### Senders (R56) -/

/-- Source of a sender in the coding of event arguments: rank less one (R67, R396). -/
def Mod.sourceOf (m : Mod) (snd : Sender) : Nat :=
  match snd with
  | .localSafety => 0
  | .mbx _       => 1
  | .session k   => if ((m.sessAt k).map (·.headEnd)).getD false then 2 else 3
  | .modbus _    => 3
  | .dnp3 _      => 3

/-- Mailbox number of a sender (R56). -/
def Mod.mailboxOf (m : Mod) (snd : Sender) : Nat :=
  match snd with
  | .localSafety => 0
  | .mbx n       => n
  | .session k   => ((m.sessAt k).bind (·.bound)).getD 0 % 4
  | .modbus _    => 3
  | .dnp3 _      => 3

/-- Mailbox and source in the form of EV013, EV105 and ENTRY_SOURCE. -/
def Mod.senderBits (m : Mod) (snd : Sender) : Nat := m.mailboxOf snd + 4 * m.sourceOf snd

/-- The place of a sender in the order of R57: source, mailbox, then GHP3 before the requests of R393, by arrival. -/
def Mod.rankOf (m : Mod) (snd : Sender) : Nat × Nat × Nat :=
  (m.sourceOf snd, m.mailboxOf snd, match snd with
    | .modbus o => o + 1
    | .dnp3 o   => o + 1
    | _         => 0)

/-- The command channel of a sender. -/
def Mod.chanOf (m : Mod) (snd : Sender) : Chan :=
  match snd with
  | .mbx n     => (m.mbx.getD n {}).chan
  | .session k => ((m.sessAt k).map (·.chan)).getD {}
  | _          => {}

/-- Change the command channel of a sender. -/
def Mod.modChan (snd : Sender) (f : Chan → Chan) (m : Mod) : Mod :=
  match snd with
  | .mbx n     => { m with mbx := m.mbx.modify n (fun x => { x with chan := f x.chan }) }
  | .session k => m.modSess k (fun x => { x with chan := f x.chan })
  | _          => m

/-- Every sender that has a command channel at present. -/
def Mod.senders (m : Mod) : List Sender :=
  (List.range 4).map Sender.mbx ++ m.sess.map (fun p => Sender.session p.1)

/-- The event queue of a consumer (R58). -/
def Mod.queueOf (m : Mod) (snd : Sender) : EvQueue :=
  match snd with
  | .session k => ((m.sessAt k).map (·.evq)).getD {}
  | _          => m.hostQ

/-- Change the event queue of a consumer. -/
def Mod.modQueue (snd : Sender) (f : EvQueue → EvQueue) (m : Mod) : Mod :=
  match snd with
  | .session k => m.modSess k (fun x => { x with evq := f x.evq })
  | _          => { m with hostQ := f m.hostQ }

/-! ### Groups that time out (R53, R67) -/

/-- An open group is discarded whole with EV013. DEDUCED, log entry 27. -/
def Mod.groupDiscarded (snd : Sender) (m : Mod) : Mod :=
  match (m.chanOf snd).group with
  | none   => m
  | some g =>
    ((m.reach (g.openedPs + msPs (m.get Ob.groupTimeout))).modChan snd (fun c => { c with group := none })).raise 13 sevWarn 0x1102
      (m.senderBits snd + 256 * g.writes.length + 65536 * g.beginSeq)

/-- `GROUP_DISCARDED`: GROUP_TIMEOUT ends for the open group of a sender. -/
def execGroupDiscarded (snd : Sender) (s : State) : Host.Outcome State Fault Refusal := onMod s (s.m.groupDiscarded snd)

/-- `SESSION_CLOSE`: the peer closes a session, or its connection goes (R62, R397). -/
def execSessionClose (k : Nat) (s : State) : Host.Outcome State Fault Refusal := onMod s (s.m.closeSession k)

end Sys2Proof.Machine
end

