-- ==== Sys2Proof/Machine/PowerRows.lean ====
section
/-!
DEFINITION. The event commands of PWM generation, protection, lane redundancy, safe disconnect and field inputs and
outputs: each is one operation of its chapter, at its instant.
-/
namespace Sys2Proof.Machine

/-! ### PWM generation (R264, R265, R270 to R272, R278, R279) -/

/-- `FLT_TRIP` (R270, R286): the FLT inputs as they now stand. -/
def execFltTrip (dt : Nat) (inputs : List FltInput) (s : State) : Host.Outcome State Fault Refusal :=
  onMod s (atDt dt (Mod.fltTrip inputs) s.m)

/-- `LANE_TRIP_REQUEST` (R20, R26, R271): the groups that a lane's trip lines request. -/
def execLaneTripRequest (dt lane groups : Nat) (s : State) : Host.Outcome State Fault Refusal :=
  onUnit (laneOk lane) s (atDt dt (Mod.laneTrip lane groups) s.m)

/-- `INTERLOCK_VIOLATION` (R264). -/
def execInterlockViolation (dt pair : Nat) (threeLevel : Bool) (s : State) : Host.Outcome State Fault Refusal :=
  onUnit (pair < 32) s (atDt dt (Mod.interlock pair threeLevel) s.m)

/-- `SAFE_DT_EXPIRY` (R272). -/
def execSafeDtExpiry (group : Nat) (s : State) : Host.Outcome State Fault Refusal := onUnit (group < 8) s (s.m.tripSettled group)

/-- A unit that was starting while its leg map disagrees does not start (R265): its group stays off.
DEDUCED, log entry 38. -/
def Mod.mapStops (g : Nat) (m : Mod) : Mod :=
  if (m.grpAt g).mapBad && (m.grpAt g).starting then m.modGrp g (fun x => { x with starting := false }) else m

/-- `LEG_MAP_REPORT` (R265). -/
def execLegMapReport (group : Nat) (rep : LegMap) (s : State) : Host.Outcome State Fault Refusal :=
  onUnit (group < 8) s ((s.m.mapReport group rep).mapStops group)

/-- `TRIM_BLOCK_DONE` (R278). -/
def execTrimBlockDone (pair : Nat) (sideB : Bool) (edges : List Transition) (s : State) : Host.Outcome State Fault Refusal :=
  onUnit (pair < 32) s (s.m.trimEdges pair sideB edges)

/-- `COMFB_MISSING` (R277, R279). -/
def execComfbMissing (pair : Nat) (edges : List Transition) (s : State) : Host.Outcome State Fault Refusal :=
  onUnit (pair < 32) s (if s.m.lastMissing pair edges then s.m.comfbLost pair else s.m)

/-- `COMFB_RESTORED` (R277, R279). -/
def execComfbRestored (pair : Nat) (edges : List Transition) (s : State) : Host.Outcome State Fault Refusal :=
  onUnit (pair < 32) s (if s.m.lastPresent pair edges then s.m.comfbBack pair else s.m)

/-! ### Protection (R284, R285, R295 to R302) -/

/-- `DCLINK_TRIP` (R284). -/
def execDclinkTrip (chan : Nat) (isOver : Bool) (s : State) : Host.Outcome State Fault Refusal :=
  onUnit (chan < 24) s (s.m.dclinkTrip chan isOver)

/-- `DCLINK_WARNING` (R285). -/
def execDclinkWarning (chan : Nat) (s : State) : Host.Outcome State Fault Refusal := onUnit (chan < 24) s (s.m.dclinkWarn chan)

/-- `RECOVERY_DELAY_END` (R297). -/
def execRecoveryDelayEnd (cls unit : Nat) (s : State) : Host.Outcome State Fault Refusal := onMod s (s.m.recoveryEnd cls unit)

/-- `CLEAR_RECHECK` (R297). -/
def execClearRecheck (cls unit : Nat) (s : State) : Host.Outcome State Fault Refusal := onMod s (s.m.clearRecheck cls unit)

/-- `RETRY_TIMEOUT` (R297). -/
def execRetryTimeout (cls unit : Nat) (s : State) : Host.Outcome State Fault Refusal := onMod s (s.m.retryTimeout cls unit)

/-- `HOLD_MAX_REACHED` (R303). -/
def execHoldMaxReached (s : State) : Host.Outcome State Fault Refusal := onMod s s.m.holdMax

/-! ### Lane redundancy (R321 to R341) -/

/-- `STANDBY_READY` (R321). -/
def execStandbyReady (s : State) : Host.Outcome State Fault Refusal := onMod s s.m.standbyReady

/-- `CLAIM_WITHDRAWN` (R332, R333). -/
def execClaimWithdrawn (s : State) : Host.Outcome State Fault Refusal := onMod s s.m.claimWithdrawn

/-- CIRQUE_STATE is that of the active lane (R317, R455). DEDUCED, log entry 67. -/
def Mod.showCirque (m : Mod) : Mod := m.put Ob.cirqueState (b2n (3 ≤ (m.laneAt m.lane).macFails))

/-- What does not cross Floe at a takeover (R29, R326, R448, R456): every network session closes, an upload is discarded, a calibration point is
aborted, an identification adds nothing, an MPPT period or dwell that began less than 1 ms before begins anew, and an urgent
conversion repeats on the incoming lane's converter. -/
def Mod.leaveBehind (m : Mod) : Mod :=
  let m1 := m.closeAll.calAborted.each (List.range 4) (fun s m => m.modSec s (fun x => { x with idOn := false, idWait := false, idTicks := 0, idDone := false }))
    |>.each (List.range 4) (fun c m => if m.now < (m.dcAt c).perPs + msPs 1 then m.periodBegins c else m)
  ({ m1 with
    hk   := { m1.hk with urgent := m1.hk.urgent.map (fun u => (u.1, u.2.1, m1.lane)) }
    secu := { m1.secu with upload := [] } } : Mod).showCirque

/-- `TAKEOVER_INSTANT` (R333, R335). -/
def execTakeoverInstant (claim : Nat) (edges : List Nat) (s : State) : Host.Outcome State Fault Refusal :=
  onMod s (if s.m.arb.incoming.isSome then (s.m.takeoverInstant claim edges).leaveBehind else s.m)

/-- `SPLIT_CLAIM` (R323). -/
def execSplitClaim (s : State) : Host.Outcome State Fault Refusal := onMod s s.m.splitClaim

/-- `CLAIM_PAIR_BROKEN` (R20, R323): a broken pair of a lane reads as no claim. -/
def execClaimPairBroken (lane : Nat) (s : State) : Host.Outcome State Fault Refusal :=
  onUnit (laneOk lane) s (s.m.pairBroken lane)

/-- `NO_GRANT_TIMEOUT` (R336): the safe stop, with K2 opened by Serac at once. -/
def execNoGrantTimeout (s : State) : Host.Outcome State Fault Refusal :=
  onMod s (if s.m.arb.armed && s.m.arb.grant.isNone then s.m.noGrant.driveK2 false else s.m)

/-- `LOCKSTEP_MISMATCH` (R331). -/
def execLockstepMismatch (lane : Nat) (s : State) : Host.Outcome State Fault Refusal :=
  onUnit (laneOk lane) s (s.m.laneFails lane 0x4801)

/-- `WATCHDOG_EXPIRY` (R331). -/
def execWatchdogExpiry (lane : Nat) (s : State) : Host.Outcome State Fault Refusal :=
  onUnit (laneOk lane) s (s.m.laneFails lane 0x4802)

/-- `FLOE_LOOPBACK_FAIL` (R331): at the next boundary. -/
def execFloeLoopbackFail (lane : Nat) (s : State) : Host.Outcome State Fault Refusal :=
  onUnit (laneOk lane) s (s.m.laneFailsLater lane 0x4806)

/-- `KNOWN_ANSWER_TEST_FAIL` (R337). -/
def execKnownAnswerTestFail (lane : Nat) (s : State) : Host.Outcome State Fault Refusal :=
  onUnit (laneOk lane) s (s.m.laneFails lane 0x4807)

/-- `MIRROR_DIAGNOSIS` (R330). -/
def execMirrorDiagnosis (outcome : Nat) (s : State) : Host.Outcome State Fault Refusal := onMod s (s.m.mirrorDiagnosis outcome)

/-- `CARRIER_ALIGN` (R324). -/
def execCarrierAlign (ps : List Int) (s : State) : Host.Outcome State Fault Refusal := onMod s (s.m.carrierAlign ps)

/-- `FULL_TEST_START` (R338). -/
def execFullTestStart (s : State) : Host.Outcome State Fault Refusal := onMod s s.m.fullTestStart

/-- `SELF_TEST_DONE` (R338). -/
def execSelfTestDone (failed : Nat) (aborted : Bool) (s : State) : Host.Outcome State Fault Refusal :=
  onMod s (s.m.selfTestDone failed aborted)

/-- `REDUNDANCY_RESTORED` (R340). -/
def execRedundancyRestored (s : State) : Host.Outcome State Fault Refusal := onMod s s.m.redundancyRestored

/-! ### Safe disconnect (R346 to R362) -/

/-- `SDC_SAMPLE` (R346). -/
def execSdcSample (a b : SdcInputs) (s : State) : Host.Outcome State Fault Refusal := onMod s (s.m.sdcSample a b)

/-- Frames of the safety status link that fail their CRC at some lanes (R19, R317, R319). DESIGN CHOICE, log entry 48. -/
def Mod.statusLinkBad (lanes : Nat) (m : Mod) : Mod := m.each (bitsOf 2 lanes) (fun l m => m.bump (Ob.safetyLinkCrcFail l))

/-- `SAFETY_CROSSLINK_FRAME` (R317, R349): the frames of one millisecond, with those of the status link that fail. -/
def execSafetyCrosslinkFrame (okA okB : Bool) (badStatus : Nat) (s : State) : Host.Outcome State Fault Refusal :=
  onMod s ((s.m.statusLinkBad badStatus).crosslinkFrame okA okB)

/-- `CONNECTION_REQUEST` (R354): channel A receives the active lane's request. -/
def execConnectionRequest (raised : Bool) (s : State) : Host.Outcome State Fault Refusal := onMod s (s.m.connectionRequest raised)

/-- `SDC_STEP_CONFIRMED` (R354). -/
def execSdcStepConfirmed (s : State) : Host.Outcome State Fault Refusal := onMod s s.m.stepConfirmed

/-- `RELAY_TIMEOUT` (R355). -/
def execRelayTimeout (s : State) : Host.Outcome State Fault Refusal := onMod s s.m.relayTimeout

/-- `DISCREPANCY_FAULT` (R351). -/
def execDiscrepancyFault (s : State) : Host.Outcome State Fault Refusal := onMod s s.m.discFault

/-- `WELD_TEST_DUE` (R357). -/
def execWeldTestDue (s : State) : Host.Outcome State Fault Refusal := onMod s s.m.weldDue

/-- `WELD_TEST_OVERDUE` (R357). -/
def execWeldTestOverdue (s : State) : Host.Outcome State Fault Refusal := onMod s s.m.weldOverdue

/-- `SERAC_OSC_FAULT` (R348). -/
def execSeracOscFault (s : State) : Host.Outcome State Fault Refusal := onMod s s.m.oscFault

/-- `SEAL_RECHECK` (R362): the reading in force is the one kept since power-up. -/
def execSealRecheck (a b : Nat) (s : State) : Host.Outcome State Fault Refusal :=
  onMod s (s.m.sealRecheck s.kept.sealA s.kept.sealB a b)

/-- `SAFETY_LINK_LOSS` (R317): a channel demands disconnection after three bad frames. -/
def execSafetyLinkLoss (chanB : Bool) (s : State) : Host.Outcome State Fault Refusal := onMod s (s.m.safetyLinkLoss chanB)

/-! ### Field inputs and outputs (R399 to R412) -/

/-- `RIME_FRAME` (R411). -/
def execRimeFrame (f : RimeFrame) (s : State) : Host.Outcome State Fault Refusal :=
  onUnit (laneOk f.lane) s (s.m.rimeFrame f)

/-- `RIME_LOSS` (R411). -/
def execRimeLoss (lane : Nat) (s : State) : Host.Outcome State Fault Refusal := onUnit (laneOk lane) s (s.m.rimeLoss lane)

/-- `FIELD_SAMPLE` (R399). -/
def execFieldSample (group : Nat) (rd : FieldReading) (s : State) : Host.Outcome State Fault Refusal :=
  onUnit (group < 4) s (s.m.fieldSample group rd)

/-- `INPUT_MAX_ACTIVE` (R403). -/
def execInputMaxActive (chan : Nat) (s : State) : Host.Outcome State Fault Refusal := onUnit (chan < 32) s (s.m.inputMax chan)

/-- `CHATTER_WINDOW_END` (R404). -/
def execChatterWindowEnd (s : State) : Host.Outcome State Fault Refusal := onMod s s.m.chatterEnd

/-- `OUTPUT_OVERLOAD` (R406). -/
def execOutputOverload (chan : Nat) (s : State) : Host.Outcome State Fault Refusal := onUnit (chan < 32) s (s.m.outputOverload chan)

/-- `OUTPUT_THERMAL` (R406). -/
def execOutputThermal (chan : Nat) (s : State) : Host.Outcome State Fault Refusal := onUnit (chan < 32) s (s.m.outputThermal chan)

/-- `FIELD_LOAD_WARNING` (R409). -/
def execFieldLoadWarning (groupCurrent : Bool) (n : Nat) (present : Bool) (s : State) : Host.Outcome State Fault Refusal :=
  onUnit (if groupCurrent then n < 4 else n < 32) s (s.m.loadWarning groupCurrent n present)

/-- `FSUP_OUT_OF_RANGE` (R412). -/
def execFsupOutOfRange (group : Nat) (volts : List (Nat × Nat)) (s : State) : Host.Outcome State Fault Refusal :=
  onUnit (group < 4) s (s.m.fsupRange group volts)

/-- `FSUP_LOST` (R412). -/
def execFsupLost (group : Nat) (volts : List (Nat × Nat)) (s : State) : Host.Outcome State Fault Refusal :=
  onUnit (group < 4) s (s.m.fsupLost group volts)

/-- `FSUP_BACK` (R412). -/
def execFsupBack (group : Nat) (volts : List (Nat × Nat)) (s : State) : Host.Outcome State Fault Refusal :=
  onUnit (group < 4) s (s.m.fsupBack group volts)

end Sys2Proof.Machine
end

