-- ==== Sys2Proof/Machine/Integrity.lean ====
section
/-!
DEFINITION. Data integrity (R310 to R320): scrub passes, uncorrectable words and codewords, parity errors, Floe and
Cirque frames, TLS records, and the counters with INTEGRITY_CLEAR.
-/
namespace Sys2Proof.Machine

/-! ### Memories (R312 to R315) -/

/-- ARG of EV011 (R320). -/
def memArg (lane region : Nat) : Nat := lane + 2 * region

/-- DRAM_CORR_HOUR of a lane with EV010: once when it exceeds the limit, armed again after 60 min at or below it (R312). -/
def Mod.judgeCorrected (l : Nat) (m : Mod) : Mod :=
  let x := m.laneAt l
  let kept := x.corr.filter (fun p => m.now < p.1 + sPs 3600)
  let hour := kept.foldl (fun a p => a + p.2) 0
  let m1 := (m.modLane l (fun y => { y with corr := kept })).put (Ob.dramCorrHour l) hour
  if m.get Ob.dramCorrLimit < hour then
    let m2 := m1.modLane l (fun y => { y with corrArmed := false, corrCalm := none })
    if x.corrArmed then m2.raise 10 sevWarn 0x4601 (l + 256 * hour) else m2
  else if x.corrArmed then m1
  else
    match x.corrCalm with
    | none   => m1.modLane l (fun y => { y with corrCalm := some m.now })
    | some t => if t + sPs 3600 ≤ m.now then m1.modLane l (fun y => { y with corrArmed := true, corrCalm := none }) else m1

/-- A scrub pass of the run region, once every 60 s, or of the Moraine region, once every 10 min, which runs only while the trace is IDLE or DONE (R312). -/
def Mod.scrubPass (l : Nat) (moraine : Bool) (corrected : Nat) (m : Mod) : Mod :=
  if moraine && m.traceSt ≠ traceIdle && m.traceSt ≠ traceDoneState then m
  else
    let i := b2n moraine
    let m0 := m.reach ((m.laneAt l).scrubPs.getD i 0 + sPs (if moraine then 600 else 60))
    let m1 := (if moraine then m0 else m0.bump (Ob.scrubPasses l)).modLane l (fun y => { y with scrubPs := y.scrubPs.set i m0.now })
    let m2 := m1.put (Ob.dramCorrected l) ((m1.get (Ob.dramCorrected l) + corrected) % 4294967296)
    let m3 := if corrected = 0 then m2 else m2.modLane l (fun y => { y with corr := y.corr ++ [(m2.now, corrected)] })
    m3.judgeCorrected l

/-- The record at a Moraine address of a lane reads VALID 0 and node values 0 (R313): the other lane's copy stands.
DEDUCED, log entries 56 and 106. -/
def Mod.spoilRecord (l address : Nat) (m : Mod) : Mod :=
  m.modTrace (fun t => { t with spoilt := t.spoilt ++ [(l, t.first + address / m.recordBytes)] })

/-- An uncorrectable DRAM word (R313). -/
def Mod.memoryUncorrectable (l : Nat) (moraine : Bool) (address : Nat) (m : Mod) : Mod :=
  let m1 := (m.bump (Ob.dramUncorrected l)).put (Ob.lastErrorAddr l) (address % 4294967296)
  if moraine then (m1.spoilRecord l address).raise 11 sevWarn 0x4602 (memArg l 1)
  else (m1.raise 11 sevFault 0x4602 (memArg l 0)).laneFails l 0x4602

/-- An uncorrectable flash codeword (R314): `region` is 2 image, 3 configuration, 4 log; `entries` are the object
entries of the configuration record as (index, sub-index). DEDUCED, log entries 66 and 67; DESIGN CHOICE, log entry 84. -/
def Mod.flashUncorrectable (l region offset : Nat) (bothCopies : Bool) (entries : List (Nat × Nat)) (m : Mod) : Mod :=
  let m1 := ((m.bump (Ob.flashUncorrected l)).put (Ob.lastErrorAddr l) (offset % 4294967296)).raise 11 sevFault 0x4604
    (memArg l (if region = 3 then 3 else if region = 4 then 4 else 2))
  if region = 3 then
    if bothCopies then
      let keys := entries.map (fun e => e.1 * 256 + e.2)
      ({ m1 with lost := m1.lost ++ keys.filter (fun k => !m1.lost.contains k) } : Mod).raise 9 sevFault 0x4603 offset
    else m1
  else if region ≠ 4 then
    { m1 with secu := { m1.secu with badImg := m1.secu.badImg ++ [(l, if offset < 6291456 then 0 else 1)] } }
  else { m1 with prot := { m1.prot with skip := m1.prot.skip ++ [(l, offset / 32)] } }

/-- A parity error (R315): place 5 SRAM, 6 register bus, 7 the SRAM of the communications core. -/
def Mod.parityError (l place address : Nat) (m : Mod) : Mod :=
  let m1 := (m.bump (Ob.parityErrors l)).put (Ob.lastErrorAddr l) (address % 4294967296)
  if place = 7 then
    let m2 := (m1.raise 11 sevWarn 0x4605 (memArg l 7)).bump Ob.commCoreRestarts
    if l = m.lane then m2.closeAll else m2
  else (m1.raise 11 sevFault 0x4605 (memArg l (if place = 6 then 6 else 5))).laneFails l 0x4605

/-! ### Floe (R316) -/

/-- The standby lane becomes unhealthy at the next boundary through Floe; `bits` go into EV094: 1 state frames, 2
mirrored-write frame. DEDUCED, log entry 66. -/
def Mod.floeFails (bits : Nat) (m : Mod) : Mod :=
  if m.healthOf m.standby = 2 || m.arb.floeEv ≠ 0 then m
  else (m.modArb (fun a => { a with floeEv := bits })).laneFailsLater m.standby 0x4606

/-- EV094 of the boundary at which the standby lane turns unhealthy. -/
def Mod.floeDue (m : Mod) : Mod :=
  if m.arb.floeEv = 0 then m
  else
    (m.modArb (fun a => { a with floeEv := 0 })).raise 94 sevWarn 0x4606
      (m.get Ob.tickCount % 65536 + (if bit m.arb.floeEv 0 then 65536 else 0) + (if bit m.arb.floeEv 1 then 131072 else 0))

/-- A tick without a good state frame. -/
def Mod.stateFrameLost (m : Mod) : Mod :=
  let s := m.standby
  let n := (m.laneAt s).missing + 1
  let m1 := (m.bump (Ob.floeLostTicks s)).modLane s (fun x => { x with missing := n })
  if n = 3 then m1.floeFails 1 else m1

/-- A mirrored-write frame that its receiver has not acknowledged: two resends, then the standby lane is lost. -/
def Mod.mirroredWriteLost (m : Mod) : Mod :=
  let s := m.standby
  let n := (m.laneAt s).mwBad + 1
  if n ≤ 2 then (m.bump (Ob.floeResends s)).modLane s (fun x => { x with mwBad := n })
  else (m.modLane s (fun x => { x with mwBad := 0 })).floeFails 2

/-- What the loss of a Floe frame means (R316). -/
def Mod.floeLost (f : FloeFrame) (m : Mod) : Mod :=
  match f.kind with
  | .state         => if f.lane = m.standby then m.stateFrameLost else m
  | .mirroredWrite => if f.lane = m.standby then m.mirroredWriteLost else m
  | .ack           => if f.lane = m.lane then m.mirroredWriteLost else m

/-- What a good Floe frame means: state is compared (R328) or adopted after an unexplained difference (R330). -/
def Mod.floeGood (f : FloeFrame) (m : Mod) : Mod :=
  match f.kind with
  | .state =>
    if f.lane = m.standby then
      let m1 := m.modLane f.lane (fun x => { x with missing := 0, goodTick := m.clk.tick })
      if m1.arb.adopt then m1.modArb (fun a => { a with adopt := false })
      else match f.mismatch with
        | none   => m1
        | some d => m1.mirrorMismatch d.1 d.2
    else m
  | .mirroredWrite => m.modLane f.lane (fun x => { x with mwBad := 0 })
  | .ack           => m.modLane m.standby (fun x => { x with mwBad := 0 })

/-- A Floe frame arrives (R316). The frame after a bad CRC is expected to carry the next number.
DEDUCED, log entry 66; DESIGN CHOICE, log entry 88. -/
def Mod.floeFrame (f : FloeFrame) (m : Mod) : Mod :=
  let seq := (m.laneAt f.lane).floeSeq
  if !f.crcOk then
    ((m.bump (Ob.floeCrcFail f.lane)).modLane f.lane (fun x => { x with floeSeq := seq.map (fun n => (n + 1) % 65536) })).floeLost f
  else
    let m1 := m.modLane f.lane (fun x => { x with floeSeq := some (f.seq % 65536) })
    match seq with
    | none   => m1.floeGood f
    | some n => if f.seq % 65536 = (n + 1) % 65536 then m1.floeGood f else (m1.bump (Ob.floeSeqError f.lane)).floeLost f

/-- Three consecutive ticks have passed without a good state frame: those that no frame has told count now.
DEDUCED, log entry 66. -/
def Mod.floeStateLoss (m : Mod) : Mod :=
  let s := m.standby
  let n := (m.laneAt s).missing
  if 3 ≤ n || m.clk.tick < (m.laneAt s).goodTick + 3 then m else ((List.range (3 - n)).foldl (fun m _ => m.stateFrameLost) m)

/-! ### Cirque, TLS and the counters (R317 to R319) -/

/-- A Cirque message fails its MAC: after the third failure the lane treats Cirque as unavailable, with EV104.
DEDUCED, log entry 67. -/
def Mod.cirqueMacFail (l : Nat) (m : Mod) : Mod :=
  let n := (m.laneAt l).macFails
  let m1 := (m.bump (Ob.cirqueMacFail l)).modLane l (fun x => { x with macFails := satAt 3 (n + 1) })
  if n = 2 then m1.showCirque.raise 104 sevFault 0x6401 l else m1

/-- A TLS record fails authentication: its session closes, with EV110. -/
def Mod.tlsRecordFail (k : Nat) (m : Mod) : Mod :=
  if (m.sessAt k).isSome then
    ((m.bump Ob.tlsAuthFail).raise 110 sevWarn 0x4607 (m.mailboxOf (.session k))).closeSession k
  else m

/-- The counters of R319. DESIGN CHOICE, log entry 48. -/
def integrityKeys : List Nat :=
  [0, 1].flatMap (fun l => [Ob.dramCorrected l, Ob.dramUncorrected l, Ob.dramCorrHour l, Ob.flashCorrected l,
    Ob.flashUncorrected l, Ob.parityErrors l, Ob.scrubPasses l, Ob.floeCrcFail l, Ob.floeSeqError l, Ob.floeLostTicks l,
    Ob.floeResends l, Ob.rimeCrcFail l, Ob.rimeMissingMax l, Ob.cirqueMacFail l, Ob.safetyLinkCrcFail l])
  ++ [Ob.eth0FcsErr, Ob.eth1FcsErr, Ob.tlsAuthFail, Ob.rtuCrcFail, Ob.dnp3CrcFail, Ob.commCoreRestarts]

/-- INTEGRITY_CLEAR sets every counter to 0 (R319). -/
def Mod.integrityClear (m : Mod) : Mod :=
  (m.each integrityKeys (fun k m => m.put k 0)).each [0, 1] (fun l m => m.modLane l (fun x => { x with corr := [] }))

/-! ### The commands -/

/-- `SCRUB_PASS` (R312). -/
def execScrubPass (lane : Nat) (moraine : Bool) (corrected : Nat) (s : State) : Host.Outcome State Fault Refusal :=
  onUnit (laneOk lane) s (s.m.scrubPass lane moraine corrected)

/-- `MEMORY_UNCORRECTABLE` (R313). -/
def execMemoryUncorrectable (lane : Nat) (moraine : Bool) (address : Nat) (s : State) : Host.Outcome State Fault Refusal :=
  onUnit (laneOk lane) s (s.m.memoryUncorrectable lane moraine address)

/-- `FLASH_UNCORRECTABLE` (R314). -/
def execFlashUncorrectable (lane region offset : Nat) (bothCopies : Bool) (entries : List (Nat × Nat)) (s : State) :
    Host.Outcome State Fault Refusal :=
  onUnit (laneOk lane) s (s.m.flashUncorrectable lane region offset bothCopies entries)

/-- `PARITY_ERROR` (R315). -/
def execParityError (lane place address : Nat) (s : State) : Host.Outcome State Fault Refusal :=
  onUnit (laneOk lane) s (s.m.parityError lane place address)

/-- `FLOE_FRAME` (R316). -/
def execFloeFrame (f : FloeFrame) (s : State) : Host.Outcome State Fault Refusal := onUnit (laneOk f.lane) s (s.m.floeFrame f)

/-- `FLOE_STATE_LOSS` (R316). -/
def execFloeStateLoss (s : State) : Host.Outcome State Fault Refusal := onMod s s.m.floeStateLoss

/-- `CIRQUE_MAC_FAIL` (R317). -/
def execCirqueMacFail (lane : Nat) (s : State) : Host.Outcome State Fault Refusal := onUnit (laneOk lane) s (s.m.cirqueMacFail lane)

/-- `TLS_RECORD_FAIL` (R318). -/
def execTlsRecordFail (k : Nat) (s : State) : Host.Outcome State Fault Refusal := onMod s (s.m.tlsRecordFail k)

end Sys2Proof.Machine
end

