-- ==== Sys2Proof/Machine/Time.lean ====
section
/-!
DEFINITION. The timebase, PTP, pulses and the scheduled-action table (R368 to R384): the states of R370, the offset
estimates and the servo's bounds, the step, UTC, PPS and triggers, TIME_REACQUIRE, and the table's entries. An offset is
the module's time less the source's, in ns.
-/
namespace Sys2Proof.Machine

def Mod.modTime (f : TimeRt → TimeRt) (m : Mod) : Mod := { m with time := f m.time }

def timeFreerun : Nat := 0
def timeAcquiring : Nat := 1
def timeLocked : Nat := 2
def timeHoldover : Nat := 3
def timeFreewheel : Nat := 4

/-- TIME_STATE (R370). -/
def Mod.timeSt (m : Mod) : Nat := m.get Ob.timeState

/-- TIME_STATE changes with EV098 (R370, R397). -/
def Mod.timeTo (new : Nat) (m : Mod) : Mod :=
  let old := m.timeSt
  if old = new then m
  else
    let warn := new = timeHoldover || new = timeFreewheel
    (m.put Ob.timeState new).raise 98 (if warn then sevWarn else sevInfo) (if warn then 0x5002 else 0) (new + 256 * old)

/-! ### The scheduled-action table (R380 to R383) -/

/-- The objects of one entry of the table, and SCHED_USED (R396). -/
def Mod.showEntry (e : Nat) (m : Mod) : Mod :=
  let m1 := m.put Ob.schedUsed m.sched.length
  match m.sched.find? (fun x => x.entry = e) with
  | none   => ((((m1.put (Ob.entryState e) 0).put (Ob.applyTime e) 0).put (Ob.entrySeq e) 0).put (Ob.entrySource e) 0).put (Ob.entryWrites e) 0
  | some x =>
    ((((m1.put (Ob.entryState e) (if x.suspended then 2 else 1)).put (Ob.applyTime e) (x.applyAt % 18446744073709551616).toNat).put
      (Ob.entrySeq e) x.seq).put (Ob.entrySource e) (m1.senderBits x.snd)).put (Ob.entryWrites e) x.writes.length

/-- Why a scheduled commit is refused at acceptance (R380). -/
def Mod.schedRefusal (m : Mod) (at_ : Int) : Option Nat :=
  if !m.time.stepped then some 0x12
  else if at_ < m.tai + (m.get Ob.schedMinLead * 1000000 : Nat) then some 0x11
  else if m.tai + 2592000000000000 < at_ then some 0x11
  else if 64 ≤ m.sched.length then some 1
  else none

/-- An accepted commit takes the lowest free entry. -/
def Mod.schedAdd (at_ : Int) (snd : Sender) (seq : Nat) (ws : List (Nat × List Byte)) (m : Mod) : Mod :=
  match (List.range 64).find? (fun e => m.sched.all (fun x => x.entry ≠ e)) with
  | none   => m
  | some e =>
    ({ m with sched := m.sched ++ [⟨e, at_, snd, seq, ws, false, m.order⟩], order := m.order + 1 } : Mod).showEntry e

/-- EV097 of an entry (R381, R397). -/
def Mod.schedDone (seq status pos : Nat) (m : Mod) : Mod :=
  m.raise 97 (if status = 0 then sevInfo else sevWarn) (if status = 0 then 0 else 0x5001) (seq + 65536 * status + 16777216 * pos)

/-- An entry becomes free. -/
def Mod.schedFree (e : Nat) (m : Mod) : Mod :=
  ({ m with sched := m.sched.filter (fun x => x.entry ≠ e) } : Mod).showEntry e

/-- Whether an entry is past its staging cutoff. -/
def Mod.entryStaged (m : Mod) (e : Nat) : Bool := m.staged.any (fun w => w.entry = some e)

/-- SCHED_CANCEL (R380): the status, and the entry freed with EV097. -/
def Mod.schedCancel (snd : Sender) (e : Nat) (m : Mod) : Mod × Nat :=
  match m.sched.find? (fun x => x.entry = e) with
  | none   => (m, 0x12)
  | some x =>
    if x.snd ≠ snd then (m, 0x21)
    else if m.entryStaged e then (m, 0x12)
    else ((m.schedFree e).schedDone x.seq 0x12 0, 0)

/-- Entry `e` is staged for the coming boundary, where that lies at or after its time (R381). -/
def Mod.stageEntry (e : Nat) (m : Mod) : Mod :=
  match m.sched.find? (fun x => x.entry = e) with
  | none   => m
  | some x =>
    if x.suspended || m.entryStaged e || m.clk.taiBase + ((m.clk.t0Ps + m.tickPs) / 1000 : Nat) < x.applyAt then m
    else { m with staged := m.staged ++ [{ snd := x.snd, seq := x.seq, op := 6, idx := 0, sub := 0, work := .writes x.writes
                                           isGroup := true, entry := some e, order := x.order
                                           moves := m.movesOf x.writes }] }

/-- At a staging cutoff every entry whose boundary comes next is staged (R381). -/
def Mod.stageDue (nextT0 : Int) (m : Mod) : Mod :=
  m.each ((m.sched.filter (fun x => x.applyAt ≤ nextT0)).map (·.entry)) Mod.stageEntry

/-! ### Triggers (R379, R382) -/

def Mod.trigAt (m : Mod) (k : Nat) : TrigRt := m.time.trig.getD k {}
def Mod.modTrig (k : Nat) (f : TrigRt → TrigRt) (m : Mod) : Mod := m.modTime (fun t => { t with trig := t.trig.modify k f })

/-- The first pulse of a programme at or after `from_`, with the pulses left from it on. DEDUCED, log entry 70. -/
def nextPulse (mode : Nat) (start from_ : Int) (period count : Nat) : Option (Int × Option Nat) :=
  if mode = 1 then (if from_ ≤ start then some (start, some 1) else none)
  else if mode = 2 then
    let n : Nat := if from_ ≤ start then 0 else ((from_ - start + (period : Int) - 1) / (period : Int)).toNat
    if count = 0 then some (start + (n * period : Nat), none)
    else if n < count then some (start + (n * period : Nat), some (count - n))
    else none
  else none

/-- Output `k` takes the programme of its objects from `from_` on. -/
def Mod.trigProgram (k : Nat) (from_ : Int) (m : Mod) : Mod :=
  match nextPulse (m.get (Ob.trigMode k)) (Raw.signed 64 (m.get (Ob.trigStart k))) from_ (m.get (Ob.trigPeriod k)) (m.get (Ob.trigCount k)) with
  | none   => m.modTrig k (fun t => { t with next := none, left := none })
  | some p => m.modTrig k (fun t => { t with next := some p.1, left := p.2 })

/-- A write of a trigger's object has applied. -/
def Mod.trigWritten (k : Nat) (m : Mod) : Mod := m.trigProgram k m.tai

/-- A pulse of output `k` (R379): it stands at its programmed instant, and the next follows by the programme. -/
def Mod.trigPulse (k : Nat) (m : Mod) : Mod :=
  let x := m.trigAt k
  match x.next with
  | none   => m
  | some t =>
    if x.suspended then m
    else
      let left := x.left.map (· - 1)
      let next := if m.get (Ob.trigMode k) = 2 && left ≠ some 0 then some (t + (m.get (Ob.trigPeriod k) : Int)) else none
      (m.reachTai t).modTrig k (fun y => { y with next := next, left := left, last := some t })

/-! ### TIME_REACQUIRE and the return to LOCKED (R370, R382) -/

/-- TIME_REACQUIRE: one step is allowed again; entries and triggers are suspended, with EV103. -/
def Mod.reacquire (m : Mod) : Mod :=
  let n := m.sched.length
  let m1 : Mod := { m with sched := m.sched.map (fun x => { x with suspended := true })
                           staged := m.staged.filter (fun w => w.entry.isNone) }
  let m2 := (m1.each (m1.sched.map (·.entry)) Mod.showEntry).modTime (fun t => { t with
    stepped := false, est := [], small := 0, large := 0, trig := t.trig.map (fun x => { x with suspended := true }) })
  ((m2.put Ob.stepAllowed 1).raise 103 sevWarn 0x5005 n).timeTo (if m.time.qualified then timeAcquiring else timeFreerun)

/-- In LOCKED again: each suspended entry resumes when its time still lies SCHED_MIN_LEAD ahead, and is discarded
otherwise; each trigger resumes with its next pulse at least 100 µs ahead. DEDUCED, log entry 70. -/
def Mod.resumeAll (m : Mod) : Mod :=
  let lead := m.tai + (m.get Ob.schedMinLead * 1000000 : Nat)
  let late := m.sched.filter (fun x => x.suspended && x.applyAt < lead)
  let m1 := late.foldl (fun m x => (m.schedFree x.entry).schedDone x.seq 0x12 0) m
  let m2 : Mod := { m1 with sched := m1.sched.map (fun x => { x with suspended := false }) }
  let m3 := m2.each (m2.sched.map (·.entry)) Mod.showEntry
  m3.each (List.range 4) (fun k m =>
    if (m.trigAt k).suspended then (m.modTrig k (fun x => { x with suspended := false })).trigProgram k (m.tai + 100000) else m)

/-! ### Offsets and the servo (R369, R370) -/

/-- EV100 once per episode while the offset exceeds OFFSET_ALARM after a step. -/
def Mod.offsetAlarm (off : Int) (m : Mod) : Mod :=
  if m.time.stepped && (m.get Ob.offsetAlarm * 1000 : Nat) < absI off then
    if m.time.alarmed then m
    else (m.modTime (fun t => { t with alarmed := true })).raise 100 sevWarn 0x5004 (min 4294967295 (absI off / 1000).toNat)
  else m.modTime (fun t => { t with alarmed := false })

/-- Mean of a list of integers, rounded towards the lower. -/
def meanI (l : List Int) : Int := if l.isEmpty then 0 else l.foldl (· + ·) 0 / (l.length : Int)

/-- Whether estimates lie within 1 µs of each other. -/
def within1us (l : List Int) : Bool :=
  match l with
  | []      => false
  | x :: xs => xs.foldl max x - xs.foldl min x ≤ 1000

/-- In ACQUIRING eight estimates that agree cause the step, at the next boundary, where one is allowed. -/
def Mod.maybeStep (m : Mod) : Mod :=
  if m.timeSt = timeAcquiring && m.get Ob.stepAllowed = 1 && m.time.est.length = 8 && within1us m.time.est
      && m.acts.all (fun a => match a with | .timeStep _ => false | _ => true) then
    { m with acts := m.acts ++ [.timeStep (-meanI m.time.est)] }
  else m

/-- The servo's next trim (R369): whatever its law, within ±200 ppm; it applies at the next boundary.
DESIGN CHOICE, log entry 69. -/
def Mod.servo (off : Int) (m : Mod) : Mod :=
  { m with acts := m.acts ++ [.trim (clampI (-20000000) 20000000 (Config.servoTrim off (m.getS Ob.timeTrim)))] }

/-- One servo update with an offset. -/
def Mod.servoUpdate (off : Int) (m : Mod) : Mod :=
  if m.timeSt = timeAcquiring || m.timeSt = timeLocked then
    let est := m.time.est ++ [off]
    let m1 := (m.putS Ob.timeOffset off).modTime (fun t => { t with
      est   := est.drop (est.length - 8)
      small := if absI off ≤ 100 then t.small + 1 else 0
      large := if 1000 < absI off then t.large + 1 else 0 })
    let m2 := ((m1.offsetAlarm off).servo off).maybeStep
    if m2.timeSt = timeAcquiring && 16 ≤ m2.time.small then
      ((m2.modTime (fun t => { t with large := 0 })).timeTo timeLocked).resumeAll
    else if m2.timeSt = timeLocked && 16 ≤ m2.time.large then
      (m2.modTime (fun t => { t with small := 0 })).timeTo timeAcquiring
    else m2
  else m

/-- The step at its boundary (R370): the timebase moves, EV099, and no further step is allowed. -/
def Mod.applyStep (ns : Int) (m : Mod) : Mod :=
  let m1 : Mod := { m with clk := { m.clk with taiBase := m.clk.taiBase + ns } }
  let m2 := m1.modTime (fun t => { t with stepped := true, est := [], small := 0, large := 0, masterTo := none })
  let m3 : Mod := { m2 with hostQ := { m2.hostQ with lastAdded := none }
                            sess := m2.sess.map (fun p => (p.1, { p.2 with evq := { p.2.evq with lastAdded := none } })) }
  ((m3.put Ob.stepAllowed 0).putF Ob.lastStep ((ns : Rat) / 1000000000)).raise 99 sevWarn 0x5003
    (Raw.ofInt 32 (clampI (-2147483648) 2147483647 (ns / 1000000)))

/-- A trim at its boundary: N moves by at most 10 ppm in each window of 10 µs (R437). DESIGN CHOICE, log entry 69. -/
def Mod.applyTrimRate (v : Int) (m : Mod) : Mod :=
  let d := absI (v - m.getS Ob.timeTrim)
  let m1 := m.putS Ob.timeTrim v
  { m1 with hk := { m1.hk with moving := ((d + 999999) / 1000000).toNat } }

/-- The source is qualified (R370): the servo starts, or goes on by rate only. -/
def Mod.sourceQualified (m : Mod) : Mod :=
  if m.time.qualified then m
  else
    let m1 := m.modTime (fun t => { t with qualified := true, lostPs := none, est := [], small := 0, large := 0 })
    if m.timeSt = timeFreerun || m.timeSt = timeHoldover || m.timeSt = timeFreewheel then m1.timeTo timeAcquiring else m1

/-- The source has been silent for its time (R370, R394): PPS_IN for 2 s, PTP for three Sync intervals of its last Sync.
DEDUCED, log entry 68. -/
def Mod.silent (m : Mod) : Mod :=
  m.reach (if m.get Ob.timeSource = 1 then (match m.time.ppsPs with | some p => p + sPs 2 | none => 0)
           else match m.time.syncPs with | some p => p.1 + 3 * p.2 | none => 0)

/-- The source is lost (R370): the last trim holds. -/
def Mod.sourceLost (m : Mod) : Mod :=
  let m1 := m.modTime (fun t => { t with qualified := false, syncs := 0, delays := 0, twoStep := none, request := none, pdelay := none, ppsRun := 0 })
  let m2 := if m.get Ob.timeSource = 0 then m1.put Ob.slavePort 255 else m1
  if m.timeSt = timeLocked || m.timeSt = timeAcquiring then
    (m2.modTime (fun t => { t with lostPs := some m.now })).timeTo timeHoldover
  else m2

/-- HOLDOVER_LIMIT expires: the trim freezes. -/
def Mod.holdoverEnds (m : Mod) : Mod :=
  if m.timeSt = timeHoldover then (m.reach (m.time.lostPs.getD m.now + sPs (m.get Ob.holdoverLimit))).timeTo timeFreewheel else m

/-- HOLDOVER_TIME in s (R395). -/
def Mod.holdoverSecs (m : Mod) : Nat :=
  if m.timeSt = timeHoldover || m.timeSt = timeFreewheel then
    match m.time.lostPs with | some p => satAt 4294967295 ((m.now - p) / 1000000000000) | none => 0
  else 0

/-! ### PTP (R372 to R376) -/

/-- UTC and leap warnings from Announce (R376): while currentUtcOffsetValid is set PTP supplies UTC_OFFSET.
DEDUCED, log entry 70. -/
def Mod.announceUtc (a : PtpMsg) (m : Mod) : Mod :=
  let m1 := m.put Ob.leapPending (if a.leap61 then 1 else if a.leap59 then 2 else 0)
  let m2 := if a.utcValid then m1.putS16 Ob.utcOffset a.utcOffset
            else if m.time.utcByPtp then m1.put Ob.utcOffset (cellGet dfltOf Ob.utcOffset m.sto) else m1
  m2.modTime (fun t => { t with utcByPtp := a.utcValid })

/-- An Announce (R372): the best master clock algorithm selects the parent; a new parent starts its measurements anew. -/
def Mod.announce (a : PtpMsg) (m : Mod) : Mod :=
  let none_ := m.get Ob.slavePort = 255
  let same := !none_ && m.get Ob.parentId = a.parentId
  if same || none_ || a.better then
    let m1 := (((m.put Ob.parentId a.parentId).put Ob.gmId a.gmId).put Ob.stepsRemoved a.stepsRemoved).put Ob.slavePort a.port
    let m2 := if same then m1
              else m1.modTime (fun t => { t with syncs := 0, delays := 0, twoStep := none, request := none, pdelay := none })
    m2.announceUtc a
  else m

/-- Whether a message comes from the parent on the slave port. -/
def Mod.fromParent (m : Mod) (a : PtpMsg) : Bool :=
  m.get Ob.slavePort = a.port && a.port ≠ 255 && m.get Ob.parentId = a.parentId

/-- The source is qualified after eight Sync and eight delay measurements. DEDUCED, log entry 68. -/
def Mod.judgeSource (m : Mod) : Mod :=
  if m.get Ob.timeSource = 0 && 8 ≤ m.time.syncs && 8 ≤ m.time.delays then m.sourceQualified else m

/-- A Sync measurement: `d` is receipt less transmission, corrections taken off. With a delay known it gives an offset,
less the cable asymmetry (R375). DEDUCED, log entry 68. -/
def Mod.syncMeasured (d : Int) (m : Mod) : Mod :=
  let m1 := (m.modTime (fun t => { t with syncs := t.syncs + 1, masterTo := some d, twoStep := none })).judgeSource
  if m.get Ob.timeSource = 0 && m1.time.qualified then
    match m1.time.delay with
    | none       => m1
    | some delay => m1.servoUpdate (d - delay - m1.getS Ob.asymmetry / 1000)
  else m1

/-- A delay measurement in ns. DEDUCED, log entry 68. -/
def Mod.delayMeasured (d : Int) (m : Mod) : Mod :=
  ((m.modTime (fun t => { t with delays := t.delays + 1, delay := some d, request := none, pdelay := none })).put Ob.pathDelay
    (clampI 0 4294967295 (d * 1000)).toNat).judgeSource

/-- Whether the profile measures its delay from peer to peer (R372). -/
def Mod.peerDelay (m : Mod) : Bool := m.get Ob.ptpProfile ≠ 0

/-- The module sends a delay request of its profile (R372). -/
def Mod.delayReq (m : Mod) : Mod :=
  m.modTime (fun t => { t with reqSeq := (t.reqSeq + 1) % 65536, request := some ((t.reqSeq + 1) % 65536, m.tai), pdelay := none })

/-- A Sync interval in ps from its binary logarithm. -/
def syncPsOf (log : Int) : Nat := if 0 ≤ log then sPs (2 ^ log.toNat) else sPs 1 / 2 ^ (-log).toNat

/-- Whether the profile accepts a Sync interval (R372): 1/128 s to 2 s, in profile 02h 1 s. -/
def Mod.syncAccepted (m : Mod) (log : Int) : Bool := if m.get Ob.ptpProfile = 2 then log = 0 else -7 ≤ log && log ≤ 1

/-- The domain in force: 0 in profile 02h (R372, R395). -/
def Mod.domainNow (m : Mod) : Nat := if m.get Ob.ptpProfile = 2 then 0 else m.get Ob.ptpDomain

/-- A PTP message (R372, R375, R376): messages of another domain, Syncs at an interval that the profile does not accept and
management messages are ignored. DESIGN CHOICE, log entry 88. -/
def Mod.ptpMessage (a : PtpMsg) (m : Mod) : Mod :=
  if a.domain ≠ m.domainNow || (a.kind = .sync && !m.syncAccepted a.logInterval) then m
  else match a.kind with
    | .announce => m.announce a
    | .sync =>
      if m.fromParent a then
        let m := m.modTime (fun t => { t with syncPs := some (m.now, syncPsOf a.logInterval) })
        if a.twoStep then m.modTime (fun t => { t with twoStep := some (a.sequenceId, a.rx, a.correction) })
        else m.syncMeasured (a.rx - a.origin - a.correction)
      else m
    | .followUp =>
      match m.time.twoStep with
      | none => m
      | some (seq, rx, corr) =>
        if m.fromParent a && seq = a.sequenceId then m.syncMeasured (rx - a.origin - corr - a.correction) else m
    | .delayResp =>
      match m.time.request, m.time.masterTo with
      | some (seq, t3), some d =>
        if m.fromParent a && !m.peerDelay && seq = a.sequenceId then m.delayMeasured ((d + (a.origin - t3 - a.correction)) / 2) else m
      | _, _ => m
    | .pdelayResp =>
      match m.time.request with
      | none => m
      | some (seq, t1) =>
        if m.peerDelay && seq = a.sequenceId then
          if a.twoStep then m.modTime (fun t => { t with pdelay := some (seq, a.rx - t1 - a.correction, a.origin) })
          else m.delayMeasured ((a.rx - t1 - a.correction) / 2)
        else m
    | .pdelayRespFollowUp =>
      match m.time.pdelay with
      | none => m
      | some (seq, whole, t2) =>
        if m.peerDelay && seq = a.sequenceId then m.delayMeasured ((whole - (a.origin - t2) - a.correction) / 2) else m
    | .pdelayReq  => m
    | .delayReq   => m
    | .management => m

/-! ### Pulses (R378) -/

/-- The nearest whole second to a TAI in ns. -/
def nearestSecond (t : Int) : Int := (t + 500000000) / 1000000000 * 1000000000

/-- A rising edge of PPS_IN (R370, R378): compared with the timebase; with TIME_SOURCE 01h it disciplines the rate. -/
def Mod.ppsInEdge (m : Mod) : Mod :=
  let e := m.tai - m.getS Ob.ppsInDelay / 1000
  let m1 := m.putS Ob.ppsInOffset (e - nearestSecond e)
  if m.get Ob.timeSource = 1 then
    let steady := match m.time.ppsPs with
      | none   => false
      | some p => 999900000000 ≤ m.now - p && m.now - p ≤ 1000100000000
    let run := if steady then m.time.ppsRun + 1 else 1
    let m2 := m1.modTime (fun t => { t with ppsPs := some m.now, ppsRun := run })
    if !m2.time.secondsOk then m2
    else
      let coarse := m2.time.masterTo.getD 0
      let m3 := if 4 ≤ run then m2.sourceQualified else m2
      if m3.time.qualified then m3.servoUpdate (e - nearestSecond (e + coarse)) else m3
  else m1.modTime (fun t => { t with ppsPs := some m.now })

/-- The whole second at which PPS_OUT rises next: the coming one, or the present instant where it has not risen at it. -/
def Mod.nextPps (m : Mod) : Int :=
  let t := (m.tai + 999999999) / 1000000000 * 1000000000
  if m.time.lastPps = some t then t + 1000000000 else t

/-- PPS_OUT rises at the next whole second in the states that PPS_OUT_MODE selects. DEDUCED, log entry 70. -/
def Mod.ppsOutPulse (m : Mod) : Mod :=
  let on := (m.get Ob.ppsOutMode = 1 && (m.timeSt = timeLocked || m.timeSt = timeHoldover))
            || (m.get Ob.ppsOutMode = 2 && m.time.stepped)
  if on then (m.reachTai m.nextPps).modTime (fun t => { t with lastPps := some m.nextPps }) else m

/-- TIME_SET (R370, R378): it supplies the seconds that PPS_IN lacks; refused unless TIME_SOURCE is 01h and a step is
allowed. DEDUCED, log entry 68. -/
def Mod.timeSet (t : Nat) (m : Mod) : Mod × Nat :=
  if m.get Ob.timeSource = 1 && m.get Ob.stepAllowed = 1 then
    (m.modTime (fun x => { x with secondsOk := true, ppsRun := 0, ppsPs := none, masterTo := some ((t : Int) - m.tai) }), 0)
  else (m, 0x12)

/-- A write of TIME_SOURCE, PTP_PROFILE or PTP_DOMAIN has applied: the source that disciplined the timebase is lost.
DEDUCED, log entry 68. -/
def Mod.sourceChanged (m : Mod) : Mod :=
  (if m.time.qualified then m.sourceLost else m).modTime (fun t => { t with
    qualified := false, syncs := 0, delays := 0, delay := none, ppsRun := 0, secondsOk := false, masterTo := none })

/-! ### The commands -/

/-- `PTP_MESSAGE` (R372). -/
def execPtpMessage (a : PtpMsg) (s : State) : Host.Outcome State Fault Refusal := onMod s (s.m.ptpMessage a)

/-- `TIME_SOURCE_LOST` (R370). -/
def execTimeSourceLost (s : State) : Host.Outcome State Fault Refusal := onMod s s.m.silent.sourceLost

/-- `HOLDOVER_LIMIT_EXPIRY` (R370). -/
def execHoldoverLimitExpiry (s : State) : Host.Outcome State Fault Refusal := onMod s s.m.holdoverEnds

/-- `PPS_IN_EDGE` (R378). -/
def execPpsInEdge (dt : Nat) (s : State) : Host.Outcome State Fault Refusal := onMod s (atDt dt Mod.ppsInEdge s.m)

/-- `PPS_OUT_PULSE` (R378). -/
def execPpsOutPulse (s : State) : Host.Outcome State Fault Refusal := onMod s s.m.ppsOutPulse

/-- `TRIG_PULSE` (R379). -/
def execTrigPulse (k : Nat) (s : State) : Host.Outcome State Fault Refusal := onUnit (k < 4) s (s.m.trigPulse k)

/-- `SCHEDULED_ENTRY` (R381): the staging cutoff of an entry's boundary. -/
def execScheduledEntry (e : Nat) (s : State) : Host.Outcome State Fault Refusal := onUnit (e < 64) s (s.m.stageEntry e)

/-- `DELAY_REQ` (R372). -/
def execDelayReq (s : State) : Host.Outcome State Fault Refusal := onMod s s.m.delayReq

end Sys2Proof.Machine
end

