-- ==== Sys2Proof/Machine/Thermal.lean ====
section
/-!
DEFINITION. Thermal management and the cooling drive (R417 to R432). Temperatures are in 0.01 °C.
-/
namespace Sys2Proof.Machine

def Mod.modTherm (f : ThermRt → ThermRt) (m : Mod) : Mod := { m with therm := f m.therm }
def Mod.modCd (f : CdRt → CdRt) (m : Mod) : Mod := { m with cd := f m.cd }

def thermNormal : Nat := 0
def thermThrottle : Nat := 1
def thermRequest : Nat := 2
def thermEnforce : Nat := 3
def thermStopped : Nat := 4

/-! ### Sensors (R417 to R420) -/

/-- SENSOR_STATE and TEMP of a sensor. -/
def Mod.sensorSt (m : Mod) (x : Nat) : Nat := m.get (Ob.sensorState x)
def Mod.tempOf (m : Mod) (x : Nat) : Int := m.getS16 (Ob.thermTemp x)
def Mod.sensorOk (m : Mod) (x : Nat) : Bool := m.sensorSt x = 0

/-- The neighbours of a sensor (R419). -/
def Mod.neighbours (m : Mod) (x : Nat) : List Nat :=
  if x < 8 then (bitsOf 8 (m.get (Ob.ntcNeighbours x))).filter (· ≠ x)
  else if x < 12 then [8, 9, 10, 11].filter (· ≠ x)
  else [12, 13, 14, 15].filter (· ≠ x)

/-- Insertion into a rising list. -/
def insertI (a : Int) : List Int → List Int
  | []      => [a]
  | b :: bs => if a ≤ b then a :: b :: bs else b :: insertI a bs

/-- The median of a list; of an even count the mean of the two in the middle. DEDUCED, log entry 71. -/
def medianI (l : List Int) : Int :=
  let s := l.foldl (fun acc a => insertI a acc) []
  let n := s.length
  if n % 2 = 1 then s.getD (n / 2) 0 else (s.getD (n / 2 - 1) 0 + s.getD (n / 2) 0) / 2

/-- A sensor is excluded with EV119 (R418, R419, R435). DEDUCED, log entry 71. -/
def Mod.exclude (x st : Nat) (m : Mod) : Mod :=
  ((m.put (Ob.sensorState x) st).modTherm (fun t => { t with beyond := t.beyond.set x 0, restore := t.restore.set x none })).raise
    119 sevWarn 0x5802 (x + 512 * st)

/-- The temperature in 0.01 °C at which an NTC of resistance `r25` at 25 °C and of the constant `beta` has `ohm` (R417), from below,
held to an s16. DEDUCED, log entry 71. -/
def ntcTemp (r25 beta : Rat) (ohm : Nat) : Int :=
  if ohm = 0 || r25 ≤ 0 || beta ≤ 0 then 32767
  else
    let inv := (100 : Rat) / 29815 + fxRat (fxMul (fxLog2 (ohm / r25)) fxLn2) / beta
    if inv ≤ 0 then 32767 else clampI (-32768) 32767 ((1 / inv - 27315 / 100) * 100).floor

/-- The readings of a round, corrected by `fix` (R105): TEMP of every sensor, an NTC's from its resistance; a disabled NTC is not
converted and reads 04h, and one open or shorted is excluded at once. DEDUCED, log entry 71. -/
def Mod.takeTemps (ohms : List Nat) (dies : List Int) (fix : Int → Int) (m : Mod) : Mod :=
  m.each (List.range 16) (fun x m =>
    if x < 8 then
      if m.get (Ob.ntcEn x) = 0 then m.put (Ob.sensorState x) 4
      else
        let t := fix (ntcTemp (m.getF (Ob.ntcR25 x)) (m.getF (Ob.ntcBeta x)) (ohms.getD x 0))
        let st := m.sensorSt x
        let m1 := m.putS16 (Ob.thermTemp x) t
        let m2 := if st = 4 then m1.put (Ob.sensorState x) 0 else m1
        if t < -5000 then (if st = 2 then m2 else m2.exclude x 2)
        else if 20000 < t then (if st = 3 then m2 else m2.exclude x 3)
        else m2
    else m.putS16 (Ob.thermTemp x) (fix (dies.getD (x - 8) 0)))

/-- The neighbour check of one sensor against the readings and states in `m0` (R419). -/
def Mod.checkSensor (m0 : Mod) (x : Nat) (m : Mod) : Mod :=
  if m0.sensorSt x = 4 then m
  else
    let ns := (m0.neighbours x).filter m0.sensorOk
    if ns.length < 2 then m
    else
      let dev := m0.tempOf x - medianI (ns.map m0.tempOf)
      let m1 := m.putS16 (Ob.medianDev x) dev
      if m0.sensorSt x = 0 then
        if 800 < absI dev then
          let n := m.therm.beyond.getD x 0 + 1
          if 5 ≤ n then m1.exclude x 1 else m1.modTherm (fun t => { t with beyond := t.beyond.set x n })
        else m1.modTherm (fun t => { t with beyond := t.beyond.set x 0 })
      else
        match m.therm.restore.getD x none with
        | none   => m1
        | some n =>
          let open_ := x < 8 && (m0.tempOf x < -5000 || 20000 < m0.tempOf x)
          if 800 < absI dev || open_ then m1.modTherm (fun t => { t with restore := t.restore.set x (some 0) })
          else if 5 ≤ n + 1 then
            (m1.put (Ob.sensorState x) 0).modTherm (fun t => { t with restore := t.restore.set x none, beyond := t.beyond.set x 0 })
          else m1.modTherm (fun t => { t with restore := t.restore.set x (some (n + 1)) })

/-- The neighbour checks of a round: all against the readings and states at its start. -/
def Mod.checkSensors (m : Mod) : Mod := (List.range 16).foldl (fun m' x => m.checkSensor x m') m

/-- SENSOR_RESTORE (R419): the sensor returns after five rounds within 8 K. -/
def Mod.sensorRestore (x : Nat) (m : Mod) : Mod × Nat :=
  if 16 ≤ x then (m, 0x11)
  else if 1 ≤ m.sensorSt x && m.sensorSt x ≤ 3 then (m.modTherm (fun t => { t with restore := t.restore.set x (some 0) }), 0)
  else (m, 0)

/-- DIE_TEMP and HOTTEST (R420): `usable` is false where no valid converter remains. DEDUCED, log entry 71. -/
def Mod.dieTemp (usable : Bool) (m : Mod) : Mod :=
  let ok := if usable then [8, 9, 10, 11, 12, 13, 14].filter m.sensorOk else []
  if ok.length < 3 then
    let m1 := m.putS16 Ob.dieTemp (m.getS16 Ob.derateLevel)
    if m.therm.few then m1 else (m1.modTherm (fun t => { t with few := true })).raise 119 sevWarn 0x5802 256
  else
    let hot := ok.foldl (fun b x => if m.tempOf b < m.tempOf x then x else b) (ok.headD 8)
    ((m.putS16 Ob.dieTemp (m.tempOf hot)).put Ob.hottest hot).modTherm (fun t => { t with few := false })

/-! ### Levels and states (R421 to R425) -/

/-- A threshold after one round: reached after `need` rounds at or above it, left after three below it less 5 K. -/
def LevelRt.judge (need : Nat) (level temp : Int) (x : LevelRt) : LevelRt :=
  let up := if level ≤ temp then satAt 3 (x.up + 1) else 0
  let down := if temp < level - 500 then satAt 3 (x.down + 1) else 0
  ⟨if x.on then down < 3 else need ≤ up, up, down⟩

/-- The levels after a round: throttle, derate, stop, then NTC_DERATE and NTC_STOP of each NTC where they are above 0. As THROTTLE_LEVEL
is reached or left, the next step of THROTTLE_STEP is timed from now (R422). -/
def Mod.judgeLevels (m : Mod) : Mod :=
  let t := m.getS16 Ob.dieTemp
  let one (i need : Nat) (level temp : Int) : LevelRt := (m.therm.levels.getD i {}).judge need level temp
  let ntc (base need : Nat) (key : Nat → Nat) : List LevelRt := (List.range 8).map (fun k =>
    let lv := m.getS16 (key k)
    if 0 < lv && m.sensorOk k then one (base + k) need lv (m.tempOf k) else {})
  let die := [one 0 3 (m.getS16 Ob.throttleLevel) t, one 1 3 (m.getS16 Ob.derateLevel) t, one 2 2 (m.getS16 Ob.stopLevel) t]
  let all := die ++ ntc 3 3 Ob.ntcDerate ++ ntc 11 2 Ob.ntcStop
  let turned := (m.therm.levels.getD 0 {}).on ≠ (all.getD 0 {}).on
  m.modTherm (fun x => { x with levels := all, throtPs := if turned then some m.now else x.throtPs })

def Mod.levelOn (m : Mod) (i : Nat) : Bool := (m.therm.levels.getD i {}).on
/-- Whether the derate request's level stands: the die's, or an NTC's own (R421). -/
def Mod.derateOn (m : Mod) : Bool := m.levelOn 1 || (List.range 8).any (fun k => m.levelOn (3 + k))
/-- Whether a stop level stands. -/
def Mod.stopOn (m : Mod) : Bool := m.levelOn 2 || (List.range 8).any (fun k => m.levelOn (11 + k))

/-- EV120 (R435). -/
def Mod.thermEvent (old : Nat) (m : Mod) : Mod :=
  m.inform 120 (m.get Ob.thermalState + 256 * old + 65536 * m.get Ob.throttleStep)

/-- THERMAL_STATE changes (R425). -/
def Mod.thermTo (new : Nat) (m : Mod) : Mod :=
  let old := m.get Ob.thermalState
  if old = new then m else (m.put Ob.thermalState new).thermEvent old

/-- The derate request of R423. -/
def Mod.derateRequest (m : Mod) : Mod :=
  let m1 := (m.thermTo thermRequest).putBit Ob.derateRequest 0 true
  let g := m1.now + sPs (m1.get Ob.graceTime)
  (m1.modTherm (fun t => { t with gracePs := some g })).raise 121 sevWarn 0x5803 (m1.get Ob.hottest + 65536 * m1.get Ob.dieTemp)

/-- The states after the levels of a round (R425). -/
def Mod.judgeThermal (m : Mod) : Mod :=
  let st := m.get Ob.thermalState
  if st = thermStopped then m
  else if m.stopOn then (m.thermTo thermStopped).safeStop 0x5801
  else if st = thermRequest then
    if m.derateOn then m
    else ((m.modTherm (fun t => { t with gracePs := none })).putBit Ob.derateRequest 0 false).thermTo thermThrottle
  else if st = thermEnforce then m
  else if m.derateOn then m.derateRequest
  else if st = thermNormal && m.levelOn 0 then m.thermTo thermThrottle
  else if st = thermThrottle && !m.levelOn 0 && m.get Ob.throttleStep = 0 then m.thermTo thermNormal
  else m

/-- The throttle timer (R422): every 1 s upwards while the level stands, every 10 s downwards once it has been left.
DEDUCED, log entry 71. -/
def Mod.throttleTimer (m0 : Mod) : Mod :=
  match m0.therm.throtPs with
  | none   => m0
  | some p =>
  let m := (m0.reach (p + sPs (if m0.levelOn 0 then 1 else 10))).modTherm
    (fun t => { t with throtPs := some (max m0.now (p + sPs (if m0.levelOn 0 then 1 else 10))) })
  let n := m.get Ob.throttleStep
  let m1 := if m.levelOn 0 then (if n < 3 then (m.put Ob.throttleStep (n + 1)).thermEvent (m.get Ob.thermalState) else m)
            else if 0 < n then (m.put Ob.throttleStep (n - 1)).thermEvent (m.get Ob.thermalState) else m
  if m1.get Ob.thermalState = thermThrottle && !m1.levelOn 0 && m1.get Ob.throttleStep = 0 then m1.thermTo thermNormal else m1

/-- GRACE_TIME ends (R423, R424): with the level still reached, enforcement starts at the next boundary. -/
def Mod.graceEnds (m : Mod) : Mod :=
  match m.therm.gracePs with
  | none   => m
  | some g =>
    if m.get Ob.thermalState = thermRequest && m.derateOn then
      ((m.reach g).modTherm (fun t => { t with gracePs := none, starts := true })).thermTo thermEnforce
    else m

/-- GRACE_LEFT in s (R433). -/
def Mod.graceLeft (m : Mod) : Nat :=
  match m.therm.gracePs with
  | none   => 0
  | some p => (p - m.now + 999999999999) / 1000000000000

/-- The ratio of a running unit's current to its limit (R424). -/
def Mod.loadRatio (m : Mod) (g : Nat) : Rat :=
  if !(m.grpAt g).on then 0
  else if g < 4 then
    let lim := m.getS (Ob.iMax g)
    let i := hypot29 (m.eng.signal g 9) (m.eng.signal g 0xA) + hypot29 (m.eng.signal g 0xB) (m.eng.signal g 0xC)
    if lim = 0 then 1 else (i : Rat) / lim
  else
    let i := m.eng.dcSignal (g - 4) 0
    let lim := if 0 ≤ i then m.iOutNow (g - 4) else m.iInNow (g - 4)
    if lim = 0 then (if i = 0 then 0 else 1) else (absI i : Rat) / lim

/-- Where the temperature stands for k (R424): 1 falls, 0 holds, −1 rises; an NTC joins against its own level. -/
def Mod.ceilingMove (m : Mod) : Int :=
  let ntcs := (List.range 8).filter (fun k => 0 < m.getS16 (Ob.ntcDerate k) && m.sensorOk k)
  let pairs := (m.getS16 Ob.dieTemp, m.getS16 Ob.derateLevel) :: ntcs.map (fun k => (m.tempOf k, m.getS16 (Ob.ntcDerate k)))
  if pairs.any (fun p => p.2 ≤ p.1) then 1
  else if pairs.any (fun p => p.2 - 500 ≤ p.1) then 0
  else -1

/-- k in 1/16384 pu, the ARG of EV122. -/
def ceilingArg (k : Rat) : Nat := (k * 16384).floor.toNat

/-- The ceiling at a tick boundary (R424). -/
def Mod.thermBoundary (m : Mod) : Mod :=
  if m.therm.starts then
    let k := clampR (pu (m.getS Ob.derateFloor)) 1 ((List.range 8).foldl (fun a g => maxR a (m.loadRatio g)) 0)
    ((m.modTherm (fun t => { t with starts := false, enforce := true, k := k })).putQ Ob.derateCeiling (q29Of k)).raise 122 sevWarn
      0x5804 (ceilingArg k)
  else if m.therm.enforce then
    let step := m.tickS / 100
    let k0 := m.therm.k
    let mv := m.ceilingMove
    let fl := pu (m.getS Ob.derateFloor)
    let k := if mv = 1 then (if k0 - step < fl then minR k0 fl else k0 - step) else if mv = 0 then k0 else minR 1 (k0 + step)
    let m1 := (m.modTherm (fun t => { t with k := k })).putQ Ob.derateCeiling (q29Of k)
    if mv = -1 && k = 1 then
      (((m1.modTherm (fun t => { t with enforce := false })).putBit Ob.derateRequest 0 false).raise 122 sevWarn 0x5805
        (ceilingArg k)).thermTo thermThrottle
    else m1
  else m

/-! ### The cooling drive (R426 to R431) -/

/-- The phases driven for a Hall code (R426): U 0, V 1, W 2 as (high, low). -/
def hallPhases (code dir : Nat) : Option (Nat × Nat) :=
  let p : Option (Nat × Nat) := if code = 4 then some (0, 1) else if code = 6 then some (0, 2) else if code = 2 then some (1, 2)
    else if code = 3 then some (1, 0) else if code = 1 then some (2, 0) else if code = 5 then some (2, 1) else none
  if dir = 1 then p.map (fun q => (q.2, q.1)) else p

/-- Whether the drive runs: enabled, CD_VBUS good since power-up, and no fault latched (R429, R472). -/
def Mod.cdRuns (m : Mod) : Bool := m.cd.enable && m.cd.busGood && m.get Ob.cdFault = 0

/-- The drive at a duty in % with phases (high, low) from `now` on: since when the duty is at least 10 % (R428), and since when the
same high side is held on, which it is at 100 % duty (R427). -/
def CdRt.drives (now : Nat) (duty : Rat) (phases : Option (Nat × Nat)) (c : CdRt) : CdRt :=
  let high (p : Option (Nat × Nat)) : Option Nat := p.map (fun (q : Nat × Nat) => q.1)
  let held := 100 ≤ duty && phases.isSome
  { c with
    duty   := duty
    phases := phases
    dutyPs := if duty < 10 then none else if c.dutyPs.isSome then c.dutyPs else some now
    heldPs := if !held then none else if c.heldPs.isSome && high phases = high c.phases then c.heldPs else some now }

/-- CD_STATE, and the phases as the Hall code has them. -/
def Mod.cdShow (m : Mod) : Mod :=
  let st := if m.get Ob.cdFault ≠ 0 then (if m.cd.waiting then 2 else 3) else b2n m.cdRuns
  (m.put Ob.cdState st).modCd
    (fun c => c.drives m.now c.duty (if m.cdRuns then hallPhases (m.get Ob.cdHall) (m.get Ob.cdDir) else none))

/-- Retries of the last 10 min. -/
def Mod.cdRecent (m : Mod) : List Nat := m.cd.retries.filter (fun t => m.now < t + sPs 600)

/-- Every latched fault of the stage clears (R429). -/
def Mod.cdClears (m : Mod) : Mod :=
  ((m.put Ob.cdFault 0).modCd (fun c => { c with waiting := false })).cdShow

/-- The retry allowance returns, and the cooling is no longer lost (R430). -/
def Mod.cdAllowance (m : Mod) : Mod :=
  ((m.modCd (fun c => { c with retries := [] })).put Ob.cdRetries 0).putBit Ob.derateRequest 1 false

/-- When a condition of R428 that the state shows is met: an invalid Hall code for 10 µs, no Hall edge for CD_STALL_TIME at a duty of
10 % or more, a switch that is on for desaturation, sensor 0Fh at 140 °C, and a bus that has been good since power-up for undervoltage
(R472). The other conditions are the stage's own: they hold as the command comes. DEDUCED, log entry 72. -/
def Mod.cdFaultDue (code : Nat) (m : Mod) : Option Nat :=
  if code = 0x5810 then (if m.cd.phases.isSome then some m.now else none)
  else if code = 0x5811 then
    (if m.get Ob.cdHall = 0 || m.get Ob.cdHall = 7 then some (m.cd.hallPs + 10000000) else none)
  else if code = 0x5812 then m.cd.dutyPs.map (fun p => max p m.cd.hallPs + msPs (m.get Ob.cdStallTime))
  else if code = 0x5814 then (if m.cd.busGood then some m.now else none)
  else if code = 0x5816 then (if 14000 ≤ m.tempOf 15 then some m.now else none)
  else if code = 0x5813 || code = 0x5815 || code = 0x5817 then some m.now
  else none

/-- A fault of the stage (R428, R430): the six switches go off and it latches; with no retry left, EV123 and bit 1 of
DERATE_REQUEST. DEDUCED, log entry 72. -/
def Mod.cdFaulted (code : Nat) (m0 : Mod) : Mod :=
  match m0.cdFaultDue code with
  | none   => m0
  | some p =>
    if m0.get Ob.cdFault ≠ 0 then m0
    else
      let m := m0.reach p
      let left := m.cdRecent
      let again := left.length < m.get Ob.cdRetryMax
      let m1 := ((m.put Ob.cdFault code).put Ob.cdRetries left.length).modCd (fun c =>
        { c.drives m.now 0 none with waiting := again, retries := left, integ := 0, faultPs := m.now })
      let m2 := m1.cdShow.raise 122 sevFault code code
      if again then m2 else (m2.putBit Ob.derateRequest 1 true).raise 123 sevFault 0x5818 left.length

/-- CD_RETRY_DELAY after the fault ends: the internal enable falls for 20 µs, which clears the fault. -/
def Mod.cdRetry (m0 : Mod) : Mod :=
  if m0.cd.waiting then
    let m := m0.reach (m0.cd.faultPs + msPs (m0.get Ob.cdRetryDelay) + 20000000)
    let l := m.cdRecent ++ [m.now]
    ((m.modCd (fun c => { c with retries := l })).put Ob.cdRetries l.length).cdClears
  else m0

/-- A low of CD_EN, or of the internal enable, of `ns` (R429): 10 µs clear, less than 8 µs do not, in between either.
DEDUCED, log entry 72; DESIGN CHOICE, log entry 117. -/
def Mod.cdLow (byPin : Bool) (ns : Nat) (m : Mod) : Mod :=
  let m1 := { m with free := m.free + 1 }
  let clears := 10000 ≤ ns || (8000 ≤ ns && Config.cdLowClears m.free)
  let m2 := if 8000 ≤ ns && ns < 10000 then m1 else m
  if clears then (if byPin then m2.cdClears.cdAllowance else m2.cdClears) else m2

/-- CD_FAULT_CLEAR: a 20 µs low of the internal enable, which also restores the allowance (R430). -/
def Mod.cdFaultClear (m : Mod) : Mod := m.cdClears.cdAllowance

/-- The speed of the curve at a temperature (R431): linear between the points, held at the ends. -/
def Mod.curveSpeed (m : Mod) (t : Int) : Rat :=
  let tp (i : Nat) : Int := m.getS16 (Ob.cdT i)
  let sp (i : Nat) : Rat := m.get (Ob.cdS i)
  let seg (i : Nat) : Rat :=
    if tp (i + 1) = tp i then sp (i + 1) else sp i + (sp (i + 1) - sp i) * ((t - tp i : Int) : Rat) / ((tp (i + 1) - tp i : Int) : Rat)
  if t ≤ tp 0 then sp 0 else if t ≤ tp 1 then seg 0 else if t ≤ tp 2 then seg 1 else if t ≤ tp 3 then seg 2 else sp 3

/-- The target speed (R431): CD_SPEED_SET, or the curve at the hottest valid sensor of CD_CURVE_SRC. Where none of them
is valid the spec gives no temperature: the speed is free. DESIGN CHOICE, log entry 117. -/
def Mod.cdTarget (m : Mod) : Mod × Rat :=
  if m.get Ob.cdMode = 1 then (m, m.get Ob.cdSpeedSet)
  else
    let ok := (bitsOf 16 (m.get Ob.cdCurveSrc)).filter m.sensorOk
    match ok with
    | []      => ({ m with free := m.free + 1 }, (Config.freeNat m.free : Rat))
    | x :: xs => (m, m.curveSpeed (xs.foldl (fun a y => max a (m.tempOf y)) (m.tempOf x)))

/-- The duty of the drive in %, held to 0 to 100. DEDUCED, log entry 72. -/
def Mod.cdDrive (rpm : Nat) (m : Mod) : Mod :=
  if !m.cdRuns then m.modCd (fun c => { c.drives m.now 0 none with integ := 0 })
  else if m.get Ob.cdMode = 0 then m.modCd (fun c => { c.drives m.now ((m.get Ob.cdDuty : Rat) / 100) c.phases with integ := 0 })
  else
    let tgt := m.cdTarget
    let err := tgt.2 - (rpm : Rat)
    let i := clampR 0 100 (m.cd.integ + m.getF Ob.cdKi * err / 100)
    tgt.1.modCd (fun c => { c.drives m.now (clampR 0 100 (m.getF Ob.cdKp * err + i)) c.phases with integ := i })

/-- CD_VBUS at `centivolts`: it is good once it has been at least 36 V for 10 ms (R472). DEDUCED, log entry 72. -/
def CdRt.bus (now centivolts : Nat) (c : CdRt) : CdRt :=
  if centivolts < 3600 then { c with goodPs := none }
  else match c.goodPs with
    | none   => { c with goodPs := some now }
    | some p => { c with busGood := c.busGood || p + msPs 10 ≤ now }

/-- Every 10 ms: the measured speed, current and bus, and the duty that they call for (R431, R434). -/
def Mod.cdSpeedUpdate (rpm milliamps centivolts : Nat) (m0 : Mod) : Mod :=
  let m := m0.reach (m0.cd.updPs + msPs 10)
  let m1 := (((m.put Ob.cdSpeed (satAt 65535 rpm)).put Ob.cdCurrent (satAt 65535 milliamps)).put Ob.cdVbus (satAt 65535 centivolts)).modCd
    (fun c => { c.bus m.now centivolts with updPs := m.now })
  m1.cdShow.cdDrive rpm

/-- A Hall edge (R426): the stage commutates; 000b and 111b drive nothing. -/
def Mod.hallEdge (code : Nat) (m : Mod) : Mod :=
  ((m.put Ob.cdHall (code % 8)).modCd (fun c => { c with hallPs := m.now })).cdShow

/-- The refresh of the bootstrap supplies (R427): a high side held on for 1 ms without a break goes off, and its low side on for
CD_REFRESH with CD_DT before and after; the next is due 1 ms after. -/
def Mod.cdRefreshes (m : Mod) : Mod :=
  match m.cd.heldPs with
  | none   => m
  | some p =>
    let m1 := m.reach (p + msPs 1)
    m1.modCd (fun c => { c with
      refresh := c.refresh + 1, heldPs := some (m1.now + 1000 * (m1.get Ob.cdRefresh + 2 * m1.get Ob.cdDt)) })

/-! ### The commands -/

/-- `THROTTLE_STEP_TIMER` (R422). -/
def execThrottleStepTimer (s : State) : Host.Outcome State Fault Refusal := onMod s s.m.throttleTimer

/-- `GRACE_TIME_END` (R423, R424). -/
def execGraceTimeEnd (s : State) : Host.Outcome State Fault Refusal := onMod s s.m.graceEnds

/-- `CD_FAULT` (R428). -/
def execCdFault (code : Nat) (s : State) : Host.Outcome State Fault Refusal := onMod s (s.m.cdFaulted code)

/-- `CD_BOOTSTRAP_REFRESH` (R427). -/
def execCdBootstrapRefresh (s : State) : Host.Outcome State Fault Refusal := onMod s s.m.cdRefreshes

/-- `CD_ENABLE_LOW` (R429). -/
def execCdEnableLow (byPin : Bool) (ns : Nat) (s : State) : Host.Outcome State Fault Refusal := onMod s (s.m.cdLow byPin ns)

/-- `CD_RETRY_DELAY_END` (R430). -/
def execCdRetryDelayEnd (s : State) : Host.Outcome State Fault Refusal := onMod s s.m.cdRetry

/-- `CD_SPEED_UPDATE` (R431). -/
def execCdSpeedUpdate (rpm milliamps centivolts : Nat) (s : State) : Host.Outcome State Fault Refusal :=
  onMod s (s.m.cdSpeedUpdate rpm milliamps centivolts)

/-- `HALL_EDGE` (R426). -/
def execHallEdge (code : Nat) (s : State) : Host.Outcome State Fault Refusal := onMod s (s.m.hallEdge code)

end Sys2Proof.Machine
end

