-- ==== Sys2Proof/Machine/Clocks.lean ====
section
/-!
DEFINITION. Clocks and the housekeeping converters (R436 to R447): the lock detector, the reference, the slots of a
round, the values of a round with the converter's self-check, and urgent conversions. Deviations are in 0.01 ppm.
-/
namespace Sys2Proof.Machine

def Mod.modHk (f : HkRt → HkRt) (m : Mod) : Mod := { m with hk := f m.hk }

/-! ### Lock detector (R438, R439) -/

/-- The deviations that may still be the largest of the last second. -/
def keepMargins (now dev : Nat) (l : List (Nat × Nat)) : List (Nat × Nat) :=
  (l.filter (fun p => now < p.1 + 1000000000000 && dev < p.2)) ++ [(now, dev)]

/-- The loop of a lane is unlocked (R439): EV027, and the lane fails as for the loss of its own MCLK generator. -/
def Mod.unlocked (l : Nat) (dev : Int) (m : Mod) : Mod :=
  if m.get (Ob.adpllState l) = 2 then m
  else ((m.put (Ob.adpllState l) 2).raise 27 sevFault 0x5C02 (l + 256 * (Raw.ofInt 24 dev))).laneFails l 0x2003

/-- A window of 10 µs ends. -/
def Mod.windowAt (l : Nat) (m : Mod) : Mod :=
  let p := m.hk.winPs.getD l 0 + 10000000
  (m.reach p).modHk (fun h => { h with winPs := h.winPs.set l (max p m.now) })

/-- XO_RATIO of a lane while it measures its crystal against the TCXO; while the TCXO is lost it holds (R441). -/
def Mod.xoSeen (l : Nat) (xo : Int) (m : Mod) : Mod := if m.hk.tcxoLost then m else m.putS (Ob.xoRatio l) xo

/-- A window of the lock detector (R438): one in which N moves or REF changes source is not judged. DEDUCED, log entry 73. -/
def Mod.lockWindow (l : Nat) (dev xo : Int) (m0 : Mod) : Mod :=
  let m := (m0.windowAt l).xoSeen l xo
  let refMoved := m.hk.refMoved.getD l false
  if m.hk.moving ≠ 0 || refMoved then
    m.modHk (fun h => { h with moving := if l = m.lane then h.moving - 1 else h.moving, refMoved := h.refMoved.set l false })
  else
    let ms := keepMargins m.now (absI dev).toNat (m.hk.margins.getD l [])
    let x := m.laneAt l
    let good := if absI dev ≤ 1000 then satAt 8 (x.good + 1) else 0
    let bad := if 10000 < absI dev then x.bad + 1 else 0
    let m1 := (((m.modHk (fun h => { h with margins := h.margins.set l ms })).putS (Ob.lockDev l) dev).put (Ob.lockMargin l)
      (ms.foldl (fun a p => max a p.2) 0)).modLane l (fun y => { y with good := good, bad := bad })
    let m2 := if good = 8 && m.get (Ob.adpllState l) = 0 then m1.put (Ob.adpllState l) 1 else m1
    if 2 ≤ bad then m2.unlocked l dev else m2

/-! ### The reference (R441) -/

/-- REF of both lanes goes to a source with EV026 (R31, R441): 0 TCXO, 1 the lane crystal. -/
def Mod.refTo (src : Nat) (m : Mod) : Mod :=
  (m.modHk (fun h => { h with tcxoLost := src = 1, refMoved := [true, true] })).each [0, 1] (fun l m =>
    if m.get (Ob.refSource l) = src then m
    else (m.put (Ob.refSource l) src).raise 26 (if src = 1 then sevWarn else sevInfo) (if src = 1 then 0x5C01 else 0) (l + 2 * src))

/-- The lanes count the TCXO lost. -/
def Mod.tcxoLost (m : Mod) : Mod := if m.hk.tcxoLost then m else (m.refTo 1).modHk (fun h => { h with lossPs := m.now })

/-- The TCXO has stayed good for 60 s. DEDUCED, log entry 73. -/
def Mod.tcxoRestored (m : Mod) : Mod := if m.hk.tcxoLost then (m.reach (m.hk.lossPs + sPs 60)).refTo 0 else m

/-! ### Slots of a round (R443 to R445) -/

/-- Rate code of an input: NTCs by NTC_EN, inputs 08h to 12h at 100 S/s, the rails by HK_RATE. -/
def Mod.hkRateOf (m : Mod) (i : Nat) : Nat :=
  if i < 8 then (if m.get (Ob.ntcEn i) = 1 then 2 else 0) else if i ≤ 0x12 then 2 else m.get (Ob.hkRate i)

/-- Inputs at a rate code. -/
def Mod.hkAt (m : Mod) (code : Nat) : List Nat := (List.range 32).filter (fun i => m.hkRateOf i = code)

/-- Slots of the round (R445). DEDUCED, log entry 73. -/
def Mod.slotsNow (m : Mod) : Nat := (m.hkAt 2).length + 10 * (m.hkAt 3).length + ((m.hkAt 1).length + 9) / 10

/-- Whether the converters can hold the schedule. -/
def Mod.slotsOk (m : Mod) : Bool := m.slotsNow ≤ 38 && (m.hkAt 3).length ≤ 2

/-- SLOTS_USED of both converters. -/
def Mod.showSlots (m : Mod) : Mod := m.each [0, 1] (fun c m => m.put (Ob.slotsUsed c) m.slotsNow)

/-- Whether an input is converted in round `round`: inputs at 10 S/s take turns in input order. DEDUCED, log entry 73. -/
def Mod.converted (m : Mod) (round i : Nat) : Bool :=
  let r := m.hkRateOf i
  if r = 0 then false
  else if r = 1 then ((m.hkAt 1).findIdx (· = i)) % 10 = round % 10
  else true

/-! ### A round (R443, R444, R446) -/

/-- The window of a rail in mV (R443). -/
def railWindow (i : Nat) : Int × Int :=
  let pct (v : Int) : Int × Int := ((v * 95 + 99) / 100, v * 105 / 100)
  if i = 0x13 then (9000, 16000) else if i = 0x14 then pct 5000 else if i = 0x15 then pct 3300 else if i = 0x16 then pct 1800
  else if i = 0x17 then pct 1100 else if i = 0x18 then pct 600 else if i = 0x19 || i = 0x1A then pct 800 else if i = 0x1B then pct 900
  else if i = 0x1C then pct 3300 else if i = 0x1D || i = 0x1E then pct 1200 else pct 1800

/-- A rail of converter `c` (R446): EV028 once per episode, after three conversions in a row outside its window. -/
def Mod.judgeRail (c i : Nat) (mv : Int) (m : Mod) : Mod :=
  let k := 32 * c + i
  let w := railWindow i
  if mv < w.1 || w.2 < mv then
    let n := m.hk.rails.getD k 0 + 1
    let m1 := m.modHk (fun h => { h with rails := h.rails.set k (satAt 3 n) })
    if 3 ≤ n && !m.hk.railDone.getD k false then
      (m1.modHk (fun h => { h with railDone := h.railDone.set k true })).raise 28 sevWarn 0x5C03 (i + 256 * c + 65536 * Raw.ofInt 16 mv)
    else m1
  else m.modHk (fun h => { h with rails := h.rails.set k 0, railDone := h.railDone.set k false })

/-- The value of an input from converter `c`. -/
def Mod.putHk (c i v : Nat) (m : Mod) : Mod :=
  ((m.put (if c = 0 then Ob.hkValue0 i else Ob.hkValue1 i) v).putBit (Ob.hkValid i) c true).put (Ob.hkTime i) m.t64

/-- Every reading of a faulty converter is invalid (R446). -/
def Mod.dropReadings (c : Nat) (m : Mod) : Mod := m.each (List.range 32) (fun i m => m.putBit (Ob.hkValid i) c false)

/-- The self-check of converter `c` (R446): three rounds with a bad ground or a bad reference input make it faulty. -/
def Mod.selfCheck (c : Nat) (groundBad refBad : Bool) (m : Mod) : Mod :=
  let g := if groundBad then satAt 3 (m.hk.groundBad.getD c 0 + 1) else 0
  let r := if refBad then satAt 3 (m.hk.refBad.getD c 0 + 1) else 0
  let m1 := m.modHk (fun h => { h with groundBad := h.groundBad.set c g, refBad := h.refBad.set c r })
  if (g = 3 || r = 3) && m.get (Ob.hkState c) = 0 then
    ((m1.put (Ob.hkState c) 1).dropReadings c).raise 29 sevFault 0x5C04 (c + 2 * b2n (g = 3) + 4 * b2n (r = 3))
  else m1

/-- A housekeeping round of a converter (R444): its values, its self-check, its rails and references; and, from the
converter acted on, the sensors, the temperatures, the levels and the products of the measurement chain. -/
def Mod.hkRound (r : HkRound) (mp : Mod) : Mod :=
  let c := r.conv
  let p := mp.hk.roundPs.getD c 0 + msPs 10
  let m := (mp.reach p).modHk (fun h => { h with roundPs := h.roundPs.set c (max p mp.now) })
  let round := m.get (Ob.roundCount c)
  let m0 := ((m.bump (Ob.roundCount c)).putS (Ob.groundRead c) r.groundUv).modHk (fun h => { h with urgentIn := h.urgentIn.set c false })
  let m1 := m0.selfCheck c (100 < absI r.groundUv) (r.refUv < 1248750 || 1251250 < r.refUv)
  let on := (List.range 32).filter (fun i => m.converted round i)
  let m2 :=
    if m1.get (Ob.hkState c) = 1 then m1
    else
      let a := m1.each on (fun i m => m.putHk c i (r.vals.getD i 0))
      let b := a.each ((List.range 32).filter (fun i => m.hkRateOf i = 0)) (fun i m => m.putBit (Ob.hkValid i) c false)
      let d := b.each (on.filter (0x13 ≤ ·)) (fun i m => m.judgeRail c i (r.rails.getD (i - 0x13) 0))
      d.refDisagree c r.disagree
  match m2.hkActing with
  | none   => ((m2.dieTemp false).judgeLevels).judgeThermal
  | some a =>
    if a = c then
      let t := m2.takeTemps r.ohms r.dies (m2.corrected c)
      let u := if m.get (Ob.hkState c) = m2.get (Ob.hkState c) then t.checkSensors else t
      (((u.dieTemp true).judgeLevels).judgeThermal).formProducts
    else m2

/-! ### Urgent conversions (R447) -/

/-- HK_URGENT: at most one per converter and round. -/
def Mod.hkUrgent (seq input : Nat) (m : Mod) : Mod × Nat :=
  if 32 ≤ input then (m, 0x11)
  else if m.hk.urgentIn.getD m.lane false then (m, 1)
  else (m.modHk (fun h => { h with urgent := some (seq, input, m.lane), urgentIn := h.urgentIn.set m.lane true }), 3)

/-- The result of an urgent conversion is in HK_VALUE, with EV030. -/
def Mod.hkUrgentDone (value : Nat) (m : Mod) : Mod :=
  match m.hk.urgent with
  | none => m
  | some (seq, input, c) =>
    ((m.modHk (fun h => { h with urgent := none })).putHk c input value).inform 30 (seq + 65536 * input)

/-- DITHER_SEED loads the dither register (R440). -/
def Mod.loadDither (m : Mod) : Mod := m.modHk (fun h => { h with dither := m.get Ob.ditherSeed })

/-! ### The commands -/

/-- `HK_ROUND` (R444). -/
def execHkRound (r : HkRound) (s : State) : Host.Outcome State Fault Refusal := onUnit (r.conv < 2) s (s.m.hkRound r)

/-- `LOCK_WINDOW` (R438). -/
def execLockWindow (lane : Nat) (dev xo : Int) (s : State) : Host.Outcome State Fault Refusal :=
  onUnit (laneOk lane) s (s.m.lockWindow lane dev xo)

/-- `TCXO_LOST` (R441). -/
def execTcxoLost (s : State) : Host.Outcome State Fault Refusal := onMod s s.m.tcxoLost

/-- `TCXO_RESTORED` (R441). -/
def execTcxoRestored (s : State) : Host.Outcome State Fault Refusal := onMod s s.m.tcxoRestored

/-- `HK_URGENT_DONE` (R447). -/
def execHkUrgentDone (value : Nat) (s : State) : Host.Outcome State Fault Refusal := onMod s (s.m.hkUrgentDone value)

end Sys2Proof.Machine
end

