-- ==== Sys2Proof/Machine/Ageing.lean ====
section
/-!
DEFINITION. Self-measured ageing and margin planning (R484 to R493): the estimates and their baselines, the targets of
a plan, its adoption and its log, the steps towards it, and AGEING_REBASE.
-/
namespace Sys2Proof.Machine

def Mod.modAge (f : AgeRt → AgeRt) (m : Mod) : Mod := { m with age := f m.age }

/-! ### Managed entries (R487, R490, R491) -/

/-- The base of a stored entry: the value the host last wrote, or the default. -/
def Mod.baseOf (m : Mod) (k : Nat) : Nat := cellGet dfltOf k m.sto

/-- The factor of a measurement channel's levels: the lowest of its owners' links. DEDUCED, log entry 74. -/
def Mod.chanFactor (m : Mod) (n : Nat) : Rat :=
  if m.get (Ob.role n) = 1 || m.get (Ob.role n) = 7 then (groupsOf (m.owners n)).foldl (fun a g => minR a (m.ageFactor g)) 1 else 1

/-- A q29 base times a factor. -/
def timesQ (base : Nat) (f : Rat) : Nat := if f = 1 then base else Raw.ofInt 32 (q29OfLsb ((Raw.signed 32 base : Rat) * f))

/-- The value in force of a managed entry whose base is `base` (R490, R491); none for an entry that is not managed. -/
def Mod.managed (m : Mod) (k base : Nat) : Option Nat :=
  match (List.range 4).find? (fun s => Ob.iMax s = k) with
  | some s => some (timesQ base (m.ageFactor s))
  | none =>
  match (List.range 24).find? (fun n => Ob.focTrip n = k || Ob.focAlert n = k) with
  | some n => some (timesQ base (m.chanFactor n))
  | none =>
  match (List.range 32).find? (fun p => Ob.dtOnA p = k || Ob.dtOnB p = k) with
  | some p => some (base + (wholeNear (m.age.dtInc.getD (2 * p + (if Ob.dtOnA p = k then 0 else 1)) 0)).toNat)
  | none =>
  match (List.range 8).find? (fun i => Ob.ntcDerate i = k || Ob.ntcStop i = k) with
  | some i => some (if base = 0 then 0 else Raw.ofInt 16 (Raw.signed 16 base - wholeNear (m.age.ntc.getD i 0)))
  | none => none

/-- A managed entry takes the value that its base and its adjustment give. -/
def Mod.manage (k : Nat) (m : Mod) : Mod :=
  match m.managed k (m.baseOf k) with
  | none   => m
  | some v => m.put k v

/-- A programmed dead time takes a new value: an effective value that equals the old one follows it, and one that
trimming has lowered stays below it (R259, R278). -/
def Mod.moveDead (p : Nat) (sideB : Bool) (m : Mod) : Mod :=
  let k := if sideB then Ob.dtOnB p else Ob.dtOnA p
  let e := if sideB then Ob.dtOnBEff p else Ob.dtOnAEff p
  let old := m.get k
  let m1 := m.manage k
  let new := m1.get k
  if new = old then m1
  else
    let m2 := m1.put e (if m.get e = old then new else min (m.get e) new)
    match m2.groupOfPair p with
    | none   => m2
    | some g => if m2.atRest g then m2 else m2.loadMap g

/-- The objects of the applied adjustments. -/
def Mod.showAdjust (m : Mod) : Mod :=
  let m1 := m.each (List.range 32) (fun p m =>
    (m.put (Ob.dtIncA p) (wholeNear (m.age.dtInc.getD (2 * p) 0)).toNat).put (Ob.dtIncB p) (wholeNear (m.age.dtInc.getD (2 * p + 1) 0)).toNat)
  m1.each (List.range 8) (fun i m => m.putS16 (Ob.ntcShift i) (wholeNear (m.age.ntc.getD i 0)))

/-- Every managed entry takes its value: I_MAX, FOC_ALERT, FOC_TRIP, dead times, thermal points, DERATE_LEVEL (R490). -/
def Mod.manageAll (m : Mod) : Mod :=
  let m1 := m.each (List.range 4) (fun s m => m.manage (Ob.iMax s))
  let m2 := (m1.each (List.range 24) (fun n m => m.manage (Ob.focAlert n))).each (List.range 24) (fun n m => m.manage (Ob.focTrip n))
  let m3 := m2.each (List.range 32) (fun p m => (m.moveDead p false).moveDead p true)
  let m4 := m3.each (List.range 8) (fun i m => (m.manage (Ob.ntcDerate i)).manage (Ob.ntcStop i))
  (m4.putS16 Ob.derateLevel (11800 - wholeNear m4.age.derate)).showAdjust

/-! ### Estimates (R484 to R486) -/

/-- An estimate has met its condition. -/
def Mod.nowValid (kind unit : Nat) (m : Mod) : Mod :=
  if m.age.valid.contains (kind, unit) then m else m.modAge (fun a => { a with valid := a.valid ++ [(kind, unit)] })

/-- A warning of R486: EV127 once per episode. -/
def Mod.ageWarn (code lane : Nat) (present : Bool) (m : Mod) : Mod :=
  let key := 2 * code + lane
  if present then
    if m.age.warned.contains key then m
    else (m.modAge (fun a => { a with warned := a.warned ++ [key] })).raise 127 sevWarn code lane
  else m.modAge (fun a => { a with warned := a.warned.filter (· ≠ key) })

/-- The groups that a link channel serves. -/
def Mod.linkGroups (m : Mod) (n : Nat) : List Nat := (List.range 8).filter (fun g => (m.linkId g).contains n)

/-- Whether a unit's estimators still run (R494): those of a retired unit stop. -/
def Mod.estimates (m : Mod) (gs : List Nat) : Bool := gs.isEmpty || gs.any (fun g => !m.retired 1 g)

/-- The last `n` elements of a list with `x` added. -/
def lastOf {α : Type} (n : Nat) (l : List α) (x : α) : List α := (l ++ [x]).drop (l.length + 1 - n)

/-- The slope of the line of least squares through values one day apart, per day. DEDUCED, log entry 74. -/
def slopeR (l : List Int) : Rat :=
  let n := l.length
  let x (i : Nat) : Rat := (i : Rat) - ((n : Rat) - 1) / 2
  let num := (List.range n).foldl (fun a i => a + x i * (l.getD i 0 : Rat)) 0
  let den := (List.range n).foldl (fun a i => a + x i * x i) 0
  if den = 0 then 0 else num / den

/-- A block of a link (R484): one in which its units carry less than 0.3 pu does not count; C and ESR are the mean of the last 100 that
do. DEDUCED, log entry 74. -/
def Mod.linkBlock (n : Nat) (load : Int) (c esr : Nat) (m : Mod) : Mod :=
  if load < 161061274 || !m.estimates (m.linkGroups n) || m.retired 2 n then m
  else
    let l := lastOf 100 (m.age.blocks.getD n []) (c % 4294967296, esr % 4294967296)
    let m1 := m.modAge (fun a => { a with blocks := a.blocks.set n l })
    if l.length < 100 then m1
    else
      let mean (v : Nat × Nat → Nat) : Nat := f32Raw ((l.foldl (fun a p => a + (f32Val (v p)).getD 0) 0) / 100)
      (((m1.put (Ob.cEst n) (mean Prod.fst)).put (Ob.esrEst n) (mean Prod.snd)).put (Ob.estValid n) 1).nowValid 0 n

/-- The mean turn-off delays of a pair over a bin of at least 1000 transitions (R484, R485): part of the baseline until that is complete, the
drift against it then. -/
def Mod.turnOffBin (p bin count : Nat) (a b : Int) (m : Mod) : Mod :=
  if count < 1000 || !m.estimates (match m.groupOfPair p with | some g => [g] | none => []) then m
  else if !m.age.based.contains (1, p) then
    m.modAge (fun x => { x with toffBase := x.toffBase.filter (fun t => !(t.1 = p && t.2.1 = bin)) ++ [(p, bin, a, b)] })
  else match m.age.toffBase.find? (fun t => t.1 = p && t.2.1 = bin) with
    | none   => m
    | some t => ((m.putS (Ob.toffDriftA p) (a - t.2.2.1)).putS (Ob.toffDriftB p) (b - t.2.2.2)).nowValid 1 p

/-- The loss of an NTC's unit in W at an RMS current in q29 (R484). -/
def Mod.lossAt (m : Mod) (k : Nat) (i : Int) : Rat := m.getF (Ob.lossA k) * pu i + m.getF (Ob.lossB k) * (pu i * pu i)

/-- The rated loss of an NTC: LOSS_A + LOSS_B; none without a unit. -/
def Mod.ratedLoss (m : Mod) (k : Nat) : Rat := if m.get (Ob.ntcUnit k) = 255 then 0 else m.getF (Ob.lossA k) + m.getF (Ob.lossB k)

/-- A fit of the thermal resistance of an NTC (R484, R485): after a loss step of at least 0.2 of the rated loss and 30 min without another. -/
def Mod.thermalFit (k : Nat) (i j : Int) (minutes rth : Nat) (m : Mod) : Mod :=
  let step := absR (m.lossAt k j - m.lossAt k i)
  if m.get (Ob.ntcEn k) = 0 || m.ratedLoss k ≤ 0 || 5 * step < m.ratedLoss k || minutes < 30
     || !m.estimates [m.get (Ob.ntcUnit k)] then m
  else
    let base := if m.age.based.contains (2, k) then (m.age.rthBase.getD k none).getD (rth % 4294967296) else rth % 4294967296
    let b := (f32Val base).getD 0
    let ratio := if b = 0 then f32Raw 1 else f32Raw ((f32Val rth).getD 0 / b)
    (((m.modAge (fun a => { a with rthBase := a.rthBase.set k (some base) })).put (Ob.rthBase k) base).put (Ob.rthRatio k) ratio).nowValid 2 k

/-- At least 10 min at a steady speed of the cooling drive (R484 to R486). -/
def Mod.coolBin (rpm ma minutes : Nat) (m : Mod) : Mod :=
  let bin := rpm / 500
  if minutes < 10 then m
  else if !m.age.based.contains (3, 0) then
    m.modAge (fun a => { a with coolBase := a.coolBase.filter (fun p => p.1 ≠ bin) ++ [(bin, ma)] })
  else match m.age.coolBase.find? (fun p => p.1 = bin) with
    | none   => m
    | some p =>
      if p.2 = 0 then m
      else
        let m1 := (m.putF Ob.coolRatio ((ma : Rat) / (p.2 : Rat))).nowValid 3 0
        m1.ageWarn 0x6006 0 (m1.getF Ob.coolRatioWarn ≤ m1.getF Ob.coolRatio)

/-- A daily mean of REF_DISAGREE (R484, R486): with 30 days, the trend per year, and whether it reaches 500 ppm within 365 days. -/
def Mod.refDay (l : Nat) (mean : Int) (m : Mod) : Mod :=
  let d := lastOf 30 (m.age.refDays.getD l []) mean
  let m1 := m.modAge (fun a => { a with refDays := a.refDays.set l d })
  if d.length < 30 then m1
  else
    let year := slopeR d * 365
    (m1.putS (Ob.refTrend l) (clampI (-2147483648) 2147483647 (wholeNear year))).ageWarn 0x6003 l
      (50000 ≤ absR ((mean : Rat) + year) || 50000 ≤ absR (mean : Rat))

/-- The daily means of TRIM and of the die temperature (R484): TRIM counts while the timebase is locked and the die temperature lies
within 5 K of its mean of 30 days; with 30 days, the ageing per day. -/
def Mod.trimDay (trim die : Int) (m : Mod) : Mod :=
  let dies := lastOf 30 m.age.dieDays die
  let mean : Rat := ((dies.foldl (· + ·) 0 : Int) : Rat) / (dies.length : Nat)
  let near := m.timeSt = 2 && absR ((die : Rat) - mean) ≤ 500
  let trims := if near then lastOf 30 m.age.trimDays trim else m.age.trimDays
  let m1 := m.modAge (fun a => { a with dieDays := dies, trimDays := trims })
  if trims.length < 30 then m1
  else m1.putS Ob.tcxoAgeing (clampI (-2147483648) 2147483647 (wholeNear (slopeR trims)))

/-- Flash wear of a lane (R484, R486): the most erased block of its regions, in % of 100 000 erases. -/
def Mod.flashWorn (l region n : Nat) (m : Mod) : Mod :=
  let m1 := m.modAge (fun a => { a with erases := a.erases.modify (4 * l + region) (fun x => max x n) })
  let worst := (List.range 4).foldl (fun a r => max a (m1.age.erases.getD (4 * l + r) 0)) 0
  (m1.put (Ob.flashWear l) (satAt 255 (worst / 1000))).ageWarn 0x6004 l (80000 ≤ worst)

/-- An hour of a lane's DRAM (R484, R486): the mean of DRAM_CORR_HOUR over 30 days. -/
def Mod.dramHour (l : Nat) (m : Mod) : Mod :=
  let h := lastOf 720 (m.age.dramHrs.getD l []) (m.get (Ob.dramCorrHour l))
  let sum := h.foldl (· + ·) 0
  ((m.modAge (fun a => { a with dramHrs := a.dramHrs.set l h })).put (Ob.dramTrend l) (sum / h.length % 4294967296)).ageWarn 0x6005 l
    (m.get Ob.dramCorrLimit * h.length < 2 * sum)

/-- An hour ends (R484, R485): the bin of the die temperature, and the hours of operation. DEDUCED, log entry 74. -/
def Mod.hourEnds (m : Mod) : Mod :=
  let p := m.age.hourPs + sPs 3600
  let t := m.getS16 Ob.dieTemp
  let bin : Nat := if t < 8500 then 0 else if t < 10500 then 1 else if t < 11000 then 2 else if t < 11800 then 3 else 4
  (((m.reach p).modAge (fun a => { a with
    hourPs := max p m.now, opHours := if m.get Ob.moduleState = 2 then a.opHours + 1 else a.opHours }))).keep
    (Ob.dieHours bin) ((m.get (Ob.dieHours bin) + 1) % 4294967296)

/-- A new estimate (R484); the warnings of R486. DESIGN CHOICE, log entry 85. -/
def Mod.estimate (e : Estimate) (m : Mod) : Mod :=
  match e with
  | .linkCap n load c esr      => m.linkBlock n load c esr
  | .turnOff p bin count a b   => m.turnOffBin p bin count a b
  | .thermal k i j minutes rth => m.thermalFit k i j minutes rth
  | .coolRatio rpm ma minutes  => m.coolBin rpm ma minutes
  | .refTrend l mean           => m.refDay l mean
  | .tcxo trim die             => m.trimDay trim die
  | .flashWear l region n      => m.flashWorn l region n
  | .dramTrend l               => m.dramHour l
  | .dieHour                   => m.hourEnds

/-- Whether the objects that an estimate names exist. -/
def estimateOk : Estimate → Bool
  | .linkCap n _ _ _     => n < 24
  | .turnOff p _ _ _ _   => p < 32
  | .thermal k _ _ _ _   => k < 8
  | .refTrend l _        => l < 2
  | .flashWear l r _     => l < 2 && r < 4
  | .dramTrend l         => l < 2
  | _                    => true

/-- Whether BASELINE_HOURS of operation are over for a unit, counted from its rebase where there was one (R485, R493). -/
def Mod.baselineOver (m : Mod) (kind unit : Nat) : Bool :=
  let start := match m.age.since.find? (fun x => x.1 = kind && x.2.1 = unit) with | some x => x.2.2 | none => 0
  start + m.get Ob.baselineHours ≤ m.age.opHours

/-- BASELINE_HOURS of operation are over (R485): the baselines stand, and references left at 0 are learned. -/
def Mod.baselineComplete (m : Mod) : Mod :=
  let fresh := (List.range 24).filter (fun n => m.baselineOver 0 n && m.age.valid.contains (0, n) && m.age.learned.all (fun x => x.1 ≠ n))
  let all := (List.range 24).map (fun n => (0, n)) ++ (List.range 32).map (fun p => (1, p)) ++ (List.range 8).map (fun k => (2, k)) ++ [(3, 0)]
  m.modAge (fun a => { a with
    learned := a.learned ++ fresh.map (fun n => (n, m.get (Ob.cEst n), m.get (Ob.esrEst n)))
    based := all.filter (fun x => m.age.based.contains x || (m.baselineOver x.1 x.2 && (x.1 ≠ 0 || m.age.valid.contains x))) })

/-! ### The plan (R487, R488) -/

/-- The reference of a link channel: the host's, or the one learned where that is 0; 0 where there is none.
DEDUCED, log entry 74. -/
def Mod.refOf (m : Mod) (n : Nat) (esr : Bool) : Rat :=
  let host := m.getF (if esr then Ob.esrRef n else Ob.cRef n)
  if host ≠ 0 then host
  else match m.age.learned.find? (fun x => x.1 = n) with
    | none   => 0
    | some x => (f32Val (if esr then x.2.2 else x.2.1)).getD 0

/-- C_RATIO and ESR_RATIO of a link channel: none where the estimate is not valid or its baseline not complete. -/
def Mod.ratioOf (m : Mod) (n : Nat) (esr : Bool) : Option Rat :=
  let r := m.refOf n esr
  if r ≤ 0 || !m.age.valid.contains (0, n) then none else some (m.getF (if esr then Ob.esrEst n else Ob.cEst n) / r)

/-- k_I of a link channel, whether the capacitance and whether the ESR lowers it, and whether it stands at its floor. -/
def Mod.planKI (m : Mod) (n : Nat) : Rat × Bool × Bool × Bool :=
  let c := match m.ratioOf n false with | some x => x / m.getF Ob.capKnee | none => 1
  let e := match m.ratioOf n true with | some x => if x ≤ 0 then 1 else sqrtR (m.getF Ob.esrKnee / x) | none => 1
  let k := minR 1 (minR c e)
  let fl := pu (m.getS Ob.planIFloor)
  if k ≤ fl && k < 1 then (fl, c ≤ e, e < c, true) else (k, c < 1 && c ≤ e, e < 1 && e < c, false)

/-- The largest dead time of a pair in force that R260 and SAFE_DT do not refuse (R488). -/
def Mod.deadCap (m : Mod) (p : Nat) : Nat :=
  match m.groupOfPair p with
  | none   => 10000000
  | some g => min (m.get (Ob.safeDt g)) (m.halfPeriod g * 1953125 / 100000 / 2 - m.get (Ob.minPulse g))

/-- The target increment of a dead time in ps, and whether it is capped: the drift of the partner switch's turn-off
delay, at most DT_GROW_MAX of the base. -/
def Mod.planDead (m : Mod) (p : Nat) (sideB : Bool) : Nat × Bool :=
  if m.age.valid.contains (1, p) && m.age.based.contains (1, p) then
    let base := m.baseOf (if sideB then Ob.dtOnB p else Ob.dtOnA p)
    let drift := m.getS (if sideB then Ob.toffDriftA p else Ob.toffDriftB p)
    let grow := ((base : Rat) * m.getF Ob.dtGrowMax / 100).floor
    let want := (clampI 0 grow drift).toNat
    let cap := m.deadCap p - base
    if cap < want then (cap, true) else (want, false)
  else (0, false)

/-- The shift of an NTC's thermal points in 0.01 K. -/
def Mod.planNtc (m : Mod) (k : Nat) : Nat :=
  if m.age.valid.contains (2, k) && m.age.based.contains (2, k) then
    (clampR 0 (m.getF Ob.thermShiftMax) ((m.getF (Ob.rthRatio k) - 1) * m.getF (Ob.rthBase k) * m.ratedLoss k) * 100).floor.toNat
  else 0

/-- Hours of die temperature at or above 105 °C. -/
def Mod.hotHours (m : Mod) : Nat := m.get (Ob.dieHours 2) + m.get (Ob.dieHours 3) + m.get (Ob.dieHours 4)

/-- The targets of a plan computed now. -/
def Mod.planTargets (m : Mod) : Targets :=
  { kI := (List.range 24).map (fun n => Raw.ofInt 32 (q29Of (m.planKI n).1))
    dtInc := (List.range 64).map (fun i => (m.planDead (i / 2) (i % 2 = 1)).1)
    ntc := (List.range 8).map m.planNtc
    derate := min 1300 (100 * (m.hotHours / 1000)) }

/-- PLAN_FLAGS of a plan computed now: bit 0 a dead time capped, bit 1 a k_I at its floor. -/
def Mod.planFlags (m : Mod) : Nat :=
  b2n ((List.range 64).any (fun i => (m.planDead (i / 2) (i % 2 = 1)).2)) + 2 * b2n ((List.range 24).any (fun n => (m.planKI n).2.2.2))

/-- Whether targets differ enough to be adopted (R489): 0.5 % of a base, or 1 K. -/
def Mod.differs (m : Mod) (a b : Targets) : Bool :=
  let far (x y : Nat) : Nat := if x ≤ y then y - x else x - y
  (List.range 24).any (fun n => 2684354 < far (a.kI.getD n 0) (b.kI.getD n 0))
  || (List.range 64).any (fun i =>
      m.baseOf (if i % 2 = 1 then Ob.dtOnB (i / 2) else Ob.dtOnA (i / 2)) < 200 * far (a.dtInc.getD i 0) (b.dtInc.getD i 0))
  || (List.range 8).any (fun k => 100 < far (a.ntc.getD k 0) (b.ntc.getD k 0))
  || 100 < far a.derate b.derate

/-- CAUSE of a plan against the targets in force. -/
def Mod.planCause (m : Mod) (a b : Targets) (byHost : Bool) : Nat :=
  let links := (List.range 24).filter (fun n => a.kI.getD n 0 ≠ b.kI.getD n 0)
  b2n (links.any (fun n => !(m.planKI n).2.2.1)) + 2 * b2n (links.any (fun n => (m.planKI n).2.2.1))
  + 4 * b2n (a.dtInc ≠ b.dtInc) + 8 * b2n (a.ntc ≠ b.ntc) + 16 * b2n (a.derate ≠ b.derate)
  + 32 * b2n byHost + 64 * b2n m.age.rebased

/-- Index of the largest element of a list; the first of equals. -/
def argMax (l : List Nat) : Nat := (List.range l.length).foldl (fun b i => if l.getD b 0 < l.getD i 0 then i else b) 0

/-- The log record of a plan (R492). -/
def Mod.planRecord (m : Mod) (t : Targets) (gen state cause : Nat) : PlanRec :=
  let low := (List.range 24).foldl (fun b n => if t.kI.getD n 0 < t.kI.getD b 0 then n else b) 0
  let ratio (esr : Bool) : Nat := match m.ratioOf low esr with | some x => f32Raw x | none => f32Raw 1
  let rth := (List.range 8).foldl (fun a k => maxR a (m.getF (Ob.rthRatio k))) (m.getF (Ob.rthRatio 0))
  let i := argMax t.dtInc
  let inc := t.dtInc.getD i 0
  { gen := gen, time := m.t64, state := state, cause := cause, flags := m.planFlags, kI := t.kI.getD low 0, cRatio := ratio false
    esrRatio := ratio true, rthRatio := f32Raw rth, derate := 11800 - t.derate, ntc := (t.ntc.foldl max 0 : Nat), dtInc := inc
    dtPair := if inc = 0 then 255 else i / 2, prev := m.get Ob.planGen }

/-- The 48 bytes of a record. -/
def PlanRec.bytes (r : PlanRec) : List Byte :=
  leBytes 4 r.gen ++ leBytes 8 r.time ++ [r.state, r.cause, r.flags, 0].flatMap (leBytes 1) ++ leBytes 4 r.kI ++ leBytes 4 r.cRatio
  ++ leBytes 4 r.esrRatio ++ leBytes 4 r.rthRatio ++ leBytes 2 (Raw.ofInt 16 r.derate) ++ leBytes 2 (Raw.ofInt 16 r.ntc)
  ++ leBytes 4 r.dtInc ++ leBytes 1 r.dtPair ++ leBytes 3 0 ++ leBytes 4 r.prev

/-- The log with a record at its end: the last 1024. DEDUCED, log entry 74. -/
def keepPlan (r : PlanRec) (l : List PlanRec) : List PlanRec := (l ++ [r]).drop (l.length + 1 - 1024)

/-- PLAN_STATE (R495). -/
def Mod.showPlan (m : Mod) : Mod :=
  m.put Ob.planState (if m.get Ob.planFreeze = 1 then 3 else if m.get Ob.planGen = 0 then 0 else if m.age.moving then 1 else 2)

/-- EV126 once per plan (R488): a capped dead time by its pair, otherwise a k_I at its floor by its link channel.
DEDUCED, log entry 74. -/
def Mod.planLimited (m : Mod) : Mod :=
  match (List.range 64).find? (fun i => (m.planDead (i / 2) (i % 2 = 1)).2) with
  | some i => m.raise 126 sevWarn 0x6001 (i / 2)
  | none =>
    match (List.range 24).find? (fun n => (m.planKI n).2.2.2) with
    | some n => m.raise 126 sevWarn 0x6002 n
    | none   => m

/-- Adoption (R489): the record, EV124 and the new targets at once; a plan still in motion is superseded.
DEDUCED, log entry 74. -/
def Mod.planAdopt (r : PlanRec) (t : Targets) (m : Mod) : Mod :=
  let m1 := m.modAge (fun a => { a with
    log := keepPlan { r with state := 1 } (a.log.map (fun x => if x.state = 1 then { x with state := 3 } else x))
    target := t, frozen := none, rebased := false, moving := true })
  let m2 := ((m1.keep Ob.planGen r.gen).keep Ob.planTime m1.t64).put Ob.planFlags r.flags
  let m3 := m2.each (List.range 24) (fun n m => m.put (Ob.kI n) (t.kI.getD n 536870912))
  ((m3.planLimited).inform 124 r.gen).showPlan

/-- A plan is computed (R487, R489, R492): adopted where it differs enough, or logged only while PLAN_FREEZE is 01h. -/
def Mod.planCompute (byHost : Bool) (m : Mod) : Mod :=
  let t := m.planTargets
  if m.differs t m.age.target then
    let last := match m.age.frozen with | some f => f.1.gen | none => m.get Ob.planGen
    let gen := (last + 1) % 4294967296
    let cause := m.planCause t m.age.target byHost
    if m.get Ob.planFreeze = 1 then
      let r := m.planRecord t gen 0 cause
      m.modAge (fun a => { a with log := keepPlan r a.log, frozen := some (r, t) })
    else m.planAdopt (m.planRecord t gen 1 cause) t
  else m

/-- PLAN_PERIOD after the last plan computed ends (R489). -/
def Mod.planDue (m : Mod) : Mod :=
  let p := m.age.planPs + sPs (3600 * m.get Ob.planPeriod)
  ((m.reach p).modAge (fun a => { a with planPs := max p m.now })).planCompute false

/-- PLAN_FREEZE has been written (R492): on its return to 00h the newest plan logged is adopted. -/
def Mod.freezeWritten (m : Mod) : Mod :=
  if m.get Ob.planFreeze = 1 then m.showPlan
  else match m.age.frozen with
    | none        => m.showPlan
    | some (r, t) =>
      (m.modAge (fun a => { a with log := a.log.filter (fun x => !(x.gen = r.gen && x.state = 0)) })).planAdopt r t

/-! ### Steps (R490) -/

/-- A value moved towards a target: in whole at rest, otherwise by at most `step`. -/
def stepTo (rest : Bool) (step target now : Rat) : Rat := if rest then target else towards step target now

/-- Whether a group of a list is at rest, each of them. -/
def Mod.restAll (m : Mod) (gs : List Nat) : Bool := gs.all m.atRest

/-- The adjustments after one step: 1/60 of 1 % of the base where a unit concerned runs. -/
def Mod.stepped (m : Mod) : AgeRt :=
  let a := m.age
  let t := a.target
  let sixth (base : Nat) : Rat := (base : Rat) / 6000
  { a with
    factor := (List.range 24).map (fun n =>
      stepTo (m.restAll (m.linkGroups n)) (1 / 6000) (pu (t.kI.getD n 536870912)) (a.factor.getD n 1))
    dtInc := (List.range 64).map (fun i =>
      let p := i / 2
      stepTo (match m.groupOfPair p with | some g => m.atRest g | none => true)
        (sixth (m.baseOf (if i % 2 = 1 then Ob.dtOnB p else Ob.dtOnA p))) (t.dtInc.getD i 0) (a.dtInc.getD i 0))
    ntc := (List.range 8).map (fun k =>
      let u := m.get (Ob.ntcUnit k)
      stepTo (u = 255 || m.atRest u) (sixth (m.baseOf (Ob.ntcDerate k))) (t.ntc.getD k 0) (a.ntc.getD k 0))
    derate := stepTo m.allAtRest (sixth 11800) t.derate a.derate }

/-- Whether every adjustment equals its target. -/
def AgeRt.done (a : AgeRt) : Bool :=
  (List.range 24).all (fun n => a.factor.getD n 1 = pu (a.target.kI.getD n 536870912))
  && (List.range 64).all (fun i => a.dtInc.getD i 0 = (a.target.dtInc.getD i 0 : Rat))
  && (List.range 8).all (fun k => a.ntc.getD k 0 = (a.target.ntc.getD k 0 : Rat))
  && a.derate = (a.target.derate : Rat)

/-- The step of every 60 s (R490, R492): with every adjustment at its target, EV125 once. -/
def Mod.planStep (m0 : Mod) : Mod :=
  if m0.get Ob.planFreeze = 1 then m0
  else
    let p := m0.age.stepPs + sPs 60
    let m := m0.reach p
    let m1 := (m.modAge (fun _ => { m.stepped with stepPs := max p m0.now })).manageAll
    if m1.age.moving && m1.age.done then
      ((m1.modAge (fun a => { a with
        moving := false, log := a.log.map (fun x => if x.state = 1 then { x with state := 2 } else x) })).inform 125
          (m1.get Ob.planGen)).showPlan
    else m1

/-! ### AGEING_REBASE (R493) -/

/-- The units that a rebase concerns. -/
def Mod.rebaseUnits (m : Mod) (kind unit : Nat) : List Nat :=
  if kind = 0 then m.linkGroups unit
  else if kind = 1 then (match m.groupOfPair unit with | some g => [g] | none => [])
  else if m.get (Ob.ntcUnit unit) = 255 then [] else [m.get (Ob.ntcUnit unit)]

/-- Why AGEING_REBASE is refused. -/
def Mod.rebaseRefusal (m : Mod) (kind unit : Nat) : Option Nat :=
  if 2 < kind || (kind = 0 && 24 ≤ unit) || (kind = 1 && 32 ≤ unit) || (kind = 2 && 8 ≤ unit) then some 0x11
  else if m.restAll (m.rebaseUnits kind unit) then none else some 0x12

/-- The rebase at its boundary: adjustments neutral, estimates cleared, the baseline anew. DEDUCED, log entry 74. -/
def Mod.rebase (kind unit : Nat) (m : Mod) : Mod :=
  let m0 := m.modAge (fun a => { a with
    valid := a.valid.filter (· ≠ (kind, unit)), based := a.based.filter (· ≠ (kind, unit)), rebased := true
    since := a.since.filter (fun x => !(x.1 = kind && x.2.1 = unit)) ++ [(kind, unit, a.opHours)]
    blocks := if kind = 0 then a.blocks.set unit [] else a.blocks
    toffBase := if kind = 1 then a.toffBase.filter (fun t => t.1 ≠ unit) else a.toffBase
    rthBase := if kind = 2 then a.rthBase.set unit none else a.rthBase
    learned := if kind = 0 then a.learned.filter (fun x => x.1 ≠ unit) else a.learned })
  let m1 :=
    if kind = 0 then
      ((((m0.modAge (fun a => { a with factor := a.factor.set unit 1, target := { a.target with kI := a.target.kI.set unit 536870912 } })).put
        (Ob.cEst unit) 0).put (Ob.esrEst unit) 0).put (Ob.estValid unit) 0).put (Ob.kI unit) 536870912
    else if kind = 1 then
      (((m0.modAge (fun a => { a with
        dtInc := (a.dtInc.set (2 * unit) 0).set (2 * unit + 1) 0
        target := { a.target with dtInc := (a.target.dtInc.set (2 * unit) 0).set (2 * unit + 1) 0 } })).put (Ob.toffDriftA unit) 0).put
        (Ob.toffDriftB unit) 0)
    else
      ((m0.modAge (fun a => { a with ntc := a.ntc.set unit 0, target := { a.target with ntc := a.target.ntc.set unit 0 } })).put
        (Ob.rthBase unit) 0).put (Ob.rthRatio unit) (f32Raw 1)
  m1.manageAll

/-! ### The commands -/

/-- `ESTIMATE_BLOCK` (R484). -/
def execEstimateBlock (e : Estimate) (s : State) : Host.Outcome State Fault Refusal := onUnit (estimateOk e) s (s.m.estimate e)

/-- `BASELINE_COMPLETE` (R485). -/
def execBaselineComplete (s : State) : Host.Outcome State Fault Refusal := onMod s s.m.baselineComplete

/-- `PLAN_COMPUTE` (R489): PLAN_PERIOD ends. -/
def execPlanCompute (s : State) : Host.Outcome State Fault Refusal := onMod s s.m.planDue

/-- `PLAN_STEP` (R490). -/
def execPlanStep (s : State) : Host.Outcome State Fault Refusal := onMod s s.m.planStep

end Sys2Proof.Machine
end

