-- ==== Sys2Proof/Machine/Profile.lean ====
section
/-!
DEFINITION. The grid-code profiles (R243): the values, fixed entries and ranges that the spec's table gives, with the
constants of Config where the table names a standard without its numbers; and the loading of a profile.
-/
namespace Sys2Proof.Machine

/-- The section entry of 3700h that a key names (R245): its sub-index. -/
def rtSub (k : Nat) : Option Nat := if 0x3700 ≤ k / 256 && k / 256 < 0x3704 then some (k % 256) else none

/-- The value of a profile that R243's table gives for an entry of 3700h, as a raw value. -/
def tableValue (p sub : Nat) : Option Nat :=
  if p = 0 || 8 < p then none
  else if sub = 1 then some (if p ≤ 4 then 472446403 else if p ≤ 6 then 483183821 else 456340275)
  else if sub = 2 then some 590558003
  else if sub = 3 then some (Raw.ofInt 32 (if p ≤ 5 then -1200000 else -1000000))
  else if sub = 4 then some (if p ≤ 5 then 1200000 else 1000000)
  else if sub = 8 then (if p ≤ 4 || p = 7 then some 0 else if p ≤ 6 then some 1073741824 else none)
  else if sub = 10 then (if p = 5 || p = 6 then some 1073741824 else none)
  else if sub = 12 then some (if p = 3 || p = 4 then 268435456 else 0)
  else none

/-- The value that a profile loads into an entry marked "profile". -/
def profileLoads (p k : Nat) : Option Nat :=
  if p = 0 then none
  else match (rtSub k).bind (tableValue p) with
    | some v => some v
    | none   => Config.profileValue p k

/-- Whether a profile fixes an entry: MC_LEVEL where the table says so, otherwise as its standard does. -/
def profileFixed (p k : Nat) : Bool :=
  if p = 0 then false
  else if rtSub k = some 12 then p ≠ 3 && p ≠ 4
  else Config.profileFixes p k

/-- Whether a raw value lies in the setting range that a profile allows for an entry. -/
def profileAdmits (p k : Nat) (t : ObjTy) (raw : Nat) : Bool :=
  if p = 0 then true
  else if rtSub k = some 8 && p = 8 then f32In 1073741824 1086324736 raw
  else if rtSub k = some 11 && (p = 5 || p = 6) then f32In 1119092736 1125515264 raw
  else match Config.profileRange p k with
    | none        => true
    | some (a, b) =>
      let v : Option Rat := if t = .f32 then f32Val raw else some (t.reading raw : Rat)
      match v with
      | none   => false
      | some x => a ≤ x && x ≤ b

/-- The writable rows of the dictionary that a profile may fix. -/
def profileRows : List ObjRow :=
  (rows30 ++ rows34 ++ rows37).filter (fun r => r.prof && (r.acc = .rw || r.acc = .rwr))

/-- The keys of a row. -/
def ObjRow.keys (r : ObjRow) : List Nat :=
  (List.range r.n).flatMap (fun i => (List.range r.m).map (fun j => (r.base + i) * 256 + r.sub + j))

/-- The keys that a profile loads. -/
def profileKeys : List Nat := profileRows.flatMap ObjRow.keys

/-- PROFILE_F_RATED (R243, R248): 00h any, 01h 50 Hz, 02h 60 Hz. -/
def profileHz (p : Nat) : Nat := if p = 0 then 0 else if p ≤ 5 then 2 else 1

/-- Whether the store of stored values lists a key. -/
def listed (k : Nat) (l : List (Nat × Nat)) : Bool := l.any (fun p => p.1 = k)

/-- The profile is loaded (R243): a fixed entry takes its value; another takes it unless the host has stored a value that
the profile admits. DESIGN CHOICE, log entry 9. -/
def Mod.loadProfile (p : Nat) (m : Mod) : Mod :=
  let m1 := ((m.put Ob.profileActive p).put Ob.profileVersion (Config.profileVersion p % 4294967296)).put Ob.profileFRated (profileHz p)
  if p = 0 then m1
  else m1.each profileKeys (fun k m =>
    match profileLoads p k with
    | none   => m
    | some v => if listed k m.sto && !profileFixed p k && Sys2Proof.Machine.profileAdmits p k (tyOf k) (m.get k) then m else m.put k v)

end Sys2Proof.Machine
end

