-- ==== Sys2Proof/Machine/Boot.lean ====
section
/-!
DEFINITION. Power-up to service (R471 to R481): supplies, the release of the lanes, the verification of code (R452 to
R454), the seals (R361), training, self-test, the first claim and START_COMPLETE; the RESET_N pin (R363).
-/
namespace Sys2Proof.Machine

def Mod.modPower (f : BootRt → BootRt) (m : Mod) : Mod := { m with power := f m.power }
def Mod.modSecu (f : SecuRt → SecuRt) (m : Mod) : Mod := { m with secu := f m.secu }

/-! ### What a reset leaves (R12, R17, R458, R462, R471, R491) -/

/-- Cirque's own store and the staged image outlive a reset; sessions, challenges and an upload do not. -/
def SecuRt.kept (x : SecuRt) : SecuRt :=
  { keys := x.keys, opKey := x.opKey, opCert := x.opCert, anchors := x.anchors, crl := x.crl, revoked := x.revoked
    staged := x.staged, safety := x.safety, certNext := x.certNext, told := x.told, badImg := x.badImg }

/-- Plans, adjustments, baselines and the history are stored; estimates are not. -/
def AgeRt.kept (x : AgeRt) : AgeRt :=
  { x with valid := [], warned := [], blocks := List.replicate 24 [], planPs := 0, stepPs := 0, hourPs := 0 }

/-- Every die in reset: each unit at its value for power-up, each entry at its stored value or its default.
DESIGN CHOICE, log entry 119. -/
def Mod.dark (m : Mod) : Mod :=
  { obj := m.sto, sto := m.sto, hostSet := m.hostSet.filter (fun k => match rowOfKey k with | some r => r.stored | none => false)
    gens := m.gens, lost := m.lost, prot := { log := m.prot.log, skip := m.prot.skip }, secu := m.secu.kept, age := m.age.kept, free := m.free }

/-- The entries that change with a power cycle alone (R12). -/
def powerCycleKeys : List Nat := [Ob.devBootEn]

/-- The entries that a reset leaves as they stand: those that change with a power cycle alone, and Serac's own (R12, R17, R23). -/
def resetHeldKeys : List Nat :=
  powerCycleKeys ++ [Ob.resetHeldS, Ob.discCount, Ob.discLast, Ob.fltLevel] ++ (List.range 8).map Ob.tripSources

/-- Every die but Serac in reset, as RESET_N and FW_ACTIVATE leave it (R12, R17, R23, R274, R363): the entries that wait for a
power cycle, and what Serac holds: its oscillator's and inputs' states, its records, its trip latches with their sources and
its leg maps. Every pin is at high impedance. DEDUCED, log entry 76. -/
def Mod.diesReset (m : Mod) : Mod :=
  let d := m.dark
  let m1 : Mod := { d with
    clk   := { upPs := m.clk.upPs }
    power := { power := true, sealBBad := m.power.sealBBad, sealDone := m.power.sealDone }
    grp   := m.grp.map (fun x => { latched := x.latched, demand := x.demand, map := x.map, mapBad := x.mapBad })
    prot  := { d.prot with fltOn := m.prot.fltOn }
    hk    := { d.hk with tcxoLost := m.hk.tcxoLost, refMoved := [m.hk.tcxoLost, m.hk.tcxoLost] } }
  m1.each resetHeldKeys (fun k n => n.put k (m.get k))

/-- CERT_MODE_SET takes effect at the power cycle (R467, R468): leaving certified mode erases every key slot and the
operational key; entering it discards a staged development image. -/
def Mod.certCycle (m : Mod) : Mod :=
  match m.secu.certNext with
  | none => m
  | some v =>
    let m1 := (m.modSecu (fun x => { x with certNext := none })).keep Ob.certifiedMode v
    if v = 0 && m.get Ob.certifiedMode = 1 then
      (m1.modSecu (fun x => { x with keys := List.replicate 16 [], opKey := false, opCert := [] })).each (List.range 16)
        (fun k m => m.keep (Ob.slotRole k) 0)
    else if v = 1 then
      m1.modSecu (fun x => { x with staged := match x.staged with | some (a, b) => if a.dev || b.dev then none else some (a, b) | none => none })
    else m1

/-- `POWER_ON` (R471, R474): Serac alive. It checks the TCXO and reads SEAL0B to SEAL7B ten times. -/
def powerOn (tcxo : Bool) (sealB : List Nat) (s : State) : State :=
  if s.m.power.power then s
  else
    let b := sealB.headD 0 % 256
    let m1 := s.m.dark.certCycle.modPower (fun x => { x with power := true, sealBBad := sealB.any (· % 256 ≠ b) })
    let m2 := (m1.put Ob.sealB b).put Ob.sealState 0
    { s with m := if tcxo then m2 else m2.tcxoLost, kept := { s.kept with sealB := b } }

/-- `POWER_DIP` (R471): every die resets, Serac included; it counts as a power cycle. -/
def Mod.powerDip (m : Mod) : Mod := m.dark.certCycle

/-! ### Verification of code (R453, R454) -/

/-- Whether Cirque accepts an image for a target (R453). -/
def imageOk (kp : Kept) (m : Mod) (target : Nat) (a : ImageInfo) : Bool :=
  a.magicOk && a.target = target && a.digestOk && kp.rollback.getD a.counter 0 ≤ a.secVersion
  && (if a.dev then m.get Ob.devBootEn = 1 && m.get Ob.certifiedMode = 0 else a.hashFused && !a.revoked && a.sigOk)

/-- Whether Cirque answers a lane (R455). -/
def Mod.cirqueUp (m : Mod) (l : Nat) : Bool := (m.laneAt l).macFails < 3

/-- A lane fails a step of R474: the first failure names its code and step; a lane that resynchronises fails (R340). -/
def Mod.stepFails (l step code : Nat) (m : Mod) : Mod :=
  let m1 := if (m.laneAt l).failCode = 0 then m.modLane l (fun x => { x with failCode := code, failStep := step }) else m
  if m1.arb.armed && l = m1.standby && m1.healthOf l = 3 then m1.standbyUnhealthy code else m1

/-- Whether a lane takes a step of its start-up now: it is released and does not run as active or standby. -/
def Mod.starts (m : Mod) (l : Nat) : Bool := (m.laneAt l).released && !(m.arb.armed && l = m.lane)

/-- `LANES_RELEASED` (R474, R478): the timebase counts from 0; a lane whose ADPLL does not lock keeps its domains in
reset. A lane that Serac has reset for its resynchronisation takes the same step alone. -/
def Mod.lanesReleased (lockedA lockedB : Bool) (m : Mod) : Mod :=
  let one (l : Nat) (ok : Bool) (m : Mod) : Mod :=
    if ok then (m.modLane l (fun x => { x with locked := true })).put (Ob.adpllState l) 1
    else (m.put (Ob.adpllState l) 0).stepFails l 2 0x1003
  if !m.power.power || m.sdc.resetLow then m
  else if m.power.released.isNone then
    let m0 := m.reach m.power.relPs
    let m1 : Mod := { m0 with clk := { m0.clk with taiBase := -((m0.now / 1000 : Nat) : Int) }
                              lanes := m.lanes.map (fun x => { x with released := true }) }
    one 1 lockedB (one 0 lockedA (m1.modPower (fun x => { x with released := some m0.now })))
  else
    let two (l : Nat) (ok : Bool) (m : Mod) : Mod := if m.starts l && m.healthOf l = 3 && !(m.laneAt l).locked then one l ok m else m
    two 1 lockedB (two 0 lockedA m)

/-- `BOOT_LOADER_VERIFIED` (R452, R455): a lane whose boot loader is refused halts in ROM. -/
def Mod.bootLoader (kp : Kept) (l : Nat) (a : ImageInfo) (m : Mod) : Mod :=
  if !m.starts l || !(m.laneAt l).locked then m
  else if m.cirqueUp l && imageOk kp m 0 a then m.modLane l (fun x => { x with boot := true })
  else m.stepFails l 3 0x1001

/-- The image that a lane boots (R454): the higher FW_VERSION, image A on equal versions, otherwise the other; with
BOOT_REASON. -/
def chooseImage (kp : Kept) (m : Mod) (a b : ImageInfo) : Option (Bool × Nat) :=
  let okA := imageOk kp m 1 a
  let okB := imageOk kp m 1 b
  let first := a.version < b.version
  let reason := if a.version = b.version then 2 else 0
  if first then (if okB then some (true, reason) else if okA then some (false, 1) else none)
  else (if okA then some (false, reason) else if okB then some (true, 1) else none)

/-- In certified mode a stored GHP1 mailbox is set to GHP2 with EV014, when the firmware starts (R66). -/
def Mod.replaceGhp1 (m : Mod) : Mod :=
  if m.get Ob.certifiedMode = 1 then
    m.each (List.range 4) (fun n m => if m.get (Ob.mbxGen n) = 1 then (m.keep (Ob.mbxGen n) 2).raise 14 sevWarn 0x1103 n else m)
  else m

/-- `FIRMWARE_IMAGE_VERIFIED` (R454): an image with an uncorrectable codeword fails its signature check (R314). -/
def Mod.firmware (kp : Kept) (l : Nat) (a b : ImageInfo) (m : Mod) : Mod :=
  if !m.starts l || !(m.laneAt l).boot then m
  else
    let read (which : Nat) (i : ImageInfo) : ImageInfo :=
      if m.secu.badImg.contains (l, which) then { i with sigOk := false, digestOk := false } else i
    match (if m.cirqueUp l then chooseImage kp m (read 0 a) (read 1 b) else none) with
    | none => m.stepFails l 5 0x1002
    | some (useB, reason) =>
      let img := if useB then b else a
      ((m.modLane l (fun x => { x with image := true, imageB := useB, version := img.version, reason := reason })).modSecu
        (fun x => { x with running := x.running.set l (some img) })).replaceGhp1

/-! ### Seals and the safety die (R357, R360, R361) -/

/-- D of R351 in ms and the test interval of R357 in h, by the two classes of the sealed switches. -/
def discTimeOf (cls : Nat) : Nat := if cls = 0 then 20 else if cls = 1 then 50 else if cls = 2 then 100 else 200
def testHoursOf (cls : Nat) : Nat := if cls = 0 then 24 else if cls = 1 then 12 else if cls = 2 then 72 else 168

/-- SEAL_STATE from the readings (R361): 1 mismatch, 2 unstable, 3 reserved profile. DEDUCED, log entry 75. -/
def sealVerdict (a b : Nat) (unstable : Bool) : Nat :=
  if a ≠ b then 1 else if unstable then 2 else if 9 ≤ a % 16 then 3 else 0

/-- The agreed switches take effect: the profile, D and the test interval. -/
def Mod.sealsApply (a : Nat) (m : Mod) : Mod :=
  ((m.put Ob.discTime (discTimeOf (a / 16 % 4))).put Ob.testInterval (testHoursOf (a / 64 % 4))).loadProfile (a % 16)

/-- `SAFETY_DIE_RUNNING` (R361, R474, R479): channel A runs and the seals are decided; they hold until the next power
cycle. A die that does not start leaves Serac without cross-link frames. -/
def safetyDieRunning (started : Bool) (sealA : List Nat) (s : State) : State :=
  let m := s.m
  if m.power.released.isNone || m.power.safetyUp then s
  else if !started then
    let m1 := m.modSdc (fun x => { x with lostB := 3 })
    { s with m := ((m1.put Ob.safeCause m1.safeCauses).sdcTo sdcSafe).modPower (fun x => { x with fails := x.fails ++ [(0, 4, 0x1007)] }) }
  else
    let m1 := m.modPower (fun x => { x with safetyUp := true })
    let a := if m.power.sealDone then s.kept.sealA else sealA.headD 0 % 256
    let b := s.kept.sealB
    let st := if m.power.sealDone then s.kept.sealState else sealVerdict a b (m.power.sealBBad || sealA.any (· % 256 ≠ a))
    let m2 := (((m1.modPower (fun x => { x with sealDone := true })).put Ob.sealA a).put Ob.sealB b).put Ob.sealState st
    { s with
      m := if st = 0 then m2.sealsApply a else (m2.modSdc (fun x => { x with lockout := true })).sdcTo sdcLockout
      kept := { s.kept with sealA := a, sealState := st } }

/-! ### Training and self-test (R475, R479) -/

/-- `FLOE_TRAINING` (R475): an attempt ends. The lanes check each other's patterns and compare their versions; after the third failed
attempt the loopbacks decide which lane counts as trained. -/
def Mod.floeTraining (crcOk skewOk loopA loopB : Bool) (m : Mod) : Mod :=
  let a := m.laneAt 0
  let b := m.laneAt 1
  let ok := crcOk && skewOk && a.image && b.image && a.version = b.version
  let one (l : Nat) (alone : Bool) (m : Mod) : Mod :=
    let x := m.laneAt l
    if m.starts l && x.image && !x.floe then
      if ok || (2 ≤ x.tries && alone) then m.modLane l (fun x => { x with floe := true, floeSeq := none, tries := 0 })
      else if x.tries < 2 then m.modLane l (fun x => { x with tries := x.tries + 1 })
      else (m.modLane l (fun x => { x with tries := 3 })).stepFails l 6 0x1004
    else m
  one 1 (!loopA && loopB) (one 0 loopA m)

/-- `RIME_TRAINING` (R474, R479): with both lanes failed the field die is at fault. -/
def Mod.rimeTraining (l : Nat) (ok : Bool) (m : Mod) : Mod :=
  if !m.starts l then m
  else if ok then m.modLane l (fun x => { x with rime := true, rimeFailed := false })
  else
    let m1 := m.modLane l (fun x => { x with rimeFailed := true })
    if (m1.laneAt (1 - l)).rimeFailed then m1.modPower (fun x => { x with fieldBad := true })
    else if m1.arb.armed then m1.stepFails l 7 0x1005 else m1

/-- Whether generation number `a` lies after `b` (R7). -/
def genAfter (a b : Nat) : Bool := 0 < angWrap ((a : Int) - (b : Int)) && angWrap ((a : Int) - (b : Int)) < 2147483648

/-- The configuration check of start-up (R476): of two regions that differ the one with the later generation number is
copied, and EV006 tells of the other lane's. DEDUCED, log entry 66. -/
def Mod.regionCheck (m : Mod) : Mod :=
  let a := m.gens.getD 0 0
  let b := m.gens.getD 1 0
  if m.arb.armed || a = b then m
  else
    let m1 : Mod := { m with gens := List.replicate 2 (if genAfter b a then b else a) }
    m1.modPower (fun x => { x with fails := x.fails ++ [(b2n (!genAfter b a), 8, 0x1008)] })

/-- The master carrier starts with the end of the first self-test (R69, R474). DESIGN CHOICE, log entry 35. -/
def Mod.carrierStarts (m : Mod) : Mod :=
  if m.clk.running then m else { m with clk := { m.clk with running := true, t0Ps := m.now, phase := .boundary, loadPs := m.now } }

/-- `SELF_TEST_COMPLETE` (R474). -/
def Mod.selfTest (l : Nat) (ok : Bool) (m : Mod) : Mod :=
  if !m.starts l || !(m.laneAt l).image then m
  else if ok then (m.regionCheck.modLane l (fun x => { x with tested := true })).carrierStarts else m.stepFails l 8 0x1006

/-! ### The claim and START_COMPLETE (R321, R323, R474, R477, R479 to R481) -/

/-- Whether a lane may claim (R321, R479): every step passed; a lane whose Rime training failed only where the other
lane also fails a step. -/
def Mod.mayClaim (m : Mod) (l : Nat) : Bool :=
  let x := m.laneAt l
  let y := m.laneAt (1 - l)
  x.released && x.locked && x.boot && x.image && x.floe && x.tested && !x.withdrawn
  && (x.rime || (x.rimeFailed && (y.rimeFailed || y.failCode ≠ 0)))

/-- Why a lane does not claim, and its step (R479): its first failed step, else the Rime training that it failed alone.
DEDUCED, log entry 75. -/
def Mod.failOf (m : Mod) (l : Nat) : Nat × Nat :=
  let x := m.laneAt l
  if x.failCode ≠ 0 then (x.failCode, x.failStep)
  else if x.rimeFailed && !m.power.fieldBad then (0x1005, 7) else (0, 0)

/-- What the firmware of the granted lane shows of its configuration before READY. -/
def Mod.firmwareUp (l : Nat) (m : Mod) : Mod :=
  let x := m.laneAt l
  let m1 := (((m.put Ob.fwVersion x.version).put Ob.bootImage (b2n x.imageB)).put Ob.bootReason x.reason).put Ob.activeLane l
  let m2 : Mod := { m1 with mbx := (List.range 4).map (fun n => { gen := m1.get (Ob.mbxGen n) }) }
  let m3 := m2.each (List.range 8) (fun k m => if m.get (Ob.ntcEn k) = 0 then m.put (Ob.sensorState k) 4 else m)
  let m4 := m3.manageAll.each (List.range 32) (fun p m =>
    (m.put (Ob.dtOnAEff p) (m.get (Ob.dtOnA p))).put (Ob.dtOnBEff p) (m.get (Ob.dtOnB p)))
  let m4a := m4.placeContexts.each ((List.range 160).filter m4.isAdditional) Mod.enableCtx
  let m5 := (((((m4a.showSchedule).showChannels).showSlots).showTraceSize).showAvail).showPlan
  let m6 := (m5.loadDither.showCirque.showCal.showIdOrder).each (List.range 8) Mod.showOut
  match m6.prot.log.getLast? with
  | some r => m6.put Ob.lastFault r.raw
  | none   => m6

/-- READY (R474, R477, R483): MODULE_STATE, EV000, and the events of what went wrong before. DEDUCED, log entry 75. -/
def Mod.startComplete (l : Nat) (m : Mod) : Mod :=
  let lock := m.sdc.lockout
  let ms := (m.now - m.power.released.getD m.now) / 1000000000
  let o := 1 - l
  let m1 : Mod := { m with link := { m.link with ready := true, evtLow := false } }
  let m2 := (m1.put Ob.moduleState (if lock then 5 else 1)).inform 0
    (satAt 65535 ms + 65536 * l + 131072 * b2n lock)
  let m3 := if lock then
      m2.raise 87 sevStop (if m2.get Ob.sealState = 1 then 0x4A09 else if m2.get Ob.sealState = 2 then 0x4A0A else 0x4A0B)
        (m2.get Ob.sealA + 256 * m2.get Ob.sealB)
    else m2
  let m4 := m3.power.fails.foldl (fun m f => m.raise 6 sevWarn f.2.2 (f.1 + 256 * f.2.1)) m3
  let m5 := if m4.get Ob.resetHeldS ≠ 0 then m4.raise 5 sevWarn 0x4A10 (m4.get Ob.resetHeldS) else m4
  let m6 := if m5.power.fieldBad then (m5.raise 115 sevFault 0x5406 65536).inputsRestart else m5
  let (code, step) := m6.failOf o
  if code ≠ 0 then (m6.raise 6 sevWarn code (o + 256 * step)).standbyUnhealthy code else m6

/-- `LANE_CLAIM` (R321, R323): Serac grants the first claim, lane A on a tie; a claim while a lane holds the grant, or
after the rule of R336 has been armed, does nothing here. DEDUCED, log entry 75. -/
def Mod.laneClaim (a b : Bool) (m : Mod) : Mod :=
  let who : Option Nat := if a && m.mayClaim 0 then some 0 else if b && m.mayClaim 1 then some 1 else none
  match who with
  | none => m
  | some l =>
    if m.arb.armed || m.arb.grant.isSome || m.sdc.resetLow then m
    else
      let o := 1 - l
      let m1 := m.modArb (fun x => { x with grant := some l, armed := true })
      let m2 := (((m1.put (Ob.roleNow l) 0).put (Ob.health l) 0).put (Ob.roleNow o) 2).modCd (fun c => { c with enable := true })
      ((m2.firmwareUp l).showRedundant.startComplete l).cdShow

/-- `CLAIM_TIMEOUT` (R321, R473, R479): a lane has not claimed 2 s after the release. -/
def Mod.claimTimeout (l : Nat) (m : Mod) : Mod :=
  let (c, st) := m.failOf l
  let code := if c = 0 then 0x1009 else c
  let due := (m.power.released.getD 0) + sPs 2
  let step := if st = 0 then 9 else st
  if m.power.released.isNone || m.arb.grant = some l then m
  else if m.arb.armed then
    if l = m.standby && m.get (Ob.roleNow l) = 2 && m.healthOf l = 0 then
      ((m.reach due).raise 6 sevWarn code (l + 256 * step)).standbyUnhealthy code
    else m
  else
    let m1 := (((m.reach due).modLane l (fun x => { x with withdrawn := true, failCode := code, failStep := step })).put
      (Ob.health l) 2).put (Ob.unhealthyCause l) code
    { m1 with link := { m1.link with evtLow := true } }

/-! ### RESET_N (R23, R363, R482) -/

/-- `RESET_ASSERTED` (R363): every die but Serac in reset; K2 low by Serac, K1 low by the safety die's reset, every PWM pin
at high impedance, the field outputs off. Serac's times, latches and counts and the seals stand. DEDUCED, log entry 76. -/
def Mod.resetAsserted (m : Mod) : Mod :=
  if m.sdc.resetLow || !m.power.power then m
  else
    let d := m.diesReset
    let m1 : Mod := { d with
      sdc   := { a := m.sdc.a, b := m.sdc.b, lockout := m.sdc.lockout, oscDemand := m.sdc.oscDemand, resetLow := true
                 resetPs := m.now, samplePs := m.sdc.samplePs, sealPs := m.sdc.sealPs
                 relayFault := m.sdc.relayFault, discFault := m.sdc.discFault, bothSeen := m.sdc.bothSeen
                 k1Edge := if m.sdc.k1 then some m.now else m.sdc.k1Edge, k2Edge := if m.sdc.k2 then some m.now else m.sdc.k2Edge } }
    let m2 := m1.each [0, 1] (fun l m => m.put (Ob.refSource l) (b2n m1.hk.tcxoLost))
    (m2.showLatched.put Ob.sdcState (if m1.sdc.lockout then sdcLockout else sdcOpen)).fieldOff

/-- `RESET_HELD` (R363): Serac's record of how long the pin is low, in whole seconds from 10 s. -/
def Mod.resetHeld (seconds : Nat) (m : Mod) : Mod :=
  if m.sdc.resetLow && 10 ≤ seconds then
    (m.reach (m.sdc.resetPs + sPs seconds)).put Ob.resetHeldS (satAt 65535 seconds)
  else m

/-- `RESET_RELEASED` (R363): the pin has risen; 1 ms later start-up runs again from the release of the lanes. -/
def Mod.resetReleased (m : Mod) : Mod :=
  if m.sdc.resetLow then (m.modSdc (fun x => { x with resetLow := false })).modPower (fun x => { x with relPs := m.now + msPs 1 }) else m

/-! ### The commands -/

/-- `POWER_ON` (R471). -/
def execPowerOn (tcxo : Bool) (sealB : List Nat) (s : State) : Host.Outcome State Fault Refusal := .next (powerOn tcxo sealB s)

/-- `POWER_DIP` (R471). -/
def execPowerDip (s : State) : Host.Outcome State Fault Refusal := onMod s s.m.powerDip

/-- `LANES_RELEASED` (R474). -/
def execLanesReleased (lockedA lockedB : Bool) (s : State) : Host.Outcome State Fault Refusal :=
  onMod s (s.m.lanesReleased lockedA lockedB)

/-- `BOOT_LOADER_VERIFIED` (R452). -/
def execBootLoaderVerified (lane : Nat) (image : ImageInfo) (s : State) : Host.Outcome State Fault Refusal :=
  onUnit (laneOk lane) s (s.m.bootLoader s.kept lane image)

/-- `SAFETY_DIE_RUNNING` (R474). -/
def execSafetyDieRunning (started : Bool) (sealA : List Nat) (s : State) : Host.Outcome State Fault Refusal :=
  .next (safetyDieRunning started sealA s)

/-- `FIRMWARE_IMAGE_VERIFIED` (R454). -/
def execFirmwareImageVerified (lane : Nat) (a b : ImageInfo) (s : State) : Host.Outcome State Fault Refusal :=
  onUnit (laneOk lane) s (s.m.firmware s.kept lane a b)

/-- `FLOE_TRAINING` (R475). -/
def execFloeTraining (crcOk skewOk loopA loopB : Bool) (s : State) : Host.Outcome State Fault Refusal :=
  onMod s (s.m.floeTraining crcOk skewOk loopA loopB)

/-- `RIME_TRAINING` (R474). -/
def execRimeTraining (lane : Nat) (ok : Bool) (s : State) : Host.Outcome State Fault Refusal :=
  onUnit (laneOk lane) s (s.m.rimeTraining lane ok)

/-- `SELF_TEST_COMPLETE` (R474). -/
def execSelfTestComplete (lane : Nat) (ok : Bool) (s : State) : Host.Outcome State Fault Refusal :=
  onUnit (laneOk lane) s (s.m.selfTest lane ok)

/-- `LANE_CLAIM` (R321). -/
def execLaneClaim (laneA laneB : Bool) (s : State) : Host.Outcome State Fault Refusal := onMod s (s.m.laneClaim laneA laneB)

/-- `CLAIM_TIMEOUT` (R321). -/
def execClaimTimeout (lane : Nat) (s : State) : Host.Outcome State Fault Refusal := onUnit (laneOk lane) s (s.m.claimTimeout lane)

/-- A low of RESET_N of `ns` at Serac's filter (R506): 10 µs are accepted, less than 1 µs are ignored, in between either.
DESIGN CHOICE, log entry 117. -/
def Mod.resetLow (ns : Nat) (m : Mod) : Mod :=
  if ns < 1000 then m
  else if 10000 ≤ ns then m.resetAsserted
  else
    let m1 := { m with free := m.free + 1 }
    if Config.resetTaken m.free then m1.resetAsserted else m1

/-- `RESET_ASSERTED` (R363, R506). -/
def execResetAsserted (dt ns : Nat) (s : State) : Host.Outcome State Fault Refusal := onMod s (atDt dt (Mod.resetLow ns) s.m)

/-- `RESET_HELD` (R363). -/
def execResetHeld (seconds : Nat) (s : State) : Host.Outcome State Fault Refusal := onMod s (s.m.resetHeld seconds)

/-- `RESET_RELEASED` (R363). -/
def execResetReleased (s : State) : Host.Outcome State Fault Refusal := onMod s s.m.resetReleased

end Sys2Proof.Machine
end

