-- ==== Sys2Proof/Machine/Security.lean ====
section
/-!
DEFINITION. The security functions (R453 to R468): sessions and keys, certificates, trust anchors and CRLs, firmware
update and the anti-rollback counters, certified mode and the debug port. An action answers with the module, a GHP
status and the data of its response.
-/
namespace Sys2Proof.Machine

/-- What an action answers: the module, a status and the response's data. -/
abbrev Answer := Mod × Nat × List Byte

/-- A refusal: nothing changes. -/
def refuse (st : Nat) (m : Mod) : Answer := (m, st, [])

/-- An action that is done, and one that goes on. -/
def okay (m : Mod) : Answer := (m, 0, [])
def queued (m : Mod) : Answer := (m, 3, [])

/-- Whether the active lane's Cirque is available (R455). -/
def Mod.cirqueOk (m : Mod) : Bool := m.cirqueUp m.lane

/-! ### Sessions of the host serial link (R462 to R464) -/

/-- `n` draws of the random source as bytes. -/
def Mod.randomBytes : Nat → Mod → List Byte × Mod
  | 0, m     => ([], m)
  | n + 1, m =>
    let d := m.drawRandom
    let r := Mod.randomBytes n d.2
    (BitVec.ofNat 8 d.1 :: r.1, r.2)

/-- The bytes "GHP3". -/
def ghp3Label : List Byte := [0x47, 0x48, 0x50, 0x33]

/-- SESSION_OPEN (R462): a GHP3 mailbox of the serial link starts a session under a key slot. DEDUCED, log entry 19. -/
def Mod.sessionOpen (snd : Sender) (slot : Nat) (nonce : List Byte) (m : Mod) : Answer :=
  match snd with
  | .mbx n =>
    if (m.mbx.getD n {}).gen ≠ 3 || !m.cirqueOk then refuse 0x12 m
    else if nonce.length ≠ 16 then refuse 0x11 m
    else
      let r := m.randomBytes 16
      let key := Config.hmacSha256 (m.secu.keys.getD slot []) (ghp3Label ++ nonce ++ r.1)
      (r.2.modChan snd (fun c => { c with
        slot := some slot, key := key, role := m.get (Ob.slotRole slot), ctrIn := some 0, ctrOut := some 0 }), 0, r.1)
  | _ => refuse 0x12 m

/-- The sessions of a key slot end (R463). -/
def Mod.endSlot (slot : Nat) (m : Mod) : Mod :=
  { m with mbx := m.mbx.map (fun x => if x.chan.slot = some slot then { x with chan := { x.chan with slot := none, key := [], ctrIn := none, ctrOut := none } } else x) }

/-- KEY_INSTALL (R463): slot, role, then the ephemeral key, the nonce, the wrapped key and its tag. DEDUCED, log entry 77. -/
def Mod.keyInstall (data : List Byte) (m : Mod) : Answer :=
  let slot := (data.getD 0 0).toNat
  let role := (data.getD 1 0).toNat
  if !m.cirqueOk then refuse 0x12 m
  else if data.length ≠ 159 || 16 ≤ slot || role = 0 || 3 < role then refuse 0x11 m
  else match Config.unwrapKey data with
    | none     => refuse 0x11 m
    | some key =>
      okay ((m.modSecu (fun x => { x with keys := x.keys.set slot key })).keep (Ob.slotRole slot) role |>.endSlot slot)

/-- The end of a block: of a mailbox or session after 60 s, or of an address after 300 s (R464). DEDUCED, log entry 80. -/
def Mod.authBlockEnd (address : Option Nat) (snd : Sender) (m : Mod) : Mod :=
  match address with
  | some a =>
    match m.net.banned.find? (fun p => p.1 = a) with
    | none   => m
    | some p =>
      let m1 := m.reach p.2
      { m1 with net := { m1.net with banned := m1.net.banned.filter (fun p => p.1 ≠ a), fails := m1.net.fails.filter (fun p => p.1 ≠ a) } }
  | none   =>
    match (m.chanOf snd).blocked with
    | none   => m
    | some p => (m.reach p).modChan snd (fun c => { c with blocked := none, authFails := [] })

/-! ### Certificates (R459, R460) -/

/-- CERT_INSTALL: the operational certificate. DEDUCED, log entry 77. -/
def Mod.certInstall (der : List Byte) (m : Mod) : Answer :=
  if !m.cirqueOk then refuse 0x12 m
  else if 974 < der.length || der.isEmpty then refuse 0x11 m
  else if Config.certOk der then
    okay (m.modSecu (fun x => { x with opCert := der, opKey := true, told := x.told.filter (· ≠ 0) }))
  else refuse 0x11 m

/-- TRUST_ANCHORk: empty data clears it. DEDUCED, log entry 77. -/
def Mod.trustAnchor (k : Nat) (der : List Byte) (m : Mod) : Answer :=
  if 4 ≤ k then refuse 0x10 m
  else if der.isEmpty then okay (m.modSecu (fun x => { x with anchors := x.anchors.set k [], told := x.told.filter (· ≠ k + 1) }))
  else if !m.cirqueOk then refuse 0x12 m
  else if Config.certOk der then okay (m.modSecu (fun x => { x with anchors := x.anchors.set k der, told := x.told.filter (· ≠ k + 1) }))
  else refuse 0x11 m

/-- CRL_INSTALL, chunked: offset 0 starts anew, 64 KB in all. A session whose certificate it revokes closes (R468).
DEDUCED, log entry 77. -/
def Mod.crlInstall (offset : Nat) (chunk : List Byte) (m : Mod) : Answer :=
  let old := if offset = 0 then [] else m.secu.crl
  if offset ≠ old.length || !m.cirqueOk then refuse 0x12 m
  else if 252 < chunk.length || 65536 < offset + chunk.length then refuse 0x11 m
  else
    let crl := old ++ chunk
    let m1 := m.modSecu (fun x => { x with crl := crl, revoked := Config.crlSerials crl })
    okay (m1.each ((m1.sess.filter (fun p => p.2.isOpen && m1.secu.revoked.contains p.2.serial)).map (·.1)) Mod.closeSession)

/-- EV111 once per certificate, thirty days before it expires: 0 the operational one, k + 1 trust anchor k. -/
def Mod.certExpiring (which daysLeft : Nat) (m : Mod) : Mod :=
  let held := if which = 0 then !m.secu.opCert.isEmpty else !(m.secu.anchors.getD (which - 1) []).isEmpty
  if held && daysLeft ≤ 30 && !m.secu.told.contains which then
    (m.modSecu (fun x => { x with told := x.told ++ [which] })).raise 111 sevWarn 0x6406 daysLeft
  else m

/-! ### Firmware update (R456 to R458) -/

/-- FW_UPLOAD: the first chunk, at offset 0, erases the image that does not run; each further chunk follows the one before.
DEDUCED, log entry 77. -/
def Mod.fwUpload (offset : Nat) (chunk : List Byte) (m : Mod) : Answer :=
  let old := if offset = 0 then [] else m.secu.upload
  if offset ≠ old.length then refuse 0x12 m
  else if 252 < chunk.length || 6291456 < offset + chunk.length then refuse 0x11 m
  else okay (m.modSecu (fun x => { x with
    upload := old ++ chunk, staged := if offset = 0 then none else x.staged
    badImg := if offset = 0 then x.badImg.filter (fun p => (m.laneAt p.1).imageB = (p.2 = 1)) else x.badImg }))

/-- FW_STAGE: Cirque verifies the uploaded image in both lanes. -/
def Mod.fwStage (seq : Nat) (m : Mod) : Answer :=
  if m.secu.staging.isSome then refuse 1 m
  else if m.secu.upload.isEmpty || !m.cirqueOk then refuse 0x12 m
  else queued (m.modSecu (fun x => { x with staging := some seq }))

/-- The verification ends with EV106 (R456, R470). -/
def Mod.fwStaged (kp : Kept) (a b : ImageInfo) (m : Mod) : Mod :=
  match m.secu.staging with
  | none => m
  | some seq =>
    let ok := a.target ≤ 2 && imageOk kp m a.target a && imageOk kp m a.target b
    let m1 := m.modSecu (fun x => { x with staging := none, staged := if ok then some (a, b) else x.staged })
    m1.raise 106 (if ok then sevInfo else sevWarn) (if ok then 0 else 0x6403) (seq % 65536)

/-- FW_ACTIVATE (R457): both lanes reset together with the safety die, and boot the staged image.
DEDUCED, log entries 18 and 76. -/
def Mod.fwActivate (m : Mod) : Answer :=
  if m.allAtRest && m.bothOpen && m.secu.staged.isSome then
    let d := m.diesReset
    okay { d with
      secu := { d.secu with safety := match m.secu.staged with | some (a, _) => if a.target = 2 then some a else d.secu.safety | none => d.secu.safety
                            staged := none }
      sdc := { a := m.sdc.a, b := m.sdc.b, relayFault := m.sdc.relayFault, discFault := m.sdc.discFault
               bothSeen := m.sdc.bothSeen, oscDemand := m.sdc.oscDemand } }
  else refuse 0x12 m

/-- Whether a lane fails at this moment (R468). -/
def Mod.laneFailing (m : Mod) : Bool := m.arb.cause.isSome || !m.arb.due.isEmpty || m.healthOf m.standby = 2

/-- The counter of the running image and the value it takes: its SEC_VERSION where that is higher (R458). -/
def Mod.counterStep (kp : Kept) (m : Mod) : Option (Nat × Nat) :=
  match m.secu.running.getD m.lane none with
  | none   => none
  | some a => if kp.rollback.getD a.counter 0 < min 1023 a.secVersion && a.counter < 64 then some (a.counter, min 1023 a.secVersion) else none

/-- The counters after a step: each the larger of its value and the step's. -/
def raiseCounter (step : Option (Nat × Nat)) (l : List Nat) : List Nat :=
  match step with
  | none        => l
  | some (c, v) => l.modify c (fun x => max x v)

/-- EV107 of a step (R470). -/
def Mod.rollbackEvent (step : Option (Nat × Nat)) (m : Mod) : Mod :=
  match step with
  | none        => m
  | some (c, v) => m.inform 107 (c + 256 * v)

/-- Whether FW_COMMIT is refused (R455, R468). -/
def Mod.commitRefused (m : Mod) : Bool := m.laneFailing || !m.cirqueOk || (m.secu.running.getD m.lane none).isNone

/-- The step that FW_COMMIT, or the end of COMMIT_DELAY, makes now. -/
def Mod.commitStep (kp : Kept) (m : Mod) : Option (Nat × Nat) := if m.commitRefused then none else m.counterStep kp

/-- When both lanes will have run the image for COMMIT_DELAY without a lane failing; none while they do not both run it. -/
def Mod.commitDue (m : Mod) : Option Nat := if m.isRedundant then some (m.arb.bothPs + sPs (m.get Ob.commitDelay)) else none

/-- FW_COMMIT on the module: the status and EV107; the counter itself stands in `Kept`. -/
def Mod.fwCommit (kp : Kept) (m : Mod) : Answer :=
  if m.commitRefused then refuse 0x12 m else okay (m.rollbackEvent (m.counterStep kp))

/-! ### Certified mode and the debug port (R466, R467) -/

/-- CERT_MODE_SET: certified mode on or off at the next power cycle. -/
def Mod.certModeSet (v : Nat) (m : Mod) : Answer :=
  if 1 < v then refuse 0x11 m else okay (m.modSecu (fun x => { x with certNext := some v }))

/-- DEBUG_UNLOCK: the challenge of the standby lane. -/
def Mod.debugUnlock (m : Mod) : Answer :=
  if m.get Ob.certifiedMode = 1 then refuse 0x14 m
  else if !m.isRedundant then refuse 0x12 m
  else
    let r := m.randomBytes 32
    let c := leBytes 8 Config.serialNumber ++ leBytes 1 m.standby ++ leBytes 1 0 ++ leBytes 4 (m.laneAt m.standby).version
             ++ leBytes 2 0 ++ r.1
    (r.2.modSecu (fun x => { x with debug := some (m.now, c) }), 0, c)

/-- DEBUG_RESPONSE: one per challenge, within 60 s. The standby lane unlocks and is unhealthy, with EV109; the reset of
its resynchronisation locks the port again. DEDUCED, log entries 77 and 81. -/
def Mod.debugResponse (sig : List Byte) (m : Mod) : Answer :=
  if m.get Ob.certifiedMode = 1 then refuse 0x14 m
  else match m.secu.debug with
    | none => refuse 0x12 m
    | some (t, c) =>
      let m1 := m.modSecu (fun x => { x with debug := none })
      if m.now > t + sPs 60 || !m.isRedundant then (m1, 0x12, [])
      else if sig.length = 96 && Config.debugSigOk c sig then
        let s := m.standby
        let m2 := ((m1.modSecu (fun x => { x with unlocked := some s })).raise 109 sevWarn 0x6405 s).standbyUnhealthy 0x6405
        okay (if m2.healthOf s = 3 then m2.modSecu (fun x => { x with unlocked := none }) else m2)
      else (m1, 0x11, [])

/-! ### The commands that no frame brings -/

/-- `AUTH_BLOCK_END` (R464). -/
def execAuthBlockEnd (address : Option Nat) (snd : Sender) (s : State) : Host.Outcome State Fault Refusal :=
  onMod s (s.m.authBlockEnd address snd)

/-- `CERT_EXPIRING` (R460). -/
def execCertExpiring (which daysLeft : Nat) (s : State) : Host.Outcome State Fault Refusal :=
  onUnit (which < 5) s (s.m.certExpiring which daysLeft)

/-- `FW_STAGED` (R456). -/
def execFwStaged (laneA laneB : ImageInfo) (s : State) : Host.Outcome State Fault Refusal :=
  onMod s (s.m.fwStaged s.kept laneA laneB)

/-- `COMMIT_DELAY_EXPIRY` (R458): both lanes have run the image for COMMIT_DELAY without a lane failing. -/
def execCommitDelayExpiry (s : State) : Host.Outcome State Fault Refusal :=
  match s.m.commitDue with
  | none   => .next s
  | some p =>
    let step := s.m.commitStep s.kept
    .next { s with m := (s.m.reach p).rollbackEvent step, kept := { s.kept with rollback := raiseCounter step s.kept.rollback } }

end Sys2Proof.Machine
end

