-- ==== Sys2Proof/Machine/Checks.lean ====
section
/-!
DEFINITION. What a write is checked against (R49 from check 4 on, R11, R13, R54, R465 and the rules that the Range
columns name). A write is judged on the module as it stands and on a trial in which the writes that will be in force
together have been laid (R97, R122).
-/
namespace Sys2Proof.Machine

/-! ### The trial -/

/-- A value as an entry takes it: FLT_FILTER and FLT_MASK_TIME rise to the next 10 ns (R282, R308), a managed entry
stands under its adjustment (R491), every other stays as written. DEDUCED, log entry 30. -/
def Mod.asWritten (m : Mod) (k raw : Nat) : Nat :=
  let i := k / 256
  if (0x40A0 ≤ i && i < 0x40B0 && k % 256 = 2) || (0x4420 ≤ i && i < 0x4430 && k % 256 = 2) then (raw + 9) / 10 * 10
  else (m.managed k raw).getD raw

/-- The nearest future t64 whose low 32 bits are `w` (R379). DEDUCED, log entry 29. -/
def nearest32 (now w : Nat) : Nat := now + (w + 4294967296 - now % 4294967296) % 4294967296

/-- One write laid upon a trial. A write-only entry holds nothing; TRIG_START32 stands for TRIG_START; a context that a
write of ENABLE enables is placed at once (R76). -/
def Mod.lay (w : Nat × List Byte) (m : Mod) : Mod :=
  let k := w.1
  let raw := leNat w.2
  if k = Ob.fwUpload then (m.fwUpload (leNat (w.2.take 4)) (w.2.drop 4)).1
  else match (List.range 4).find? (fun u => Ob.trigStart32 u = k) with
    | some u => m.put (Ob.trigStart u) (nearest32 m.t64 raw)
    | none =>
      match rowOfKey k with
      | some r =>
        if r.acc = .wo then m
        else
          let m1 := m.put k (m.asWritten k raw)
          if 0x2500 ≤ k / 256 && k / 256 < 0x25A0 && k % 256 = 2 then m1.placeContexts else m1
      | none   => m

/-- A trial with several writes laid in order. -/
def Mod.layAll (ws : List (Nat × List Byte)) (m : Mod) : Mod := ws.foldl (fun m w => m.lay w) m

/-! ### Role (check 4, R465) -/

def roleOperator : Nat := 1
def roleInstaller : Nat := 2
def roleService : Nat := 3

/-- The role that a write of an entry needs. -/
def writeRole (r : ObjRow) : Nat :=
  if 0x6400 ≤ r.base && r.base < 0x6500 then roleService
  else if r.stored || r.acc = .rwr || (0x4090 ≤ r.base && r.base < 0x4098) then roleInstaller
  else roleOperator

/-- The role that an action needs. -/
def actionRole (idx : Nat) (args : List Byte) : Nat :=
  if idx = Ob.sessionOpen / 256 then roleOperator
  else if (0x6400 ≤ idx && idx < 0x6500) || idx = Ob.laneSwitchover / 256 then roleService
  else if idx = Ob.retirement / 256 || idx = Ob.injRun / 256 || idx = Ob.timeSet / 256 || idx = Ob.timeReacquire / 256
    || idx = Ob.laneResync / 256 || idx = Ob.ageingRebase / 256 then roleInstaller
  else if idx = Ob.pwmDirect / 256 then (if (args.getD 1 0).toNat = 0 then roleInstaller else roleOperator)
  else roleOperator

/-! ### Object and access (check 5) -/

/-- Whether the routing of a context belongs to a cascade (R129, R136). DEDUCED, log entry 33. -/
def Mod.routedByMode (m : Mod) (k : Nat) : Bool :=
  let i := k / 256
  let j := k % 256
  0x2500 ≤ i && i < 0x25A0 && (j = 2 || j = 4 || j = 5 || j = 6) && m.inCascade (i - 0x2500)

/-- Whether a write names an entry that takes one, with data of its size. -/
def Mod.writeObjectOk (m : Mod) (k size : Nat) : Bool :=
  match rowOfKey k with
  | none   => false
  | some r =>
    (r.acc = .rw || r.acc = .rwr || r.acc = .wo)
    && (if r.ty = .var then size ≤ 256 else size = r.ty.size)
    && !m.routedByMode k && !(k = Ob.utcOffset && m.time.utcByPtp)

/-! ### State (check 8) -/

/-- The groups whose rest a write of an RWR entry asks for (R11, R129); `t` is the trial. DEDUCED, log entry 31. -/
def Mod.restUnits (m t : Mod) (k : Nat) : List Nat :=
  let i := k / 256
  if 0x1020 ≤ i && i < 0x1024 then [i - 0x1020]
  else if 0x1028 ≤ i && i < 0x102C then [4 + (i - 0x1028)]
  else if i = 0x1200 || i = 0x4000 || i = 0x4A01 || i = 0x5C00 || i = 0x5C10 then List.range 8
  else if 0x2000 ≤ i && i < 0x2040 then groupsOf (m.owners (i % 32) ||| t.owners (i % 32))
  else if i = 0x2080 then
    groupsOf (((List.range 24).filter (fun n => m.get (Ob.mclkSrc n) = (k % 256 - 1) % 4)).foldl (fun a n => a ||| m.owners n) 0)
  else if 0x2500 ≤ i && i < 0x25A0 then m.ctxAffects (i - 0x2500)
  else if (0x3000 ≤ i && i < 0x3024) || (0x3400 ≤ i && i < 0x3404) || (0x3710 ≤ i && i < 0x3718) then [i % 4]
  else if 0x3500 ≤ i && i < 0x3504 then [4 + i % 4]
  else if 0x4010 ≤ i && i < 0x4018 then [i - 0x4010]
  else if 0x40A0 ≤ i && i < 0x40B0 then
    groupsOf (m.get (Ob.fltTarget (i - 0x40A0)) ||| t.get (Ob.fltTarget (i - 0x40A0)))
  else if 0x4420 ≤ i && i < 0x4430 then groupsOf (m.get (Ob.fltTarget (i - 0x4420)))
  else []

/-- The link channels of R285 and R308: ROLE 04h, or ROLE 05h where no channel of ROLE 04h shares an owner. -/
def Mod.isLinkChannel (m : Mod) (n : Nat) : Bool :=
  m.get (Ob.role n) = 4
  || (m.get (Ob.role n) = 5 && (List.range 24).all (fun k => m.get (Ob.role k) ≠ 4 || m.owners k &&& m.owners n = 0))

/-- The cases in which a write of MBX_GEN is refused (R65). -/
def Mod.genRefused (m : Mod) (snd : Sender) (n v : Nat) : Bool :=
  let busy := snd ≠ .mbx n && ((m.mbx.getD n {}).busy || !((m.mbx.getD n {}).chan.out.all (fun p => p.2.isSome)))
  (v = 1 && m.link.quadEn) || (v = 3 && !m.link.quadEn) || busy

/-- Whether the state of the module, a section or a group refuses a write. DEDUCED, log entries 31 and 33. -/
def Mod.writeStateBad (m t : Mod) (snd : Sender) (atBoundary : Bool) (k raw : Nat) : Bool :=
  let i := k / 256
  let j := k % 256
  m.sdc.lockout
  || (match rowOfKey k with | some r => r.acc = .rwr && (m.restUnits t k).any (fun g => !m.atRest g) | none => false)
  || (if 0x2040 ≤ i && i < 0x2058 then j = 4 && raw = 0 && t.get (Ob.role (i - 0x2040)) = 1
      else if 0x7000 ≤ i && i ≤ 0x7002 then !(m.traceSt = traceIdle || m.traceSt = traceDoneState)
      else if i = 0x2710 then m.inj.run
      else if 0x3000 ≤ i && i < 0x3004 && j = 1 then
        atBoundary && m.gf (i - 0x3000) ≠ gfRest && !m.mayTransfer (i - 0x3000) (raw = 2 && m.gf (i - 0x3000) = gfForming) true
      else if 0x4080 ≤ i && i < 0x4088 then t.get (Ob.grpSource (i - 0x4080)) ≠ 1
      else if 0x4090 ≤ i && i < 0x4098 then
        t.get (Ob.forceEn (i - 0x4090)) ≠ 0
          && ((m.grpAt (i - 0x4090)).latched || (i < 0x4094 && m.atRest (i - 0x4090) && !m.bothOpen))
      else if 0x4450 ≤ i && i < 0x4468 then !t.isLinkChannel (i - 0x4450)
      else if 0x5400 ≤ i && i < 0x5420 then m.fldRetired (i - 0x5400)
      else if 0x2500 ≤ i && i < 0x25A0 && j = 2 then
        if raw = 0 then m.isAdditional (i - 0x2500) && m.ctxBusy (i - 0x2500)
        else !m.isAdditional (i - 0x2500) && t.isCascade (i - 0x2500)
      else if i = 0x1100 then m.genRefused snd (j - 1) raw
      else if 0x5028 ≤ i && i < 0x502C then !m.time.stepped && (j = 2 || j = 3 || (j = 1 && raw ≠ 0))
      else if k = Ob.fwUpload then false
      else false)

/-! ### Range (check 9) -/

/-- The pairs of two groups in use share none, reach no further than pair 31, and the AC sections stand without a gap (R251). -/
def Mod.layoutOk (t : Mod) : Bool :=
  let used := t.groupsInUse.flatMap t.groupPairs
  used.all (· < 32) && used.length ≤ 32 && (List.range 32).all (fun p => (used.filter (· = p)).length ≤ 1)
  && t.secsInUse = List.range t.secsInUse.length

/-- Edges of one tick (R334). -/
def Mod.edgeCount (t : Mod) : Nat :=
  (t.groupsInUse.map (fun g => (t.groupPairs g).length * (if t.get Ob.updateMode = 1 then 2 else 4)
    * (if g < 4 then 1 else t.get (Ob.grpRatio g)))).foldl (· + ·) 0

/-- Half period of a group in ps. -/
def Mod.halfPs (t : Mod) (g : Nat) : Nat := t.get Ob.carrierCycles * 625 / (if g < 4 then 1 else max 1 (t.get (Ob.grpRatio g)))

/-- The largest programmed dead time of a group. -/
def Mod.maxDead (t : Mod) (g : Nat) : Nat :=
  (t.groupPairs g).foldl (fun a p => max a (max (t.get (Ob.dtOnA p)) (t.get (Ob.dtOnB p)))) 0

/-- R260 for one group. -/
def Mod.pulseBad (t : Mod) (g : Nat) : Bool := t.inUse g && t.halfPs g < 2 * (t.get (Ob.minPulse g) + t.maxDead g)

/-- SAFE_DT of a group against its dead times (R280, R491). DEDUCED, log entry 30. -/
def Mod.safeDtBad (t : Mod) (g : Nat) : Bool := t.inUse g && t.get (Ob.safeDt g) < t.maxDead g

/-- R87 for every enabled MCLK. -/
def Mod.mclkBad (t : Mod) : Bool :=
  (List.range 4).any (fun k => t.get (Ob.mclkFreq k) ≠ 255 && t.tickPs % mclkPs (t.get (Ob.mclkFreq k)) ≠ 0)

/-- Whether an entry belongs to the schedule, so that R78 is checked at its write. -/
def scheduleKey (k : Nat) : Bool :=
  let i := k / 256
  let j := k % 256
  k = Ob.carrierCycles || k = Ob.updateMode || (0x4010 ≤ i && i < 0x4018 && (j = 1 || j = 2))
  || (0x2500 ≤ i && i < 0x25A0 && j = 2)

/-- R78 on the trial: the engine and the cycles of a schedule that is refused. -/
def Mod.scheduleBad (t : Mod) (k : Nat) : Option (Nat × Nat) :=
  if scheduleKey k then t.placeContexts.refusedSchedule else none

/-- What the pulse pattern limits. DEDUCED, log entry 30; DESIGN CHOICE, log entry 96. -/
def Mod.pwmRangeBad (t : Mod) (k : Nat) : Bool :=
  let i := k / 256
  let j := k % 256
  let tick := k = Ob.carrierCycles || k = Ob.updateMode
  let pairs := 0x4010 ≤ i && i < 0x4018 && (j = 1 || j = 2)
  let ratio := 0x4014 ≤ i && i < 0x4018 && j = 3
  (tick && !t.tickLegal)
  || ((tick || (i = 0x2080 && 1 ≤ j && j ≤ 4)) && t.mclkBad)
  || ((tick || pairs || ratio) && t.tickPs < 200000 + t.edgeCount * 40000)
  || (k = Ob.carrierCycles || pairs || ratio) && t.groupsInUse.any t.pulseBad
  || (pairs && !t.layoutOk)
  || (0x4010 ≤ i && i < 0x4018 && j = 5 && t.pulseBad (i - 0x4010))
  || (0x4040 ≤ i && i < 0x4060 && (j = 1 || j = 2)
      && (match t.groupOfPair (i - 0x4040) with | some g => t.pulseBad g || t.safeDtBad g | none => false))
  || (0x4040 ≤ i && i < 0x4060 && j = 3
      && min (t.get (Ob.dtOnA (i - 0x4040))) (t.get (Ob.dtOnB (i - 0x4040))) < t.get k)
  || ((k = Ob.carrierCycles || ratio)
      && (List.range 4).any (fun c => t.get Ob.carrierCycles * 32 % max 1 (t.get (Ob.grpRatio (4 + c))) ≠ 0))
  || (0x4010 ≤ i && i < 0x4018 &&
      (let g := i - 0x4010
       (j = 1 && (if g < 4 then 4 else 3) < t.get k)
       || (j = 7 && 2 ^ (2 * (t.groupPairs g).length) ≤ t.get k && t.inUse g)
       || (j = 8 && t.safeDtBad g)
       || ((j = 9 || j = 10) && 4 ≤ g)))
  || (0x4090 ≤ i && i < 0x4098 &&
      (let g := i - 0x4090
       let n := pairsPerLeg g (t.layout g)
       t.threeLevel g && (List.range (legsOf g (t.layout g))).any (fun l =>
         let forced := (List.range n).filter (fun q => bit (t.get (Ob.forceEn g)) (l * n + q))
         forced.length ≠ 0 && forced.length ≠ n)))

/-- FOC_ALERT of a channel against its trip level and, for ROLE 01h, against I_MAX of its sections (R97, R247). -/
def Mod.alertBad (t : Mod) (n : Nat) : Bool :=
  t.get (Ob.role n) = 1 && (List.range 4).any (fun s => bit (t.owners n) s && t.getS (Ob.focAlert n) ≤ t.getS (Ob.iMax s))

/-- What the measurement chain limits (R89, R97, R99). -/
def Mod.measRangeBad (t : Mod) (k raw : Nat) (held : Bool) : Bool :=
  let i := k / 256
  let j := k % 256
  let isOver (n : Nat) : Bool := t.get (Ob.role n) ≠ 0 && (let b := t.chBase n; 0 < b && 4 * b < t.getF (Ob.fsPhys n))
  if 0x1020 ≤ i && i < 0x102C then (List.range 24).any isOver
  else if 0x2000 ≤ i && i < 0x2018 then
    let n := i - 0x2000
    (j = 6 && isOver n)
    || (j = 7 && raw ≠ 255 && (raw = n || t.get (Ob.role raw) ≠ t.get (Ob.role n) || t.owners raw ≠ t.owners n))
  else if 0x2020 ≤ i && i < 0x2038 then
    j = 7 && raw = 1 && t.get (Ob.role (i - 0x2020)) ≠ 1 && t.get (Ob.role (i - 0x2020)) ≠ 7
  else if 0x2040 ≤ i && i < 0x2058 then
    let n := i - 0x2040
    (j = 1 || j = 2) && !held && (t.getS (Ob.focTrip n) < t.getS (Ob.focAlert n) || (j = 2 && t.alertBad n))
  else if 0x3720 ≤ i && i < 0x3724 then
    (j = 1 && (List.range 24).any (fun n => bit (t.owners n) (i - 0x3720) && t.alertBad n))
    || (j = 2 && t.getS (Ob.iMax (i - 0x3720)) < t.getS k)
  else if 0x4450 ≤ i && i < 0x4468 then
    let n := i - 0x4450
    (j = 1 || j = 2 || j = 3) && !held
      && (t.getS (Ob.dclOvLevel n) < t.getS (Ob.dclUvLevel n) || t.getS (Ob.dclOvLevel n) < t.getS (Ob.dclWarnHigh n))
  else false

/-- What the engines, the trace and the injection limit (R122, R124, R127, R141, R142, R147). -/
def Mod.engRangeBad (t : Mod) (k raw : Nat) (held : Bool) : Bool :=
  let i := k / 256
  let j := k % 256
  if 0x2400 ≤ i && i < 0x24A0 then
    (!held && ((2 ≤ j && j ≤ 5) || j = 7 || j = 8) && (t.coef (i - 0x2400)).bad t.tickS)
    || (j = 13 && (t.getF k < 1 || 45 / 100 < t.getF k * t.tickS))
  else if 0x2500 ≤ i && i < 0x25A0 then 5 ≤ j && j ≤ 7 && !isSource raw
  else if i = 0x2710 then
    ((j = 5 || j = 6) && (t.getF k < 1 / 10 || 45 / 100 < t.getF k * t.tickS)) || ((j = 10 || j = 11) && !isNode raw)
  else if 0x3400 ≤ i && i < 0x3404 then j = 3 && 1 < t.getF k * t.tickS
  else if k = Ob.traceDepth then raw = 0 || t.showTraceSize.get Ob.maxDepth < raw
  else if k = Ob.tracePre then t.get Ob.traceDepth ≤ raw
  else if i = 0x7001 then !isNode raw
  else if i = 0x7002 then
    (j = 1 && 7 < raw) || (j = 2 && !isNode raw) || (j = 5 && t.getS Ob.levelHigh < t.getS Ob.trigLevel)
  else false

/-- What the sections, the DC channels and the ride-through limit. DEDUCED, log entry 29. -/
def Mod.unitRangeBad (t : Mod) (k raw : Nat) (held : Bool) : Bool :=
  let i := k / 256
  let j := k % 256
  if 0x3030 ≤ i && i < 0x3034 then (j = 4 || j = 6) && t.get (Ob.bsSlot (i - 0x3030)) ≤ t.get (Ob.bsJitter (i - 0x3030))
  else if 0x3050 ≤ i && i < 0x3054 then
    j = 6 && t.getF (Ob.scrStiff (i - 0x3050)) < t.getF (Ob.scrWeak (i - 0x3050)) + 1
  else if 0x3510 ≤ i && i < 0x3514 then j = 5 && t.getS (Ob.linkGuardHigh (i - 0x3510)) < t.getS k
  else if 0x3514 ≤ i && i < 0x3518 then j = 4 && t.getS (Ob.vChgMax (i - 0x3514)) < t.getS k
  else if 0x3520 ≤ i && i < 0x3524 then
    let c := i - 0x3520
    ((j = 3 || j = 4) && t.getS (Ob.stepMax c) < t.getS (Ob.stepMin c))
    || ((j = 8 || j = 9) && t.getS (Ob.vMppMax c) ≤ t.getS (Ob.vMppMin c))
  else if 0x3528 ≤ i && i < 0x352C then
    let c := i - 0x3528
    (j = 2 || j = 3) && (t.getS k < t.getS (Ob.vMppMin c) || t.getS (Ob.vMppMax c) < t.getS k
      || t.getS (Ob.scanVHigh c) ≤ t.getS (Ob.scanVLow c))
  else if 0x3710 ≤ i && i < 0x3714 then !held && j ≠ 2 && !curveOk true (t.lvPoints (i - 0x3710))
  else if 0x3714 ≤ i && i < 0x3718 then !held && j ≠ 2 && !curveOk false (t.hvPoints (i - 0x3714))
  else if 0x4420 ≤ i && i < 0x4430 then
    j = 1 && raw ≠ 255
      && !((groupsOf (t.get (Ob.fltTarget (i - 0x4420)))).any (fun g => (t.groupPairs g).contains raw))
  else false

/-- Whether a spread-spectrum setting is one of R442; depth 0 stands with the mode off. DEDUCED, log entry 31. -/
def spreadOk (mode depth : Nat) (centredMax : Nat) : Bool :=
  if mode = 0 then depth = 0 || (25 ≤ depth && depth ≤ 200 && depth % 25 = 0)
  else depth % 25 = 0 && 25 ≤ depth && depth ≤ (if mode = 1 then 200 else centredMax)

/-- What time, field, thermal management and clocks limit. DEDUCED, log entry 31. -/
def Mod.sideRangeBad (m t : Mod) (k raw : Nat) : Bool :=
  let i := k / 256
  let j := k % 256
  if k = Ob.ptpDomain then raw ≠ 0 && t.get Ob.ptpProfile = 2
  else if k = Ob.ptpTransport then raw = 0 && t.get Ob.ptpProfile ≠ 0
  else if 0x5028 ≤ i && i < 0x502C then
    let u := i - 0x5028
    if j = 2 then (raw : Int) < m.tai + 100000
    else if j = 3 then t32Diff raw m.t32 < 100000
    else if j = 4 || j = 5 then t.get (Ob.trigWidth u) < 10 || t.get (Ob.trigPeriod u) < t.get (Ob.trigWidth u) + 10
    else false
  else if 0x5800 ≤ i && i < 0x5808 then
    let n := i - 0x5800
    (j = 4 && bit raw n)
    || (j = 6 && raw ≠ 0 && Raw.signed 16 raw < t.getS16 (Ob.ntcDerate n) + 500)
    || (j = 1 && !t.slotsOk)
  else if i = 0x5842 then 2 ≤ j && j ≤ 5 && !((List.range 3).all (fun q => t.getS16 (Ob.cdT q) < t.getS16 (Ob.cdT (q + 1))))
  else if i = 0x5C10 then
    (j = 1 || j = 2) && !spreadOk (t.get Ob.ssModeSys) (t.get Ob.ssDepthSys) 50
    || (j = 3 || j = 4) && (2 ≤ t.get Ob.ssModeDram || !spreadOk (t.get Ob.ssModeDram) (t.get Ob.ssDepthDram) 0)
    || (j = 5 || j = 6) && !spreadOk (t.get Ob.ssModeRime) (t.get Ob.ssDepthRime) 200
  else if 0x5D00 ≤ i && i < 0x5D20 then !t.slotsOk
  else false

/-- Whether a value lies outside its Range or breaks a rule that is checked at the write. `held` says that the write
is one of an open group, for which some relations wait for the commit. DEDUCED, log entry 29. -/
def Mod.writeRangeBad (m t : Mod) (held : Bool) (r : ObjRow) (k raw : Nat) : Bool :=
  !r.range.admits r.ty raw
  || (r.prof && !Sys2Proof.Machine.profileAdmits (m.get Ob.profileActive) k r.ty raw)
  || t.pwmRangeBad k || t.measRangeBad k raw held || t.engRangeBad k raw held || t.unitRangeBad k raw held
  || m.sideRangeBad t k raw

/-! ### Forbidden switching states (check 10) -/

/-- Whether the A outputs of a three-level leg form a state of R261. -/
def legStateOk (layout : Nat) (a : List Bool) : Bool :=
  if layout = 4 then a = [true, true, false] || a = [false, true, false] || a = [false, false, false] || a = [false, false, true]
  else a = [true, true] || a = [false, true] || a = [false, false]

/-- Whether a leg's A and B levels are a state with complementary outputs, or all off. -/
def legLevelsOk (layout : Nat) (a b : List Bool) : Bool :=
  (a.all (!·) && b.all (!·)) || (b = a.map (!·) && legStateOk layout a)

/-- Whether the A outputs of a leg are O, O+ or O− (R272). -/
def legSafeState (layout : Nat) (a : List Bool) : Bool :=
  if layout = 4 then a = [false, true, false] || a = [false, false, false] else a = [false, true]

/-- Whether the safe pattern of a group is forbidden (R272). DEDUCED, log entry 30. -/
def Mod.safePatternBad (t : Mod) (g : Nat) : Bool :=
  let v := t.get (Ob.safePattern g)
  let n := pairsPerLeg g (t.layout g)
  if t.threeLevel g then
    (List.range 3).any (fun l =>
      let a := (List.range n).map (fun q => bit v (2 * (l * n + q)))
      let b := (List.range n).map (fun q => bit v (2 * (l * n + q) + 1))
      !((a.all (!·) && b.all (!·)) || (b = a.map (!·) && legSafeState (t.layout g) a)))
  else (List.range 16).any (fun p => bit v (2 * p) && bit v (2 * p + 1))

/-- A compare value in the order of R262. -/
def cmpOrder (hp c : Nat) : Nat := if hp ≤ c then 0xFFFFFFFF else c

/-- Whether the host's compare values of a group are forbidden (R262). -/
def Mod.comparesBad (t : Mod) (g : Nat) : Bool :=
  let hp := t.halfPeriod g
  let n := pairsPerLeg g (t.layout g)
  t.threeLevel g && (List.range 3).any (fun l =>
    let c (q : Nat) := cmpOrder hp (t.get (Ob.cmp g (l * n + q)))
    c 1 < c 0 || (t.layout g = 4 && c 1 ≠ 0 && c 2 ≠ 0))

/-- Whether the forced levels of a group are forbidden (R269). DEDUCED, log entry 30. -/
def Mod.forceBad (t : Mod) (g : Nat) : Bool :=
  let en := t.get (Ob.forceEn g)
  let a := t.get (Ob.forceA g)
  let b := t.get (Ob.forceB g)
  let n := pairsPerLeg g (t.layout g)
  (List.range (t.groupPairs g).length).any (fun p => bit en p && bit a p && bit b p)
  || (t.threeLevel g && (List.range 3).any (fun l =>
      (List.range n).all (fun q => bit en (l * n + q))
      && !legLevelsOk (t.layout g) ((List.range n).map (fun q => bit a (l * n + q))) ((List.range n).map (fun q => bit b (l * n + q)))))

/-- Whether a write would produce a forbidden switching state: the group, with EV049. Compare values of an open group
are judged at its commit. -/
def Mod.writeForbidden (t : Mod) (held : Bool) (k : Nat) : Option Nat :=
  let i := k / 256
  if 0x4010 ≤ i && i < 0x4018 && k % 256 = 7 && t.safePatternBad (i - 0x4010) then some (i - 0x4010)
  else if 0x4080 ≤ i && i < 0x4088 && !held && t.comparesBad (i - 0x4080) then some (i - 0x4080)
  else if 0x4090 ≤ i && i < 0x4098 && t.forceBad (i - 0x4090) then some (i - 0x4090)
  else none

/-! ### One write, and the writes of a group -/

/-- The first status of checks 6 to 10 that refuses a write. -/
def Mod.writeStatus (m t : Mod) (snd : Sender) (held atBoundary : Bool) (w : Nat × List Byte) : Option Nat :=
  let k := w.1
  let raw := leNat w.2
  match rowOfKey k with
  | none   => some 0x10
  | some r =>
    if ((Ob.mbxGen 0 ≤ k && k ≤ Ob.mbxGen 3 && raw = 1) || (k = Ob.devBootEn && raw = 1)) && m.get Ob.certifiedMode = 1 then some 0x14
    else if r.prof && profileFixed (m.get Ob.profileActive) k then some 0x13
    else if m.writeStateBad t snd atBoundary k raw then some 0x12
    else if k = Ob.fwUpload then
      (match (m.fwUpload (leNat (w.2.take 4)) (w.2.drop 4)).2.1 with | 0 => none | st => some st)
    else if m.writeRangeBad t held r k raw || (t.scheduleBad k).isSome then some 0x11
    else if (t.writeForbidden held k).isSome then some 0x15
    else none

/-- The event that a refused write raises: EV018 for the schedule (R78), EV049 for a forbidden state (R283). -/
def Mod.writeRefusedEvent (t : Mod) (snd : Sender) (held atBoundary : Bool) (seq : Nat) (w : Nat × List Byte) (m : Mod) : Mod :=
  match m.writeStatus t snd held atBoundary w, rowOfKey w.1 with
  | some 0x11, some _ =>
    (match t.scheduleBad w.1 with | some (e, c) => m.raise 18 sevInfo 0x1203 (e * 16777216 + c % 16777216) | none => m)
  | some 0x15, some _ =>
    (match t.writeForbidden held w.1 with | some g => m.raise 49 sevWarn 0x4002 (seq + 65536 * g) | none => m)
  | _, _ => m

/-- The first write of a list that is refused, with its position. An upload is judged after the chunks before it. -/
def Mod.writesStatus (m t : Mod) (snd : Sender) (held atBoundary : Bool) : Nat → List (Nat × List Byte) → Option (Nat × Nat)
  | _, []        => none
  | p, w :: rest =>
    match m.writeStatus t snd held atBoundary w with
    | some st => some (st, p)
    | none    => Mod.writesStatus (if w.1 = Ob.fwUpload then m.lay w else m) t snd held atBoundary (p + 1) rest

end Sys2Proof.Machine
end

