-- ==== Sys2Proof/Machine/Apply.lean ====
section
/-!
DEFINITION. What an accepted write does at its boundary (R12, R30, R130, R405 and the rules of the chapters that own the
entries): the value in force and in flash, and what follows from it. What several writes of one boundary do together,
the swaps of the banks (R130), the transfers (R175) and the output words (R405), comes after all of them.
-/
namespace Sys2Proof.Machine

/-! ### One value -/

/-- A value put where its row says (R12, R17): in flash alone for "power cycle", in force and in flash where it is
stored, otherwise in force. A managed entry takes its adjustment (R490), and a dead time
its effective value (R278). A record written again is no longer lost (R314). -/
def Mod.place (r : ObjRow) (k raw : Nat) (m : Mod) : Mod :=
  let v := if (0x40A0 ≤ k / 256 && k / 256 < 0x40B0 || 0x4420 ≤ k / 256 && k / 256 < 0x4430) && k % 256 = 2 then (raw + 9) / 10 * 10 else raw
  let m0 : Mod := { m with lost := m.lost.filter (· ≠ k) }
  if r.eff = .powerCycle then m0.keepOnly k v
  else if (m0.managed k v).isSome then
    let m1 := m0.keepOnly k v
    if 0x4040 ≤ k / 256 && k / 256 < 0x4060 then
      let m2 := m1.moveDead (k / 256 - 0x4040) (k % 256 = 2)
      m2.put (k + 6) (m2.get k)
    else m1.manage k
  else if r.stored then m0.keep k v
  else m0.put k v

/-! ### What follows from a value -/

/-- Writes of the tick, the carrier and the groups: placement, status objects and leg maps (R76, R84, R122, R251, R265). -/
def Mod.scheduleWritten (m : Mod) : Mod := (m.placeContexts.showSchedule.showIdOrder.showAvail).each (List.range 8) Mod.showOut

/-- ENABLE of a context has been written (R126, R136). DEDUCED, log entry 33. -/
def Mod.enableWritten (n raw : Nat) (m : Mod) : Mod :=
  let m1 := if raw = 1 then (if (m.ctxAt n).on then m else m.enableCtx n) else m.disableCtx n
  m1.placeContexts.showSchedule

/-- What follows from a write in the index range 1000h to 2FFFh. -/
def Mod.lowWritten (k raw : Nat) (m : Mod) : Mod :=
  let i := k / 256
  let j := k % 256
  if i = 0x1100 then { m with mbx := m.mbx.modify (j - 1) (fun x => { x with nextGen := some raw }) }
  else if i = 0x1200 then m.scheduleWritten
  else if 0x2000 ≤ i && i < 0x2018 then
    (if j = 4 || j = 5 || j = 1 then m.resettle (i - 0x2000) else m).showChannels
  else if i = 0x2080 && 1 ≤ j && j ≤ 4 then (m.mclkChanged (j - 1)).showChannels
  else if 0x2400 ≤ i && i < 0x24A0 then
    { m with hostSet := if m.hostSet.contains k then m.hostSet else m.hostSet ++ [k] }
  else if 0x2500 ≤ i && i < 0x25A0 && j = 2 then m.enableWritten (i - 0x2500) raw
  else m

/-- What follows from a write in the index range 3000h to 4FFFh. -/
def Mod.powerWritten (k : Nat) (m : Mod) : Mod :=
  let i := k / 256
  let j := k % 256
  if 0x1020 ≤ i && i < 0x1024 && j = 3 then m.showIdOrder
  else if 0x3514 ≤ i && i < 0x3518 && 1 ≤ j && j ≤ 4 then m.limitsFresh (i - 0x3514)
  else if 0x3514 ≤ i && i < 0x3518 && j = 5 then m.timeoutWritten (i - 0x3514)
  else if i = 0x4000 then m.scheduleWritten
  else if 0x4010 ≤ i && i < 0x4018 && (j = 1 || j = 2) then m.scheduleWritten
  else if 0x4040 ≤ i && i < 0x4060 && j = 4 then
    m.put (Ob.comfbState (i - 0x4040)) (if m.get k = 0 then 2 else if (m.pairAt (i - 0x4040)).paused then 1 else 0)
  else if 0x4090 ≤ i && i < 0x4098 && j = 1 then m.showOut (i - 0x4090)
  else m

/-- What follows from a write in the index range 5000h to 7FFFh. -/
def Mod.highWritten (k : Nat) (m : Mod) : Mod :=
  let i := k / 256
  let j := k % 256
  if k = Ob.timeSource || k = Ob.ptpProfile || k = Ob.ptpDomain || k = Ob.ptpRole then m.sourceChanged
  else if 0x5028 ≤ i && i < 0x502C && j ≠ 5 && j ≠ 7 then m.trigWritten (i - 0x5028)
  else if 0x5400 ≤ i && i < 0x5420 then
    if j = 1 || ((j = 2 || j = 3) && m.get (Ob.fioMode (i - 0x5400)) = 1) then m.fieldConfigured (i - 0x5400)
    else if j = 5 then m.driveOutput (i - 0x5400)
    else m
  else if 0x5800 ≤ i && i < 0x5808 && j = 1 then
    let n := i - 0x5800
    (m.put (Ob.sensorState n) (if m.get k = 0 then 4 else if m.sensorSt n = 4 then 0 else m.sensorSt n)).showSlots
  else if i = 0x5840 || i = 0x5841 then m.cdShow
  else if k = Ob.ditherSeed then m.loadDither
  else if 0x5D00 ≤ i && i < 0x5D20 then m.showSlots
  else if k = Ob.planFreeze then m.freezeWritten
  else if i = 0x7000 then m.showTraceSize
  else m

/-- The effect of one accepted write of a sender, that of several together left aside. -/
def Mod.applyWrite (snd : Sender) (w : Nat × List Byte) (m : Mod) : Mod :=
  let k := w.1
  let raw := leNat w.2
  if k = Ob.fwUpload then (m.fwUpload (leNat (w.2.take 4)) (w.2.drop 4)).1
  else match (List.range 4).find? (fun u => Ob.trigStart32 u = k) with
    | some u => (m.put (Ob.trigStart u) (nearest32 m.t64 raw)).trigWritten u
    | none =>
      match rowOfKey k with
      | none   => m
      | some r =>
        if r.perCon then m.modQueue snd (fun q => { q with masks := q.masks.set (k % 256 - 1) raw })
        else if r.acc = .wo || k = Ob.fieldOut then m
        else
          let m1 := m.place r k raw
          if k / 256 < 0x3000 then (m1.lowWritten k raw).powerWritten k
          else if k / 256 < 0x5000 then m1.powerWritten k
          else m1.highWritten k

/-! ### What several writes do together -/

/-- The contexts whose coefficients are among some keys. -/
def ctxsOf (ks : List Nat) : List Nat :=
  (List.range 160).filter (fun n => ks.any (fun k => k / 256 = 0x2400 + n))

/-- The swaps of a boundary (R130, R194): every context written for it, from the coefficients before it. A context that
does not run on these coefficients only changes its bank. -/
def Mod.swapBanks (before : Mod) (ks : List Nat) (m : Mod) : Mod :=
  let m1 := m.each (ctxsOf ks) (fun n m =>
    if (m.ctxAt n).on && !(96 > n && n % 24 = 12 && (m.secAt (n / 24)).follow) then
      (m.swapTo (before.coef n) (m.coef n) n).injSwapped n
    else m.modCtx n (fun x => { x with bank := !x.bank }))
  m1.each ((List.range 4).filter (fun s => (ks.contains (Ob.pllKp s) || ks.contains (Ob.pllKi s)) && m1.gf s = gfFollowing))
    (fun s m =>
      let m2 := m.takePll s
      (m2.swapTo (m.pllCoef s) (m2.pllCoef s) (24 * s + 12)).injSwapped (24 * s + 12))

/-- The contexts enabled, and the notches that begin to track, at a boundary (R124, R126): from the values of all writes.
DEDUCED, log entry 33. -/
def Mod.startsOf (before : Mod) (ks : List Nat) (m : Mod) : Mod :=
  (m.each ((List.range 160).filter (fun n => ks.contains (Ob.ctxEnable n) && m.isAdditional n && !(before.ctxAt n).on))
    Mod.enableCtx).each ((List.range 160).filter (fun n => ks.contains (Ob.notchTrack n)))
    (fun n m => m.modCtx n (fun x => { x with centre := m.trackStart n, next := none }))

/-- The transfers of a boundary: a write of OP_MODE to a section that runs (R175 to R177). DEDUCED, log entry 32. -/
def Mod.transfers (ks : List Nat) (m : Mod) : Mod :=
  m.each ((List.range 4).filter (fun s => ks.contains (Ob.opMode s))) (fun s m => m.transferTo s (m.get (Ob.opMode s)))

/-- The last value written to a key. -/
def lastTo (k : Nat) (ws : List (Nat × List Byte)) : Option Nat := (ws.reverse.find? (fun w => w.1 = k)).map (fun w => leNat w.2)

/-- The output words of a boundary (R405). -/
def Mod.outputWords (ws : List (Nat × List Byte)) (m : Mod) : Mod :=
  let a := lastTo Ob.fieldOut ws
  let b := lastTo Ob.fieldOutSet ws
  let c := lastTo Ob.fieldOutClear ws
  if a.isNone && b.isNone && c.isNone then m else m.fieldCommand a b c

/-- What all writes of a boundary do together, `before` the state they met. -/
def Mod.writtenTogether (before : Mod) (ws : List (Nat × List Byte)) (m : Mod) : Mod :=
  let ks := ws.map (·.1)
  (Mod.startsOf before ks (Mod.swapBanks before ks (m.transfers ks))).outputWords ws

/-- Whether a write belongs to the network configuration, whose change closes every session after the response (R388). -/
def netKey (k : Nat) : Bool := k / 256 = 0x5180 && 2 ≤ k % 256 && k % 256 ≤ 8

end Sys2Proof.Machine
end

