-- ==== Sys2Proof/Machine/Reads.lean ====
section
/-!
DEFINITION. The value that a READ returns (R48, R52): the value in force, and for entries that follow time, a consumer
or a unit's inner state what they say at the response.
-/
namespace Sys2Proof.Machine

/-- ms from now to an instant, between two whole numbers either of them (no rule of rounding is stated); 0 where it has
passed. DEDUCED, log entry 90. -/
def Mod.msUntil (m : Mod) (ps : Nat) : Nat := (wholeNear (((ps - m.now : Nat) : Rat) / 1000000000)).toNat

/-- The unit status objects (R307): 4410h + g, 4430h + n and 4470h + f. -/
def isStatusObj (i : Nat) : Bool :=
  (0x4410 ≤ i && i < 0x4418) || (0x4430 ≤ i && i < 0x4448) || (0x4470 ≤ i && i < 0x4490)

/-- Class and unit of a status object of 4410h (R308). -/
def statusUnit (ix : Nat) : Nat × Nat := if ix < 0x20 then (1, ix) else if ix < 0x60 then (2, ix - 0x20) else (3, ix - 0x60)

/-- RECOVERY_LEFT of an instance (R308). -/
def Mod.recoveryLeft (m : Mod) (cls unit : Nat) : Nat :=
  match (m.inst cls unit).recov with
  | none   => 0
  | some r => m.msUntil (if r.awaiting then r.retryPs else r.endPs)

/-- Whether an input is valid (R402). DEDUCED, log entry 65. -/
def Mod.inputValid (m : Mod) (n : Nat) : Bool :=
  m.get (Ob.fioMode n) = 1 && m.inputLive n && m.get (Ob.filterN n) ≤ (m.fldAt n).since

/-- A word of one bit per field channel. -/
def word32 (f : Nat → Bool) : Nat := (List.range 32).foldl (fun a n => if f n then a + 2 ^ n else a) 0

/-- What an object of ride-through and current limiting shows (R248). -/
def Mod.readRide (m : Mod) (s sub : Nat) : Option Nat :=
  let v := m.vsmAt s
  if sub = 7 && riding (m.rt s) then some (Raw.ofInt 32 (q29OfLsb (m.curveNow s (m.rt s = rtHvrt))))
  else if sub = 8 then some (satAt 255 (m.rtEvents s))
  else if sub = 9 then some (b2n (v.limited && m.pwmOn s) + 2 * b2n (m.grpAt s).clampOn + 4 * b2n (0 < v.viAdd))
  else if sub = 10 then some (f32Raw (pu v.viAdd))
  else if sub = 12 then some (satAt 255 (m.losEvents s))
  else none

/-- What a section's state object shows beside the value in force (R189). DEDUCED, log entry 90. -/
def Mod.readSection (m : Mod) (s sub : Nat) : Option Nat :=
  if sub = 6 then some (f32Raw (m.xvEff s))
  else if sub = 7 then some (f32Raw (m.dampEffOf s))
  else if sub = 8 then some (
    match (m.secAt s).delayPs with
    | some p => (m.msUntil (p + m.enterServicePs s) + 999) / 1000
    | none   => if m.gf s = gfDelay then (m.enterServicePs s / 1000000000 + 999) / 1000 else 0)
  else none

/-- An entry that a consumer reads as its own (R58, R65). -/
def Mod.readConsumer (m : Mod) (snd : Sender) (k : Nat) : Nat :=
  let q := m.queueOf snd
  if k = Ob.evqFill then q.entries.length
  else if k = Ob.evqLost then q.lost
  else q.masks.getD (k % 256 - 1) 0

/-- The overruns of a lane in the window of ticks that ends with the present one (R82). -/
def Mod.overrunTicks (m : Mod) (l : Nat) : List Nat := (m.inst 4 l).times.filter (fun t => m.clk.tick < t + m.get (Ob.faultW 3))

/-- An entry that is no stored value but what the module finds at the response. -/
def Mod.readLive (kp : Kept) (m : Mod) (k : Nat) : Option Nat :=
  let i := k / 256
  let j := k % 256
  if j = 0 then none
  else if k = Ob.serialNumber then some (Config.serialNumber % 18446744073709551616)
  else if k = Ob.macAddr then some (Config.macAddr % 281474976710656)
  else if i = 0x5012 then some (Config.portLatency (j - 1) % 4294967296)
  else if k = Ob.taiNow then some m.t64
  else if k = Ob.holdoverTime then some m.holdoverSecs
  else if k = Ob.graceLeft then some m.graceLeft
  else if 0x2500 ≤ i && i < 0x25A0 && j = 1 then some (m.kindOf (i - 0x2500))
  else if 0x2500 ≤ i && i < 0x25A0 && j = 3 then some (m.engineOf (i - 0x2500))
  else if 0x2600 ≤ i && i < 0x26A0 then m.ctxShown (i - 0x2600) j
  else if 0x3060 ≤ i && i < 0x3064 then m.readSection (i - 0x3060) j
  else if 0x3740 ≤ i && i < 0x3744 then m.readRide (i - 0x3740) j
  else if 0x40C0 ≤ i && i < 0x40C8 && j = 3 then some (m.tripActive (i - 0x40C0))
  else if isStatusObj i && j = 2 then
    let u := statusUnit (i - 0x4410)
    some (satAt 255 (m.inWindow u.1 u.2 m.now))
  else if isStatusObj i && j = 4 then
    let u := statusUnit (i - 0x4410)
    some (m.recoveryLeft u.1 u.2)
  else if 0x4810 ≤ i && i < 0x4812 && j = 8 then some (satAt 255 (m.resyncsIn24h (i - 0x4810)))
  else if k = Ob.sealA then some kp.sealA
  else if k = Ob.sealB then some kp.sealB
  else if k = Ob.sealState then some kp.sealState
  else if k = Ob.fieldIn then some (word32 (fun n => m.inputValid n && (m.fldAt n).out))
  else if k = Ob.fieldInValid then some (word32 m.inputValid)
  else if k = Ob.overrunInWindow then some (satAt 255 (m.overrunTicks m.lane).length)
  else if k = Ob.cdRetries then some (satAt 255 m.cdRecent.length)
  else if 0x6040 ≤ i && i < 0x6060 && (j = 3 || j = 4) then
    some (m.baseOf (if j = 3 then Ob.dtOnA (i - 0x6040) else Ob.dtOnB (i - 0x6040)))
  else if 0x6460 ≤ i && i < 0x64A0 && j = 1 then some (kp.rollback.getD (i - 0x6460) 0)
  else none

/-- The raw value of an entry at the response to a sender. -/
def Mod.readRaw (kp : Kept) (m : Mod) (snd : Sender) (r : ObjRow) (k : Nat) : Nat :=
  if r.perCon then m.readConsumer snd k else (m.readLive kp k).getD (m.get k)

/-- READ (R40, R48): the value, BAD_OBJECT where no entry stands, BAD_STATE for an entry that is not read.
DEDUCED, log entry 14. -/
def Mod.readEntry (kp : Kept) (m : Mod) (snd : Sender) (limit idx sub : Nat) : Nat × List Byte :=
  match rowOf idx sub with
  | none   => (0x10, [])
  | some r =>
    if r.acc = .wo || r.acc = .act || r.acc = .src then (0x12, [])
    else if limit < r.ty.size then (0x12, [])
    else (0, leBytes r.ty.size (m.readRaw kp snd r (idx * 256 + sub)))

end Sys2Proof.Machine
end

