-- ==== Sys2Proof/Machine/Actions.lean ====
section
/-!
DEFINITION. The ACTION objects (R48, R515): the arguments of each, the check of their length and range, the actions
that take effect at acceptance or at the next boundary, and the unit actions, which act at their boundary.
-/
namespace Sys2Proof.Machine

/-! ### Arguments -/

/-- Argument byte `i`. -/
def argAt (a : List Byte) (i : Nat) : Nat := (a.getD i 0).toNat

/-- Sections and channels of the indexed command objects. -/
def inBlock (base n idx : Nat) : Bool := base ≤ idx && idx < base + n

/-- Whether an index names a unit action of R515. -/
def isUnitAction (idx : Nat) : Bool :=
  inBlock 0x3004 4 idx || inBlock 0x3504 4 idx || idx = 0x40F0 || idx = 0x40F1 || idx = 0x44B0

/-- Bytes of arguments that an ACTION takes; none where its own rule judges them. -/
def argBytes (idx : Nat) : Option Nat :=
  if idx = 0x2100 || idx = 0x5003 then some 8
  else if idx = 0x44B0 then some 3
  else if idx = 0x40F1 || idx = 0x6004 then some 2
  else if idx = 0x2701 || idx = 0x2711 || inBlock 0x3004 4 idx || inBlock 0x3504 4 idx || idx = 0x40F0
      || idx = 0x5041 || idx = 0x5838 || idx = 0x5DC0 || idx = 0x6454 then some 1
  else if idx = 0x6403 || idx = 0x6404 || idx = 0x6405 || idx = 0x6420 || idx = 0x6421 || idx = 0x6471 then none
  else some 0

/-- Whether the arguments of a unit action lie in their range. -/
def unitArgsOk (idx : Nat) (a : List Nat) : Bool :=
  let x := a.getD 0 0
  let y := a.getD 1 0
  let z := a.getD 2 0
  if idx = 0x40F0 then true
  else if idx = 0x40F1 then x < 8 && y ≤ 1
  else if idx = 0x44B0 then x ≤ 1 && y ≤ 2 && z < (if y = 0 then 8 else if y = 1 then 24 else 32)
  else x ≤ 1

/-! ### Actions that take effect when they are accepted, or at the next boundary -/

/-- A status of an operation that gives no data. -/
def answerOf (r : Mod × Nat) : Answer := (r.1, r.2, [])

/-- Stage an act for the next boundary; with no tick to wait for, it waits for the first. -/
def Mod.actLater (a : BoundaryAct) (m : Mod) : Answer := okay { m with acts := m.acts ++ [a] }

/-- CAL_RUN (R100, R101). DEDUCED, log entry 43. -/
def Mod.calRun (seq : Nat) (a : List Byte) (m : Mod) : Answer :=
  let n := argAt a 0
  let pt := argAt a 1
  let ref := leNat ((a.drop 2).take 4)
  let blocks := leNat (a.drop 6)
  if 24 ≤ n || 4 < pt then refuse 0x11 m
  else if pt = 3 then answerOf (m.calApply n)
  else if pt = 4 then answerOf (m.calAbort n)
  else if m.calRefused n false then refuse 0x12 m
  else if blocks < 10 || 1000 < blocks || (pt ≠ 0 && (f32Val ref).isNone) then refuse 0x11 m
  else answerOf (m.calPoint pt n ref seq blocks)

/-- CTX_RESET (R139): an additional context that no running section reads. -/
def Mod.ctxResetRun (n : Nat) (m : Mod) : Answer :=
  if 160 ≤ n then refuse 0x11 m
  else if m.inCascade n || (m.isAdditional n && m.ctxBusy n) then refuse 0x12 m
  else m.actLater (.ctxReset n)

/-- INJ_RUN (R147, R149, R150). -/
def Mod.injRun (seq op : Nat) (m : Mod) : Answer :=
  if op = 0 then (match m.injRefusal with | some st => refuse st m | none => queued (m.injStart seq))
  else if op = 1 then okay (if m.inj.run then m.injAbort else m)
  else refuse 0x11 m

/-- TRACE_ARM is refused outside IDLE and DONE (R143). -/
def Mod.traceArmRun (m : Mod) : Answer :=
  if m.traceSt = traceIdle || m.traceSt = traceDoneState then okay m.traceArm else refuse 0x12 m

/-- TICK_STATS_CLEAR (R84). -/
def Mod.tickStatsClear (m : Mod) : Mod := (m.put Ob.eng0Peak 0).put Ob.eng1Peak 0

/-- The operation of an accepted ACTION that is no unit action. -/
def Mod.actionOf (kp : Kept) (snd : Sender) (slot seq idx sub : Nat) (a : List Byte) (m : Mod) : Answer :=
  if idx = 0x1205 then okay m.tickStatsClear
  else if idx = 0x2100 then m.calRun seq a
  else if idx = 0x2701 then m.ctxResetRun (argAt a 0)
  else if idx = 0x2711 then m.injRun seq (argAt a 0)
  else if inBlock 0x3058 4 idx then answerOf (m.idRunOp (idx - 0x3058) seq)
  else if inBlock 0x352C 4 idx then answerOf (m.scanRunOp (idx - 0x352C))
  else if idx = 0x4630 then okay m.integrityClear
  else if idx = 0x4801 then (if m.switchRefused then refuse 0x12 m else m.actLater .laneSwitchover)
  else if idx = 0x4802 then answerOf (m.laneResync seq)
  else if idx = 0x4A20 then answerOf m.sdcClear
  else if idx = 0x5003 then answerOf (m.timeSet (leNat a))
  else if idx = 0x5004 then okay m.reacquire
  else if idx = 0x5041 then (if 64 ≤ argAt a 0 then refuse 0x11 m else answerOf (m.schedCancel snd (argAt a 0)))
  else if idx = 0x5838 then answerOf (m.sensorRestore (argAt a 0))
  else if idx = 0x5858 then okay m.cdFaultClear
  else if idx = 0x5DC0 then answerOf (m.hkUrgent seq (argAt a 0))
  else if idx = 0x6002 then okay (m.planCompute true)
  else if idx = 0x6004 then
    (match m.rebaseRefusal (argAt a 0) (argAt a 1) with
     | some st => refuse st m
     | none    => m.actLater (.ageingRebase (argAt a 0) (argAt a 1)))
  else if idx = 0x6403 then m.certInstall a
  else if idx = 0x6404 then m.trustAnchor (sub - 1) a
  else if idx = 0x6405 then (if a.length < 4 then refuse 0x11 m else m.crlInstall (leNat (a.take 4)) (a.drop 4))
  else if idx = 0x6420 then m.keyInstall a
  else if idx = 0x6421 then m.sessionOpen snd slot a
  else if idx = 0x6451 then m.fwStage seq
  else if idx = 0x6452 then m.fwActivate
  else if idx = 0x6453 then m.fwCommit kp
  else if idx = 0x6454 then m.certModeSet (argAt a 0)
  else if idx = 0x6470 then m.debugUnlock
  else if idx = 0x6471 then m.debugResponse a
  else if idx = 0x7004 then m.traceArmRun
  else if idx = 0x7005 then okay m.traceStop
  else if idx = 0x7006 then m.actLater .traceForce
  else refuse 0x10 m

/-- Whether an index with sub-index names an ACTION object. -/
def isAction (idx sub : Nat) : Bool := match rowOf idx sub with | some r => r.acc = .act | none => false

/-- An ACTION that is no unit action, its role passed: lockout (R361), the length of its arguments, its operation. -/
def Mod.runAction (kp : Kept) (snd : Sender) (slot seq idx sub : Nat) (a : List Byte) (m : Mod) : Answer :=
  if m.get Ob.certifiedMode = 1 && (idx = 0x6470 || idx = 0x6471) then refuse 0x14 m
  else if m.sdc.lockout then refuse 0x12 m
  else if argBytes idx ≠ none && argBytes idx ≠ some a.length then refuse 0x11 m
  else m.actionOf kp snd slot seq idx sub a

/-- Why a unit action is refused when it arrives; its state is judged at its boundary. DEDUCED, log entry 42. -/
def Mod.unitRefusal (m : Mod) (idx : Nat) (a : List Byte) : Option Nat :=
  if m.sdc.lockout then some 0x12
  else if argBytes idx ≠ some a.length || !unitArgsOk idx (a.map (·.toNat)) then some 0x11
  else none

/-! ### Unit actions at their boundary (R515) -/

/-- The groups that a unit action claims (R57): the sections and channels on which it acts. -/
def unitClaims (idx : Nat) (a : List Nat) : List Nat :=
  if inBlock 0x3004 4 idx then [idx - 0x3004]
  else if inBlock 0x3504 4 idx then [4 + (idx - 0x3504)]
  else if idx = 0x40F0 then bitsOf 8 (a.getD 0 0)
  else if idx = 0x40F1 then [a.getD 0 0]
  else if a.getD 1 0 = 0 then [a.getD 2 0]
  else []

/-- PWM_TRIP_CLEAR (R275, R299): of a host, no group that a fault holds and none that is retired. DEDUCED, log entry 42. -/
def Mod.tripClear (byHost : Bool) (mask : Nat) (m : Mod) : Mod × Nat :=
  let gs := bitsOf 8 mask
  if m.prot.safeStop || (byHost && gs.any (fun g => m.held g || m.retired 1 g)) then (m, 0x12)
  else if gs.any (fun g => m.tripActive g ≠ 0) then (m, 0x16)
  else (m.each gs Mod.clearGroup, 0)

/-- PWM_DIRECT (R257, R516). -/
def Mod.pwmDirect (g op : Nat) (m : Mod) : Mod × Nat :=
  if op = 1 then (m.directStop g, 0)
  else if m.inUse g && m.atRest g && m.get (Ob.grpSource g) = 1 && !(m.grpAt g).latched && !m.retired 1 g
      && (4 ≤ g || m.bothOpen) then (m.directStart g, 0)
  else (m, 0x12)

/-- RETIREMENT (R301); `pend` are the assertions of the tick that ends (R305). -/
def Mod.retirement (pend : List Assertion) (op kind unit : Nat) (m : Mod) : Mod × Nat :=
  if op = 0 then m.retireOp (kind + 1) unit
  else m.reinstateOp (kind + 1) unit (pend.any (fun x => x.cls = kind + 1 && x.units.contains unit))

/-- A unit action takes effect. -/
def Mod.unitAct (pend : List Assertion) (snd : Sender) (seq idx : Nat) (a : List Nat) (m : Mod) : Mod × Nat :=
  if m.sdc.lockout then (m, 0x12)
  else if inBlock 0x3004 4 idx then
    (if a.getD 0 0 = 0 then m.gfStart (idx - 0x3004) seq else (m.gfStop (idx - 0x3004), 0))
  else if inBlock 0x3504 4 idx then
    (if a.getD 0 0 = 0 then m.dcStart (idx - 0x3504) seq else (m.dcStop (idx - 0x3504), 0))
  else if idx = 0x40F0 then m.tripClear (snd ≠ .localSafety) (a.getD 0 0)
  else if idx = 0x40F1 then m.pwmDirect (a.getD 0 0) (a.getD 1 0)
  else m.retirement pend (a.getD 0 0) (a.getD 1 0) (a.getD 2 0)

end Sys2Proof.Machine
end

