-- ==== Sys2Proof/Machine/Frames.lean ====
section
/-!
DEFINITION. Command frames from their bytes (R40, R46, R47), the delivery of
responses in the order of their commands (R42, R44), and the generation that a mailbox takes when it holds none (R65).
-/
namespace Sys2Proof.Machine

/-- A command frame whose bytes have come in: its header, opcode, index, sub-index and data. -/
structure Frame where
  h    : Hdr
  op   : Nat
  idx  : Nat
  sub  : Nat
  data : List Byte

/-! ### Command frames from bytes -/

/-- The number at byte `i` over `n` bytes. DESIGN CHOICE, log entry 89. -/
def fieldAt (b : List Byte) (i n : Nat) : Nat := leNat ((b.drop i).take n)

/-- A GHP1 frame, and whether its data length byte exceeds 56. DESIGN CHOICE, log entry 89. -/
def ghp1Frame (snd : Sender) (b : List Byte) : Frame × Bool :=
  let n := fieldAt b 7 1
  (⟨⟨snd, fieldAt b 2 2, 0, 0, true, true, true⟩, fieldAt b 0 1, fieldAt b 4 2, fieldAt b 6 1, (b.drop 8).take (min n 56)⟩, 56 < n)

/-- A GHP2 frame of length `n`, and whether its first byte names another generation. DESIGN CHOICE, log entry 89. -/
def ghp2Frame (snd : Sender) (b : List Byte) (n : Nat) : Frame × Bool :=
  (⟨⟨snd, fieldAt b 2 2, 0, 0, true, true, true⟩, fieldAt b 1 1, fieldAt b 6 2, fieldAt b 8 1, (b.drop 10).take (n - 12)⟩, fieldAt b 0 1 ≠ 2)

/-- A GHP3 frame of length `n` under a key, and whether its first byte names another generation. -/
def ghp3Frame (snd : Sender) (key : List Byte) (b : List Byte) (n : Nat) : Frame × Bool :=
  let signed := b.take (n - 34)
  let tag := (b.drop (n - 34)).take 32
  (⟨⟨snd, fieldAt b 2 2, fieldAt b 10 1, fieldAt b 12 4, tag = hmacField key 0 signed, true, true⟩, fieldAt b 1 1, fieldAt b 6 2, fieldAt b 8 1,
    (b.drop 16).take (n - 50)⟩, fieldAt b 0 1 ≠ 3)

/-- Whether the last two of the first `n` bytes are the CRC of those before them. -/
def crcHolds (b : List Byte) (n : Nat) : Bool := crc16 (b.take (n - 2)) = fieldAt b (n - 2) 2

/-! ### A response leaves -/

/-- A condition of EVT_N sets anew (R38, R61). -/
def Mod.evtCondition (enabled was : Bool) (m : Mod) : Mod := if enabled && !was then m.wantPulse else m

/-- The response window or FIFO of a mailbox takes a response, where it has room. -/
def Mod.leaveMbx (n : Nat) (r : Rsp) (m : Mod) : Option Mod :=
  let x := m.mbx.getD n {}
  if x.gen = 3 then
    let b := x.chan.sign r
    if 4096 < x.rspFifo.length + b.1.length then none
    else some (({ m with mbx := m.mbx.set n { x with chan := b.2, rspFifo := x.rspFifo ++ b.1 } } : Mod).evtCondition
      m.link.rspIrq (!x.rspFifo.isEmpty))
  else
    let b := if x.gen = 1 then ghp1Bytes r else ghp2Bytes r
    some (({ m with mbx := m.mbx.set n { x with rsp := b, busy := false, rspReady := true } } : Mod).evtCondition m.link.rspIrq x.rspReady)

/-- A frame goes out on a session: signed, and the last that was sent. -/
def Session.sends (r : Rsp) (x : Session) : Session := { x with chan := (x.chan.sign r).2, tx := [(x.chan.sign r).1] }

/-- A response leaves for its sender. -/
def Mod.leave (snd : Sender) (r : Rsp) (m : Mod) : Option Mod :=
  match snd with
  | .mbx n     => m.leaveMbx n r
  | .session k => some (m.modSess k (Session.sends r))
  | _          => some m

/-- Responses leave in the order of their commands, until one is not formed or has no room (R44). -/
def Mod.leaveAll (snd : Sender) : List (Nat × Option Rsp) → Mod → Mod
  | [], m => m.modChan snd (fun c => { c with out := [] })
  | p :: rest, m =>
    match p.2.bind (fun r => m.leave snd r) with
    | none    => m.modChan snd (fun c => { c with out := p :: rest })
    | some m1 => Mod.leaveAll snd rest m1

/-- Whether a mailbox holds no response (R65). -/
def Mailbox.holdsNone (x : Mailbox) : Bool := !x.rspReady && x.rspFifo.isEmpty && x.chan.out.isEmpty && !x.busy

/-- A generation that waits applies once the mailbox holds no response; its window and FIFO empty (R65). -/
def Mailbox.settle (x : Mailbox) : Mailbox :=
  match x.nextGen with
  | none   => x
  | some g =>
    if g = x.gen then { x with nextGen := none }
    else if x.holdsNone then { x with gen := g, nextGen := none, window := [], cmdFifo := [], rsp := [] }
    else x

/-- Every mailbox takes the generation that waits where it may. DEDUCED, log entry 22. -/
def Mod.settleGens (m : Mod) : Mod := { m with mbx := m.mbx.map Mailbox.settle }

/-- What a sender's channel has formed leaves. -/
def Mod.deliver (snd : Sender) (m : Mod) : Mod := (Mod.leaveAll snd (m.chanOf snd).out m).settleGens

/-- The first entry with a sequence number and no response takes one. -/
def fillOut (seq : Nat) (r : Rsp) : List (Nat × Option Rsp) → List (Nat × Option Rsp)
  | []      => []
  | p :: ps => if p.1 = seq && p.2.isNone then (seq, some r) :: ps else p :: fillOut seq r ps

/-- The response of an accepted command is formed: it is stored for a duplicate (R51), and what may leave leaves. -/
def Mod.respond (snd : Sender) (r : Rsp) (m : Mod) : Mod :=
  (m.modChan snd (fun c => { c with
    out := fillOut r.seq r c.out, stored := if c.kept = some r.seq then some r else c.stored })).deliver snd

/-- A response that is stored for no command: CRC_FAIL, AUTH_FAIL, SEQ_ERROR, and the response of a duplicate. -/
def Mod.reply (snd : Sender) (r : Rsp) (m : Mod) : Mod :=
  (m.modChan snd (fun c => { c with out := c.out ++ [(r.seq, some r)] })).deliver snd

end Sys2Proof.Machine
end

