-- ==== Sys2Proof/Machine/Streams.lean ====
section
/-!
DEFINITION. Stream channels (R62) and their sources: TRACE_READ (R144), FAULT_LOG_READ (R291, R314), PLAN_LOG_READ (R492),
DEVICE_CERT and CSR_READ (R459, R469). An open channel sends one frame at each boundary while its source has data.
-/
namespace Sys2Proof.Machine

def Mod.streamAt (m : Mod) (c : Nat) : Option Stream := (m.streams.find? (fun p => p.1 = c)).map (·.2)

def Mod.dropStream (c : Nat) (m : Mod) : Mod := { m with streams := m.streams.filter (fun p => p.1 ≠ c) }

def Mod.setStream (c : Nat) (x : Stream) (m : Mod) : Mod :=
  { m with streams := m.streams.filter (fun p => p.1 ≠ c) ++ [(c, x)] }

/-- FIRST and COUNT of a source's arguments (R144). -/
def Stream.first (x : Stream) : Nat := leNat (x.args.take 4)
def Stream.count (x : Stream) : Nat := leNat (x.args.drop 4)

/-- A frame's data, whether data were lost before it, whether it is the last, and the number of the next record. -/
structure Chunk where
  data : List Byte
  gap  : Bool := false
  last : Bool := false
  next : Nat

/-- The data field of records: the number of the first, the record size, whole records (R144). -/
def recordData (no size : Nat) (rs : List (List Byte)) : List Byte := leBytes 4 no ++ leBytes 2 size ++ rs.flatten

/-- Records that fit a frame of a generation. -/
def recordsFit (gen size : Nat) : Nat := (dataLimit gen - 6) / size

/-- A trace in single mode, from DONE. -/
def Mod.traceChunk (x : Stream) (m : Mod) : Chunk :=
  let stop := if x.count = 0 then m.trace.recs.length else min m.trace.recs.length (x.first + x.count)
  let rs := ((m.traceRecs.take stop).drop x.pos).take (recordsFit x.gen m.recordBytes)
  { data := recordData x.pos m.recordBytes (rs.map TraceRec.bytes), last := stop ≤ x.pos + rs.length, next := x.pos + rs.length }

/-- Records of a numbered log that a stream has still to send: numbers compared as R7 lays down. -/
def stillToSend (x : Stream) (no : Nat) : Bool :=
  angWrap ((no : Int) - (x.pos : Int)) < 2147483648 && (x.count = 0 || angWrap ((no : Int) - (x.first : Int)) < x.count)

/-- A numbered log: records that cannot be read are skipped, with GAP on the next frame. DEDUCED, log entry 24. -/
def logChunk (x : Stream) (size : Nat) (log : List (Nat × Bool × List Byte)) : Chunk :=
  let todo := log.filter (fun r => stillToSend x r.1)
  let rest := todo.dropWhile (fun r => !r.2.1)
  let rs := (rest.takeWhile (fun r => r.2.1)).take (recordsFit x.gen size)
  let next := match rs.getLast? with | some r => (r.1 + 1) % 4294967296 | none => x.pos
  { data := recordData ((rs.head?.map (·.1)).getD x.pos) size (rs.map (·.2.2))
    gap := rest.length < todo.length
    last := ((rest.drop rs.length).filter (fun r => r.2.1)).isEmpty
    next := next }

/-- Bytes of one document. DEDUCED, log entry 25. -/
def bytesChunk (x : Stream) (b : List Byte) : Chunk :=
  let d := (b.drop x.pos).take (dataLimit x.gen)
  { data := d, last := b.length ≤ x.pos + d.length, next := x.pos + d.length }

/-- The next frame of a source that ends; none for a trace in continuous mode. DEDUCED, log entries 24 and 25. -/
def Mod.chunkOf (x : Stream) (m : Mod) : Option Chunk :=
  if x.idx = 0x7008 then (if m.get Ob.traceMode = 1 then none else some (m.traceChunk x))
  else if x.idx = 0x44B1 then
    some (logChunk x 32 (m.prot.log.map (fun r => (r.no, !m.prot.skip.contains (m.lane, r.no), leBytes 32 r.raw))))
  else if x.idx = 0x6003 then some (logChunk x 48 (m.age.log.map (fun r => (r.gen, true, r.bytes))))
  else if x.idx = 0x6401 then some (bytesChunk x Config.deviceCert)
  else some (bytesChunk x Config.csr)

/-- A trace in continuous mode (R144): each record once, from the oldest not yet sent. DESIGN CHOICE, log entry 98. -/
def Mod.liveChunk (x : Stream) (m : Mod) : Option (Chunk × Mod) :=
  let rs := (m.traceRecs.drop (m.trace.sent - m.trace.first)).take (recordsFit x.gen m.recordBytes)
  let all := m.trace.recs.length ≤ (m.trace.sent - m.trace.first) + rs.length
  let ended := m.traceSt ≠ traceRunning && all
  if rs.isEmpty && !ended then none
  else some ({ data := recordData (m.trace.sent % 4294967296) m.recordBytes (rs.map TraceRec.bytes), gap := m.trace.gap, last := ended, next := x.pos },
    m.modTrace (fun t => { t with sent := t.sent + rs.length, gap := false }))

/-- The next frame of an open channel with the module after its source has given it. -/
def Mod.nextChunk (x : Stream) (m : Mod) : Option (Chunk × Mod) :=
  match m.chunkOf x with
  | some k => some (k, m)
  | none   => m.liveChunk x

/-- The frame of a chunk on channel `c` (R62). -/
def chunkFrame (c : Nat) (x : Stream) (k : Chunk) (slot : Nat) : Rsp :=
  { op := 8, idx := c, sub := 0, seq := 0, status := b2n (k.gap || x.gap) + 2 * b2n k.last, data := k.data, slot := slot }

/-- A frame joins the ring of channel `c`; where the ring is full its data are lost, and the next frame says so (R62).
DEDUCED, log entry 24. -/
def Mod.ringTakes (c : Nat) (x : Stream) (k : Chunk) (m : Mod) : Mod :=
  let ch := m.chanOf x.snd
  let r := chunkFrame c x k (ch.slot.getD 0)
  let b := if x.gen = 2 then (ghp2Bytes r, ch) else ch.sign r
  if 65536 < x.ring.length + b.1.length then m.setStream c { x with pos := k.next, gap := true }
  else ((m.modChan x.snd (fun _ => b.2)).setStream c { x with pos := k.next, ring := x.ring ++ b.1, gap := false, ended := k.last }).evtCondition
    m.link.streamIrq (x.part < x.ring.length)

/-- Channel `c` sends a frame, where it is open and its source has one: into its ring, or on the session that opened it.
DEDUCED, log entry 24. -/
def Mod.streamSend (c : Nat) (m : Mod) : Mod :=
  match m.streamAt c with
  | none   => m
  | some x =>
    if x.ended then m
    else match m.nextChunk x with
      | none => m
      | some (k, m1) =>
        match x.snd with
        | .session j =>
          let m2 := m1.modSess j (Session.sends (chunkFrame c x k 255))
          if k.last then m2.dropStream c else m2.setStream c { x with pos := k.next, gap := false }
        | _ => m1.ringTakes c x k

/-- Every open channel sends. DEDUCED, log entry 24. -/
def Mod.streamsSend (m : Mod) : Mod := m.each (List.range 8) Mod.streamSend

/-- Whether a stream channel is open. -/
def Mod.streamOpen (m : Mod) (c : Nat) : Bool := match m.streamAt c with | some x => !x.ended | none => false

/-- Whether a source can be opened in the present state (R144). -/
def Mod.sourceReady (m : Mod) (idx : Nat) : Bool :=
  idx ≠ 0x7008 || m.traceSt = (if m.get Ob.traceMode = 1 then traceRunning else traceDoneState)

/-- Bytes of arguments of a source. -/
def sourceArgs (idx : Nat) : Nat := if idx = 0x7008 || idx = 0x44B1 || idx = 0x6003 then 8 else 0

/-- Whether an index names a stream source. -/
def isSourceObject (idx : Nat) : Bool := match rowOf idx 0 with | some r => r.acc = .src | none => false

/-- STREAM_OPEN (R62); `gen` is the generation of the opening mailbox. DEDUCED, log entry 15. -/
def Mod.streamOpens (snd : Sender) (gen idx c : Nat) (args : List Byte) (m : Mod) : Mod × Nat :=
  if !isSourceObject idx || 8 ≤ c then (m, 0x10)
  else if gen = 1 || (m.chanOf snd).group.isSome || m.streamOpen c || !m.sourceReady idx then (m, 0x12)
  else if args.length ≠ sourceArgs idx then (m, 0x11)
  else
    let old := m.streamAt c
    let x : Stream := { idx := idx, sub := 0, snd := snd, gen := gen, args := args, pos := leNat (args.take 4)
                        ring := (old.map (·.ring)).getD [], part := (old.map (·.part)).getD 0 }
    (m.setStream c x, 0)

/-- STREAM_CLOSE (R62): frames that wait on the serial link stay. DEDUCED, log entry 24. -/
def Mod.streamCloses (snd : Sender) (idx c : Nat) (m : Mod) : Mod × Nat :=
  if idx ≠ 0 || 8 ≤ c then (m, 0x10)
  else if (m.chanOf snd).group.isSome || !m.streamOpen c then (m, 0x12)
  else match m.streamAt c with
    | none   => (m, 0x12)
    | some x => (if x.ring.isEmpty then m.dropStream c else m.setStream c { x with ended := true }, 0)

/-- `n` bytes leave the ring of a channel; the part of a frame that stays behind is no whole frame. -/
def Stream.readBytes : Nat → Stream → List Byte × Stream
  | 0, x     => ([], x)
  | n + 1, x =>
    match x.ring with
    | []      => let r := Stream.readBytes n x; ((0 : Byte) :: r.1, r.2)
    | b :: bs =>
      let left := if x.part = 0 then fieldAt x.ring 4 2 else x.part
      let r := Stream.readBytes n { x with ring := bs, part := left - 1 }
      (b :: r.1, r.2)

/-- A read of `n` bytes of stream window `c` (R37, R62). -/
def Mod.readStream (c n : Nat) (m : Mod) : List Byte × Mod :=
  match m.streamAt c with
  | none   => (List.replicate n 0, m)
  | some x =>
    let r := Stream.readBytes n x
    (r.1, if r.2.ended && r.2.ring.isEmpty then m.dropStream c else m.setStream c r.2)

end Sys2Proof.Machine
end

