-- ==== Sys2Proof/Machine/Commands.lean ====
section
/-!
DEFINITION. A command that has come in (R47 to R57, R464, R465, R515): authentication, sequence numbers, the checks in
the order of R49, groups, staging for a boundary, and the response.
-/
namespace Sys2Proof.Machine

/-- What a command comes to: the module, and the status with the response's data, or none where the response leaves
after a boundary. -/
abbrev Outcome := Mod × Option (Nat × List Byte)

def answered (a : Answer) : Outcome := (a.1, some a.2)
def denied (st : Nat) (m : Mod) : Outcome := (m, some (st, []))

/-! ### Staging (R72, R73) -/

/-- An item joins those staged for the coming boundary, or for the one after it past the cutoff. -/
def Mod.stage (w : Staged) (writes : Nat) (m : Mod) : Mod :=
  let late := m.clk.phase = .staging
  let m1 : Mod := { m with staged := m.staged ++ [{ w with
    late := late, order := m.order, moves := match w.work with | .writes ws => m.movesOf ws | .unitAct _ _ => [] }], order := m.order + 1 }
  if late then m1.put Ob.writesDeferred ((m1.get Ob.writesDeferred + writes) % 4294967296) else m1

/-- The writes of the items that wait for a boundary. DEDUCED, log entry 16. -/
def Mod.stagedWrites (m : Mod) : List (Nat × List Byte) :=
  m.staged.flatMap (fun w => match w.work with | .writes ws => ws | .unitAct _ _ => [])

/-! ### Roles (R390, R465) -/

/-- The role of a sender: of its certificate or its key slot, SERIAL_ROLE for GHP1 and GHP2, operator for Modbus and DNP3. -/
def Mod.roleOf (m : Mod) (snd : Sender) : Nat :=
  match snd with
  | .mbx n       => if (m.mbx.getD n {}).gen = 3 then (m.chanOf snd).role else m.get Ob.serialRole
  | .session _   => (m.chanOf snd).role
  | .localSafety => roleService
  | _            => roleOperator

/-! ### Writes -/

/-- The checks of one write from check 4 on, against a trial in which `laid` stands before it. `held` says that it joins
an open group; `full` that the group has no room; `bad` that the frame breaks a limit of its generation.
DEDUCED, log entry 16. -/
def Mod.checkWrite (m : Mod) (snd : Sender) (role : Nat) (held full bad : Bool) (laid : List (Nat × List Byte))
    (w : Nat × List Byte) : Option Nat :=
  match rowOfKey w.1 with
  | none   => some 0x10
  | some r =>
    if role < writeRole r then some 0x21
    else if !m.writeObjectOk w.1 w.2.length then some 0x10
    else
      let base := m.layAll laid
      let st := (if w.1 = Ob.fwUpload then base else m).writeStatus (base.lay w) snd held false w
      if st = some 0x14 || st = some 0x13 then st
      else if bad || full then some 0x12
      else st

/-- The event of a write that is refused (R78, R283). -/
def Mod.refusedWrite (snd : Sender) (held : Bool) (seq : Nat) (laid : List (Nat × List Byte)) (w : Nat × List Byte) (m : Mod) : Mod :=
  Mod.writeRefusedEvent ((m.layAll laid).lay w) snd held false seq w m

/-- Bytes of data that a group holds. -/
def Group.bytes (g : Group) : Nat := (g.writes.map (fun w => w.2.length)).foldl (· + ·) 0

/-- Whether a group has no room for another write of `n` bytes (R53). -/
def Group.full (g : Group) (n : Nat) : Bool := 64 ≤ g.writes.length || 4096 < g.bytes + n

/-- The commit of a group: it closes, and its writes are staged together (R54, R73). DEDUCED, log entry 17. -/
def Mod.commit (snd : Sender) (seq op idx sub : Nat) (ws : List (Nat × List Byte)) (m : Mod) : Outcome :=
  ((m.modChan snd (fun c => { c with group := none })).stage
    { snd := snd, seq := seq, op := op, idx := idx, sub := sub, work := .writes ws, isGroup := true } ws.length, none)

/-- WRITE and WRITE_COMMIT (R48, R52, R72). -/
def Mod.writeCommand (snd : Sender) (seq op idx sub : Nat) (data : List Byte) (bad : Bool) (m : Mod) : Outcome :=
  let w := (idx * 256 + sub, data)
  let g := (m.chanOf snd).group
  let held := (g.map (·.writes)).getD []
  let laid := m.stagedWrites ++ held
  match m.checkWrite snd (m.roleOf snd) g.isSome ((g.map (fun g => g.full data.length)).getD false) bad laid w with
  | some st => (m.refusedWrite snd g.isSome seq laid w, some (st, []))
  | none =>
    match g with
    | none   => (m.stage { snd := snd, seq := seq, op := op, idx := idx, sub := sub, work := .writes [w] } 1, none)
    | some _ =>
      if op = 3 then m.commit snd seq op idx sub (held ++ [w])
      else (m.modChan snd (fun c => { c with group := c.group.map (fun g => { g with writes := g.writes ++ [w] }) }), some (0, []))

/-! ### Groups -/

/-- GROUP_BEGIN (R52, R53). -/
def Mod.beginCommand (snd : Sender) (seq idx sub : Nat) (bad : Bool) (m : Mod) : Outcome :=
  if idx ≠ 0 || sub ≠ 0 then denied 0x10 m
  else if bad || (m.chanOf snd).group.isSome then denied 0x12 m
  else (m.modChan snd (fun c => { c with group := some ⟨seq, m.now, []⟩ }), some (0, []))

/-- GROUP_COMMIT (R54, R55, R380): at once, or at an apply time through the scheduled-action table.
DEDUCED, log entries 15 and 17. -/
def Mod.commitCommand (snd : Sender) (seq idx sub : Nat) (data : List Byte) (bad : Bool) (m : Mod) : Outcome :=
  if idx ≠ 0 || sub ≠ 0 then denied 0x10 m
  else match (m.chanOf snd).group with
    | none   => denied 0x12 m
    | some g =>
      if bad then denied 0x12 m
      else if data.isEmpty then m.commit snd seq 6 0 0 g.writes
      else if data.length ≠ 8 then denied 0x11 m
      else
        let t := Raw.signed 64 (leNat data)
        match m.schedRefusal t with
        | some st => denied st m
        | none    => ((m.modChan snd (fun c => { c with group := none })).schedAdd t snd seq g.writes, some (3, []))

/-! ### EVENT_ACK (R60, R61) -/

/-- The entries after the one with a queue sequence number, and how many went; none where no entry has it. -/
def ackEntries (q : Nat) : List EvEntry → Option (Nat × List EvEntry)
  | []      => none
  | e :: es => if e.qseq = q then some (1, es) else (ackEntries q es).map (fun r => (r.1 + 1, r.2))

/-- EV012 enters the queue of the consumer that lost events, once it has room for it and for the marker that it needs
(R60, R67, R377). -/
def Mod.lostEvent (snd : Sender) (m : Mod) : Mod :=
  let q := m.queueOf snd
  if q.lostNew = 0 || (q.wants 12 && !q.holds 12 0x1101 && 256 < q.entries.length + 1 + b2n (q.needsMark m.tai)) then m
  else
    let flags := eventFlags sevWarn m.laneB
    let probe : EvEntry := ⟨m.t32, 12, flags, 0x1101, 0, 1, q.lostNew⟩
    let marks := q.takesMark probe m.tai
    let no := if marks then (m.qseq + 1) % 65536 else m.qseq
    let mark : EvEntry := ⟨m.t32, 96, b2n m.laneB * 2, 0, m.qseq, 1, (m.tai / 1000000000 % 4294967296).toNat⟩
    let m1 : Mod := { m with qseq := (no + 1) % 65536 }
    let m2 := m1.modQueue snd (fun q => { (q.take mark { probe with qseq := no } m.tai) with lostNew := 0 })
    match snd with
    | .session k => m2.modSess k (Session.report m.spreadMs m.now sevWarn)
    | _          => if (m2.queueOf snd).entries.length ≠ q.entries.length then m2.wantPulse else m2

/-- EVENT_ACK: every entry up to the named one goes. DEDUCED, log entry 15. -/
def Mod.ackCommand (snd : Sender) (idx sub : Nat) (data : List Byte) (bad : Bool) (m : Mod) : Outcome :=
  if idx ≠ 0 || sub ≠ 0 then denied 0x10 m
  else if bad then denied 0x12 m
  else if data.length ≠ 2 then denied 0x11 m
  else match ackEntries (leNat data) (m.queueOf snd).entries with
    | none        => denied 0x11 m
    | some (n, es) =>
      let m1 := m.modQueue snd (fun q => { q with entries := es, first := (q.first + n) % 256 })
      let m2 := match snd with | .session k => m1.modSess k (fun x => { x with sent := x.sent - n }) | _ => m1
      (m2.lostEvent snd, some (0, []))

/-! ### READ, streams and ACTION -/

/-- READ (R40, R48). DEDUCED, log entry 14. -/
def Mod.readCommand (kp : Kept) (snd : Sender) (gen idx sub : Nat) (bad : Bool) (m : Mod) : Outcome :=
  if bad && (rowOf idx sub).isSome then denied 0x12 m
  else (m, some (m.readEntry kp snd (dataLimit gen) idx sub))

/-- ACTION (R48, R49, R515). DEDUCED, log entry 15. -/
def Mod.actionCommand (kp : Kept) (snd : Sender) (slot seq idx sub : Nat) (data : List Byte) (bad : Bool) (m : Mod) : Outcome :=
  let role := if idx = 0x6421 then roleOperator else m.roleOf snd
  if isAction idx sub && role < actionRole idx data then denied 0x21 m
  else if !isAction idx sub then denied 0x10 m
  else if m.get Ob.certifiedMode = 1 && (idx = 0x6470 || idx = 0x6471) then denied 0x14 m
  else if bad || (m.chanOf snd).group.isSome then denied 0x12 m
  else if isUnitAction idx then
    (match m.unitRefusal idx data with
     | some st => denied st m
     | none    => (m.stage { snd := snd, seq := seq, op := 4, idx := idx, sub := sub, work := .unitAct idx (data.map (·.toNat)) } 0, none))
  else answered (m.runAction kp snd slot seq idx sub data)

/-- A command by its opcode; `gen` is the generation of its frame, `bad` says that it breaks a limit of it.
DEDUCED, log entry 14. -/
def Mod.command (kp : Kept) (gen : Nat) (bad : Bool) (f : Frame) (m : Mod) : Outcome :=
  let snd := f.h.snd
  if f.op = 1 then m.readCommand kp snd gen f.idx f.sub bad
  else if f.op = 2 || f.op = 3 then m.writeCommand snd f.h.seq f.op f.idx f.sub f.data bad
  else if f.op = 4 then m.actionCommand kp snd f.h.slot f.h.seq f.idx f.sub f.data bad
  else if f.op = 5 then m.beginCommand snd f.h.seq f.idx f.sub bad
  else if f.op = 6 then m.commitCommand snd f.h.seq f.idx f.sub f.data bad
  else if f.op = 8 then
    (let r := m.streamOpens snd gen f.idx f.sub f.data
     if bad && r.2 ≠ 0x10 then denied 0x12 m else (r.1, some (r.2, [])))
  else if f.op = 9 then
    (let r := m.streamCloses snd f.idx f.sub
     if bad && r.2 ≠ 0x10 then denied 0x12 m else (r.1, some (r.2, [])))
  else if f.op = 10 then m.ackCommand snd f.idx f.sub f.data bad
  else denied 0x10 m

/-! ### Sequence numbers and authentication -/

/-- What R51 makes of a sequence number. -/
inductive SeqKind
  | new
  | duplicate
  | stale
deriving DecidableEq, Repr

/-- R51: d = (s − p) modulo 2^16; the first command is accepted whatever its number. DEDUCED, log entry 19. -/
def seqKind (kept : Option Nat) (s : Nat) : SeqKind :=
  match kept with
  | none   => .new
  | some p =>
    let d := (s + 65536 - p) % 65536
    if d = 0 then .duplicate else if d ≤ 32767 then .new else .stale

/-- Whether a frame is a SESSION_OPEN of the serial link. -/
def Frame.opensSession (f : Frame) : Bool :=
  f.op = 4 && f.idx = 0x6421 && f.sub = 0 && (match f.h.snd with | .mbx _ => true | _ => false)

/-- Whether a GHP3 frame is authentic (R47, R461, R462). -/
def Mod.authentic (m : Mod) (f : Frame) : Bool :=
  let c := m.chanOf f.h.snd
  let keyed := f.h.slot < 16 && !(m.secu.keys.getD f.h.slot []).isEmpty
  match f.h.snd with
  | .mbx _ =>
    if f.opensSession then keyed && f.h.hmacOk && f.h.counter = 0
    else keyed && c.slot = some f.h.slot && f.h.hmacOk && c.ctrOut ≠ some 0xFFFFFFFF
      && (match c.ctrIn with | some p => p < f.h.counter | none => false)
  | _ => f.h.slot = 255 && f.h.hmacOk && c.ctrOut ≠ some 0xFFFFFFFF && (match c.ctrIn with | some p => p < f.h.counter | none => true)

/-- An AUTH_FAIL response; the fifth within 60 s mutes the mailbox or session for 60 s, with EV105 (R464). -/
def Mod.authFails (f : Frame) (m : Mod) : Mod :=
  let snd := f.h.snd
  let recent := ((m.chanOf snd).authFails.filter (fun t => m.now < t + sPs 60)) ++ [m.now]
  let m1 := (m.bump Ob.authFail).reply snd
    { op := f.op, idx := f.idx, sub := f.sub, seq := f.h.seq, status := 0x20, data := [], slot := f.h.slot }
  if 5 ≤ recent.length then
    (m1.modChan snd (fun c => { c with authFails := [], blocked := some (m.now + sPs 60) })).raise 105 sevWarn 0x6402 (m1.senderBits snd)
  else m1.modChan snd (fun c => { c with authFails := recent })

/-- The response of a frame. -/
def Frame.rsp (f : Frame) (a : Nat × List Byte) : Rsp :=
  { op := f.op, idx := f.idx, sub := f.sub, seq := f.h.seq, status := a.1, data := a.2, slot := f.h.slot }

/-- The first frame of a network session binds it to the mailbox that its index carries (R389). DEDUCED, log entry 20. -/
def Mod.bindSession (f : Frame) (m : Mod) : Outcome :=
  match f.h.snd with
  | .session k =>
    if 3 < f.idx then denied 0x11 m
    else (m.modSess k (fun x => { x with bound := some f.idx }), some (0, []))
  | _ => denied 0x10 m

/-- Whether a frame comes from a network session that is not bound yet. DEDUCED, log entry 20. -/
def Mod.unbound (m : Mod) (f : Frame) : Bool :=
  match f.h.snd with
  | .session k => ((m.sessAt k).map (fun x => x.bound.isNone)).getD false
  | _          => false

/-- A ninth outstanding command is answered BUSY and not executed (R44). -/
def Mod.execute (kp : Kept) (gen : Nat) (bad : Bool) (f : Frame) (m : Mod) : Outcome :=
  let r := if m.unbound f then m.bindSession f else m.command kp gen bad f
  let accepts := match r.2 with | none => true | some a => a.1 = 0 || a.1 = 3
  if 8 ≤ (m.chanOf f.h.snd).out.length && accepts then denied 1 m else r

/-- The step of the anti-rollback counters that a frame makes: that of an FW_COMMIT answered OK (R458).
DEDUCED, log entry 18. -/
def Mod.counterOf (kp : Kept) (f : Frame) (r : Outcome) (m : Mod) : Option (Nat × Nat) :=
  if f.op = 4 && f.idx = 0x6453 && f.sub = 0 && r.2 = some (0, []) && !m.unbound f then m.counterStep kp else none

/-- A new command: its number is kept, it is executed, and its response leaves or waits for a boundary. The resets of an
FW_ACTIVATE take its response with them. DEDUCED, log entries 18 and 19. -/
def Mod.fresh (kp : Kept) (gen : Nat) (bad : Bool) (f : Frame) (m : Mod) : Mod × Option (Nat × Nat) :=
  let snd := f.h.snd
  let opens := f.opensSession && gen = 3
  let m0 := if opens then m else m.modChan snd (fun c => { c with kept := some f.h.seq, stored := none })
  let r := m0.execute kp gen bad f
  let step := m0.counterOf kp f r
  match r.2 with
  | none   => (r.1.modChan snd (fun c => { c with out := c.out ++ [(f.h.seq, none)] }), step)
  | some a =>
    if f.op = 4 && f.idx = 0x6452 && a.1 = 0 then (r.1, none) else
    let m1 := (r.1.modChan snd (fun c => { c with
      out := c.out ++ [(f.h.seq, none)], kept := if opens && a.1 = 0 then none else c.kept })).respond snd (f.rsp a)
    (m1, step)

/-- A frame whose CRC holds (R47, R49, R51, R464): `gen` is the generation of its mailbox. DEDUCED, log entry 22. -/
def Mod.incoming (kp : Kept) (gen : Nat) (bad : Bool) (f : Frame) (m : Mod) : Mod × Option (Nat × Nat) :=
  let snd := f.h.snd
  let c := m.chanOf snd
  if c.blocked.isSome then (m, none)
  else if gen = 3 && !m.authentic f then (m.authFails f, none)
  else
    let m1 := (m.bump Ob.framesOk).modChan snd (fun x => if gen = 3 && !f.opensSession then { x with ctrIn := some f.h.counter } else x)
    match (if gen = 3 && f.opensSession then SeqKind.new else seqKind c.kept f.h.seq) with
    | .new       => m1.fresh kp gen bad f
    | .duplicate => (match c.stored with | some r => m1.reply snd r | none => m1, none)
    | .stale     => ((m1.bump Ob.seqError).reply snd (f.rsp (0x31, [])), none)

end Sys2Proof.Machine
end

