-- ==== Sys2Proof/Machine/HostLink.lean ====
section
/-!
DEFINITION. The host serial link (R34 to R44, R61): the register map, its reads and writes, the windows and FIFOs of the
mailboxes, doorbells, and EVT_N.
-/
namespace Sys2Proof.Machine

/-! ### Registers (R37 to R39) -/

def bitIf (b : Bool) (i : Nat) : Nat := if b then 2 ^ i else 0

/-- The sum of a list of numbers. -/
def sumN (l : List Nat) : Nat := l.foldl (· + ·) 0

/-- HL_CONFIG as it reads (R38): the GEN fields show object 1100h. -/
def Mod.hlConfig (m : Mod) : Nat :=
  b2n m.link.quadEn + bitIf m.link.evtPulse 1 + bitIf m.link.rspIrq 2 + bitIf m.link.streamIrq 3
  + sumN ((List.range 4).map (fun n => m.get (Ob.mbxGen n) * 2 ^ (8 + 2 * n)))

/-- Whether mailbox `n` holds a command without a response (R39). -/
def Mailbox.isBusy (x : Mailbox) : Bool := if x.gen = 3 then x.chan.out.any (fun p => p.2.isNone) else x.busy

/-- Whether a response waits in the window or FIFO of a mailbox. -/
def Mailbox.isReady (x : Mailbox) : Bool := if x.gen = 3 then !x.rspFifo.isEmpty else x.rspReady

/-- Whether stream window `c` holds at least one whole frame. -/
def Mod.streamData (m : Mod) (c : Nat) : Bool := match m.streamAt c with | some x => x.part < x.ring.length | none => false

/-- HL_STATUS as it reads (R39). -/
def Mod.hlStatus (m : Mod) : Nat :=
  b2n (!m.hostQ.entries.isEmpty)
  + sumN ((List.range 4).map (fun n => bitIf (m.mbx.getD n {}).isBusy (4 + n) + bitIf (m.mbx.getD n {}).isReady (8 + n)))
  + sumN ((List.range 8).map (fun c => bitIf (m.streamData c) (16 + c)))
  + bitIf m.link.frameError 26 + bitIf m.link.doorbellLost 27 + bitIf m.link.takeover 28
  + bitIf (m.get Ob.certifiedMode = 1) 29 + bitIf m.laneB 30 + bitIf m.link.ready 31

/-- The registers that read as something: address, size, value. DESIGN CHOICE, log entry 91. -/
def Mod.linkRegs (m : Mod) : List (Nat × Nat × Nat) :=
  [(0, 4, 0x59514820), (4, 4, m.hlConfig), (8, 4, m.hlStatus), (0x24, 1, m.hostQ.first), (0x26, 2, m.hostQ.entries.length)]
  ++ (List.range 4).map (fun n => (0x14 + 2 * n, 2, 4096 - (m.mbx.getD n {}).cmdFifo.length))
  ++ (List.range 4).map (fun n => (0x1C + 2 * n, 2, (m.mbx.getD n {}).rspFifo.length))
  ++ (List.range 8).map (fun c => (0x28 + 2 * c, 2, match m.streamAt c with | some x => satAt 65535 x.ring.length | none => 0))

/-- The last address of the region that holds an address (R35, R37). DEDUCED, log entry 23. -/
def regionEnd (a : Nat) : Option Nat :=
  if a < 12 then some (a / 4 * 4 + 3)
  else if a = 0x10 || a = 0x11 || a = 0x24 then some a
  else if 0x14 ≤ a && a < 0x1C then some 0x1B
  else if 0x1C ≤ a && a < 0x24 then some 0x23
  else if a = 0x26 || a = 0x27 then some 0x27
  else if 0x28 ≤ a && a < 0x38 then some 0x37
  else if 0x1000 ≤ a && a < 0x3000 then some (a / 0x400 * 0x400 + 0x3FF)
  else if 0x3000 ≤ a && a < 0x4000 then some 0x3FFF
  else if 0x4000 ≤ a && a < 0x6000 then some (a / 0x400 * 0x400 + 0x3FF)
  else none

/-- The address after a byte: it increments and stops at the end of its region (R35). DEDUCED, log entry 23. -/
def nextAddr (a : Nat) : Nat := if regionEnd a = some a then a else (a + 1) % 65536

/-- A byte of the event window: slot k holds the entry that stands k − EVQ_FIRST places after the oldest. -/
def EvQueue.windowByte (q : EvQueue) (a : Nat) : Byte :=
  match q.entries[(a / 16 + 256 - q.first) % 256]? with
  | some e => e.bytes.getD (a % 16) 0
  | none   => 0

/-! ### Reads (R35, R37, R44) -/

/-- One byte of a read, with what the read does: a byte leaves a response FIFO or a stream window. -/
def Mod.readByte (a : Nat) (m : Mod) : Byte × Mod :=
  if a < 0x1000 then
    match m.linkRegs.find? (fun r => r.1 ≤ a && a < r.1 + r.2.1) with
    | some r => (BitVec.ofNat 8 (r.2.2 / 256 ^ (a - r.1)), m)
    | none   => (0, m)
  else if a < 0x2000 then (0, m)
  else if a < 0x3000 then
    let n := (a - 0x2000) / 0x400
    let x := m.mbx.getD n {}
    if x.gen = 3 then (x.rspFifo.headD 0, { m with mbx := m.mbx.set n { x with rspFifo := x.rspFifo.drop 1 } })
    else (if x.rspReady then x.rsp.getD (a % 0x400) 0 else 0, m)
  else if a < 0x4000 then (m.hostQ.windowByte (a - 0x3000), m)
  else if a < 0x6000 then
    let r := m.readStream ((a - 0x4000) / 0x400) 1
    (r.1.headD 0, r.2)
  else (0, m)

/-- `n` bytes from an address on. DEDUCED, log entry 23. -/
def Mod.readBytes : Nat → Nat → Mod → List Byte × Mod
  | 0, _, m     => ([], m)
  | n + 1, a, m =>
    let b := m.readByte a
    let r := Mod.readBytes n (nextAddr a) b.2
    (b.1 :: r.1, r.2)

/-- Whether the link answers: a lane has held Serac's grant (R473). DEDUCED, log entry 12. -/
def Mod.linkUp (m : Mod) : Bool := m.arb.armed

/-- Responses that wait for room leave, and generations that wait apply. -/
def Mod.linkSettle (m : Mod) : Mod := (m.each (List.range 4) (fun n m => m.deliver (.mbx n))).settleGens

/-- A read transaction: the bytes shifted out; FFh while no lane has claimed. DEDUCED, log entry 12. -/
def Mod.linkReads (addr len : Nat) (m : Mod) : Mod :=
  if m.linkUp then
    let r := m.readBytes len (addr % 65536)
    ({ r.2 with link := { r.2.link with out := r.1 } } : Mod).linkSettle
  else { m with link := { m.link with out := List.replicate len 255 } }

/-! ### HL_CONFIG, HL_STATUS, RSP_RELEASE (R36, R38, R39, R42) -/

/-- A write of HL_CONFIG: QUAD_EN is not set while any mailbox runs GHP1; the new mode applies to the next transaction. -/
def Mod.writeConfig (v : Nat) (m : Mod) : Mod :=
  let q := bit v 0 && m.mbx.all (fun x => x.gen ≠ 1)
  { m with link := { m.link with quadEn := q, quad := q, evtPulse := bit v 1, rspIrq := bit v 2, streamIrq := bit v 3 } }

/-- A write of HL_STATUS clears the sticky bits written 1. -/
def Mod.clearSticky (v : Nat) (m : Mod) : Mod :=
  { m with link := { m.link with takeover := m.link.takeover && !bit v 28, doorbellLost := m.link.doorbellLost && !bit v 27
                                 frameError := m.link.frameError && !bit v 26 } }

/-- RSP_RELEASE frees the response windows of GHP1 and GHP2 mailboxes. -/
def Mod.release (mask : Nat) (m : Mod) : Mod :=
  (m.each (bitsOf 4 mask) (fun n m =>
    let x := m.mbx.getD n {}
    if x.gen = 3 then m else { m with mbx := m.mbx.set n { x with rsp := [], rspReady := false } })).linkSettle

def Mod.frameErrorSet (m : Mod) : Mod := { m with link := { m.link with frameError := true } }

/-! ### Frames on the block -/

/-- A frame has come in: the module after it, and Cirque's counters after an FW_COMMIT. -/
def State.takes (gen : Nat) (bad : Bool) (f : Frame) (s : State) : State :=
  let r := s.m.incoming s.kept gen bad f
  { s with m := r.1, kept := { s.kept with rollback := raiseCounter r.2 s.kept.rollback } }

/-- A GHP1 or GHP2 mailbox whose command had no response to wait for is free again. -/
def Mod.freeMbx (n : Nat) (m : Mod) : Mod :=
  { m with mbx := m.mbx.modify n (fun x => if x.gen ≠ 3 && x.chan.out.isEmpty then { x with busy := false } else x) }

/-- The mailbox takes a GHP1 or GHP2 frame: BUSY sets (R42). -/
def State.takesAt (n : Nat) (bad : Bool) (f : Frame) (s : State) : State :=
  let x := s.m.mbx.getD n {}
  let s1 := State.takes x.gen bad f { s with m := { s.m with mbx := s.m.mbx.set n { x with busy := true } } }
  { s1 with m := s1.m.freeMbx n }

/-- A GHP2 frame whose CRC does not hold is answered CRC_FAIL with the fields copied from it (R49). DEDUCED, log entry 21. -/
def Mod.crcFails (n : Nat) (f : Frame) (m : Mod) : Mod :=
  (({ m with mbx := m.mbx.modify n (fun x => { x with busy := true }) } : Mod).bump Ob.crcFail).reply (.mbx n) (f.rsp (0x30, []))

/-- Whether a mailbox is muted (R464). DEDUCED, log entry 22. -/
def Mod.muted (m : Mod) (snd : Sender) : Bool := (m.chanOf snd).blocked.isSome

/-- A doorbell is lost (R43). -/
def Mod.bellLost (m : Mod) : Mod := ({ m with link := { m.link with doorbellLost := true } } : Mod).bump Ob.doorbellLost

/-- The doorbell of mailbox `n` (R42, R43). -/
def State.doorbell (n : Nat) (s : State) : State :=
  let x := s.m.mbx.getD n {}
  if !s.m.link.ready || x.gen = 3 then s
  else if x.busy || x.rspReady then { s with m := s.m.bellLost }
  else if s.m.muted (.mbx n) then s
  else if x.gen = 1 then
    let r := ghp1Frame (.mbx n) x.window
    State.takesAt n r.2 r.1 s
  else
    let len := fieldAt x.window 4 2
    let r := ghp2Frame (.mbx n) x.window len
    if 12 ≤ len && len ≤ 1024 && crcHolds (x.window ++ List.replicate 1024 0) len then State.takesAt n r.2 r.1 s
    else { s with m := s.m.crcFails n r.1 }

/-- Doorbells of a mask, the lowest mailbox first. -/
def State.doorbells (mask : Nat) (s : State) : State := (bitsOf 4 mask).foldl (fun s n => State.doorbell n s) s

/-! ### Windows and FIFOs -/

/-- The whole command FIFO is discarded (R44). DEDUCED, log entry 21. -/
def Mod.dropFifo (n : Nat) (m : Mod) : Mod :=
  ({ m with mbx := m.mbx.modify n (fun x => { x with cmdFifo := [] }) } : Mod).frameErrorSet

/-- The key under which a GHP3 frame of a mailbox is checked: the slot key for SESSION_OPEN, otherwise the session's. -/
def Mod.keyFor (m : Mod) (n : Nat) (b : List Byte) : List Byte :=
  if fieldAt b 1 1 = 4 && fieldAt b 6 2 = 0x6421 && fieldAt b 8 1 = 0 then m.secu.keys.getD (fieldAt b 10 1) []
  else (m.chanOf (.mbx n)).key

/-- The frame at the head of the command FIFO is taken when its length has arrived (R44). -/
def State.fifoTakes (n : Nat) (s : State) : State :=
  let b := (s.m.mbx.getD n {}).cmdFifo
  if b.length < 6 then s
  else
    let len := fieldAt b 4 2
    if len < 50 || 1024 < len then { s with m := s.m.dropFifo n }
    else if b.length < len then s
    else if !crcHolds b len then { s with m := s.m.dropFifo n }
    else
      let r := ghp3Frame (.mbx n) (s.m.keyFor n b) b len
      State.takes 3 r.2 r.1 { s with m := { s.m with mbx := s.m.mbx.modify n (fun x => { x with cmdFifo := x.cmdFifo.drop len }) } }

/-- One byte arrives in the command FIFO; a full FIFO loses it (R44). -/
def State.fifoByte (n : Nat) (s : State) (b : Byte) : State :=
  let x := s.m.mbx.getD n {}
  if 4096 ≤ x.cmdFifo.length then { s with m := s.m.frameErrorSet }
  else State.fifoTakes n { s with m := { s.m with mbx := s.m.mbx.set n { x with cmdFifo := x.cmdFifo ++ [b] } } }

/-- Bytes written into the command window of a GHP3 mailbox (R41, R44, R478). -/
def State.fifoIn (n : Nat) (data : List Byte) (s : State) : State :=
  if !s.m.link.ready then s
  else if !s.m.link.quadEn then { s with m := s.m.frameErrorSet }
  else data.foldl (State.fifoByte n) s

/-- A byte put into a window, the bytes before it 00h where none stands. -/
def putByte (i : Nat) (b : Byte) (l : List Byte) : List Byte := (l ++ List.replicate (i + 1 - l.length) 0).set i b

/-- Bytes put from an offset on; past the window's end they fall on its last byte (R35). -/
def putBytes : Nat → List Byte → List Byte → List Byte
  | _, [], l      => l
  | i, b :: bs, l => putBytes (min (i + 1) 1023) bs (putByte i b l)

/-- A write into command window `n` (R42, R43, R44). -/
def State.windowWrite (n offset : Nat) (data : List Byte) (s : State) : State :=
  let x := s.m.mbx.getD n {}
  if x.gen = 3 then State.fifoIn n data s
  else if x.busy then s
  else { s with m := { s.m with mbx := s.m.mbx.set n { x with window := putBytes offset data x.window } } }

/-- The bytes that a transaction writes, each with its address. -/
def writtenAt : Nat → List Byte → List (Nat × Byte)
  | _, []      => []
  | a, b :: bs => (a, b) :: writtenAt (nextAddr a) bs

/-- The value written to a register of `n` bytes, where every one of them was written (R35). -/
def regWritten (a n : Nat) (l : List (Nat × Byte)) : Option Nat :=
  if (List.range n).all (fun i => l.any (fun p => p.1 = a + i)) then
    some (leNat ((List.range n).map (fun i => ((l.reverse.find? (fun p => p.1 = a + i)).map (·.2)).getD 0)))
  else none

/-- A write transaction (R35, R37): the registers it fills whole, each byte that falls on MBX_DOORBELL and RSP_RELEASE,
and what falls into a command window. DEDUCED, log entry 12; DESIGN CHOICE, log entry 88. -/
def State.linkWrites (addr : Nat) (data : List Byte) (s : State) : State :=
  if !s.m.linkUp then s
  else
    let l := writtenAt (addr % 65536) data
    let s1 : State := match regWritten 4 4 l with | some v => { s with m := s.m.writeConfig v } | none => s
    let s2 : State := match regWritten 8 4 l with | some v => { s1 with m := s1.m.clearSticky v } | none => s1
    let s3 := (l.filter (fun p => p.1 = 0x10)).foldl (fun s p => State.doorbells p.2.toNat s) s2
    let s4 := (l.filter (fun p => p.1 = 0x11)).foldl (fun s p => ({ s with m := s.m.release p.2.toNat } : State)) s3
    let win := l.filter (fun p => 0x1000 ≤ p.1 && p.1 < 0x2000)
    match win.head? with
    | none   => s4
    | some p => State.windowWrite ((p.1 - 0x1000) / 0x400) (p.1 % 0x400) (win.map (·.2)) s4

/-! ### EVT_N (R61, R473) -/

/-- Whether EVT_N is low as a level. -/
def Mod.evtLevel (m : Mod) : Bool :=
  m.link.evtLow || (!m.link.evtPulse && (!m.hostQ.entries.isEmpty
    || (m.link.rspIrq && m.mbx.any Mailbox.isReady) || (m.link.streamIrq && (List.range 8).any m.streamData)))

/-- The pulse that waited for the gap of 100 µs. DESIGN CHOICE, log entry 87. -/
def Mod.pulseNow (m : Mod) : Mod :=
  if m.link.pulseDue && m.link.evtPulse then
    let m1 := m.reach (m.link.lastPulsePs.getD 0 + 100000000)
    { m1 with link := { m1.link with pulseDue := false, lastPulsePs := some m1.now, pulses := m1.link.pulses + 1 } }
  else { m with link := { m.link with pulseDue := false } }

/-- The delay of REPORT_SPREAD ends for session `k` (R386). -/
def Mod.releaseEvents (k : Nat) (m : Mod) : Mod :=
  match (m.sessAt k).bind (·.waitPs) with
  | none   => m
  | some p => (m.reach p).modSess k Session.sendEvents

/-! ### The commands -/

/-- `LINK_READ` (R35, R37). -/
def execLinkRead (addr len : Nat) (s : State) : Host.Outcome State Fault Refusal := onMod s (s.m.linkReads addr len)

/-- `LINK_WRITE` (R35, R37). -/
def execLinkWrite (addr : Nat) (data : List Byte) (s : State) : Host.Outcome State Fault Refusal := .next (State.linkWrites addr data s)

/-- `LINK_MODE_RESET` (R36): at least 16 clocks return the link to SPI mode and clear QUAD_EN. -/
def execLinkModeReset (clocks : Nat) (s : State) : Host.Outcome State Fault Refusal :=
  onMod s (if 16 ≤ clocks then { s.m with link := { s.m.link with quad := false, quadEn := false } } else s.m)

/-- `QUAD_EN_WRITE` (R36): a write of HL_CONFIG. -/
def execQuadEnWrite (value : Nat) (s : State) : Host.Outcome State Fault Refusal :=
  onMod s (if s.m.linkUp then s.m.writeConfig value else s.m)

/-- `HL_STATUS_CLEAR` (R39). -/
def execHlStatusClear (value : Nat) (s : State) : Host.Outcome State Fault Refusal :=
  onMod s (if s.m.linkUp then s.m.clearSticky value else s.m)

/-- `MBX_DOORBELL` (R42, R43). -/
def execMbxDoorbell (mask : Nat) (s : State) : Host.Outcome State Fault Refusal :=
  .next (if s.m.linkUp then State.doorbells mask s else s)

/-- `RSP_RELEASE` (R42, R65). -/
def execRspRelease (mask : Nat) (s : State) : Host.Outcome State Fault Refusal := onMod s (if s.m.linkUp then s.m.release mask else s.m)

/-- `COMMAND_WINDOW_WRITE` (R42, R44). -/
def execCommandWindowWrite (n offset : Nat) (data : List Byte) (s : State) : Host.Outcome State Fault Refusal :=
  if n < 4 && offset < 1024 then .next (if s.m.linkUp then State.windowWrite n offset data s else s) else .fault .noSuchUnit

/-- `RESPONSE_FIFO_READ` (R44, R65): a read of response window n. -/
def execResponseFifoRead (n len : Nat) (s : State) : Host.Outcome State Fault Refusal :=
  onUnit (n < 4) s (s.m.linkReads (0x2000 + 0x400 * n) len)

/-- `EVT_N_PULSE` (R61). -/
def execEvtNPulse (s : State) : Host.Outcome State Fault Refusal := onMod s s.m.pulseNow

/-- `EVENT_FRAME_RELEASE` (R386). -/
def execEventFrameRelease (k : Nat) (s : State) : Host.Outcome State Fault Refusal := onMod s (s.m.releaseEvents k)

end Sys2Proof.Machine
end

