-- ==== Sys2Proof/Machine/FrameRows.lean ====
section
/-!
DEFINITION. The commands that a host sends in a frame (R46, R48): each builds its frame, which its mailbox or session
takes whole. A frame for a mailbox of the serial link is one that the host has written into the command
window and submitted.
-/
namespace Sys2Proof.Machine

/-- The fields of a frame in their widths (R46). -/
def Frame.sized (f : Frame) : Frame :=
  { f with h := { f.h with seq := f.h.seq % 65536 }, op := f.op % 256, idx := f.idx % 65536, sub := f.sub % 256 }

/-- A frame submitted to mailbox `n` of the serial link (R41 to R44). DEDUCED, log entry 21. -/
def State.mailboxFrame (n : Nat) (f : Frame) (s : State) : State :=
  let x := s.m.mbx.getD n {}
  if !s.m.link.ready then s
  else if x.gen = 3 then
    (if !s.m.link.quadEn then { s with m := s.m.frameErrorSet }
     else if 974 < f.data.length || !f.h.crcOk then { s with m := s.m.dropFifo n }
     else State.takes 3 (!f.h.genOk) f s)
  else if x.busy || x.rspReady then { s with m := s.m.bellLost }
  else if s.m.muted (.mbx n) then s
  else if x.gen = 1 then State.takesAt n (56 < f.data.length) { f with data := f.data.take 56 } s
  else if 1012 < f.data.length || !f.h.crcOk then { s with m := s.m.crcFails n f }
  else State.takesAt n (!f.h.genOk) f s

/-- A frame on network session `k` (R49, R389): one whose CRC fails, or whose length lies outside its limits, closes
the session. DEDUCED, log entry 21. -/
def State.sessionFrame (k : Nat) (f : Frame) (s : State) : State :=
  match s.m.sessAt k with
  | none   => s
  | some x =>
    if !x.isOpen then s
    else if 974 < f.data.length || !f.h.crcOk then { s with m := s.m.closeSession k }
    else State.takes 3 (!f.h.genOk) f { s with m := s.m.modSess k (fun y => { y with lastPs := s.m.now }) }

/-- A frame of a sender that has a command channel. DESIGN CHOICE, log entry 8. -/
def State.frame (f : Frame) (s : State) : Host.Outcome State Fault Refusal :=
  match f.h.snd with
  | .mbx n     => if n < 4 then .next (State.mailboxFrame n f.sized s) else .fault .noSuchUnit
  | .session k => .next (State.sessionFrame k f.sized s)
  | _          => .fault .noSuchUnit

/-- `READ` (R48). -/
def execRead (h : Hdr) (index sub : Nat) (s : State) : Host.Outcome State Fault Refusal :=
  State.frame ⟨h, 1, index, sub, []⟩ s

/-- `WRITE` (R48, R72). -/
def execWrite (h : Hdr) (index sub : Nat) (data : List Byte) (s : State) : Host.Outcome State Fault Refusal :=
  State.frame ⟨h, 2, index, sub, data⟩ s

/-- `WRITE_COMMIT` (R48). -/
def execWriteCommit (h : Hdr) (index sub : Nat) (data : List Byte) (s : State) : Host.Outcome State Fault Refusal :=
  State.frame ⟨h, 3, index, sub, data⟩ s

/-- `GROUP_BEGIN` (R52). -/
def execGroupBegin (h : Hdr) (s : State) : Host.Outcome State Fault Refusal :=
  State.frame ⟨h, 5, 0, 0, []⟩ s

/-- `GROUP_COMMIT` (R54, R55). -/
def execGroupCommit (h : Hdr) (applyTime : Option Nat) (s : State) : Host.Outcome State Fault Refusal :=
  State.frame ⟨h, 6, 0, 0, (match applyTime with | some t => leBytes 8 t | none => [])⟩ s

/-- `STREAM_OPEN` (R62). -/
def execStreamOpen (h : Hdr) (index channel : Nat) (args : List Byte) (s : State) : Host.Outcome State Fault Refusal :=
  State.frame ⟨h, 8, index, channel, args⟩ s

/-- `STREAM_CLOSE` (R62). -/
def execStreamClose (h : Hdr) (channel : Nat) (s : State) : Host.Outcome State Fault Refusal :=
  State.frame ⟨h, 9, 0, channel, []⟩ s

/-- `EVENT_ACK` (R61). -/
def execEventAck (h : Hdr) (q : Nat) (s : State) : Host.Outcome State Fault Refusal :=
  State.frame ⟨h, 10, 0, 0, (leBytes 2 q)⟩ s

/-- `TICK_STATS_CLEAR` (R84). -/
def execTickStatsClear (h : Hdr) (s : State) : Host.Outcome State Fault Refusal :=
  State.frame ⟨h, 4, 0x1205, 0, []⟩ s

/-- `CAL_ZERO` (R100, R101). -/
def execCalZero (h : Hdr) (chan blocks : Nat) (s : State) : Host.Outcome State Fault Refusal :=
  State.frame ⟨h, 4, 0x2100, 0, (leBytes 1 chan ++ leBytes 1 0 ++ leBytes 4 0 ++ leBytes 2 blocks)⟩ s

/-- `CAL_DC_SPAN` (R100, R101). -/
def execCalDcSpan (h : Hdr) (chan ref blocks : Nat) (s : State) : Host.Outcome State Fault Refusal :=
  State.frame ⟨h, 4, 0x2100, 0, (leBytes 1 chan ++ leBytes 1 1 ++ leBytes 4 ref ++ leBytes 2 blocks)⟩ s

/-- `CAL_AC_SPAN` (R100, R101). -/
def execCalAcSpan (h : Hdr) (chan ref blocks : Nat) (s : State) : Host.Outcome State Fault Refusal :=
  State.frame ⟨h, 4, 0x2100, 0, (leBytes 1 chan ++ leBytes 1 2 ++ leBytes 4 ref ++ leBytes 2 blocks)⟩ s

/-- `CAL_APPLY` (R100, R102). -/
def execCalApply (h : Hdr) (chan : Nat) (s : State) : Host.Outcome State Fault Refusal :=
  State.frame ⟨h, 4, 0x2100, 0, (leBytes 1 chan ++ leBytes 1 3 ++ leBytes 6 0)⟩ s

/-- `CAL_ABORT` (R100, R101). -/
def execCalAbort (h : Hdr) (chan : Nat) (s : State) : Host.Outcome State Fault Refusal :=
  State.frame ⟨h, 4, 0x2100, 0, (leBytes 1 chan ++ leBytes 1 4 ++ leBytes 6 0)⟩ s

/-- `CTX_RESET` (R126, R139). -/
def execCtxReset (h : Hdr) (n : Nat) (s : State) : Host.Outcome State Fault Refusal :=
  State.frame ⟨h, 4, 0x2701, 0, (leBytes 1 n)⟩ s

/-- `TRACE_ARM` (R143). -/
def execTraceArm (h : Hdr) (s : State) : Host.Outcome State Fault Refusal :=
  State.frame ⟨h, 4, 0x7004, 0, []⟩ s

/-- `TRACE_STOP` (R143). -/
def execTraceStop (h : Hdr) (s : State) : Host.Outcome State Fault Refusal :=
  State.frame ⟨h, 4, 0x7005, 0, []⟩ s

/-- `TRACE_FORCE` (R142). -/
def execTraceForce (h : Hdr) (s : State) : Host.Outcome State Fault Refusal :=
  State.frame ⟨h, 4, 0x7006, 0, []⟩ s

/-- `INJ_START` (R149, R150). -/
def execInjStart (h : Hdr) (s : State) : Host.Outcome State Fault Refusal :=
  State.frame ⟨h, 4, 0x2711, 0, [0]⟩ s

/-- `INJ_STOP` (R150). -/
def execInjStop (h : Hdr) (s : State) : Host.Outcome State Fault Refusal :=
  State.frame ⟨h, 4, 0x2711, 0, [1]⟩ s

/-- `GF_START` (R162, R515). -/
def execGfStart (h : Hdr) (sec : Nat) (s : State) : Host.Outcome State Fault Refusal :=
  if sec < 4 then State.frame ⟨h, 4, (0x3004 + sec), 0, [0]⟩ s else .fault .noSuchUnit

/-- `GF_STOP` (R163, R515). -/
def execGfStop (h : Hdr) (sec : Nat) (s : State) : Host.Outcome State Fault Refusal :=
  if sec < 4 then State.frame ⟨h, 4, (0x3004 + sec), 0, [1]⟩ s else .fault .noSuchUnit

/-- `ID_RUN` (R185). -/
def execIdRun (h : Hdr) (sec : Nat) (s : State) : Host.Outcome State Fault Refusal :=
  if sec < 4 then State.frame ⟨h, 4, (0x3058 + sec), 0, []⟩ s else .fault .noSuchUnit

/-- `DC_START` (R213, R515). -/
def execDcStart (h : Hdr) (chan : Nat) (s : State) : Host.Outcome State Fault Refusal :=
  if chan < 4 then State.frame ⟨h, 4, (0x3504 + chan), 0, [0]⟩ s else .fault .noSuchUnit

/-- `DC_STOP` (R214, R515). -/
def execDcStop (h : Hdr) (chan : Nat) (s : State) : Host.Outcome State Fault Refusal :=
  if chan < 4 then State.frame ⟨h, 4, (0x3504 + chan), 0, [1]⟩ s else .fault .noSuchUnit

/-- `SCAN_RUN` (R217). -/
def execScanRun (h : Hdr) (chan : Nat) (s : State) : Host.Outcome State Fault Refusal :=
  if chan < 4 then State.frame ⟨h, 4, (0x352C + chan), 0, []⟩ s else .fault .noSuchUnit

/-- `PWM_TRIP_CLEAR` (R275, R299). -/
def execPwmTripClear (h : Hdr) (groups : Nat) (s : State) : Host.Outcome State Fault Refusal :=
  State.frame ⟨h, 4, 0x40F0, 0, (leBytes 1 groups)⟩ s

/-- `PWM_DIRECT_START` (R257, R516). -/
def execPwmDirectStart (h : Hdr) (group : Nat) (s : State) : Host.Outcome State Fault Refusal :=
  State.frame ⟨h, 4, 0x40F1, 0, (leBytes 1 group ++ [0])⟩ s

/-- `PWM_DIRECT_STOP` (R257). -/
def execPwmDirectStop (h : Hdr) (group : Nat) (s : State) : Host.Outcome State Fault Refusal :=
  State.frame ⟨h, 4, 0x40F1, 0, (leBytes 1 group ++ [1])⟩ s

/-- `RETIRE` (R301). -/
def execRetire (h : Hdr) (kind unit : Nat) (s : State) : Host.Outcome State Fault Refusal :=
  State.frame ⟨h, 4, 0x44B0, 0, (leBytes 1 0 ++ leBytes 1 kind ++ leBytes 1 unit)⟩ s

/-- `REINSTATE` (R301). -/
def execReinstate (h : Hdr) (kind unit : Nat) (s : State) : Host.Outcome State Fault Refusal :=
  State.frame ⟨h, 4, 0x44B0, 0, (leBytes 1 1 ++ leBytes 1 kind ++ leBytes 1 unit)⟩ s

/-- `INTEGRITY_CLEAR` (R319). -/
def execIntegrityClear (h : Hdr) (s : State) : Host.Outcome State Fault Refusal :=
  State.frame ⟨h, 4, 0x4630, 0, []⟩ s

/-- `LANE_SWITCHOVER` (R341, R342). -/
def execLaneSwitchover (h : Hdr) (s : State) : Host.Outcome State Fault Refusal :=
  State.frame ⟨h, 4, 0x4801, 0, []⟩ s

/-- `LANE_RESYNC` (R340, R342). -/
def execLaneResync (h : Hdr) (s : State) : Host.Outcome State Fault Refusal :=
  State.frame ⟨h, 4, 0x4802, 0, []⟩ s

/-- `SDC_FAULT_CLEAR` (R358). -/
def execSdcFaultClear (h : Hdr) (s : State) : Host.Outcome State Fault Refusal :=
  State.frame ⟨h, 4, 0x4A20, 0, []⟩ s

/-- `TIME_SET` (R378, R395). -/
def execTimeSet (h : Hdr) (t : Nat) (s : State) : Host.Outcome State Fault Refusal :=
  State.frame ⟨h, 4, 0x5003, 0, (leBytes 8 t)⟩ s

/-- `TIME_REACQUIRE` (R382). -/
def execTimeReacquire (h : Hdr) (s : State) : Host.Outcome State Fault Refusal :=
  State.frame ⟨h, 4, 0x5004, 0, []⟩ s

/-- `SCHED_CANCEL` (R380). -/
def execSchedCancel (h : Hdr) (e : Nat) (s : State) : Host.Outcome State Fault Refusal :=
  State.frame ⟨h, 4, 0x5041, 0, (leBytes 1 e)⟩ s

/-- `SENSOR_RESTORE` (R419). -/
def execSensorRestore (h : Hdr) (sensor : Nat) (s : State) : Host.Outcome State Fault Refusal :=
  State.frame ⟨h, 4, 0x5838, 0, (leBytes 1 sensor)⟩ s

/-- `CD_FAULT_CLEAR` (R430). -/
def execCdFaultClear (h : Hdr) (s : State) : Host.Outcome State Fault Refusal :=
  State.frame ⟨h, 4, 0x5858, 0, []⟩ s

/-- `HK_URGENT` (R447). -/
def execHkUrgent (h : Hdr) (input : Nat) (s : State) : Host.Outcome State Fault Refusal :=
  State.frame ⟨h, 4, 0x5DC0, 0, (leBytes 1 input)⟩ s

/-- `SESSION_OPEN` (R462). -/
def execSessionOpen (h : Hdr) (nonce : List Byte) (s : State) : Host.Outcome State Fault Refusal :=
  State.frame ⟨h, 4, 0x6421, 0, nonce⟩ s

/-- `KEY_INSTALL` (R463). -/
def execKeyInstall (h : Hdr) (data : List Byte) (s : State) : Host.Outcome State Fault Refusal :=
  State.frame ⟨h, 4, 0x6420, 0, data⟩ s

/-- `CERT_INSTALL` (R459). -/
def execCertInstall (h : Hdr) (der : List Byte) (s : State) : Host.Outcome State Fault Refusal :=
  State.frame ⟨h, 4, 0x6403, 0, der⟩ s

/-- `TRUST_ANCHOR` (R460). -/
def execTrustAnchor (h : Hdr) (k : Nat) (der : List Byte) (s : State) : Host.Outcome State Fault Refusal :=
  State.frame ⟨h, 4, 0x6404, (k + 1), der⟩ s

/-- `CRL_INSTALL` (R456, R460, R468). -/
def execCrlInstall (h : Hdr) (offset : Nat) (chunk : List Byte) (s : State) : Host.Outcome State Fault Refusal :=
  State.frame ⟨h, 4, 0x6405, 0, (leBytes 4 offset ++ chunk)⟩ s

/-- `FW_UPLOAD` (R456). -/
def execFwUpload (h : Hdr) (offset : Nat) (chunk : List Byte) (s : State) : Host.Outcome State Fault Refusal :=
  State.frame ⟨h, 2, 0x6450, 0, (leBytes 4 offset ++ chunk)⟩ s

/-- `FW_STAGE` (R456). -/
def execFwStage (h : Hdr) (s : State) : Host.Outcome State Fault Refusal :=
  State.frame ⟨h, 4, 0x6451, 0, []⟩ s

/-- `FW_ACTIVATE` (R457). -/
def execFwActivate (h : Hdr) (s : State) : Host.Outcome State Fault Refusal :=
  State.frame ⟨h, 4, 0x6452, 0, []⟩ s

/-- `FW_COMMIT` (R458). -/
def execFwCommit (h : Hdr) (s : State) : Host.Outcome State Fault Refusal :=
  State.frame ⟨h, 4, 0x6453, 0, []⟩ s

/-- `CERT_MODE_ENTER` (R467). -/
def execCertModeEnter (h : Hdr) (s : State) : Host.Outcome State Fault Refusal :=
  State.frame ⟨h, 4, 0x6454, 0, [1]⟩ s

/-- `CERT_MODE_LEAVE` (R467). -/
def execCertModeLeave (h : Hdr) (s : State) : Host.Outcome State Fault Refusal :=
  State.frame ⟨h, 4, 0x6454, 0, [0]⟩ s

/-- `DEBUG_UNLOCK` (R466). -/
def execDebugUnlock (h : Hdr) (s : State) : Host.Outcome State Fault Refusal :=
  State.frame ⟨h, 4, 0x6470, 0, []⟩ s

/-- `DEBUG_RESPONSE` (R466). -/
def execDebugResponse (h : Hdr) (signature : List Byte) (s : State) : Host.Outcome State Fault Refusal :=
  State.frame ⟨h, 4, 0x6471, 0, signature⟩ s

/-- `PLAN_NOW` (R489). -/
def execPlanNow (h : Hdr) (s : State) : Host.Outcome State Fault Refusal :=
  State.frame ⟨h, 4, 0x6002, 0, []⟩ s

/-- `AGEING_REBASE` (R493). -/
def execAgeingRebase (h : Hdr) (kind unit : Nat) (s : State) : Host.Outcome State Fault Refusal :=
  State.frame ⟨h, 4, 0x6004, 0, (leBytes 1 kind ++ leBytes 1 unit)⟩ s

end Sys2Proof.Machine
end

