-- ==== Sys2Proof/Machine/Meter.lean ====
section
/-!
DEFINITION. Metering (R93, R94): the blocks of a unit, the mean and RMS of its channels, its powers and energies, and what a block
gives a calibration (R101).
-/
namespace Sys2Proof.Machine

def Mod.meterAt (m : Mod) (g : Nat) : MeterRt := m.meas.meter.getD g {}
def Mod.modMeter (g : Nat) (f : MeterRt → MeterRt) (m : Mod) : Mod := m.modMeas (fun x => { x with meter := x.meter.modify g f })

/-- The unit by whose blocks a channel is metered (R93): a section before a DC channel, the lowest of each. -/
def Mod.meterUnit (m : Mod) (n : Nat) : Option Nat := (List.range 8).find? (fun g => bit (m.owners n) g)

/-- The end of the block of a unit, in ps since power-up (R93): the upward zero of GRID_PHASE of a section with a valid angle; otherwise
20 ms or METER_BLOCK from its start, a block starting at every whole TAI second. DEDUCED, log entry 101. -/
def Mod.blockEndPs (m : Mod) (g : Nat) : Option Nat :=
  let x := m.meterAt g
  if g < 4 && m.get (Ob.angleValid g) = 1 then x.zeroPs
  else
    let start : Int := m.clk.taiBase * 1000 + (x.startPs : Int)
    let len : Int := msPs (if g < 4 then 20 else m.get Ob.meterBlock)
    let second : Int := (start / 1000000000000 + 1) * 1000000000000
    some (min (start + len) second - m.clk.taiBase * 1000).toNat

/-- Whether a channel has been valid since an instant. -/
def Mod.validSince (m : Mod) (n ps : Nat) : Bool := m.chValid n && (match (m.chAt n).badPs with | some t => t < ps | none => true)

/-- The outputs of the metering filter of a channel in a block. -/
def outputsOf (b : MeterBlock) (n : Nat) : List Int := ((b.series.find? (fun c => c.1 = n)).map (·.2)).getD []

/-- They in pu, in LSB. DEDUCED, log entry 101. -/
def Mod.puSeries (m : Mod) (b : MeterBlock) (n : Nat) : List Rat := (outputsOf b n).map (m.scaledD n)

/-- The mean of the squares; 0 of none. -/
def meanSquare (l : List Rat) : Rat := meanR (l.map (fun x => x * x))

/-- The square of the ratio of a peak base to the RMS base of the same quantity (R8): 2 for the phase quantities of a section. -/
def rmsFactor (role : Nat) : Rat := if 1 ≤ role && role ≤ 3 then 2 else 1

/-- METER_MEAN and METER_RMS of the channels that are metered by a unit's blocks. -/
def Mod.meterChans (g : Nat) (b : MeterBlock) (m : Mod) : Mod :=
  m.each ((List.range 24).filter (fun n => m.meterUnit n = some g && !(outputsOf b n).isEmpty)) (fun n m =>
    let l := m.puSeries b n
    (m.putQ (Ob.meterMean n) (q29OfLsb (meanR l))).putQ (Ob.meterRms n)
      (q29OfLsb (sqrtExact (rmsFactor (m.get (Ob.role n)) * meanSquare l))))

/-- The channels of a unit's voltages and of its currents, those of a section by phase; the grid side where it is assigned (R94). -/
def Mod.meterVolts (m : Mod) (g : Nat) : List Nat :=
  let by_ (r : Nat) : List Nat := (List.range 3).flatMap (fun k => (m.roleChans g r).filter (fun n => m.get (Ob.phase n) = k))
  if g < 4 then by_ (if m.hasPhases g 3 then 3 else 2) else (m.roleChans g 8).take 1
def Mod.meterAmps (m : Mod) (g : Nat) : List Nat :=
  if g < 4 then (List.range 3).flatMap (fun k => (m.roleChans g 1).filter (fun n => m.get (Ob.phase n) = k)) else m.roleChans g 7

/-- The mean product of a voltage and a current, in pu. DEDUCED, log entry 101. -/
def Mod.meanPower (m : Mod) (b : MeterBlock) (v i : Nat) : Rat :=
  meanR (((m.puSeries b v).zip (m.puSeries b i)).map (fun p => p.1 * p.2)) / (536870912 * 536870912)

/-- The active power of a block in pu (R8): two thirds of the sum over the phases, on peak bases; of a DC channel its source voltage
times all of its currents. -/
def Mod.blockPower (m : Mod) (g : Nat) (b : MeterBlock) : Rat :=
  let vs := m.meterVolts g
  let is := m.meterAmps g
  if g < 4 then 2 / 3 * ((vs.zip is).map (fun p => m.meanPower b p.1 p.2)).foldl (· + ·) 0
  else (is.map (m.meanPower b (vs.headD 24))).foldl (· + ·) 0

/-- The RMS value of the channels of a section together, in LSB of its RMS base. -/
def Mod.sectionRms (m : Mod) (b : MeterBlock) (ns : List Nat) : Rat :=
  sqrtExact (2 * meanR (ns.map (fun n => meanSquare (m.puSeries b n))))

/-- Rated power of a unit, W. -/
def Mod.ratedPower (m : Mod) (g : Nat) : Rat := if g < 4 then m.getF (Ob.sRated g) else m.getF (Ob.pRated (g - 4))

/-- The energy of a block, in mWh, added to the counter that its sign names; what is below one mWh stays for the next block.
DEDUCED, log entry 101. -/
def Mod.addEnergy (g outKey inKey : Nat) (mwh : Rat) (m : Mod) : Mod :=
  let x := m.meterAt g
  let out := 0 ≤ mwh
  let total := (if out then x.remOut else x.remIn) + absR mwh
  let whole := total.floor.toNat
  let rest := total - (whole : Nat)
  let key := if out then outKey else inKey
  (m.modMeter g (fun y => if out then { y with remOut := rest } else { y with remIn := rest })).keep key
    ((m.get key + whole) % 18446744073709551616)

/-- Results of a valid block of a unit (R94). -/
def Mod.blockResults (g : Nat) (b : MeterBlock) (secs : Rat) (m : Mod) : Mod :=
  let p := m.blockPower g b
  let mwh := p * m.ratedPower g * secs * 10 / 36
  if g < 4 then
    ((((m.putQ (Ob.acP g) (q29Of p)).putQ (Ob.acQ g) b.q).putQ (Ob.vRms g) (q29OfLsb (m.sectionRms b (m.meterVolts g)))).putQ (Ob.iRms g)
      (q29OfLsb (m.sectionRms b (m.meterAmps g)))).addEnergy g (Ob.acEnergyOut g) (Ob.acEnergyIn g) mwh
  else (m.putQ (Ob.pDc (g - 4)) (q29Of p)).addEnergy g (Ob.dcEnergyOut (g - 4)) (Ob.dcEnergyIn (g - 4)) mwh

/-- The value that a block gives a running calibration point (R101): the mean of d, or the RMS of d − d_zero. -/
def Mod.calValue (m : Mod) (pt : Nat) (l : List Int) : Int :=
  let z := m.getS Ob.dZero
  if pt = 2 then q29OfLsb (sqrtExact (meanSquare (l.map (fun (d : Int) => ((d - z : Int) : Rat))))) else q29OfLsb (meanV l)

/-- A block of the unit that meters the channel under calibration: its value, or, where it is invalid, the end of the point. -/
def Mod.calBlock (g : Nat) (b : MeterBlock) (startPs : Nat) (m : Mod) : Mod :=
  let c := m.meas.cal
  match c.run with
  | none    => m
  | some pt =>
    if m.meterUnit c.chan ≠ some g || c.blocks ≤ c.vals.length then m
    else if m.validSince c.chan startPs && !(outputsOf b c.chan).isEmpty then
      m.modCal (fun x => { x with vals := x.vals ++ [m.calValue pt (outputsOf b c.chan)] })
    else m.calAborted

/-- A metering block of a unit ends (R93, R94). A block in which any sample used is invalid adds nothing.
DEDUCED, log entry 49; DESIGN CHOICE, log entry 85. -/
def Mod.meterBlock (b : MeterBlock) (m0 : Mod) : Mod :=
  let g := b.unit
  match m0.blockEndPs g with
  | none   => m0
  | some e =>
    let start := (m0.meterAt g).startPs
    let m := ((m0.reach e).meterChans g b).calBlock g b start
    let used := m.meterVolts g ++ m.meterAmps g
    let secs : Rat := ((e - start : Nat) : Rat) / 1000000000000
    let ok := m.inUse g && !(m.meterVolts g).isEmpty && !(m.meterAmps g).isEmpty && used.all (fun n => m.validSince n start)
    let m1 := if ok then m.blockResults g b secs else m
    let m2 := m1.modMeter g (fun x => { x with startPs := e, zeroPs := none })
    if g < 4 then m2.put (Ob.blockEnd g) m2.t64 else m2

/-- METER_BLOCK_END (R94). -/
def execMeterBlockEnd (blk : MeterBlock) (s : State) : Host.Outcome State Fault Refusal :=
  onUnit (blk.unit < 8) s (s.m.meterBlock blk)

end Sys2Proof.Machine
end

