-- ==== Sys2Proof/Machine/Net.lean ====
section
/-!
DEFINITION. The network services: TCP connections and TLS handshakes (R389, R460, R461, R464), link state (R387), Modbus
(R390, R393) and the DNP3 outstation (R391, R393).
-/
namespace Sys2Proof.Machine

def Mod.modNet (f : NetRt → NetRt) (m : Mod) : Mod := { m with net := f m.net }

/-! ### Connections (R389 to R391, R464) -/

/-- A connection is reset. -/
def Mod.resetConnection (m : Mod) : Mod := m.modNet (fun n => { n with refused := n.refused + 1 })

/-- A connection opens under the lowest free key. DEDUCED, log entry 80. -/
def Mod.connect (kind : SessKind) (addr base n : Nat) (m : Mod) : Mod :=
  match m.freeKey base n with
  | none   => m.resetConnection
  | some k => { m with sess := m.sess ++ [(k, { kind := kind, addr := addr, lastPs := m.now })] }

/-- A TCP connection arrives. DESIGN CHOICE, log entry 88. -/
def Mod.tcpConnect (addr port : Nat) (m : Mod) : Mod :=
  if !m.link.ready then m
  else if m.net.banned.any (fun p => p.1 = addr) then m.resetConnection
  else if port = m.get Ob.ghp3Port then m.connect .ghp3 addr 0 8
  else if port = 502 && m.get Ob.mbTcpEn = 1 then m.connect .modbus addr 8 4
  else if port = 20000 && m.get Ob.dnpEn = 1 then m.connect .dnp3 addr 12 1
  else m.resetConnection

/-- UTC in seconds (R376). DEDUCED, log entry 80. -/
def Mod.utcSeconds (m : Mod) : Int := m.tai / 1000000000 - m.getS16 Ob.utcOffset

/-- Whether a peer's certificate stands in its time (R460). -/
def Mod.peerInTime (m : Mod) (p : TlsPeer) : Bool :=
  if m.time.stepped then (p.notBefore : Int) ≤ m.utcSeconds && m.utcSeconds ≤ (p.notAfter : Int)
  else Config.buildDate < p.notAfter

/-- The role and the head-end flag that a peer is granted; none where the handshake fails (R455, R460, R461). -/
def Mod.peerGrant (m : Mod) (p : TlsPeer) : Option (Nat × Bool) :=
  match p.anchor, p.ext with
  | some a, some (role, head) =>
    if m.cirqueOk && p.paramsOk && a < 4 && !(m.secu.anchors.getD a []).isEmpty && 1 ≤ role && role ≤ 3
        && !m.secu.revoked.contains p.serial && m.peerInTime p then some (role, head)
    else none
  | _, _ => none

/-- A failed handshake closes its connection; the tenth within 60 s resets the address's connections for 300 s (R464).
DEDUCED, log entry 80. -/
def Mod.handshakeFails (k addr : Nat) (m : Mod) : Mod :=
  let old := m.net.fails.filter (fun p => m.now < p.2 + sPs 60)
  let all := old ++ [(addr, m.now)]
  let ban := 10 ≤ (all.filter (fun p => p.1 = addr)).length
  (m.closeSession k).modNet (fun n => { n with
    fails  := if ban then all.filter (fun p => p.1 ≠ addr) else all
    banned := if ban then n.banned ++ [(addr, m.now + sPs 300)] else n.banned })

/-- A TLS handshake of a connection that waits for one. DESIGN CHOICE, log entry 88. -/
def Mod.tlsHandshake (p : TlsPeer) (m : Mod) : Mod :=
  match m.sess.find? (fun x => x.2.kind = .ghp3 && !x.2.tls && x.2.addr = p.addr) with
  | none => m
  | some (k, _) =>
    match m.peerGrant p with
    | none => m.handshakeFails k p.addr
    | some (role, head) =>
      let m1 := m.modSess k (fun x => { x with
        tls := true, evq := { masks := x.evq.masks }, headEnd := head, serial := p.serial, anchor := p.anchor.getD 0, lastPs := m.now
        chan := { x.chan with role := role, slot := some 255 } })
      m1.sessionChange ((m1.sessAt k).getD { kind := .ghp3, addr := p.addr }) false

/-- SESSION_IDLE passes without a frame. -/
def Mod.sessionIdle (k : Nat) (m : Mod) : Mod :=
  match m.sessAt k with
  | none   => m
  | some x => if x.kind = .ghp3 then (m.reach (x.lastPs + sPs (m.get Ob.sessionIdle))).closeSession k else m

/-- An Ethernet port's link comes up or goes down, with EV101. DEDUCED, log entry 80. -/
def Mod.linkState (port status : Nat) (m : Mod) : Mod :=
  if m.get (Ob.portLink port) = status % 256 then m
  else (m.put (Ob.portLink port) (status % 256)).inform 101 (port + 256 * (status % 256))

/-! ### Modbus (R390, R393) -/

/-- Registers that an entry of a type takes; none for a type that the map cannot hold. DEDUCED, log entry 79. -/
def mbRegs (t : ObjTy) : Option Nat :=
  if t = .var || t = .b32 then none
  else if t.size ≤ 2 then some 1
  else if t.size = 4 then some 2
  else if t.size = 8 then some 4
  else none

/-- The map entry at a register address, of the input or the holding registers. DEDUCED, log entry 79. -/
def Mod.mbEntry (m : Mod) (input : Bool) (a : Nat) : Option Nat :=
  (List.range 256).find? (fun e => m.get (Ob.mbObj e) ≠ 0 && m.get (Ob.mbReg e) = a && bit (m.get (Ob.mbFlags e)) 1 = input)

/-- Entry and registers of a map entry. DEDUCED, log entry 79. -/
def Mod.mbTarget (m : Mod) (e : Nat) : Option (Nat × Nat) :=
  match rowOf (m.get (Ob.mbObj e)) (m.get (Ob.mbSub e)) with
  | none   => none
  | some r => if r.acc = .act || r.acc = .src then none else (mbRegs r.ty).map (fun n => (m.get (Ob.mbObj e) * 256 + m.get (Ob.mbSub e), n))

/-- The entries that `count` registers from an address cover whole: map entry, key, registers; none otherwise. -/
def Mod.mbCover (m : Mod) (input : Bool) : Nat → Nat → Nat → Option (List (Nat × Nat × Nat))
  | 0, _, _              => none
  | _ + 1, _, 0          => some []
  | fuel + 1, a, c + 1   =>
    match (m.mbEntry input a).bind (fun e => (m.mbTarget e).map (fun t => (e, t))) with
    | none => none
    | some (e, k, n) =>
      if c + 1 < n then none
      else (Mod.mbCover m input fuel (a + n) (c + 1 - n)).map (fun l => (e, k, n) :: l)

/-- Registers of a raw value, high word first. -/
def regsOf : Nat → Nat → List Nat
  | 0, _     => []
  | n + 1, v => v / 65536 ^ n % 65536 :: regsOf n v

/-- The raw value of registers, high word first. -/
def ofRegs (l : List Nat) : Nat := l.foldl (fun a r => a * 65536 + r % 65536) 0

/-- The exception of a GHP status. -/
def mbException (st : Nat) : Nat := if st = 0x10 then 2 else if st = 0x11 then 3 else if st = 1 then 6 else 4

/-- The reply of a Modbus request: its exception, 0 for none, and its registers. -/
def Mod.mbAnswer (exc : Nat) (regs : List Nat) (m : Mod) : Mod := m.modNet (fun n => { n with mbReply := some (exc, regs) })

/-- A refusal with a GHP status; exception 04 keeps it in MB_LAST_STATUS. -/
def Mod.mbRefuse (st : Nat) (m : Mod) : Mod :=
  (if mbException st = 4 then m.put Ob.mbLastStatus st else m).mbAnswer (mbException st) []

/-- Whether the module serves a request: the protocol is on, the connection stands, the address is the module's.
PRESUMED, log entry 78. -/
def Mod.mbServed (m : Mod) (rq : MbReq) (writes : Bool) : Bool :=
  m.link.ready &&
  (if rq.rtu then m.get Ob.rs485Protocol = 1 && (rq.address = m.get Ob.rtuAddress || (writes && rq.address = 0))
   else m.get Ob.mbTcpEn = 1 && m.sess.any (fun p => p.2.kind = .modbus))

/-- The registers of the entries read, or the first status that refuses one. -/
def Mod.mbValues (kp : Kept) (snd : Sender) : List (Nat × Nat × Nat) → Mod → Except Nat (List Nat)
  | [], _ => .ok []
  | (_, k, n) :: rest, m =>
    let r := m.readEntry kp snd 974 (k / 256) (k % 256)
    if r.1 ≠ 0 then .error r.1
    else match Mod.mbValues kp snd rest m with
      | .error st => .error st
      | .ok l     => .ok (regsOf n (leNat r.2) ++ l)

/-- Functions 03 and 04. PRESUMED, log entry 78. -/
def Mod.mbRead (kp : Kept) (input : Bool) (rq : MbReq) (start count : Nat) (m : Mod) : Mod :=
  if !m.mbServed rq false then m
  else if count = 0 || 125 < count then m.mbAnswer 3 []
  else match m.mbCover input 257 start count with
    | none   => m.mbAnswer 2 []
    | some l =>
      match m.mbValues kp (.modbus rq.order) l with
      | .error st => m.mbRefuse st
      | .ok vs    => m.mbAnswer 0 vs

/-- The writes that values make on the entries they cover; none where a value does not fit its entry.
DEDUCED, log entry 79. -/
def mbWrites : List (Nat × Nat × Nat) → List Nat → Option (List (Nat × List Byte))
  | [], _ => some []
  | (_, k, n) :: rest, vs =>
    let raw := ofRegs (vs.take n)
    if 256 ^ (tyOf k).size ≤ raw then none
    else (mbWrites rest (vs.drop n)).map (fun l => (k, leBytes (tyOf k).size raw) :: l)

/-- The first status that refuses one of the writes of a request's own group. -/
def Mod.firstRefused (m : Mod) (snd : Sender) (laid : List (Nat × List Byte)) : List (Nat × List Byte) → Option Nat
  | []      => none
  | w :: ws =>
    match m.checkWrite snd roleOperator true false false laid w with
    | some st => some st
    | none    => Mod.firstRefused m snd (laid ++ [w]) ws

/-- Functions 06 and 16: the entries form one group, which is answered after its boundary. A broadcast is executed
without a reply (`seq` 1 marks its group). PRESUMED, log entry 78. -/
def Mod.mbWrite (rq : MbReq) (fc start : Nat) (values : List Nat) (m : Mod) : Mod :=
  let snd := Sender.modbus rq.order
  let quiet := rq.rtu && rq.address = 0
  let say (f : Mod → Mod) : Mod := if quiet then m else f m
  if !m.mbServed rq true then m
  else if values.isEmpty || 123 < values.length then say (Mod.mbAnswer 3 [])
  else if m.get Ob.mbWriteEn ≠ 1 then say (Mod.mbAnswer 1 [])
  else match m.mbCover false 257 start values.length with
    | none   => say (Mod.mbAnswer 2 [])
    | some l =>
      if l.any (fun x => !bit (m.get (Ob.mbFlags x.1)) 0) then say (Mod.mbAnswer 1 [])
      else match mbWrites l values with
        | none    => say (Mod.mbAnswer 3 [])
        | some ws =>
          match m.firstRefused snd m.stagedWrites ws with
          | some st => say (Mod.mbRefuse st)
          | none    =>
            m.stage { snd := snd, seq := b2n quiet, op := fc, idx := 0, sub := 0, work := .writes ws, isGroup := true } ws.length

/-! ### DNP3 (R391, R393) -/

/-- The point type of an object group. -/
def dnpTypeOf (g : Nat) : Nat :=
  if g = 1 || g = 2 then 1 else if g = 30 || g = 32 then 2 else if g = 20 || g = 22 then 3
  else if g = 10 || g = 12 then 4 else if g = 40 || g = 41 then 5 else 0

/-- The points of a type: mapped, of an entry that stands. -/
def Mod.dnpPoints (m : Mod) (t : Nat) : List Nat :=
  (List.range 256).filter (fun p => m.get (Ob.dnpType p) = t && (rowOf (m.get (Ob.dnpObj p)) (m.get (Ob.dnpSub p))).isSome)

/-- The key that a point maps. -/
def Mod.dnpKey (m : Mod) (p : Nat) : Nat := m.get (Ob.dnpObj p) * 256 + m.get (Ob.dnpSub p)

/-- The raw value of a point; a binary point reads whether its entry is not 0. -/
def Mod.dnpValue (kp : Kept) (m : Mod) (p : Nat) : Nat :=
  let v := leNat (m.readEntry kp (.dnp3 0) 974 (m.get (Ob.dnpObj p)) (m.get (Ob.dnpSub p))).2
  if m.get (Ob.dnpType p) = 1 then b2n (v ≠ 0) else v

/-- A raw value as a number in the units of its object. -/
def numberOf (t : ObjTy) (raw : Nat) : Rat :=
  if t = .f32 then (f32Val raw).getD 0 else if t = .q29 then pu (Raw.signed 32 raw) else (t.reading raw : Int)

/-- Whether a point has moved beyond its deadband. DEDUCED, log entry 79. -/
def Mod.dnpMoved (m : Mod) (p old new : Nat) : Bool :=
  if m.get (Ob.dnpType p) = 2 then
    m.getF (Ob.dnpDeadband p) < absR (numberOf (tyOf (m.dnpKey p)) new - numberOf (tyOf (m.dnpKey p)) old)
  else old ≠ new

/-- Whether the outstation serves its master. -/
def Mod.dnpOn (m : Mod) : Bool := m.get Ob.rs485Protocol = 2 || (m.get Ob.dnpEn = 1 && m.sess.any (fun p => p.2.kind = .dnp3))

/-- One point against the value last reported: an event where it has moved; the buffer holds 512. DEDUCED, log entry 79. -/
def Mod.dnpWatch (kp : Kept) (p : Nat) (m : Mod) : Mod :=
  let v := m.dnpValue kp p
  let note (m : Mod) : Mod := m.modNet (fun n => { n with dnpLast := n.dnpLast.filter (fun x => x.1 ≠ p) ++ [(p, v)] })
  match (m.net.dnpLast.find? (fun x => x.1 = p)).map (·.2) with
  | none     => note m
  | some old =>
    if !m.dnpMoved p old v then m
    else if 512 ≤ m.net.dnpEvents.length then note (m.modNet (fun n => { n with dnpOver := true }))
    else note (m.modNet (fun n => { n with dnpEvents := n.dnpEvents ++ [⟨p, v, m.tai - m.getS16 Ob.utcOffset * 1000000000⟩] }))

/-- With DNP_UNSOL_EN an unsolicited response carries the events that none has carried. -/
def Mod.dnpUnsolicited (m : Mod) : Mod :=
  let new := m.net.dnpEvents.drop m.net.dnpSent
  if m.get Ob.dnpUnsolEn = 1 && !new.isEmpty then m.modNet (fun n => { n with dnpUnsol := new, dnpSent := n.dnpEvents.length }) else m

/-- The watch over every input point and counter. -/
def Mod.dnpScan (kp : Kept) (m : Mod) : Mod :=
  if m.dnpOn then (m.each (m.dnpPoints 1 ++ m.dnpPoints 2 ++ m.dnpPoints 3) (Mod.dnpWatch kp)).dnpUnsolicited else m

/-- What a read of an object group answers: (point index, value) of its points, or of its events. -/
def Mod.dnpRead (kp : Kept) (m : Mod) (g : Nat) : List (Nat × Nat) :=
  if g = 2 || g = 22 || g = 32 then
    (m.net.dnpEvents.filter (fun e => m.get (Ob.dnpType e.point) = dnpTypeOf g)).map (fun e => (m.get (Ob.dnpIndex e.point), e.value))
  else (m.dnpPoints (dnpTypeOf g)).map (fun p => (m.get (Ob.dnpIndex p), m.dnpValue kp p))

/-- The write of a control: a binary output takes latch on or latch off. -/
def Mod.dnpOpWrite (m : Mod) (o : DnpOp) : Option (Nat × List Byte) :=
  match (m.dnpPoints (if o.binary then 4 else 5)).find? (fun p => m.get (Ob.dnpIndex p) = o.index) with
  | none   => none
  | some p =>
    let k := m.dnpKey p
    if o.binary then (if o.value ≤ 1 && (tyOf k).size = 1 then some (k, leBytes 1 o.value) else none)
    else if o.value < 256 ^ (tyOf k).size then some (k, leBytes (tyOf k).size o.value) else none

/-- The control status of every point of a request: 0 SUCCESS, otherwise the GHP status that refused it.
DEDUCED, log entry 79. -/
def Mod.dnpStatuses (ops : List Nat) (st : Nat) (m : Mod) : Mod := m.modNet (fun n => { n with dnpReply := ops.map (fun i => (i, st)) })

/-- A request of the master. A time synchronisation is answered and sets nothing. -/
def Mod.dnp3Request (kp : Kept) (rq : DnpReq) (m : Mod) : Mod :=
  let snd := Sender.dnp3 rq.order
  let on := if rq.serial then m.get Ob.rs485Protocol = 2 else m.get Ob.dnpEn = 1 && m.sess.any (fun p => p.2.kind = .dnp3)
  if !m.link.ready || !on || rq.master ≠ m.get Ob.dnpMaster || rq.dest ≠ m.get Ob.dnpAddr then m
  else
    let m1 := m.modNet (fun n => { n with
      dnpEvents := n.dnpEvents.drop rq.confirm, dnpSent := n.dnpSent - rq.confirm, dnpOver := n.dnpOver && rq.confirm = 0, dnpReply := [] })
    let m2 := m1.modNet (fun n => { n with dnpReply := rq.reads.flatMap (m1.dnpRead kp) })
    if rq.ops.isEmpty then m2
    else
      let ws := rq.ops.map m2.dnpOpWrite
      if ws.any (·.isNone) then m2.dnpStatuses (rq.ops.map (·.index)) 0x10
      else
        let l := ws.filterMap id
        match m2.firstRefused snd m2.stagedWrites l with
        | some st => m2.dnpStatuses (rq.ops.map (·.index)) st
        | none    =>
          (m2.dnpStatuses (rq.ops.map (·.index)) 3).stage
            { snd := snd, seq := 0, op := 5, idx := 0, sub := 0, work := .writes l, isGroup := true } l.length

/-! ### Answers after a boundary -/

/-- The answer of a Modbus or DNP3 request whose group has met its boundary. -/
def Mod.netAnswer (w : Staged) (st : Nat) (m : Mod) : Mod :=
  match w.snd with
  | .modbus _ => if w.seq = 1 then m else if st = 0 then m.mbAnswer 0 [] else m.mbRefuse st
  | .dnp3 _   => m.modNet (fun n => { n with dnpReply := n.dnpReply.map (fun p => (p.1, st)) })
  | _         => m

/-! ### The commands -/

/-- `TCP_CONNECT` (R389). -/
def execTcpConnect (addr port : Nat) (s : State) : Host.Outcome State Fault Refusal := onMod s (s.m.tcpConnect addr port)

/-- `TLS_HANDSHAKE` (R460, R461). -/
def execTlsHandshake (peer : TlsPeer) (s : State) : Host.Outcome State Fault Refusal := onMod s (s.m.tlsHandshake peer)

/-- `SESSION_IDLE_TIMEOUT` (R389). -/
def execSessionIdleTimeout (k : Nat) (s : State) : Host.Outcome State Fault Refusal := onMod s (s.m.sessionIdle k)

/-- `LINK_STATE` (R387, R397). -/
def execLinkState (port status : Nat) (s : State) : Host.Outcome State Fault Refusal := onUnit (port < 2) s (s.m.linkState port status)

/-- `MODBUS_READ_HOLDING` (R390). -/
def execModbusReadHolding (rq : MbReq) (start count : Nat) (s : State) : Host.Outcome State Fault Refusal :=
  onMod s (s.m.mbRead s.kept false rq start count)

/-- `MODBUS_READ_INPUT` (R390). -/
def execModbusReadInput (rq : MbReq) (start count : Nat) (s : State) : Host.Outcome State Fault Refusal :=
  onMod s (s.m.mbRead s.kept true rq start count)

/-- `MODBUS_WRITE_SINGLE` (R390, R393). -/
def execModbusWriteSingle (rq : MbReq) (reg value : Nat) (s : State) : Host.Outcome State Fault Refusal :=
  onMod s (s.m.mbWrite rq 6 reg [value])

/-- `MODBUS_WRITE_MULTIPLE` (R390, R393). -/
def execModbusWriteMultiple (rq : MbReq) (start : Nat) (values : List Nat) (s : State) : Host.Outcome State Fault Refusal :=
  onMod s (s.m.mbWrite rq 16 start values)

/-- `DNP3_REQUEST` (R391, R393). -/
def execDnp3Request (rq : DnpReq) (s : State) : Host.Outcome State Fault Refusal := onMod s (s.m.dnp3Request s.kept rq)

end Sys2Proof.Machine
end

