-- ==== Sys2Proof/Machine/Tick.lean ====
section
/-!
DEFINITION. The tick (R71 to R73, R80 to R83): the settlement of a boundary in rank order (R57), what a boundary brings
every chapter, the commit deadline with its transfer or its overrun.
-/
namespace Sys2Proof.Machine

/-! ### Claims and rank (R56, R57) -/

/-- What an item claims: the entries that it writes, as keys, and the sections and channels on which it acts, as groups
0 to 7. A write of OP_MODE to a section that runs is a transfer of that section (R178). -/
def Mod.claimsOf (m : Mod) (w : Staged) : List Nat :=
  match w.work with
  | .writes ws =>
    ws.map (·.1) ++ dedupe (m.movesOf ws ++ w.moves)
  | .unitAct idx a => unitClaims idx a

/-- Whether an item stands at or above another in the order of R57: source, mailbox, R393, then acceptance.
DEDUCED, log entry 36. -/
def Mod.ranksFirst (m : Mod) (a b : Staged) : Bool :=
  let x := m.rankOf a.snd
  let y := m.rankOf b.snd
  if x.1 ≠ y.1 then x.1 < y.1
  else if x.2.1 ≠ y.2.1 then x.2.1 < y.2.1
  else if x.2.2 ≠ y.2.2 then x.2.2 < y.2.2
  else a.order ≤ b.order

/-- The settlement of a boundary under way: the module, the module that met the boundary, the claims held with whether local safety holds them, the
writes that have applied, and the answers that leave after the boundary. -/
structure Settling where
  m     : Mod
  start : Mod
  held  : List (Nat × Bool) := []
  done  : List (Nat × List Byte) := []
  rsps  : List (Staged × Nat × List Byte) := []

/-- Whether an item loses: a claim of its is held. Requests of local safety never contend with one another. -/
def Settling.loses (b : Settling) (w : Staged) : Bool :=
  (b.m.claimsOf w).any (fun c => b.held.any (fun h => h.1 = c && !(h.2 && w.snd = .localSafety)))

/-- The data of a refused commit: the position of the write that refused it (R54). -/
def positionData (w : Staged) (st pos : Nat) : List Byte := if w.isGroup && st ≠ 0 && st ≠ 2 then leBytes 1 pos else []

/-- An item is answered: a scheduled entry by EV097 (R381), any other after the boundary. -/
def Settling.answer (w : Staged) (st pos : Nat) (b : Settling) : Settling :=
  match w.entry with
  | some e => { b with m := (b.m.schedDone w.seq st pos).schedFree e }
  | none   => { b with rsps := b.rsps ++ [(w, st, positionData w st pos)] }

/-- An accepted item holds its claims. -/
def Settling.hold (w : Staged) (b : Settling) : Settling :=
  { b with held := b.held ++ (b.m.claimsOf w).map (fun c => (c, decide (w.snd = .localSafety))) }

/-- The write of OP_MODE of a section that ran when the item came and has come to rest since (R175). -/
def Settling.stranded (w : Staged) (ws : List (Nat × List Byte)) (b : Settling) : Option (Nat × Nat) :=
  (w.moves.find? (fun s => b.m.gf s = gfRest)).map (fun s => (0x12, ws.findIdx (fun x => x.1 = Ob.opMode s)))

/-- The refusal of an item that no claim decides: what the earlier checks of R49 say of it on the module that met the boundary. -/
def Settling.ownRefusal (pend : List Assertion) (w : Staged) (b : Settling) : Option (Nat × Nat) :=
  match w.work with
  | .writes ws =>
    (Settling.stranded w ws { b with m := b.start }).or (b.start.writesStatus (b.start.layAll ws) w.snd false true 0 ws)
  | .unitAct idx a =>
    let st := (b.start.unitAct pend w.snd w.seq idx a).2
    if st = 0 || st = 3 then none else some (st, 0)

/-- An item that loses (R49, R57): the status of an earlier check that refuses it, otherwise PREEMPTED.
DEDUCED, log entry 108. -/
def Settling.lost (pend : List Assertion) (w : Staged) (b : Settling) : Settling :=
  match b.ownRefusal pend w with
  | some (st, p) => b.answer w st p
  | none         => ({ b with m := b.m.bump Ob.preempted } : Settling).answer w 2 0

/-- The writes of an item are checked once more at their boundary and apply, all or none (R54, R73, R175). -/
def Settling.writes (w : Staged) (ws : List (Nat × List Byte)) (b : Settling) : Settling :=
  let t := b.m.layAll ws
  match (b.stranded w ws).or (b.m.writesStatus t w.snd false true 0 ws) with
  | some (st, p) => ({ b with m := Mod.writeRefusedEvent t w.snd false true w.seq (ws.getD p (0, [])) b.m } : Settling).answer w st p
  | none =>
    let h := b.hold w
    ({ h with m := ws.foldl (fun m x => m.applyWrite w.snd x) h.m, done := h.done ++ ws } : Settling).answer w 0 0

/-- Whether a scheduled entry is kept from its boundary by the timebase (R383). -/
def Mod.lockMissing (m : Mod) (w : Staged) : Bool :=
  w.entry.isSome && m.get Ob.schedRequireLock = 1 && m.timeSt ≠ timeLocked && m.timeSt ≠ timeHoldover

/-- One item in its turn (R57): PREEMPTED where it loses, otherwise its check and its effect. -/
def Settling.item (pend : List Assertion) (b : Settling) (w : Staged) : Settling :=
  if b.m.lockMissing w then b.answer w 0x12 0
  else if b.loses w then b.lost pend w
  else match w.work with
    | .writes ws => b.writes w ws
    | .unitAct idx a =>
      let r := b.m.unitAct pend w.snd w.seq idx a
      let h := if r.2 = 0 || r.2 = 3 then b.hold w else b
      ({ h with m := r.1 } : Settling).answer w r.2 0

/-- Every item that met the cutoff, from the highest rank down; the others wait for the next boundary (R72).
DEDUCED, log entry 36. -/
def Mod.settle (pend : List Assertion) (m : Mod) : Settling :=
  let now := m.staged.filter (fun w => !w.late)
  let m1 : Mod := { m with staged := (m.staged.filter (fun w => w.late)).map (fun w => { w with late := false }) }
  let b := (sortBy m.ranksFirst now).foldl (Settling.item pend) { m := m1, start := m1 }
  { b with m := Mod.writtenTogether m1 b.done b.m }

/-- An answer leaves (R72). -/
def Mod.answerStaged (w : Staged) (st : Nat) (data : List Byte) (m : Mod) : Mod :=
  match w.snd with
  | .localSafety => m
  | .modbus _    => m.netAnswer w st
  | .dnp3 _      => m.netAnswer w st
  | snd          => m.respond snd { op := w.op, idx := w.idx, sub := w.sub, seq := w.seq, status := st, data := data
                                    slot := (m.chanOf snd).slot.getD 255 }

/-- Every answer of a boundary leaves; a change of the network configuration closes every session after it (R388). -/
def Settling.release (b : Settling) : Mod :=
  let m := b.rsps.foldl (fun m r => m.answerStaged r.1 r.2.1 r.2.2) b.m
  if b.done.any (fun w => netKey w.1) then m.closeAll else m

/-! ### What a boundary brings -/

/-- What the lanes and Floe have left for the boundary (R111, R316, R331, R335). -/
def Mod.lanesBoundary (m : Mod) : Mod := (m.floeDue.lanesDue).takeoverCommit

/-- A group whose leg map disagrees goes off, and its unit rests; a start under way fails with 4006h (R265).
DEDUCED, log entry 38. -/
def Mod.mapBoundary (g : Nat) (m : Mod) : Mod :=
  if (m.grpAt g).mapBad && (m.unitState g ≠ 0 || m.pwmOn g) then m.unitToRest g 0x4006 else m

/-- A group's PWM starts or stops at the carrier boundary (R257, R261, R265); one that a last tick still drives stops at the
boundary after it (R213). -/
def Mod.pwmBoundary (g : Nat) (m : Mod) : Mod :=
  let x := m.grpAt g
  if x.stopping then m.pwmOff g
  else if x.stopNext then m.modGrp g (fun y => { y with stopNext := false, stopping := true })
  else if x.starting then m.pwmStart false g
  else m

/-- What the tick's own state machines decide: closings and grid decisions of the sections, phase jumps and the clamp. -/
def Mod.unitsBoundary (m : Mod) : Mod :=
  ((((m.each (List.range 8) Mod.mapBoundary).each (List.range 4) Mod.sectionBoundary).each (List.range 8) Mod.pwmBoundary).each
    (List.range 4) Mod.jumpActs).each (List.range 4) Mod.clampBoundary

/-- Whether the boundary that comes is a carrier valley (R68): in double update every second one.
DESIGN CHOICE, log entry 35. -/
def Mod.atValley (m : Mod) : Bool :=
  if m.get Ob.updateMode = 1 then (m.clk.tick + 1) % 2 = 0 else m.get Ob.sampleEdge = 0

/-- The generators load (R255); a lane that has withdrawn keeps what it loaded last, and the incoming lane's loads wait for
the takeover instant (R332). DEDUCED, log entry 110. -/
def Mod.loadsDue (m : Mod) : Mod :=
  if m.arb.cause.isSome then m.modArb (fun a => { a with missed := some m.atValley })
  else (m.each (List.range 8) (Mod.loadGroup m.atValley)).modArb (fun a => { a with missed := none })

/-- The loads of a boundary: compare values, notches, trimmed dead times, scaling products (R98, R124, R255, R278),
and the channels that become valid or are replaced (R101, R108, R111). -/
def Mod.loadsBoundary (m : Mod) : Mod :=
  ((((((m.loadsDue).loadNotches).each (List.range 32) Mod.applyTrim).applyProducts).each
    (List.range 24) Mod.settleActs).fallBack).calWatch

/-- An injection that R150 stops ends; a transfer has been noted by then. -/
def Mod.injBoundary (m : Mod) : Mod :=
  let m1 := if m.injMustStop then m.injAbort else m
  m1.each (List.range 4) (fun s m => m.modSec s (fun x => { x with transfer := false }))

/-- MODULE_STATE at a boundary (R477): lockout and safe stop stand, then hold, then whether any unit is not in REST. -/
def Mod.showModuleState (m : Mod) : Mod :=
  if m.get Ob.moduleState = 0 then m
  else m.put Ob.moduleState
    (if m.sdc.lockout then 5 else if m.prot.safeStop then 4 else if m.get Ob.holdState = 1 then 3
     else if (List.range 8).any (fun g => m.unitState g ≠ 0) then 2 else 1)

/-- An act staged for a boundary takes effect. DEDUCED, log entry 36. -/
def Mod.boundaryAct (m : Mod) (a : BoundaryAct) : Mod :=
  match a with
  | .ctxReset n              => m.clearCtx n
  | .traceForce              => m.traceForce
  | .laneSwitchover          => m.withdraw 0
  | .ageingRebase kind unit  => m.rebase kind unit
  | .timeStep ns             => m.applyStep ns
  | .trim v                  => m.applyTrimRate v

/-- The acts staged for this boundary. DEDUCED, log entry 36. -/
def Mod.actsDue (m : Mod) : Mod := m.acts.foldl Mod.boundaryAct { m with acts := [] }

/-- Tick k + 1 begins at `t0`. -/
def Mod.beginTick (t0 : Nat) (m : Mod) : Mod :=
  ({ m with clk := { m.clk with t0Ps := t0, phase := .boundary, tick := m.clk.tick + 1 } } : Mod).put Ob.tickCount
    ((m.get Ob.tickCount + 1) % 18446744073709551616)

/-- What ends the tick, before its writes: lanes, protection, consequential stops, grid events, and resynchronisation. -/
def Mod.tickEnds (m : Mod) : Mod :=
  (((m.lanesBoundary.protectBoundary).consequentialStops).each (List.range 4) Mod.rideActs).each (List.range 4) Mod.blankActs

/-- What follows the writes of a boundary, up to the start of the next tick. DEDUCED, log entry 34. -/
def Mod.tickTurns (m : Mod) : Mod :=
  ((((m.each (List.range 4) Mod.expireActs).unitsBoundary.loadsBoundary).injBoundary).thermBoundary).showModuleState

/-- TICK_BOUNDARY (R71): `kp` is what outlives every run. DEDUCED, log entry 34; DESIGN CHOICE, log entry 35. -/
def Mod.tickBoundary (kp : Kept) (m : Mod) : Mod :=
  if !m.clk.running then m
  else
    let t0 := m.clk.t0Ps + m.tickPs
    let m1 := (m.reach t0).traceEvent
    let b := m1.tickEnds.settle m1.prot.pend
    let m2 := ((b.m.tickTurns).beginTick t0).actsDue
    let m3 := ({ b with m := m2 } : Settling).release
    (m3.dnpScan kp).streamsSend

/-! ### The commit deadline (R71, R80 to R83, R332) -/

/-- The outputs of both engines move to the shadow registers in one transfer: those of the active lane, but after its
withdrawal, and those of the standby lane where it has finished too (R25, R332). A group without an output keeps its own.
DEDUCED, log entries 34 and 106. -/
def Mod.transferDuties (active standby : Bool) (m : Mod) : Mod :=
  m.each (List.range 8) (fun g m =>
    let d := m.eng.duty.getD g []
    let c := m.eng.clamp.getD g []
    m.modGrp g (fun x => { x with
      duty     := if active && !d.isEmpty then d else x.duty
      clampSet := if active && !c.isEmpty then c else x.clampSet
      twin     := if standby && !d.isEmpty then d else x.twin
      twinClmp := if standby && !c.isEmpty then c else x.twinClmp }))

/-- The cycles that both engines used in a completed tick (R84). -/
def Mod.tickStats (c0 c1 : Nat) (m : Mod) : Mod :=
  let a := satAt 4294967295 c0
  let b := satAt 4294967295 c1
  ((((m.put Ob.eng0Last a).put Ob.eng1Last b).put Ob.eng0Peak (max (m.get Ob.eng0Peak) a)).put Ob.eng1Peak
    (max (m.get Ob.eng1Peak) b)).put Ob.lastT0 m.tickT0

/-- A tick that both engines have finished; `standby` says that the standby lane has finished it too. A lane that has
withdrawn commits no further values (R332). DESIGN CHOICE, log entry 85; DEDUCED, log entry 106. -/
def Mod.tickFinished (c0 c1 : Nat) (standby : Bool) (m : Mod) : Mod :=
  (((m.transferDuties m.arb.cause.isNone standby).tickStats c0 c1)).injCapture

/-- The supervisor's share of the last second (R74). DEDUCED, log entry 109. -/
def Mod.supervisorTime (busy : Nat) (m : Mod) : Mod :=
  let b := m.clk.busyPs + busy
  if m.clk.loadPs + sPs 1 ≤ m.now then
    ({ m with clk := { m.clk with busyPs := 0, loadPs := m.now } } : Mod).put Ob.supervisorLoad (min 100 (b * 100 / (m.now - m.clk.loadPs)))
  else { m with clk := { m.clk with busyPs := b } }

/-- A lane counts an overrun (R82): the overruns in its window, this one included. DEDUCED, log entry 37. -/
def Mod.countOverrun (l : Nat) (m : Mod) : Nat × Mod :=
  let ts := m.overrunTicks l ++ [m.clk.tick]
  (ts.length, m.setInst { m.inst 4 l with times := ts })

/-- Whether the standby lane can take over. DEDUCED, log entry 37. -/
def Mod.standbyServes (m : Mod) : Bool := m.get (Ob.roleNow m.standby) = 1 && m.healthOf m.standby ≤ 1

/-- A permanent overrun of the active lane (R83, R331): EV017, and the claim withdrawn; where no lane can take over the
withdrawal ends in the safe stop of R336. DEDUCED, log entries 37 and 111. -/
def Mod.overrunLimit (m : Mod) : Mod :=
  let arg := m.get Ob.tickCount % 4294967296
  if m.standbyServes || m.arb.incoming.isSome then (m.raise 17 sevFault 0x1202 arg).withdraw 0x1202
  else (m.raise 17 sevStop 0x1202 arg).withdraw 0x1202

/-- An overrun of the active lane (R80, R82): the state of t0 is restored, and the duties stand.
DEDUCED, log entries 37 and 111. -/
def Mod.overrun (late0 late1 : Bool) (m : Mod) : Mod :=
  let m1 : Mod := { m with eng := m.saved }
  let r := (m1.bump Ob.overrunTotal).countOverrun m1.lane
  let n := satAt 255 r.1
  let m2 := (r.2.put Ob.overrunInWindow n).put Ob.lastOverrun m.tickT0
  let m3 := m2.raise 16 sevWarn 0x1201 (n + 256 * b2n late0 + 512 * b2n late1)
  if m3.get (Ob.faultN 3) ≤ r.1 then m3.overrunLimit else m3

/-- An overrun of the standby lane alone (R81). DEDUCED, log entry 37. -/
def Mod.standbyOverrun (late0 late1 : Bool) (m : Mod) : Mod :=
  let r := (m.bump Ob.standbyOverrunTotal).countOverrun m.standby
  let m1 := r.2.raise 16 sevWarn 0x1201 (satAt 255 r.1 + 256 * b2n late0 + 512 * b2n late1 + 1024)
  if m1.get (Ob.faultN 3) ≤ r.1 then m1.standbyUnhealthy 0x1202 else m1

/-- The staging cutoff of the coming boundary: what comes now waits for the one after it, and the entries due are staged. -/
def Mod.cutoff (m : Mod) : Mod :=
  ({ m with clk := { m.clk with phase := .staging } } : Mod).stageDue
    (m.clk.taiBase + ((m.clk.t0Ps + m.tickPs) / 1000 : Nat))

/-- COMMIT_DEADLINE (R71, R80). -/
def Mod.commitDeadline (r : TickReport) (m : Mod) : Mod :=
  if !m.clk.running || m.clk.phase ≠ .compute then m
  else
    let w := windowCycles m.tickPs
    let late := w < r.act0 || w < r.act1
    let serves := m.standbyServes || m.arb.incoming.isSome
    let slow := m.standbyServes && (w < r.stb0 || w < r.stb1)
    let m1 := m.reach (m.clk.t0Ps + m.tickPs - 400000)
    let m2 :=
      if late then m1.overrun (w < r.act0) (w < r.act1)
      else if slow then (m1.tickFinished r.act0 r.act1 false).standbyOverrun (w < r.stb0) (w < r.stb1)
      else match r.mirror with
        | some (item, eng) => (m1.tickFinished r.act0 r.act1 serves).mirrorMismatch item eng
        | none             => m1.tickFinished r.act0 r.act1 serves
    ((m2.supervisorTime r.sup).traceRecord late m.arb.took).cutoff

/-! ### The commands -/

/-- `TICK_BOUNDARY` (R71). -/
def execTickBoundary (s : State) : Host.Outcome State Fault Refusal := onMod s (s.m.tickBoundary s.kept)

/-- `COMMIT_DEADLINE` (R71, R80). -/
def execCommitDeadline (rep : TickReport) (s : State) : Host.Outcome State Fault Refusal := onMod s (s.m.commitDeadline rep)

end Sys2Proof.Machine
end

