-- ==== Sys2Proof/Machine/Dispatch.lean ====
section
/-!
DEFINITION. What each command does to the block: one arm per row of the table.
-/
namespace Sys2Proof.Machine

/-- The effect of a command on everything but the queue. -/
def exec (i : Instr) (s : State) : Host.Outcome State Fault Refusal :=
  match i with
  | .linkRead addr len => Sys2Proof.Machine.execLinkRead addr len s
  | .linkWrite addr data => Sys2Proof.Machine.execLinkWrite addr data s
  | .linkModeReset clocks => Sys2Proof.Machine.execLinkModeReset clocks s
  | .quadEnWrite value => Sys2Proof.Machine.execQuadEnWrite value s
  | .hlStatusClear value => Sys2Proof.Machine.execHlStatusClear value s
  | .mbxDoorbell mask => Sys2Proof.Machine.execMbxDoorbell mask s
  | .rspRelease mask => Sys2Proof.Machine.execRspRelease mask s
  | .commandWindowWrite n offset data => Sys2Proof.Machine.execCommandWindowWrite n offset data s
  | .responseFifoRead n len => Sys2Proof.Machine.execResponseFifoRead n len s
  | .read h index sub => Sys2Proof.Machine.execRead h index sub s
  | .write h index sub data => Sys2Proof.Machine.execWrite h index sub data s
  | .writeCommit h index sub data => Sys2Proof.Machine.execWriteCommit h index sub data s
  | .groupBegin h => Sys2Proof.Machine.execGroupBegin h s
  | .groupCommit h applyTime => Sys2Proof.Machine.execGroupCommit h applyTime s
  | .streamOpen h index channel args => Sys2Proof.Machine.execStreamOpen h index channel args s
  | .streamClose h channel => Sys2Proof.Machine.execStreamClose h channel s
  | .eventAck h q => Sys2Proof.Machine.execEventAck h q s
  | .groupDiscarded snd => Sys2Proof.Machine.execGroupDiscarded snd s
  | .evtNPulse => Sys2Proof.Machine.execEvtNPulse s
  | .eventFrameRelease k => Sys2Proof.Machine.execEventFrameRelease k s
  | .tickBoundary => Sys2Proof.Machine.execTickBoundary s
  | .samplesReady smp => Sys2Proof.Machine.execSamplesReady smp s
  | .commitDeadline rep => Sys2Proof.Machine.execCommitDeadline rep s
  | .tickStatsClear h => Sys2Proof.Machine.execTickStatsClear h s
  | .focTrip dt lanes wins => Sys2Proof.Machine.execFocTrip dt lanes wins s
  | .focAlert dt wins => Sys2Proof.Machine.execFocAlert dt wins s
  | .mclkLost dt mclks lanes => Sys2Proof.Machine.execMclkLost dt mclks lanes s
  | .mclkLostInLane dt lane mclks => Sys2Proof.Machine.execMclkLostInLane dt lane mclks s
  | .streamLost dt chan clipped lanes => Sys2Proof.Machine.execStreamLost dt chan clipped lanes s
  | .plausibility kind unit => Sys2Proof.Machine.execPlausibility kind unit s
  | .channelSettled chan => Sys2Proof.Machine.execChannelSettled chan s
  | .meterBlockEnd blk => Sys2Proof.Machine.execMeterBlockEnd blk s
  | .calZero h chan blocks => Sys2Proof.Machine.execCalZero h chan blocks s
  | .calDcSpan h chan ref blocks => Sys2Proof.Machine.execCalDcSpan h chan ref blocks s
  | .calAcSpan h chan ref blocks => Sys2Proof.Machine.execCalAcSpan h chan ref blocks s
  | .calApply h chan => Sys2Proof.Machine.execCalApply h chan s
  | .calAbort h chan => Sys2Proof.Machine.execCalAbort h chan s
  | .calPointDone => Sys2Proof.Machine.execCalPointDone s
  | .offsetTrackUpdate chan => Sys2Proof.Machine.execOffsetTrackUpdate chan s
  | .gridFreqUpdate sec => Sys2Proof.Machine.execGridFreqUpdate sec s
  | .notchUpdate => Sys2Proof.Machine.execNotchUpdate s
  | .ctxReset h n => Sys2Proof.Machine.execCtxReset h n s
  | .traceArm h => Sys2Proof.Machine.execTraceArm h s
  | .traceStop h => Sys2Proof.Machine.execTraceStop h s
  | .traceForce h => Sys2Proof.Machine.execTraceForce h s
  | .tracePreFilled => Sys2Proof.Machine.execTracePreFilled s
  | .traceDone => Sys2Proof.Machine.execTraceDone s
  | .injStart h => Sys2Proof.Machine.execInjStart h s
  | .injStop h => Sys2Proof.Machine.execInjStop h s
  | .sweepSettled => Sys2Proof.Machine.execSweepSettled s
  | .sweepPointMeasured => Sys2Proof.Machine.execSweepPointMeasured s
  | .injectionDone => Sys2Proof.Machine.execInjectionDone s
  | .gfStart h sec => Sys2Proof.Machine.execGfStart h sec s
  | .gfStop h sec => Sys2Proof.Machine.execGfStop h sec s
  | .deadConfirmExpiry sec => Sys2Proof.Machine.execDeadConfirmExpiry sec s
  | .backoffExpiry sec => Sys2Proof.Machine.execBackoffExpiry sec s
  | .busLive sec => Sys2Proof.Machine.execBusLive sec s
  | .closeTimeout sec => Sys2Proof.Machine.execCloseTimeout sec s
  | .rampComplete sec => Sys2Proof.Machine.execRampComplete sec s
  | .rampTimeout sec => Sys2Proof.Machine.execRampTimeout sec s
  | .enterServiceDelayEnd sec => Sys2Proof.Machine.execEnterServiceDelayEnd sec s
  | .syncHoldMet sec => Sys2Proof.Machine.execSyncHoldMet sec s
  | .syncTimeout sec => Sys2Proof.Machine.execSyncTimeout sec s
  | .stopPowerLow sec => Sys2Proof.Machine.execStopPowerLow sec s
  | .stopComplete sec => Sys2Proof.Machine.execStopComplete sec s
  | .idSlotStart sec => Sys2Proof.Machine.execIdSlotStart sec s
  | .idInjectionEnd sec => Sys2Proof.Machine.execIdInjectionEnd sec s
  | .idResult sec bins => Sys2Proof.Machine.execIdResult sec bins s
  | .idRun h sec => Sys2Proof.Machine.execIdRun h sec s
  | .islandingCheck sec => Sys2Proof.Machine.execIslandingCheck sec s
  | .dcStart h chan => Sys2Proof.Machine.execDcStart h chan s
  | .dcStop h chan => Sys2Proof.Machine.execDcStop h chan s
  | .dcEntryConditionsMet chan => Sys2Proof.Machine.execDcEntryConditionsMet chan s
  | .pvLowPower chan => Sys2Proof.Machine.execPvLowPower chan s
  | .batteryOutOfWindow chan => Sys2Proof.Machine.execBatteryOutOfWindow chan s
  | .dcStopComplete chan => Sys2Proof.Machine.execDcStopComplete chan s
  | .dcLimitsExpired chan => Sys2Proof.Machine.execDcLimitsExpired chan s
  | .mpptStep chan => Sys2Proof.Machine.execMpptStep chan s
  | .scanDue chan => Sys2Proof.Machine.execScanDue chan s
  | .scanRun h chan => Sys2Proof.Machine.execScanRun h chan s
  | .scanDwellEnd chan => Sys2Proof.Machine.execScanDwellEnd chan s
  | .scanCheckEnd chan => Sys2Proof.Machine.execScanCheckEnd chan s
  | .rtCurveCheck sec => Sys2Proof.Machine.execRtCurveCheck sec s
  | .freqTripStage sec stage => Sys2Proof.Machine.execFreqTripStage sec stage s
  | .recovTimeMet sec => Sys2Proof.Machine.execRecovTimeMet sec s
  | .rtRecoveryComplete sec => Sys2Proof.Machine.execRtRecoveryComplete sec s
  | .lossOfSync sec => Sys2Proof.Machine.execLossOfSync sec s
  | .losBlankEnd sec => Sys2Proof.Machine.execLosBlankEnd sec s
  | .currentLimitRelease sec => Sys2Proof.Machine.execCurrentLimitRelease sec s
  | .pwmTripClear h groups => Sys2Proof.Machine.execPwmTripClear h groups s
  | .pwmDirectStart h group => Sys2Proof.Machine.execPwmDirectStart h group s
  | .pwmDirectStop h group => Sys2Proof.Machine.execPwmDirectStop h group s
  | .fltTrip dt inputs => Sys2Proof.Machine.execFltTrip dt inputs s
  | .laneTripRequest dt lane groups => Sys2Proof.Machine.execLaneTripRequest dt lane groups s
  | .interlockViolation dt pair threeLevel => Sys2Proof.Machine.execInterlockViolation dt pair threeLevel s
  | .safeDtExpiry group => Sys2Proof.Machine.execSafeDtExpiry group s
  | .legMapReport group rep => Sys2Proof.Machine.execLegMapReport group rep s
  | .trimBlockDone pair sideB edges => Sys2Proof.Machine.execTrimBlockDone pair sideB edges s
  | .comfbMissing pair edges => Sys2Proof.Machine.execComfbMissing pair edges s
  | .comfbRestored pair edges => Sys2Proof.Machine.execComfbRestored pair edges s
  | .dclinkTrip chan isOver => Sys2Proof.Machine.execDclinkTrip chan isOver s
  | .dclinkWarning chan => Sys2Proof.Machine.execDclinkWarning chan s
  | .recoveryDelayEnd cls unit => Sys2Proof.Machine.execRecoveryDelayEnd cls unit s
  | .clearRecheck cls unit => Sys2Proof.Machine.execClearRecheck cls unit s
  | .retryTimeout cls unit => Sys2Proof.Machine.execRetryTimeout cls unit s
  | .holdMaxReached => Sys2Proof.Machine.execHoldMaxReached s
  | .retire h kind unit => Sys2Proof.Machine.execRetire h kind unit s
  | .reinstate h kind unit => Sys2Proof.Machine.execReinstate h kind unit s
  | .scrubPass lane moraine corrected => Sys2Proof.Machine.execScrubPass lane moraine corrected s
  | .memoryUncorrectable lane moraine address => Sys2Proof.Machine.execMemoryUncorrectable lane moraine address s
  | .flashUncorrectable lane region offset bothCopies entries => Sys2Proof.Machine.execFlashUncorrectable lane region offset bothCopies entries s
  | .parityError lane place address => Sys2Proof.Machine.execParityError lane place address s
  | .floeFrame f => Sys2Proof.Machine.execFloeFrame f s
  | .floeStateLoss => Sys2Proof.Machine.execFloeStateLoss s
  | .cirqueMacFail lane => Sys2Proof.Machine.execCirqueMacFail lane s
  | .safetyLinkLoss chanB => Sys2Proof.Machine.execSafetyLinkLoss chanB s
  | .tlsRecordFail k => Sys2Proof.Machine.execTlsRecordFail k s
  | .integrityClear h => Sys2Proof.Machine.execIntegrityClear h s
  | .laneClaim laneA laneB => Sys2Proof.Machine.execLaneClaim laneA laneB s
  | .claimTimeout lane => Sys2Proof.Machine.execClaimTimeout lane s
  | .standbyReady => Sys2Proof.Machine.execStandbyReady s
  | .claimWithdrawn => Sys2Proof.Machine.execClaimWithdrawn s
  | .takeoverInstant claim edges => Sys2Proof.Machine.execTakeoverInstant claim edges s
  | .splitClaim => Sys2Proof.Machine.execSplitClaim s
  | .claimPairBroken lane => Sys2Proof.Machine.execClaimPairBroken lane s
  | .noGrantTimeout => Sys2Proof.Machine.execNoGrantTimeout s
  | .lockstepMismatch lane => Sys2Proof.Machine.execLockstepMismatch lane s
  | .watchdogExpiry lane => Sys2Proof.Machine.execWatchdogExpiry lane s
  | .floeLoopbackFail lane => Sys2Proof.Machine.execFloeLoopbackFail lane s
  | .knownAnswerTestFail lane => Sys2Proof.Machine.execKnownAnswerTestFail lane s
  | .mirrorDiagnosis outcome => Sys2Proof.Machine.execMirrorDiagnosis outcome s
  | .carrierAlign ps => Sys2Proof.Machine.execCarrierAlign ps s
  | .fullTestStart => Sys2Proof.Machine.execFullTestStart s
  | .selfTestDone failed aborted => Sys2Proof.Machine.execSelfTestDone failed aborted s
  | .laneSwitchover h => Sys2Proof.Machine.execLaneSwitchover h s
  | .laneResync h => Sys2Proof.Machine.execLaneResync h s
  | .redundancyRestored => Sys2Proof.Machine.execRedundancyRestored s
  | .sdcSample a b => Sys2Proof.Machine.execSdcSample a b s
  | .safetyCrosslinkFrame okA okB badStatus => Sys2Proof.Machine.execSafetyCrosslinkFrame okA okB badStatus s
  | .connectionRequest raised => Sys2Proof.Machine.execConnectionRequest raised s
  | .sdcStepConfirmed => Sys2Proof.Machine.execSdcStepConfirmed s
  | .relayTimeout => Sys2Proof.Machine.execRelayTimeout s
  | .discrepancyFault => Sys2Proof.Machine.execDiscrepancyFault s
  | .weldTestDue => Sys2Proof.Machine.execWeldTestDue s
  | .weldTestOverdue => Sys2Proof.Machine.execWeldTestOverdue s
  | .sdcFaultClear h => Sys2Proof.Machine.execSdcFaultClear h s
  | .seracOscFault => Sys2Proof.Machine.execSeracOscFault s
  | .sealRecheck a b => Sys2Proof.Machine.execSealRecheck a b s
  | .resetAsserted dt ns => Sys2Proof.Machine.execResetAsserted dt ns s
  | .resetHeld seconds => Sys2Proof.Machine.execResetHeld seconds s
  | .resetReleased => Sys2Proof.Machine.execResetReleased s
  | .ptpMessage m => Sys2Proof.Machine.execPtpMessage m s
  | .timeSourceLost => Sys2Proof.Machine.execTimeSourceLost s
  | .holdoverLimitExpiry => Sys2Proof.Machine.execHoldoverLimitExpiry s
  | .ppsInEdge dt => Sys2Proof.Machine.execPpsInEdge dt s
  | .ppsOutPulse => Sys2Proof.Machine.execPpsOutPulse s
  | .trigPulse k => Sys2Proof.Machine.execTrigPulse k s
  | .timeSet h t => Sys2Proof.Machine.execTimeSet h t s
  | .timeReacquire h => Sys2Proof.Machine.execTimeReacquire h s
  | .schedCancel h e => Sys2Proof.Machine.execSchedCancel h e s
  | .scheduledEntry e => Sys2Proof.Machine.execScheduledEntry e s
  | .tcpConnect addr port => Sys2Proof.Machine.execTcpConnect addr port s
  | .tlsHandshake peer => Sys2Proof.Machine.execTlsHandshake peer s
  | .sessionIdleTimeout k => Sys2Proof.Machine.execSessionIdleTimeout k s
  | .linkState port status => Sys2Proof.Machine.execLinkState port status s
  | .modbusReadHolding rq start count => Sys2Proof.Machine.execModbusReadHolding rq start count s
  | .modbusReadInput rq start count => Sys2Proof.Machine.execModbusReadInput rq start count s
  | .modbusWriteSingle rq reg value => Sys2Proof.Machine.execModbusWriteSingle rq reg value s
  | .modbusWriteMultiple rq start values => Sys2Proof.Machine.execModbusWriteMultiple rq start values s
  | .dnp3Request rq => Sys2Proof.Machine.execDnp3Request rq s
  | .rimeFrame f => Sys2Proof.Machine.execRimeFrame f s
  | .rimeLoss lane => Sys2Proof.Machine.execRimeLoss lane s
  | .fieldSample group rd => Sys2Proof.Machine.execFieldSample group rd s
  | .inputMaxActive chan => Sys2Proof.Machine.execInputMaxActive chan s
  | .chatterWindowEnd => Sys2Proof.Machine.execChatterWindowEnd s
  | .outputOverload chan => Sys2Proof.Machine.execOutputOverload chan s
  | .outputThermal chan => Sys2Proof.Machine.execOutputThermal chan s
  | .fieldLoadWarning groupCurrent n present => Sys2Proof.Machine.execFieldLoadWarning groupCurrent n present s
  | .fsupOutOfRange group volts => Sys2Proof.Machine.execFsupOutOfRange group volts s
  | .fsupLost group volts => Sys2Proof.Machine.execFsupLost group volts s
  | .fsupBack group volts => Sys2Proof.Machine.execFsupBack group volts s
  | .hkRound r => Sys2Proof.Machine.execHkRound r s
  | .throttleStepTimer => Sys2Proof.Machine.execThrottleStepTimer s
  | .graceTimeEnd => Sys2Proof.Machine.execGraceTimeEnd s
  | .sensorRestore h sensor => Sys2Proof.Machine.execSensorRestore h sensor s
  | .cdFault code => Sys2Proof.Machine.execCdFault code s
  | .cdBootstrapRefresh => Sys2Proof.Machine.execCdBootstrapRefresh s
  | .cdEnableLow byPin ns => Sys2Proof.Machine.execCdEnableLow byPin ns s
  | .cdRetryDelayEnd => Sys2Proof.Machine.execCdRetryDelayEnd s
  | .cdSpeedUpdate rpm milliamps centivolts => Sys2Proof.Machine.execCdSpeedUpdate rpm milliamps centivolts s
  | .cdFaultClear h => Sys2Proof.Machine.execCdFaultClear h s
  | .lockWindow lane dev xo => Sys2Proof.Machine.execLockWindow lane dev xo s
  | .tcxoLost => Sys2Proof.Machine.execTcxoLost s
  | .tcxoRestored => Sys2Proof.Machine.execTcxoRestored s
  | .hkUrgent h input => Sys2Proof.Machine.execHkUrgent h input s
  | .hkUrgentDone value => Sys2Proof.Machine.execHkUrgentDone value s
  | .sessionOpen h nonce => Sys2Proof.Machine.execSessionOpen h nonce s
  | .authBlockEnd address snd => Sys2Proof.Machine.execAuthBlockEnd address snd s
  | .keyInstall h data => Sys2Proof.Machine.execKeyInstall h data s
  | .certInstall h der => Sys2Proof.Machine.execCertInstall h der s
  | .trustAnchor h k der => Sys2Proof.Machine.execTrustAnchor h k der s
  | .crlInstall h offset chunk => Sys2Proof.Machine.execCrlInstall h offset chunk s
  | .certExpiring which daysLeft => Sys2Proof.Machine.execCertExpiring which daysLeft s
  | .fwUpload h offset chunk => Sys2Proof.Machine.execFwUpload h offset chunk s
  | .fwStage h => Sys2Proof.Machine.execFwStage h s
  | .fwStaged laneA laneB => Sys2Proof.Machine.execFwStaged laneA laneB s
  | .fwActivate h => Sys2Proof.Machine.execFwActivate h s
  | .fwCommit h => Sys2Proof.Machine.execFwCommit h s
  | .commitDelayExpiry => Sys2Proof.Machine.execCommitDelayExpiry s
  | .certModeEnter h => Sys2Proof.Machine.execCertModeEnter h s
  | .certModeLeave h => Sys2Proof.Machine.execCertModeLeave h s
  | .debugUnlock h => Sys2Proof.Machine.execDebugUnlock h s
  | .debugResponse h signature => Sys2Proof.Machine.execDebugResponse h signature s
  | .powerOn tcxo sealB => Sys2Proof.Machine.execPowerOn tcxo sealB s
  | .powerDip => Sys2Proof.Machine.execPowerDip s
  | .lanesReleased lockedA lockedB => Sys2Proof.Machine.execLanesReleased lockedA lockedB s
  | .bootLoaderVerified lane image => Sys2Proof.Machine.execBootLoaderVerified lane image s
  | .safetyDieRunning started sealA => Sys2Proof.Machine.execSafetyDieRunning started sealA s
  | .firmwareImageVerified lane a b => Sys2Proof.Machine.execFirmwareImageVerified lane a b s
  | .floeTraining crcOk skewOk loopA loopB => Sys2Proof.Machine.execFloeTraining crcOk skewOk loopA loopB s
  | .rimeTraining lane ok => Sys2Proof.Machine.execRimeTraining lane ok s
  | .selfTestComplete lane ok => Sys2Proof.Machine.execSelfTestComplete lane ok s
  | .estimateBlock e => Sys2Proof.Machine.execEstimateBlock e s
  | .baselineComplete => Sys2Proof.Machine.execBaselineComplete s
  | .planCompute => Sys2Proof.Machine.execPlanCompute s
  | .planNow h => Sys2Proof.Machine.execPlanNow h s
  | .planStep => Sys2Proof.Machine.execPlanStep s
  | .ageingRebase h kind unit => Sys2Proof.Machine.execAgeingRebase h kind unit s
  | .sessionClose k => Sys2Proof.Machine.execSessionClose k s
  | .delayReq => Sys2Proof.Machine.execDelayReq s
  | .hallEdge code => Sys2Proof.Machine.execHallEdge code s

end Sys2Proof.Machine
end

