-- ==== Sys2Proof/Machine/Step.lean ====
section
/-!
DEFINITION. One step of the block: the command at the front of the queue has its effect on the rest; with no
command waiting the block idles.
-/
namespace Sys2Proof.Machine

/-- Take the command at the front of the queue and run it; idle on an empty queue (DESIGN CHOICE, log entry 2). -/
def step (s : State) : Host.Outcome State Fault Refusal :=
  match s.pending with
  | []      => .next s
  | c :: cs => exec c { s with pending := cs }

/-- The state with the command that a table word spells put in front; no row of the table gives bits, so no word
spells a command. DEDUCED, log entry 4. -/
def State.withFetchWord (s : State) (nbits w : Nat) : State :=
  match decodeTableWord nbits w with
  | none   => s
  | some c => { s with pending := c :: s.pending }

end Sys2Proof.Machine
end

