-- ==== Sys2Proof/WellFormed.lean ====
section
/-!
DEFINITION. Which commands are well formed: operands within the widths of the fields that carry them and unit numbers
that name a unit of the module. What a well-formed command asks may still be refused by the module; that is its meaning.
-/
namespace Sys2Proof

/-! ### Widths and numbers -/

def fits8 (v : Nat) : Bool := v < 0x100
def fits16 (v : Nat) : Bool := v < 0x10000
def fits32 (v : Nat) : Bool := v < 0x100000000
def fits64 (v : Nat) : Bool := v < 0x10000000000000000
/-- A signed 32-bit raw reading (R5). -/
def fitsS32 (v : Int) : Bool := -2147483648 ≤ v && v ≤ 2147483647
/-- A signed 16-bit raw reading (R5). -/
def fitsS16 (v : Int) : Bool := -32768 ≤ v && v ≤ 32767
def isLane (l : Nat) : Bool := l < 2
def isSection (s : Nat) : Bool := s < 4
def isDcChannel (c : Nat) : Bool := c < 4
def isGroup (g : Nat) : Bool := g < 8
def isPair (p : Nat) : Bool := p < 32
def isMeasChannel (n : Nat) : Bool := n < 24
def isFieldChannel (n : Nat) : Bool := n < 32
def isFieldGroup (g : Nat) : Bool := g < 4
/-- A mask of the 24 measurement channels. -/
def isChanMask (m : Nat) : Bool := m < 0x1000000
/-- A mask of the two lanes. -/
def isLaneMask (m : Nat) : Bool := m < 4

/-! ### The data that commands carry -/

/-- A sender of command frames (R56): a mailbox 0 to 3 or a GHP3 session 0 to 7. -/
def Sender.wf : Sender → Bool
  | .mbx n     => n < 4
  | .session k => k < 8
  | _          => false

/-- A frame's header (R46). -/
def Hdr.wf (h : Hdr) : Bool := h.snd.wf && fits16 h.seq && fits8 h.slot && fits64 h.counter

/-- A phasor in its two number forms (R5). -/
def Phasor.wf (p : Phasor) : Bool := fitsS32 p.mag && fits32 p.ang

def SecMeas.wf (x : SecMeas) : Bool :=
  [x.gridPos, x.gridNeg, x.convPos, x.convNeg, x.curPos, x.curNeg].all Phasor.wf
  && x.gridMag.length = 3 && x.gridMag.all fitsS32 && x.convMag.length = 3 && x.convMag.all fitsS32

/-- One tick's samples: 24 channels and 4 sections. -/
def Samples.wf (x : Samples) : Bool :=
  x.bits.length = 24 && x.bits.all (fun b => b.1 ≤ 65535 && b.2 < 2 ^ b.1) && x.sec.length = 4 && x.sec.all SecMeas.wf

/-- The windows of the 24 detectors (R95): the 34 newest bits of each channel. -/
def winsWf (l : List Nat) : Bool := l.length = 24 && l.all (fun w => w < 2 ^ 34)

def MeterBlock.wf (b : MeterBlock) : Bool :=
  isGroup b.unit && fitsS32 b.q && b.series.all (fun c => isMeasChannel c.1 && c.2.all fitsS32)

/-- The item of a mirror mismatch and the engine that computes it (R328). -/
def itemWf (x : Option (Nat × Nat)) : Bool := match x with | none => true | some (i, e) => fits8 i && e < 2

def LegMap.wf (r : LegMap) : Bool :=
  r.layout ≤ 4 && isPair r.firstPair && fits32 r.safePattern && fits32 r.safeDt
  && r.dts.all (fun d => fits32 d.1 && fits32 d.2) && fits8 r.cls && r.flts.all (fun f => fits8 f.1 && fits16 f.2)

def MbReq.wf (r : MbReq) : Bool := if r.rtu then fits8 r.address else fits32 r.address

/-- One group of eight field channels. -/
def FieldReading.wf (r : FieldReading) : Bool :=
  r.volts.length = 8 && r.current.length = 8 && r.limit.length = 8 && r.thermal.length = 8

/-- A housekeeping round: 16 temperatures, 32 results and 13 rails. -/
def HkRound.wf (r : HkRound) : Bool :=
  r.conv < 2 && r.ohms.length = 8 && r.dies.length = 8 && r.vals.length = 32 && r.vals.all fits32 && r.rails.length = 13

def Estimate.wf : Estimate → Bool
  | .linkCap chan load c esr => isMeasChannel chan && fitsS32 load && fits32 c && fits32 esr
  | .turnOff pair _ _ _ _    => isPair pair
  | .thermal ntc i j _ r     => ntc < 8 && fitsS32 i && fitsS32 j && fits32 r
  | .coolRatio rpm ma _      => fits16 rpm && fits16 ma
  | .refTrend lane mean      => isLane lane && fitsS32 mean
  | .tcxo trim die           => fitsS32 trim && fitsS16 die
  | .flashWear lane region _ => isLane lane && region < 4
  | .dramTrend lane          => isLane lane
  | .dieHour                 => true

/-- The seal bits that one reading gives, ten readings at most (R361). -/
def sealsWf (l : List Nat) : Bool := l.length = 10 && l.all fits8

/-- Class and unit of a recovery (R292): groups, measurement channels and field channels. -/
def recoveryWf (cls unit : Nat) : Bool :=
  (cls = 1 && isGroup unit) || (cls = 2 && isMeasChannel unit) || (cls = 3 && isFieldChannel unit)

/-! ### The commands -/

/-- Whether a command is well formed. -/
def Instr.wf : Instr → Bool
  | .linkRead addr len => fits16 addr && fits16 len
  | .linkWrite addr _ => fits16 addr
  | .linkModeReset _ => true
  | .quadEnWrite v => fits32 v
  | .hlStatusClear v => fits32 v
  | .mbxDoorbell v => fits8 v
  | .rspRelease v => fits8 v
  | .commandWindowWrite n off _ => n < 4 && off < 0x400
  | .responseFifoRead n len => n < 4 && fits16 len
  | .read h i j => h.wf && fits16 i && fits8 j
  | .write h i j _ => h.wf && fits16 i && fits8 j
  | .writeCommit h i j _ => h.wf && fits16 i && fits8 j
  | .groupBegin h => h.wf
  | .groupCommit h t => h.wf && (match t with | none => true | some x => fits64 x)
  | .streamOpen h i c _ => h.wf && fits16 i && fits8 c
  | .streamClose h c => h.wf && fits8 c
  | .eventAck h q => h.wf && fits16 q
  | .groupDiscarded snd => snd.wf
  | .evtNPulse => true
  | .eventFrameRelease k => k < 8
  | .tickBoundary => true
  | .samplesReady smp => smp.wf
  | .commitDeadline rep => itemWf rep.mirror
  | .tickStatsClear h => h.wf
  | .focTrip _ lanes wins => isLaneMask lanes && winsWf wins
  | .focAlert _ wins => winsWf wins
  | .mclkLost _ mclks lanes => mclks < 16 && isLaneMask lanes
  | .mclkLostInLane _ lane mclks => isLane lane && mclks < 16
  | .streamLost _ chan _ lanes => isMeasChannel chan && isLaneMask lanes
  | .plausibility kind unit => kind < 4 && (if kind = 0 || kind = 2 then isSection unit else isMeasChannel unit)
  | .channelSettled chan => isMeasChannel chan
  | .meterBlockEnd blk => blk.wf
  | .calZero h chan n => h.wf && fits8 chan && fits16 n
  | .calDcSpan h chan ref n => h.wf && fits8 chan && fits32 ref && fits16 n
  | .calAcSpan h chan ref n => h.wf && fits8 chan && fits32 ref && fits16 n
  | .calApply h chan => h.wf && fits8 chan
  | .calAbort h chan => h.wf && fits8 chan
  | .calPointDone => true
  | .offsetTrackUpdate chan => isMeasChannel chan
  | .gridFreqUpdate sec => isSection sec
  | .notchUpdate => true
  | .ctxReset h n => h.wf && fits8 n
  | .traceArm h => h.wf
  | .traceStop h => h.wf
  | .traceForce h => h.wf
  | .tracePreFilled => true
  | .traceDone => true
  | .injStart h => h.wf
  | .injStop h => h.wf
  | .sweepSettled => true
  | .sweepPointMeasured => true
  | .injectionDone => true
  | .gfStart h sec => h.wf && isSection sec
  | .gfStop h sec => h.wf && isSection sec
  | .deadConfirmExpiry sec => isSection sec
  | .backoffExpiry sec => isSection sec
  | .busLive sec => isSection sec
  | .closeTimeout sec => isSection sec
  | .rampComplete sec => isSection sec
  | .rampTimeout sec => isSection sec
  | .enterServiceDelayEnd sec => isSection sec
  | .syncHoldMet sec => isSection sec
  | .syncTimeout sec => isSection sec
  | .stopPowerLow sec => isSection sec
  | .stopComplete sec => isSection sec
  | .idSlotStart sec => isSection sec
  | .idInjectionEnd sec => isSection sec
  | .idResult sec _ => isSection sec
  | .idRun h sec => h.wf && isSection sec
  | .islandingCheck sec => isSection sec
  | .dcStart h chan => h.wf && isDcChannel chan
  | .dcStop h chan => h.wf && isDcChannel chan
  | .dcEntryConditionsMet chan => isDcChannel chan
  | .pvLowPower chan => isDcChannel chan
  | .batteryOutOfWindow chan => isDcChannel chan
  | .dcStopComplete chan => isDcChannel chan
  | .dcLimitsExpired chan => isDcChannel chan
  | .mpptStep chan => isDcChannel chan
  | .scanDue chan => isDcChannel chan
  | .scanRun h chan => h.wf && isDcChannel chan
  | .scanDwellEnd chan => isDcChannel chan
  | .scanCheckEnd chan => isDcChannel chan
  | .rtCurveCheck sec => isSection sec
  | .freqTripStage sec stage => isSection sec && stage < 4
  | .recovTimeMet sec => isSection sec
  | .rtRecoveryComplete sec => isSection sec
  | .lossOfSync sec => isSection sec
  | .losBlankEnd sec => isSection sec
  | .currentLimitRelease sec => isSection sec
  | .pwmTripClear h groups => h.wf && fits8 groups
  | .pwmDirectStart h group => h.wf && fits8 group
  | .pwmDirectStop h group => h.wf && fits8 group
  | .fltTrip _ ins => ins.length ≤ 16
  | .laneTripRequest _ lane groups => isLane lane && fits8 groups
  | .interlockViolation _ pair _ => isPair pair
  | .safeDtExpiry group => isGroup group
  | .legMapReport group rep => isGroup group && rep.wf
  | .trimBlockDone pair _ _ => isPair pair
  | .comfbMissing pair _ => isPair pair
  | .comfbRestored pair _ => isPair pair
  | .dclinkTrip chan _ => isMeasChannel chan
  | .dclinkWarning chan => isMeasChannel chan
  | .recoveryDelayEnd cls unit => recoveryWf cls unit
  | .clearRecheck cls unit => recoveryWf cls unit
  | .retryTimeout cls unit => recoveryWf cls unit
  | .holdMaxReached => true
  | .retire h kind unit => h.wf && fits8 kind && fits8 unit
  | .reinstate h kind unit => h.wf && fits8 kind && fits8 unit
  | .scrubPass lane _ n => isLane lane && fits32 n
  | .memoryUncorrectable lane _ a => isLane lane && fits32 a
  | .flashUncorrectable lane region off _ es =>
    isLane lane && fits8 region && fits32 off && es.all (fun e => fits16 e.1 && fits8 e.2)
  | .parityError lane place a => isLane lane && fits8 place && fits32 a
  | .floeFrame f => isLane f.lane && fits16 f.seq && itemWf f.mismatch
  | .floeStateLoss => true
  | .cirqueMacFail lane => isLane lane
  | .safetyLinkLoss _ => true
  | .tlsRecordFail k => k < 8
  | .integrityClear h => h.wf
  | .laneClaim _ _ => true
  | .claimTimeout lane => isLane lane
  | .standbyReady => true
  | .claimWithdrawn => true
  | .takeoverInstant claim _ => fits32 claim
  | .splitClaim => true
  | .claimPairBroken lane => isLane lane
  | .noGrantTimeout => true
  | .lockstepMismatch lane => isLane lane
  | .watchdogExpiry lane => isLane lane
  | .floeLoopbackFail lane => isLane lane
  | .knownAnswerTestFail lane => isLane lane
  | .mirrorDiagnosis outcome => outcome < 3
  | .carrierAlign ps => ps.all fitsS32
  | .fullTestStart => true
  | .selfTestDone failed _ => failed < 128
  | .laneSwitchover h => h.wf
  | .laneResync h => h.wf
  | .redundancyRestored => true
  | .sdcSample _ _ => true
  | .safetyCrosslinkFrame _ _ badStatus => isLaneMask badStatus
  | .connectionRequest _ => true
  | .sdcStepConfirmed => true
  | .relayTimeout => true
  | .discrepancyFault => true
  | .weldTestDue => true
  | .weldTestOverdue => true
  | .sdcFaultClear h => h.wf
  | .seracOscFault => true
  | .sealRecheck a b => fits8 a && fits8 b
  | .resetAsserted _ _ => true
  | .resetHeld _ => true
  | .resetReleased => true
  | .ptpMessage m => m.port < 2 && fits8 m.domain && fits16 m.sequenceId && fits16 m.stepsRemoved && fitsS16 m.utcOffset
  | .timeSourceLost => true
  | .holdoverLimitExpiry => true
  | .ppsInEdge _ => true
  | .ppsOutPulse => true
  | .trigPulse k => k < 4
  | .timeSet h t => h.wf && fits64 t
  | .timeReacquire h => h.wf
  | .schedCancel h e => h.wf && fits8 e
  | .scheduledEntry e => e < 64
  | .tcpConnect addr port => fits32 addr && fits16 port
  | .tlsHandshake peer => fits32 peer.addr
  | .sessionIdleTimeout k => k < 8
  | .linkState port status => port < 2 && fits8 status
  | .modbusReadHolding rq start count => rq.wf && fits16 start && fits16 count
  | .modbusReadInput rq start count => rq.wf && fits16 start && fits16 count
  | .modbusWriteSingle rq reg value => rq.wf && fits16 reg && fits16 value
  | .modbusWriteMultiple rq start values => rq.wf && fits16 start && values.all fits16
  | .dnp3Request rq => fits16 rq.dest && fits16 rq.master && rq.reads.all fits8 && rq.ops.all (fun o => fits16 o.index && fits32 o.value)
  | .rimeFrame f => isLane f.lane
  | .rimeLoss lane => isLane lane
  | .fieldSample group rd => isFieldGroup group && rd.wf
  | .inputMaxActive chan => isFieldChannel chan
  | .chatterWindowEnd => true
  | .outputOverload chan => isFieldChannel chan
  | .outputThermal chan => isFieldChannel chan
  | .fieldLoadWarning ofGroup n _ => if ofGroup then isFieldGroup n else isFieldChannel n
  | .fsupOutOfRange group vs => isFieldGroup group && vs.all (fun v => fits16 v.1)
  | .fsupLost group vs => isFieldGroup group && vs.all (fun v => fits16 v.1)
  | .fsupBack group vs => isFieldGroup group && vs.all (fun v => fits16 v.1)
  | .hkRound r => r.wf
  | .throttleStepTimer => true
  | .graceTimeEnd => true
  | .sensorRestore h sensor => h.wf && fits8 sensor
  | .cdFault code => fits16 code
  | .cdBootstrapRefresh => true
  | .cdEnableLow _ _ => true
  | .cdRetryDelayEnd => true
  | .cdSpeedUpdate rpm ma cv => fits16 rpm && fits16 ma && fits16 cv
  | .cdFaultClear h => h.wf
  | .lockWindow lane dev xo => isLane lane && fitsS16 dev && fitsS32 xo
  | .tcxoLost => true
  | .tcxoRestored => true
  | .hkUrgent h input => h.wf && fits8 input
  | .hkUrgentDone value => fits32 value
  | .sessionOpen h _ => h.wf
  | .authBlockEnd addr snd => (match addr with | some a => fits32 a | none => snd.wf)
  | .keyInstall h _ => h.wf
  | .certInstall h _ => h.wf
  | .trustAnchor h k _ => h.wf && fits8 k
  | .crlInstall h off _ => h.wf && fits32 off
  | .certExpiring which _ => which < 5
  | .fwUpload h off _ => h.wf && fits32 off
  | .fwStage h => h.wf
  | .fwStaged _ _ => true
  | .fwActivate h => h.wf
  | .fwCommit h => h.wf
  | .commitDelayExpiry => true
  | .certModeEnter h => h.wf
  | .certModeLeave h => h.wf
  | .debugUnlock h => h.wf
  | .debugResponse h _ => h.wf
  | .powerOn _ b => sealsWf b
  | .powerDip => true
  | .lanesReleased _ _ => true
  | .bootLoaderVerified lane _ => isLane lane
  | .safetyDieRunning _ a => sealsWf a
  | .firmwareImageVerified lane _ _ => isLane lane
  | .floeTraining _ _ _ _ => true
  | .rimeTraining lane _ => isLane lane
  | .selfTestComplete lane _ => isLane lane
  | .estimateBlock e => e.wf
  | .baselineComplete => true
  | .planCompute => true
  | .planNow h => h.wf
  | .planStep => true
  | .ageingRebase h kind unit => h.wf && fits8 kind && fits8 unit
  | .sessionClose k => k < 8
  | .delayReq => true
  | .hallEdge code => code < 8

end Sys2Proof
end

