-- ==== Sys2Proof/Safety.lean ====
section
/-!
DEFINITION. The terms in which claims are stated: what it means that a command completes, which parts of the module and
which entries a command leaves, when a frame is taken for a new command, and what a safe step is.
-/
namespace Sys2Proof.Machine

/-! ### Completion -/

/-- The command answers a next state whose module satisfies `Q`; the queue and what the module keeps stay as they are. -/
def Does (c : Instr) (s : State) (Q : Mod → Prop) : Prop := ∃ n : Mod, exec c s = .next { s with m := n } ∧ Q n

/-- The command answers a next state; the queue stays as it is. -/
def Completes (c : Instr) (s : State) (Q : State → Prop) : Prop := ∃ t : State, exec c s = .next t ∧ t.pending = s.pending ∧ Q t

/-- A step that neither faults nor refuses. -/
def SafeStep (s : State) : Prop := ∃ t, step s = .next t

/-! ### What a command leaves -/

/-- The parts of the module, one for each of its fields; the stored entries and their generation numbers are one part, the
configuration region. -/
inductive Part
  | clk | obj | sto | link | mbx | sess | hostQ | qseq | streams | staged | acts | sched | order | free | seenEv
  | grp | pairs | idle | prot | sdc | sec | dc | fld | fgrp | rime | lanes | arb | eng | saved | trace | inj
  | hostSet | lost | meas | time | net | secu | therm | cd | hk | age | power
deriving DecidableEq, Repr

/-- Whether two modules agree in a part. -/
def Part.same : Part → Mod → Mod → Prop
  | .clk, a, b     => b.clk = a.clk
  | .obj, a, b     => b.obj = a.obj
  | .sto, a, b     => (b.sto, b.gens) = (a.sto, a.gens)
  | .link, a, b    => b.link = a.link
  | .mbx, a, b     => b.mbx = a.mbx
  | .sess, a, b    => b.sess = a.sess
  | .hostQ, a, b   => b.hostQ = a.hostQ
  | .qseq, a, b    => b.qseq = a.qseq
  | .streams, a, b => b.streams = a.streams
  | .staged, a, b  => b.staged = a.staged
  | .acts, a, b    => b.acts = a.acts
  | .sched, a, b   => b.sched = a.sched
  | .order, a, b   => b.order = a.order
  | .free, a, b    => b.free = a.free
  | .seenEv, a, b  => b.seenEv = a.seenEv
  | .grp, a, b     => b.grp = a.grp
  | .pairs, a, b   => b.pairs = a.pairs
  | .idle, a, b    => b.idle = a.idle
  | .prot, a, b    => b.prot = a.prot
  | .sdc, a, b     => b.sdc = a.sdc
  | .sec, a, b     => b.sec = a.sec
  | .dc, a, b      => b.dc = a.dc
  | .fld, a, b     => b.fld = a.fld
  | .fgrp, a, b    => b.fgrp = a.fgrp
  | .rime, a, b    => b.rime = a.rime
  | .lanes, a, b   => b.lanes = a.lanes
  | .arb, a, b     => b.arb = a.arb
  | .eng, a, b     => b.eng = a.eng
  | .saved, a, b   => b.saved = a.saved
  | .trace, a, b   => b.trace = a.trace
  | .inj, a, b     => b.inj = a.inj
  | .hostSet, a, b => b.hostSet = a.hostSet
  | .lost, a, b    => b.lost = a.lost
  | .meas, a, b    => b.meas = a.meas
  | .time, a, b    => b.time = a.time
  | .net, a, b     => b.net = a.net
  | .secu, a, b    => b.secu = a.secu
  | .therm, a, b   => b.therm = a.therm
  | .cd, a, b      => b.cd = a.cd
  | .hk, a, b      => b.hk = a.hk
  | .age, a, b     => b.age = a.age
  | .power, a, b   => b.power = a.power

/-- Nothing but some parts changes from `a` to `b`. -/
def Only (l : List Part) (a b : Mod) : Prop := ∀ p, p ∉ l → p.same a b

/-- No entry but some keys changes its value in force from `a` to `b`. -/
def OnlyEntries (ks : List Nat) (a b : Mod) : Prop := ∀ k, k ∉ ks → b.get k = a.get k

/-- The parts that raising an event changes: the queues, their numbers, the events seen, the sessions that report, EVT_N. -/
def evParts : List Part := [.hostQ, .sess, .qseq, .seenEv, .link]

/-- The parts that a frame with its response changes: the mailboxes, the sessions, the link, and the counters of frames. -/
def frameParts : List Part := [.mbx, .sess, .link, .obj]

/-- From `a` to `b` an event was raised (R58 to R60): it heads the events seen, and the host serial link's queue, where it
takes the event, has room for it with a marker and holds none like it, has an entry with its severity, fault code and argument. -/
def Tells (ev sev fault arg : Nat) (a b : Mod) : Prop :=
  b.seenEv = ev :: a.seenEv
  ∧ (a.hostQ.wants ev = true → a.hostQ.holds ev fault = false → a.hostQ.entries.length + 2 ≤ 256 →
      ∃ e ∈ b.hostQ.entries, e.ev = ev ∧ e.flags / 4 % 4 = sev ∧ e.fault = fault ∧ e.arg = arg % 4294967296 ∧ e.count = 1)

/-- From `a` to `b` one event after another was raised, alike but for their arguments, and nothing else was told. -/
def TellsInTurn (ev sev fault : Nat) : List Nat → Mod → Mod → Prop
  | [], a, b     => b.seenEv = a.seenEv ∧ b.hostQ = a.hostQ
  | x :: l, a, b => ∃ c, Tells ev sev fault x a c ∧ TellsInTurn ev sev fault l c b

/-! ### Frames -/

/-- The generation in which a sender's frames come: that of its mailbox, 3 for a network session. -/
def Mod.genOf (m : Mod) (snd : Sender) : Nat :=
  match snd with
  | .mbx n => (m.mbx.getD n {}).gen
  | _      => 3

/-- Whether the way of a sender is open for a frame: a mailbox of the serial link that is free (R42, R44), or an open
and bound network session (R389); its data within the limit of its generation (R40). -/
def Mod.wayOpen (m : Mod) (snd : Sender) (len : Nat) : Bool :=
  match snd with
  | .mbx n     =>
    let x := m.mbx.getD n {}
    n < 4 && m.mbx.length = 4 && m.link.ready
      && (if x.gen = 3 then m.link.quadEn && len ≤ 974 else !x.busy && !x.rspReady && len ≤ dataLimit x.gen)
  | .session k =>
    (match m.sessAt k with | some x => x.isOpen && x.bound.isSome && len ≤ 974 | none => false)
  | _          => false

/-- From `a` to `b` a response left for its sender: it stands in the response window of its mailbox with RSP_READY (R42), or
behind what its response FIFO holds (R44), or its network session's message counter went with it (R47). -/
def Sent (snd : Sender) (r : Rsp) (a b : Mod) : Prop :=
  match snd with
  | .mbx k =>
    if a.genOf snd = 3 then (b.mbx.getD k {}).rspFifo = (a.mbx.getD k {}).rspFifo ++ ((a.chanOf snd).sign r).1
    else (b.mbx.getD k {}).rsp = (if a.genOf snd = 1 then ghp1Bytes r else ghp2Bytes r) ∧ (b.mbx.getD k {}).rspReady = true
  | _ => (b.chanOf snd).ctrOut = ((a.chanOf snd).sign r).2.ctrOut

/-- Whether the way of a sender has room for a response: nothing waits before it, and a response FIFO holds 4096 bytes (R44). -/
def Mod.roomFor (snd : Sender) (r : Rsp) (m : Mod) : Bool :=
  (m.chanOf snd).out.isEmpty && (match snd with
    | .mbx k => m.genOf snd ≠ 3 || (m.mbx.getD k {}).rspFifo.length + ((m.chanOf snd).sign r).1.length ≤ 4096
    | _ => true)

/-- Whether a frame is taken for a new command (R47, R49, R51, R464): its CRC and its first byte are right, its way is open, its sender is not muted, it is
authentic where its generation asks for it, its sequence number is new, and fewer than eight commands are outstanding. -/
def Mod.accepts (m : Mod) (f : Frame) : Bool :=
  let c := m.chanOf f.h.snd
  (f.h.crcOk && f.h.genOk && f.h.seq < 65536) && m.wayOpen f.h.snd f.data.length && c.blocked.isNone
    && (m.genOf f.h.snd ≠ 3 || m.authentic f) && seqKind c.kept f.h.seq = .new && c.out.length < 8

/-- Whether a frame is an ACTION that its sender may run now: its role suffices (R465), it holds no group open (R52),
and the module is not in lockout (R361). -/
def Mod.runs (m : Mod) (f : Frame) : Bool :=
  m.accepts f && actionRole f.idx f.data ≤ m.roleOf f.h.snd && (m.chanOf f.h.snd).group.isNone && !m.sdc.lockout
    && m.get Ob.certifiedMode ≠ 1

/-- The response that a sender's channel keeps for a command it has answered (R51). -/
def Mod.answer (m : Mod) (snd : Sender) : Option (Nat × Nat × List Byte) :=
  (m.chanOf snd).stored.map (fun r => (r.seq, r.status, r.data))

/-- The module as the command of an accepted frame finds it: its mailbox busy, or its session heard from, the frame
counted, its message counter and its sequence number taken (R42, R47, R51). -/
def Mod.taken (f : Frame) (m : Mod) : Mod :=
  let m1 : Mod := match f.h.snd with
    | .mbx n     => if (m.mbx.getD n {}).gen = 3 then m else { m with mbx := m.mbx.set n { (m.mbx.getD n {}) with busy := true } }
    | .session k => m.modSess k (fun y => { y with lastPs := m.now })
    | _          => m
  ((m1.bump Ob.framesOk).modChan f.h.snd (fun x => if m.genOf f.h.snd = 3 && !f.opensSession then { x with ctrIn := some f.h.counter } else x)).modChan
    f.h.snd (fun c => { c with kept := some f.h.seq, stored := none })

/-- The command of a frame is answered with a status and data; beside the way of the frame nothing but some parts and
entries changes, and the module satisfies `Q`. -/
def Done (c : Instr) (f : Frame) (s : State) (st : Nat) (d : List Byte) (l : List Part) (ks : List Nat) (Q : Mod → Prop) : Prop :=
  Does c s (fun n => n.answer f.h.snd = some (f.h.seq, st, d) ∧ Only (l ++ frameParts) s.m n ∧ OnlyEntries (Ob.framesOk :: ks) s.m n
    ∧ Q n)

/-- A command of a frame: whatever the state, its mailbox of the serial link, or its network session, is given that frame. -/
def Framed (c : Instr) (f : Frame) : Prop :=
  ∀ s : State, (∀ n, f.h.snd = .mbx n → n < 4 → exec c s = .next (State.mailboxFrame n f.sized s))
    ∧ ∀ k, f.h.snd = .session k → exec c s = .next (State.sessionFrame k f.sized s)

/-- The command of a frame stands staged with its work for the coming boundary, past the cutoff for the one after it (R72,
R515); beside that and the way of the frame nothing changes. -/
def Stages (c : Instr) (f : Frame) (s : State) (w : Work) : Prop :=
  Does c s (fun n =>
    (∃ x : Staged, n.staged = s.m.staged ++ [x] ∧ x.snd = f.h.snd ∧ x.seq = f.h.seq ∧ x.work = w
      ∧ x.late = decide (s.m.clk.phase = .staging) ∧ x.isGroup = false ∧ x.entry = none)
    ∧ Only ([.staged, .order] ++ frameParts) s.m n ∧ OnlyEntries [Ob.framesOk, Ob.writesDeferred] s.m n)

end Sys2Proof.Machine
end

