-- ==== Sys2Proof/Certificates/Slice0/Obligations.lean ====
section
/-!
DEFINITION. The statements for the provers, chapter by chapter of the spec: what each command does, what it leaves, and
what no step can do.
-/
open Sys2Proof Sys2Proof.Machine

/-- The command at the front of the queue runs on the state with the rest of the queue. -/
def Obligations.StepRunsTheFrontCommand : Prop :=
  ∀ (c : Instr) (q : List Instr) (s : State), step { s with pending := c :: q } = exec c { s with pending := q }

/-- A command whose operands fit their widths and name units of the module neither faults nor is refused, whatever the state,
and the queue stays as it is. And for each command by its name, whatever the state: one that comes in a frame answers the state that its
mailbox or session gives with that frame (R41 to R51, R462); any other answers the state of its own operation, for every operand, of a unit
that exists where it names one. What each operation does is said by the statements of its chapter. -/
def Obligations.WellFormedCommandsComplete : Prop :=
  (∀ (c : Instr) (s : State), c.wf = true → ∃ t, exec c s = .next t ∧ t.pending = s.pending)
  ∧ (∀ (h : Hdr) (index sub : Nat), Framed (.read h index sub) ⟨h, 1, index, sub, []⟩)
  ∧ (∀ (h : Hdr) (index sub : Nat) (data : List Byte), Framed (.write h index sub data) ⟨h, 2, index, sub, data⟩)
  ∧ (∀ (h : Hdr) (index sub : Nat) (data : List Byte), Framed (.writeCommit h index sub data) ⟨h, 3, index, sub, data⟩)
  ∧ (∀ (h : Hdr), Framed (.groupBegin h) ⟨h, 5, 0, 0, []⟩)
  ∧ (∀ (h : Hdr), Framed (.groupCommit h none) ⟨h, 6, 0, 0, []⟩)
  ∧ (∀ (h : Hdr) (t : Nat), Framed (.groupCommit h (some t)) ⟨h, 6, 0, 0, leBytes 8 t⟩)
  ∧ (∀ (h : Hdr) (index channel : Nat) (args : List Byte), Framed (.streamOpen h index channel args) ⟨h, 8, index, channel, args⟩)
  ∧ (∀ (h : Hdr) (channel : Nat), Framed (.streamClose h channel) ⟨h, 9, 0, channel, []⟩)
  ∧ (∀ (h : Hdr) (q : Nat), Framed (.eventAck h q) ⟨h, 10, 0, 0, (leBytes 2 q)⟩)
  ∧ (∀ (h : Hdr), Framed (.tickStatsClear h) ⟨h, 4, 0x1205, 0, []⟩)
  ∧ (∀ (h : Hdr) (chan blocks : Nat), Framed (.calZero h chan blocks) ⟨h, 4, 0x2100, 0, (leBytes 1 chan ++ leBytes 1 0 ++ leBytes 4 0 ++
      leBytes 2 blocks)⟩)
  ∧ (∀ (h : Hdr) (chan ref blocks : Nat), Framed (.calDcSpan h chan ref blocks) ⟨h, 4, 0x2100, 0, (leBytes 1 chan ++ leBytes 1 1 ++
      leBytes 4 ref ++ leBytes 2 blocks)⟩)
  ∧ (∀ (h : Hdr) (chan ref blocks : Nat), Framed (.calAcSpan h chan ref blocks) ⟨h, 4, 0x2100, 0, (leBytes 1 chan ++ leBytes 1 2 ++
      leBytes 4 ref ++ leBytes 2 blocks)⟩)
  ∧ (∀ (h : Hdr) (chan : Nat), Framed (.calApply h chan) ⟨h, 4, 0x2100, 0, (leBytes 1 chan ++ leBytes 1 3 ++ leBytes 6 0)⟩)
  ∧ (∀ (h : Hdr) (chan : Nat), Framed (.calAbort h chan) ⟨h, 4, 0x2100, 0, (leBytes 1 chan ++ leBytes 1 4 ++ leBytes 6 0)⟩)
  ∧ (∀ (h : Hdr) (n : Nat), Framed (.ctxReset h n) ⟨h, 4, 0x2701, 0, (leBytes 1 n)⟩)
  ∧ (∀ (h : Hdr), Framed (.traceArm h) ⟨h, 4, 0x7004, 0, []⟩)
  ∧ (∀ (h : Hdr), Framed (.traceStop h) ⟨h, 4, 0x7005, 0, []⟩)
  ∧ (∀ (h : Hdr), Framed (.traceForce h) ⟨h, 4, 0x7006, 0, []⟩)
  ∧ (∀ (h : Hdr), Framed (.injStart h) ⟨h, 4, 0x2711, 0, [0]⟩)
  ∧ (∀ (h : Hdr), Framed (.injStop h) ⟨h, 4, 0x2711, 0, [1]⟩)
  ∧ (∀ (h : Hdr) (groups : Nat), Framed (.pwmTripClear h groups) ⟨h, 4, 0x40F0, 0, (leBytes 1 groups)⟩)
  ∧ (∀ (h : Hdr) (group : Nat), Framed (.pwmDirectStart h group) ⟨h, 4, 0x40F1, 0, (leBytes 1 group ++ [0])⟩)
  ∧ (∀ (h : Hdr) (group : Nat), Framed (.pwmDirectStop h group) ⟨h, 4, 0x40F1, 0, (leBytes 1 group ++ [1])⟩)
  ∧ (∀ (h : Hdr) (kind unit : Nat), Framed (.retire h kind unit) ⟨h, 4, 0x44B0, 0, (leBytes 1 0 ++ leBytes 1 kind ++ leBytes 1 unit)⟩)
  ∧ (∀ (h : Hdr) (kind unit : Nat), Framed (.reinstate h kind unit) ⟨h, 4, 0x44B0, 0, (leBytes 1 1 ++ leBytes 1 kind ++ leBytes 1
      unit)⟩)
  ∧ (∀ (h : Hdr), Framed (.integrityClear h) ⟨h, 4, 0x4630, 0, []⟩)
  ∧ (∀ (h : Hdr), Framed (.laneSwitchover h) ⟨h, 4, 0x4801, 0, []⟩)
  ∧ (∀ (h : Hdr), Framed (.laneResync h) ⟨h, 4, 0x4802, 0, []⟩)
  ∧ (∀ (h : Hdr), Framed (.sdcFaultClear h) ⟨h, 4, 0x4A20, 0, []⟩)
  ∧ (∀ (h : Hdr) (t : Nat), Framed (.timeSet h t) ⟨h, 4, 0x5003, 0, (leBytes 8 t)⟩)
  ∧ (∀ (h : Hdr), Framed (.timeReacquire h) ⟨h, 4, 0x5004, 0, []⟩)
  ∧ (∀ (h : Hdr) (e : Nat), Framed (.schedCancel h e) ⟨h, 4, 0x5041, 0, (leBytes 1 e)⟩)
  ∧ (∀ (h : Hdr) (sensor : Nat), Framed (.sensorRestore h sensor) ⟨h, 4, 0x5838, 0, (leBytes 1 sensor)⟩)
  ∧ (∀ (h : Hdr), Framed (.cdFaultClear h) ⟨h, 4, 0x5858, 0, []⟩)
  ∧ (∀ (h : Hdr) (input : Nat), Framed (.hkUrgent h input) ⟨h, 4, 0x5DC0, 0, (leBytes 1 input)⟩)
  ∧ (∀ (h : Hdr) (nonce : List Byte), Framed (.sessionOpen h nonce) ⟨h, 4, 0x6421, 0, nonce⟩)
  ∧ (∀ (h : Hdr) (data : List Byte), Framed (.keyInstall h data) ⟨h, 4, 0x6420, 0, data⟩)
  ∧ (∀ (h : Hdr) (der : List Byte), Framed (.certInstall h der) ⟨h, 4, 0x6403, 0, der⟩)
  ∧ (∀ (h : Hdr) (k : Nat) (der : List Byte), Framed (.trustAnchor h k der) ⟨h, 4, 0x6404, (k + 1), der⟩)
  ∧ (∀ (h : Hdr) (offset : Nat) (chunk : List Byte), Framed (.crlInstall h offset chunk) ⟨h, 4, 0x6405, 0, (leBytes 4 offset ++ chunk)⟩)
  ∧ (∀ (h : Hdr) (offset : Nat) (chunk : List Byte), Framed (.fwUpload h offset chunk) ⟨h, 2, 0x6450, 0, (leBytes 4 offset ++ chunk)⟩)
  ∧ (∀ (h : Hdr), Framed (.fwStage h) ⟨h, 4, 0x6451, 0, []⟩)
  ∧ (∀ (h : Hdr), Framed (.fwActivate h) ⟨h, 4, 0x6452, 0, []⟩)
  ∧ (∀ (h : Hdr), Framed (.fwCommit h) ⟨h, 4, 0x6453, 0, []⟩)
  ∧ (∀ (h : Hdr), Framed (.certModeEnter h) ⟨h, 4, 0x6454, 0, [1]⟩)
  ∧ (∀ (h : Hdr), Framed (.certModeLeave h) ⟨h, 4, 0x6454, 0, [0]⟩)
  ∧ (∀ (h : Hdr), Framed (.debugUnlock h) ⟨h, 4, 0x6470, 0, []⟩)
  ∧ (∀ (h : Hdr) (signature : List Byte), Framed (.debugResponse h signature) ⟨h, 4, 0x6471, 0, signature⟩)
  ∧ (∀ (h : Hdr), Framed (.planNow h) ⟨h, 4, 0x6002, 0, []⟩)
  ∧ (∀ (h : Hdr) (kind unit : Nat), Framed (.ageingRebase h kind unit) ⟨h, 4, 0x6004, 0, (leBytes 1 kind ++ leBytes 1 unit)⟩)
  ∧ (∀ (h : Hdr) (sec : Nat), sec < 4 → Framed (.gfStart h sec) ⟨h, 4, (0x3004 + sec), 0, [0]⟩)
  ∧ (∀ (h : Hdr) (sec : Nat), sec < 4 → Framed (.gfStop h sec) ⟨h, 4, (0x3004 + sec), 0, [1]⟩)
  ∧ (∀ (h : Hdr) (sec : Nat), sec < 4 → Framed (.idRun h sec) ⟨h, 4, (0x3058 + sec), 0, []⟩)
  ∧ (∀ (h : Hdr) (chan : Nat), chan < 4 → Framed (.dcStart h chan) ⟨h, 4, (0x3504 + chan), 0, [0]⟩)
  ∧ (∀ (h : Hdr) (chan : Nat), chan < 4 → Framed (.dcStop h chan) ⟨h, 4, (0x3504 + chan), 0, [1]⟩)
  ∧ (∀ (h : Hdr) (chan : Nat), chan < 4 → Framed (.scanRun h chan) ⟨h, 4, (0x352C + chan), 0, []⟩)
  ∧ ∀ s : State,
    (∀ (addr len : Nat), exec (.linkRead addr len) s = .next { s with m := s.m.linkReads addr len })
  ∧ (∀ (addr : Nat) (data : List Byte), exec (.linkWrite addr data) s = .next (State.linkWrites addr data s))
  ∧ (∀ (clocks : Nat), exec (.linkModeReset clocks) s =
      .next { s with m := if 16 ≤ clocks then { s.m with link := { s.m.link with quad := false, quadEn := false } } else s.m })
  ∧ (∀ (value : Nat), exec (.quadEnWrite value) s = .next { s with m := if s.m.linkUp then s.m.writeConfig value else s.m })
  ∧ (∀ (value : Nat), exec (.hlStatusClear value) s = .next { s with m := if s.m.linkUp then s.m.clearSticky value else s.m })
  ∧ (∀ (mask : Nat), exec (.mbxDoorbell mask) s = .next (if s.m.linkUp then State.doorbells mask s else s))
  ∧ (∀ (mask : Nat), exec (.rspRelease mask) s = .next { s with m := if s.m.linkUp then s.m.release mask else s.m })
  ∧ (∀ (n offset : Nat) (data : List Byte), n < 4 → offset < 1024 → exec (.commandWindowWrite n offset data) s =
      .next (if s.m.linkUp then State.windowWrite n offset data s else s))
  ∧ (∀ (n len : Nat), n < 4 → exec (.responseFifoRead n len) s = .next { s with m := s.m.linkReads (0x2000 + 0x400 * n) len })
  ∧ (∀ (snd : Sender), exec (.groupDiscarded snd) s = .next { s with m := s.m.groupDiscarded snd })
  ∧ exec .evtNPulse s = .next { s with m := s.m.pulseNow }
  ∧ (∀ (k : Nat), exec (.eventFrameRelease k) s = .next { s with m := s.m.releaseEvents k })
  ∧ exec .tickBoundary s = .next { s with m := s.m.tickBoundary s.kept }
  ∧ (∀ (smp : Samples), exec (.samplesReady smp) s = .next { s with m := s.m.samplesReady smp })
  ∧ (∀ (rep : TickReport), exec (.commitDeadline rep) s = .next { s with m := s.m.commitDeadline rep })
  ∧ (∀ (dt lanes : Nat) (wins : List Nat), exec (.focTrip dt lanes wins) s = .next { s with m := atDt dt (Mod.focTrip lanes wins) s.m })
  ∧ (∀ (dt : Nat) (wins : List Nat), exec (.focAlert dt wins) s = .next { s with m := atDt dt (Mod.focAlert wins) s.m })
  ∧ (∀ (dt mclks lanes : Nat), exec (.mclkLost dt mclks lanes) s = .next { s with m := atDt dt (Mod.mclkLost mclks lanes) s.m })
  ∧ (∀ (dt lane mclks : Nat), laneOk lane = true → exec (.mclkLostInLane dt lane mclks) s =
      .next { s with m := atDt dt (Mod.mclkLostInLane lane mclks) s.m })
  ∧ (∀ (dt chan : Nat) (clipped : Bool) (lanes : Nat), chan < 24 → exec (.streamLost dt chan clipped lanes) s =
      .next { s with m := atDt dt (Mod.streamLost chan clipped lanes) s.m })
  ∧ (∀ (kind unit : Nat), kind < 4 && (if kind = 0 || kind = 2 then secOk unit else unit < 24) → exec (.plausibility kind unit) s =
      .next { s with m := s.m.plausibility kind unit })
  ∧ (∀ (chan : Nat), chan < 24 → exec (.channelSettled chan) s = .next { s with m := s.m.channelSettled chan })
  ∧ (∀ (blk : MeterBlock), blk.unit < 8 → exec (.meterBlockEnd blk) s = .next { s with m := s.m.meterBlock blk })
  ∧ exec .calPointDone s = .next { s with m := s.m.calPointDone }
  ∧ (∀ (chan : Nat), chan < 24 → exec (.offsetTrackUpdate chan) s = .next { s with m := s.m.offsetTrackUpdate chan })
  ∧ (∀ (sec : Nat), secOk sec → exec (.gridFreqUpdate sec) s = .next { s with m := s.m.gridFreqUpdate sec })
  ∧ exec .notchUpdate s = .next { s with m := s.m.notchUpdate }
  ∧ exec .tracePreFilled s = .next { s with m := s.m.tracePreFilled }
  ∧ exec .traceDone s = .next { s with m := s.m.traceDone }
  ∧ exec .sweepSettled s = .next { s with m := s.m.sweepSettled }
  ∧ exec .sweepPointMeasured s = .next { s with m := s.m.sweepMeasured }
  ∧ exec .injectionDone s = .next { s with m := s.m.injDone }
  ∧ (∀ (sec : Nat), sec < 4 → exec (.deadConfirmExpiry sec) s = .next { s with m := s.m.alsoSaved (Mod.deadConfirmed sec) })
  ∧ (∀ (sec : Nat), sec < 4 → exec (.backoffExpiry sec) s = .next { s with m := s.m.alsoSaved (Mod.backoffExpires sec) })
  ∧ (∀ (sec : Nat), sec < 4 → exec (.busLive sec) s = .next { s with m := s.m.alsoSaved (Mod.busTurnsLive sec) })
  ∧ (∀ (sec : Nat), sec < 4 → exec (.closeTimeout sec) s = .next { s with m := s.m.alsoSaved (Mod.closeTimeout sec) })
  ∧ (∀ (sec : Nat), sec < 4 → exec (.rampComplete sec) s = .next { s with m := s.m.alsoSaved (Mod.rampComplete sec) })
  ∧ (∀ (sec : Nat), sec < 4 → exec (.rampTimeout sec) s = .next { s with m := s.m.alsoSaved (Mod.rampTimeout sec) })
  ∧ (∀ (sec : Nat), sec < 4 → exec (.enterServiceDelayEnd sec) s = .next { s with m := s.m.alsoSaved (Mod.delayEnds sec) })
  ∧ (∀ (sec : Nat), sec < 4 → exec (.syncHoldMet sec) s = .next { s with m := s.m.alsoSaved (Mod.syncHeld sec) })
  ∧ (∀ (sec : Nat), sec < 4 → exec (.syncTimeout sec) s = .next { s with m := s.m.alsoSaved (Mod.syncExpires sec) })
  ∧ (∀ (sec : Nat), sec < 4 → exec (.stopPowerLow sec) s = .next { s with m := s.m.alsoSaved (Mod.stopLow sec) })
  ∧ (∀ (sec : Nat), sec < 4 → exec (.stopComplete sec) s = .next { s with m := s.m.alsoSaved (Mod.stopDone sec) })
  ∧ (∀ (sec : Nat), sec < 4 → exec (.idSlotStart sec) s = .next { s with m := s.m.alsoSaved (Mod.idSlot sec) })
  ∧ (∀ (sec : Nat), sec < 4 → exec (.idInjectionEnd sec) s = .next { s with m := s.m.alsoSaved (Mod.idEnds sec) })
  ∧ (∀ (sec : Nat) (bins : List IdBin), sec < 4 → exec (.idResult sec bins) s =
      .next { s with m := s.m.alsoSaved (Mod.idResult sec bins) })
  ∧ (∀ (sec : Nat), sec < 4 → exec (.islandingCheck sec) s = .next { s with m := s.m.alsoSaved (Mod.islandingCheck sec) })
  ∧ (∀ (chan : Nat), chan < 4 → exec (.dcEntryConditionsMet chan) s = .next { s with m := s.m.alsoSaved (Mod.dcEntryMet chan) })
  ∧ (∀ (chan : Nat), chan < 4 → exec (.pvLowPower chan) s = .next { s with m := s.m.alsoSaved (Mod.pvLow chan) })
  ∧ (∀ (chan : Nat), chan < 4 → exec (.batteryOutOfWindow chan) s = .next { s with m := s.m.alsoSaved (Mod.batteryOut chan) })
  ∧ (∀ (chan : Nat), chan < 4 → exec (.dcStopComplete chan) s = .next { s with m := s.m.alsoSaved (Mod.dcStopDone chan) })
  ∧ (∀ (chan : Nat), chan < 4 → exec (.dcLimitsExpired chan) s = .next { s with m := s.m.alsoSaved (Mod.limitsExpire chan) })
  ∧ (∀ (chan : Nat), chan < 4 → exec (.mpptStep chan) s = .next { s with m := s.m.alsoSaved (Mod.mpptStep chan) })
  ∧ (∀ (chan : Nat), chan < 4 → exec (.scanDue chan) s = .next { s with m := s.m.alsoSaved (Mod.scanDue chan) })
  ∧ (∀ (chan : Nat), chan < 4 → exec (.scanDwellEnd chan) s = .next { s with m := s.m.alsoSaved (Mod.scanDwell chan) })
  ∧ (∀ (chan : Nat), chan < 4 → exec (.scanCheckEnd chan) s = .next { s with m := s.m.alsoSaved (Mod.scanCheck chan) })
  ∧ (∀ (sec : Nat), sec < 4 → exec (.rtCurveCheck sec) s = .next { s with m := s.m.alsoSaved (Mod.curveCheck sec) })
  ∧ (∀ (sec stage : Nat), secOk sec && stage < 4 → exec (.freqTripStage sec stage) s =
      .next { s with m := s.m.alsoSaved (Mod.freqTrip sec stage) })
  ∧ (∀ (sec : Nat), sec < 4 → exec (.recovTimeMet sec) s = .next { s with m := s.m.alsoSaved (Mod.recovTimeMet sec) })
  ∧ (∀ (sec : Nat), sec < 4 → exec (.rtRecoveryComplete sec) s = .next { s with m := s.m.alsoSaved (Mod.rtComplete sec) })
  ∧ (∀ (sec : Nat), sec < 4 → exec (.lossOfSync sec) s = .next { s with m := s.m.alsoSaved (Mod.lossOfSync sec) })
  ∧ (∀ (sec : Nat), sec < 4 → exec (.losBlankEnd sec) s = .next { s with m := s.m.alsoSaved (Mod.losBlankEnd sec) })
  ∧ (∀ (sec : Nat), sec < 4 → exec (.currentLimitRelease sec) s = .next { s with m := s.m.alsoSaved (Mod.limitRelease sec) })
  ∧ (∀ (dt : Nat) (inputs : List FltInput), exec (.fltTrip dt inputs) s = .next { s with m := atDt dt (Mod.fltTrip inputs) s.m })
  ∧ (∀ (dt lane groups : Nat), laneOk lane = true → exec (.laneTripRequest dt lane groups) s =
      .next { s with m := atDt dt (Mod.laneTrip lane groups) s.m })
  ∧ (∀ (dt pair : Nat) (threeLevel : Bool), pair < 32 → exec (.interlockViolation dt pair threeLevel) s =
      .next { s with m := atDt dt (Mod.interlock pair threeLevel) s.m })
  ∧ (∀ (group : Nat), group < 8 → exec (.safeDtExpiry group) s = .next { s with m := s.m.tripSettled group })
  ∧ (∀ (group : Nat) (rep : LegMap), group < 8 → exec (.legMapReport group rep) s =
      .next { s with m := (s.m.mapReport group rep).mapStops group })
  ∧ (∀ (pair : Nat) (sideB : Bool) (edges : List Transition), pair < 32 → exec (.trimBlockDone pair sideB edges) s =
      .next { s with m := s.m.trimEdges pair sideB edges })
  ∧ (∀ (pair : Nat) (edges : List Transition), pair < 32 → exec (.comfbMissing pair edges) s =
      .next { s with m := if s.m.lastMissing pair edges then s.m.comfbLost pair else s.m })
  ∧ (∀ (pair : Nat) (edges : List Transition), pair < 32 → exec (.comfbRestored pair edges) s =
      .next { s with m := if s.m.lastPresent pair edges then s.m.comfbBack pair else s.m })
  ∧ (∀ (chan : Nat) (isOver : Bool), chan < 24 → exec (.dclinkTrip chan isOver) s = .next { s with m := s.m.dclinkTrip chan isOver })
  ∧ (∀ (chan : Nat), chan < 24 → exec (.dclinkWarning chan) s = .next { s with m := s.m.dclinkWarn chan })
  ∧ (∀ (cls unit : Nat), exec (.recoveryDelayEnd cls unit) s = .next { s with m := s.m.recoveryEnd cls unit })
  ∧ (∀ (cls unit : Nat), exec (.clearRecheck cls unit) s = .next { s with m := s.m.clearRecheck cls unit })
  ∧ (∀ (cls unit : Nat), exec (.retryTimeout cls unit) s = .next { s with m := s.m.retryTimeout cls unit })
  ∧ exec .holdMaxReached s = .next { s with m := s.m.holdMax }
  ∧ (∀ (lane : Nat) (moraine : Bool) (corrected : Nat), laneOk lane = true → exec (.scrubPass lane moraine corrected) s =
      .next { s with m := s.m.scrubPass lane moraine corrected })
  ∧ (∀ (lane : Nat) (moraine : Bool) (address : Nat), laneOk lane = true → exec (.memoryUncorrectable lane moraine address) s =
      .next { s with m := s.m.memoryUncorrectable lane moraine address })
  ∧ (∀ (lane region offset : Nat) (bothCopies : Bool) (entries : List (Nat × Nat)), laneOk lane = true → exec (.flashUncorrectable lane
      region offset bothCopies entries) s = .next { s with m := s.m.flashUncorrectable lane region offset bothCopies entries })
  ∧ (∀ (lane place address : Nat), laneOk lane = true → exec (.parityError lane place address) s =
      .next { s with m := s.m.parityError lane place address })
  ∧ (∀ (f : FloeFrame), laneOk f.lane = true → exec (.floeFrame f) s = .next { s with m := s.m.floeFrame f })
  ∧ exec .floeStateLoss s = .next { s with m := s.m.floeStateLoss }
  ∧ (∀ (lane : Nat), laneOk lane = true → exec (.cirqueMacFail lane) s = .next { s with m := s.m.cirqueMacFail lane })
  ∧ (∀ (chanB : Bool), exec (.safetyLinkLoss chanB) s = .next { s with m := s.m.safetyLinkLoss chanB })
  ∧ (∀ (k : Nat), exec (.tlsRecordFail k) s = .next { s with m := s.m.tlsRecordFail k })
  ∧ (∀ (laneA laneB : Bool), exec (.laneClaim laneA laneB) s = .next { s with m := s.m.laneClaim laneA laneB })
  ∧ (∀ (lane : Nat), laneOk lane = true → exec (.claimTimeout lane) s = .next { s with m := s.m.claimTimeout lane })
  ∧ exec .standbyReady s = .next { s with m := s.m.standbyReady }
  ∧ exec .claimWithdrawn s = .next { s with m := s.m.claimWithdrawn }
  ∧ (∀ (claim : Nat) (edges : List Nat), exec (.takeoverInstant claim edges) s =
      .next { s with m := if s.m.arb.incoming.isSome then (s.m.takeoverInstant claim edges).leaveBehind else s.m })
  ∧ exec .splitClaim s = .next { s with m := s.m.splitClaim }
  ∧ (∀ (lane : Nat), laneOk lane = true → exec (.claimPairBroken lane) s = .next { s with m := s.m.pairBroken lane })
  ∧ exec .noGrantTimeout s = .next { s with m := if s.m.arb.armed && s.m.arb.grant.isNone then s.m.noGrant.driveK2 false else s.m }
  ∧ (∀ (lane : Nat), laneOk lane = true → exec (.lockstepMismatch lane) s = .next { s with m := s.m.laneFails lane 0x4801 })
  ∧ (∀ (lane : Nat), laneOk lane = true → exec (.watchdogExpiry lane) s = .next { s with m := s.m.laneFails lane 0x4802 })
  ∧ (∀ (lane : Nat), laneOk lane = true → exec (.floeLoopbackFail lane) s = .next { s with m := s.m.laneFailsLater lane 0x4806 })
  ∧ (∀ (lane : Nat), laneOk lane = true → exec (.knownAnswerTestFail lane) s = .next { s with m := s.m.laneFails lane 0x4807 })
  ∧ (∀ (outcome : Nat), exec (.mirrorDiagnosis outcome) s = .next { s with m := s.m.mirrorDiagnosis outcome })
  ∧ (∀ (ps : List Int), exec (.carrierAlign ps) s = .next { s with m := s.m.carrierAlign ps })
  ∧ exec .fullTestStart s = .next { s with m := s.m.fullTestStart }
  ∧ (∀ (failed : Nat) (aborted : Bool), exec (.selfTestDone failed aborted) s = .next { s with m := s.m.selfTestDone failed aborted })
  ∧ exec .redundancyRestored s = .next { s with m := s.m.redundancyRestored }
  ∧ (∀ (a b : SdcInputs), exec (.sdcSample a b) s = .next { s with m := s.m.sdcSample a b })
  ∧ (∀ (okA okB : Bool) (badStatus : Nat), exec (.safetyCrosslinkFrame okA okB badStatus) s =
      .next { s with m := (s.m.statusLinkBad badStatus).crosslinkFrame okA okB })
  ∧ (∀ (raised : Bool), exec (.connectionRequest raised) s = .next { s with m := s.m.connectionRequest raised })
  ∧ exec .sdcStepConfirmed s = .next { s with m := s.m.stepConfirmed }
  ∧ exec .relayTimeout s = .next { s with m := s.m.relayTimeout }
  ∧ exec .discrepancyFault s = .next { s with m := s.m.discFault }
  ∧ exec .weldTestDue s = .next { s with m := s.m.weldDue }
  ∧ exec .weldTestOverdue s = .next { s with m := s.m.weldOverdue }
  ∧ exec .seracOscFault s = .next { s with m := s.m.oscFault }
  ∧ (∀ (a b : Nat), exec (.sealRecheck a b) s = .next { s with m := s.m.sealRecheck s.kept.sealA s.kept.sealB a b })
  ∧ (∀ (dt ns : Nat), exec (.resetAsserted dt ns) s = .next { s with m := atDt dt (Mod.resetLow ns) s.m })
  ∧ (∀ (seconds : Nat), exec (.resetHeld seconds) s = .next { s with m := s.m.resetHeld seconds })
  ∧ exec .resetReleased s = .next { s with m := s.m.resetReleased }
  ∧ (∀ (a : PtpMsg), exec (.ptpMessage a) s = .next { s with m := s.m.ptpMessage a })
  ∧ exec .timeSourceLost s = .next { s with m := s.m.silent.sourceLost }
  ∧ exec .holdoverLimitExpiry s = .next { s with m := s.m.holdoverEnds }
  ∧ (∀ (dt : Nat), exec (.ppsInEdge dt) s = .next { s with m := atDt dt Mod.ppsInEdge s.m })
  ∧ exec .ppsOutPulse s = .next { s with m := s.m.ppsOutPulse }
  ∧ (∀ (k : Nat), k < 4 → exec (.trigPulse k) s = .next { s with m := s.m.trigPulse k })
  ∧ (∀ (e : Nat), e < 64 → exec (.scheduledEntry e) s = .next { s with m := s.m.stageEntry e })
  ∧ (∀ (addr port : Nat), exec (.tcpConnect addr port) s = .next { s with m := s.m.tcpConnect addr port })
  ∧ (∀ (peer : TlsPeer), exec (.tlsHandshake peer) s = .next { s with m := s.m.tlsHandshake peer })
  ∧ (∀ (k : Nat), exec (.sessionIdleTimeout k) s = .next { s with m := s.m.sessionIdle k })
  ∧ (∀ (port status : Nat), port < 2 → exec (.linkState port status) s = .next { s with m := s.m.linkState port status })
  ∧ (∀ (rq : MbReq) (start count : Nat), exec (.modbusReadHolding rq start count) s =
      .next { s with m := s.m.mbRead s.kept false rq start count })
  ∧ (∀ (rq : MbReq) (start count : Nat), exec (.modbusReadInput rq start count) s =
      .next { s with m := s.m.mbRead s.kept true rq start count })
  ∧ (∀ (rq : MbReq) (reg value : Nat), exec (.modbusWriteSingle rq reg value) s = .next { s with m := s.m.mbWrite rq 6 reg [value] })
  ∧ (∀ (rq : MbReq) (start : Nat) (values : List Nat), exec (.modbusWriteMultiple rq start values) s =
      .next { s with m := s.m.mbWrite rq 16 start values })
  ∧ (∀ (rq : DnpReq), exec (.dnp3Request rq) s = .next { s with m := s.m.dnp3Request s.kept rq })
  ∧ (∀ (f : RimeFrame), laneOk f.lane = true → exec (.rimeFrame f) s = .next { s with m := s.m.rimeFrame f })
  ∧ (∀ (lane : Nat), laneOk lane = true → exec (.rimeLoss lane) s = .next { s with m := s.m.rimeLoss lane })
  ∧ (∀ (group : Nat) (rd : FieldReading), group < 4 → exec (.fieldSample group rd) s = .next { s with m := s.m.fieldSample group rd })
  ∧ (∀ (chan : Nat), chan < 32 → exec (.inputMaxActive chan) s = .next { s with m := s.m.inputMax chan })
  ∧ exec .chatterWindowEnd s = .next { s with m := s.m.chatterEnd }
  ∧ (∀ (chan : Nat), chan < 32 → exec (.outputOverload chan) s = .next { s with m := s.m.outputOverload chan })
  ∧ (∀ (chan : Nat), chan < 32 → exec (.outputThermal chan) s = .next { s with m := s.m.outputThermal chan })
  ∧ (∀ (groupCurrent : Bool) (n : Nat) (present : Bool), (if groupCurrent then n < 4 else n < 32) → exec (.fieldLoadWarning groupCurrent
      n present) s = .next { s with m := s.m.loadWarning groupCurrent n present })
  ∧ (∀ (group : Nat) (volts : List (Nat × Nat)), group < 4 → exec (.fsupOutOfRange group volts) s =
      .next { s with m := s.m.fsupRange group volts })
  ∧ (∀ (group : Nat) (volts : List (Nat × Nat)), group < 4 → exec (.fsupLost group volts) s =
      .next { s with m := s.m.fsupLost group volts })
  ∧ (∀ (group : Nat) (volts : List (Nat × Nat)), group < 4 → exec (.fsupBack group volts) s =
      .next { s with m := s.m.fsupBack group volts })
  ∧ (∀ (r : HkRound), r.conv < 2 → exec (.hkRound r) s = .next { s with m := s.m.hkRound r })
  ∧ exec .throttleStepTimer s = .next { s with m := s.m.throttleTimer }
  ∧ exec .graceTimeEnd s = .next { s with m := s.m.graceEnds }
  ∧ (∀ (code : Nat), exec (.cdFault code) s = .next { s with m := s.m.cdFaulted code })
  ∧ exec .cdBootstrapRefresh s = .next { s with m := s.m.cdRefreshes }
  ∧ (∀ (byPin : Bool) (ns : Nat), exec (.cdEnableLow byPin ns) s = .next { s with m := s.m.cdLow byPin ns })
  ∧ exec .cdRetryDelayEnd s = .next { s with m := s.m.cdRetry }
  ∧ (∀ (rpm milliamps centivolts : Nat), exec (.cdSpeedUpdate rpm milliamps centivolts) s =
      .next { s with m := s.m.cdSpeedUpdate rpm milliamps centivolts })
  ∧ (∀ (lane : Nat) (dev xo : Int), laneOk lane = true → exec (.lockWindow lane dev xo) s =
      .next { s with m := s.m.lockWindow lane dev xo })
  ∧ exec .tcxoLost s = .next { s with m := s.m.tcxoLost }
  ∧ exec .tcxoRestored s = .next { s with m := s.m.tcxoRestored }
  ∧ (∀ (value : Nat), exec (.hkUrgentDone value) s = .next { s with m := s.m.hkUrgentDone value })
  ∧ (∀ (address : Option Nat) (snd : Sender), exec (.authBlockEnd address snd) s = .next { s with m := s.m.authBlockEnd address snd })
  ∧ (∀ (which daysLeft : Nat), which < 5 → exec (.certExpiring which daysLeft) s =
      .next { s with m := s.m.certExpiring which daysLeft })
  ∧ (∀ (laneA laneB : ImageInfo), exec (.fwStaged laneA laneB) s = .next { s with m := s.m.fwStaged s.kept laneA laneB })
  ∧ (∀ p, s.m.commitDue = some p → exec .commitDelayExpiry s =
      .next { s with m := (s.m.reach p).rollbackEvent (s.m.commitStep s.kept), kept := { s.kept with rollback := raiseCounter (s.m.commitStep s.kept) s.kept.rollback } })
  ∧ (∀ (tcxo : Bool) (sealB : List Nat), exec (.powerOn tcxo sealB) s = .next (powerOn tcxo sealB s))
  ∧ exec .powerDip s = .next { s with m := s.m.powerDip }
  ∧ (∀ (lockedA lockedB : Bool), exec (.lanesReleased lockedA lockedB) s = .next { s with m := s.m.lanesReleased lockedA lockedB })
  ∧ (∀ (lane : Nat) (image : ImageInfo), laneOk lane = true → exec (.bootLoaderVerified lane image) s =
      .next { s with m := s.m.bootLoader s.kept lane image })
  ∧ (∀ (started : Bool) (sealA : List Nat), exec (.safetyDieRunning started sealA) s = .next (safetyDieRunning started sealA s))
  ∧ (∀ (lane : Nat) (a b : ImageInfo), laneOk lane = true → exec (.firmwareImageVerified lane a b) s =
      .next { s with m := s.m.firmware s.kept lane a b })
  ∧ (∀ (crcOk skewOk loopA loopB : Bool), exec (.floeTraining crcOk skewOk loopA loopB) s =
      .next { s with m := s.m.floeTraining crcOk skewOk loopA loopB })
  ∧ (∀ (lane : Nat) (ok : Bool), laneOk lane = true → exec (.rimeTraining lane ok) s = .next { s with m := s.m.rimeTraining lane ok })
  ∧ (∀ (lane : Nat) (ok : Bool), laneOk lane = true → exec (.selfTestComplete lane ok) s = .next { s with m := s.m.selfTest lane ok })
  ∧ (∀ (e : Estimate), estimateOk e = true → exec (.estimateBlock e) s = .next { s with m := s.m.estimate e })
  ∧ exec .baselineComplete s = .next { s with m := s.m.baselineComplete }
  ∧ exec .planCompute s = .next { s with m := s.m.planDue }
  ∧ exec .planStep s = .next { s with m := s.m.planStep }
  ∧ (∀ (k : Nat), exec (.sessionClose k) s = .next { s with m := s.m.closeSession k })
  ∧ exec .delayReq s = .next { s with m := s.m.delayReq }
  ∧ (∀ (code : Nat), exec (.hallEdge code) s = .next { s with m := s.m.hallEdge code })

/-- Writes of the registers of the serial link once a lane has held the grant, the recovery by 16 clocks, and the link before
that, which ignores writes. -/
def Obligations.LinkRegisterWritesTakeEffect : Prop :=
  ∀ s : State,
  (∀ k, Does (.linkModeReset k) s (fun n => Only [.link] s.m n ∧
    n.link = if 16 ≤ k then { s.m.link with quad := false, quadEn := false } else s.m.link))
  ∧ (∀ v, Does (.quadEnWrite v) s (fun n => Only [.link] s.m n ∧
      if s.m.linkUp then
        (n.link.quadEn = (v.testBit 0 && s.m.mbx.all (fun x => x.gen ≠ 1))) ∧ n.link.quad = n.link.quadEn
        ∧ n.link.evtPulse = v.testBit 1 ∧ n.link.rspIrq = v.testBit 2 ∧ n.link.streamIrq = v.testBit 3
        ∧ n.link.ready = s.m.link.ready ∧ n.link.takeover = s.m.link.takeover ∧ n.link.doorbellLost = s.m.link.doorbellLost
        ∧ n.link.frameError = s.m.link.frameError
      else n.link = s.m.link))
  ∧ (∀ v, Does (.hlStatusClear v) s (fun n => Only [.link] s.m n ∧
      if s.m.linkUp then
        n.link = { s.m.link with
          takeover := s.m.link.takeover && !v.testBit 28, doorbellLost := s.m.link.doorbellLost && !v.testBit 27
          frameError := s.m.link.frameError && !v.testBit 26 }
      else n.link = s.m.link))
  ∧ (∀ mask, Does (.rspRelease mask) s (fun n => Only [.mbx, .link] s.m n ∧
      ∀ k, k < 4 → s.m.linkUp → mask.testBit k → s.m.mbx.length = 4 → (s.m.mbx.getD k {}).gen ≠ 3 →
        (s.m.mbx.getD k {}).chan.out = [] → (n.mbx.getD k {}).rspReady = false))
  ∧ (∀ d : List Byte, d.length = 4 → s.m.linkUp →
      (∃ t, exec (.linkWrite 0x0004 d) s = .next t ∧ exec (.quadEnWrite (leNat d)) s = .next t)
      ∧ (∃ t, exec (.linkWrite 0x0008 d) s = .next t ∧ exec (.hlStatusClear (leNat d)) s = .next t))
  ∧ (∀ b : Byte, s.m.linkUp →
      (∃ t, exec (.linkWrite 0x0010 [b]) s = .next t ∧ exec (.mbxDoorbell b.toNat) s = .next t)
      ∧ (∃ t, exec (.linkWrite 0x0011 [b]) s = .next t ∧ exec (.rspRelease b.toNat) s = .next t))
  ∧ (∀ n off d, n < 4 → off < 1024 → d ≠ [] → s.m.linkUp →
      ∃ t, exec (.linkWrite (0x1000 + 0x400 * n + off) d) s = .next t ∧ exec (.commandWindowWrite n off d) s = .next t)
  ∧ (∀ a d, s.m.linkUp = false → exec (.linkWrite a d) s = .next s)
  ∧ (∀ d : List Byte, 0 < d.length → d.length < 4 → exec (.linkWrite 0x0004 d) s = .next s ∧ exec (.linkWrite 0x0008 d) s = .next s)

/-- Reads of the serial link: the bytes shifted out, and what a read leaves. HL_ID reads 59514820h, HL_CONFIG and HL_STATUS
read as their bits, EVQ_COUNT counts the host's queue; the windows of unlisted addresses read 00h; before any lane has held
the grant every byte reads FFh (the model's choice, the link part of log entry 12). -/
def Obligations.LinkReadsShiftTheirBytesOut : Prop :=
  ∀ s : State,
  (∀ a len, Does (.linkRead a len) s (fun n => n.link.out.length = len ∧ Only [.link, .mbx, .streams] s.m n
      ∧ (s.m.linkUp = false → n.link.out = List.replicate len 255 ∧ Only [.link] s.m n)))
  ∧ (s.m.linkUp →
      Does (.linkRead 0x0000 4) s (fun n => leNat n.link.out = 0x59514820)
      ∧ Does (.linkRead 0x0004 4) s (fun n => leNat n.link.out = s.m.hlConfig % 4294967296)
      ∧ Does (.linkRead 0x0008 4) s (fun n => leNat n.link.out = s.m.hlStatus % 4294967296)
      ∧ Does (.linkRead 0x0026 2) s (fun n => leNat n.link.out = s.m.hostQ.entries.length % 65536)
      ∧ Does (.linkRead 0x6000 1) s (fun n => n.link.out = [0])
      ∧ Does (.linkRead 0x1000 1) s (fun n => n.link.out = [0]))
  ∧ (∀ k len, k < 4 → Does (.responseFifoRead k len) s (fun n => n.link.out.length = len ∧ Only [.link, .mbx, .streams] s.m n
      ∧ (s.m.linkUp → len ≤ 1024 → (s.m.mbx.getD k {}).gen ≠ 3 →
          n.link.out = (List.range len).map (fun i => if (s.m.mbx.getD k {}).rspReady then (s.m.mbx.getD k {}).rsp.getD i 0 else 0))
      ∧ (s.m.linkUp → (s.m.mbx.getD k {}).gen = 3 → s.m.mbx.length = 4 →
          n.link.out = (List.range len).map (fun i => (s.m.mbx.getD k {}).rspFifo.getD i 0))))

/-- EVT_N: a pulse that waits comes 100 µs after the last one, and the delay of REPORT_SPREAD releases what waits in a session. -/
def Obligations.EventLineAndSpreadRelease : Prop :=
  ∀ s : State,
  Does .evtNPulse s (fun n => Only [.link, .clk] s.m n ∧ n.link.pulseDue = false
    ∧ (s.m.link.pulseDue = true → s.m.link.evtPulse = true →
        n.link.pulses = s.m.link.pulses + 1 ∧ n.now = max s.m.now (s.m.link.lastPulsePs.getD 0 + 100000000)
        ∧ n.link.lastPulsePs = some n.now)
    ∧ ((s.m.link.pulseDue && s.m.link.evtPulse) = false → n.clk = s.m.clk ∧ n.link.pulses = s.m.link.pulses))
  ∧ ∀ k, Does (.eventFrameRelease k) s (fun n => Only [.sess, .clk] s.m n
    ∧ (∀ x p, s.m.sessAt k = some x → x.waitPs = some p →
        n.now = max s.m.now p ∧ ∃ y, n.sessAt k = some y ∧ y.waitPs = none ∧ y.sent = x.evq.entries.length)
    ∧ ((s.m.sessAt k).bind (·.waitPs) = none → n = s.m))

/-- R43, of a GHP1 or GHP2 mailbox of a module that takes frames (R478): a doorbell while BUSY or RSP_READY is set only sets
DOORBELL_LOST and counts in its counter (R65), and a write to the command window while BUSY is set is ignored. -/
def Obligations.BusyMailboxLosesDoorbells : Prop :=
  ∀ (s : State) (k : Nat), k < 4 → (s.m.mbx.getD k {}).gen ≠ 3 → s.m.linkUp → s.m.link.ready →
  (((s.m.mbx.getD k {}).busy || (s.m.mbx.getD k {}).rspReady) →
    Does (.mbxDoorbell (2 ^ k)) s (fun n => n.link = { s.m.link with doorbellLost := true } ∧ Only [.link, .obj] s.m n
      ∧ OnlyEntries [Ob.doorbellLost] s.m n ∧ n.get Ob.doorbellLost = (s.m.get Ob.doorbellLost + 1) % 4294967296))
  ∧ ((s.m.mbx.getD k {}).busy → ∀ off d, off < 1024 → exec (.commandWindowWrite k off d) s = .next s)

/-- R478: before READY is 1, doorbells and bytes for a GHP3 command window change nothing. -/
def Obligations.NothingIsTakenBeforeReady : Prop :=
  ∀ s : State, s.m.link.ready = false →
  (∀ mask, exec (.mbxDoorbell mask) s = .next s)
  ∧ (∀ k off d, k < 4 → off < 1024 → (s.m.mbx.getD k {}).gen = 3 → exec (.commandWindowWrite k off d) s = .next s)
  ∧ (∀ (h : Hdr) (k i j : Nat), h.snd = .mbx k → k < 4 → exec (.read h i j) s = .next s)

/-- The bytes written into the command window of a free GHP1 or GHP2 mailbox stand there; without QUAD_EN a GHP3 mailbox
discards them with FRAME_ERROR (R41); a doorbell submits the frame in the window as it stands (R42): a GHP2 frame whose CRC
holds acts as the command that it spells, here a READ, and one whose CRC does not hold is counted and answered CRC_FAIL. -/
def Obligations.WindowsAndDoorbellsCarryFrames : Prop :=
  ∀ (s : State) (k : Nat), k < 4 → s.m.linkUp → s.m.mbx.length = 4 →
  (∀ off d, off + d.length ≤ 1024 → (s.m.mbx.getD k {}).gen ≠ 3 → (s.m.mbx.getD k {}).busy = false → off < 1024 →
    Does (.commandWindowWrite k off d) s (fun n => Only [.mbx] s.m n
      ∧ (∀ i, (n.mbx.getD k {}).window.getD i 0
          = if off ≤ i ∧ i < off + d.length then d.getD (i - off) 0 else (s.m.mbx.getD k {}).window.getD i 0)
      ∧ (∀ j, j ≠ k → n.mbx.getD j {} = s.m.mbx.getD j {})))
  ∧ (∀ off d, off < 1024 → (s.m.mbx.getD k {}).gen = 3 → s.m.link.ready → s.m.link.quadEn = false →
      Does (.commandWindowWrite k off d) s (fun n => n.link = { s.m.link with frameError := true } ∧ Only [.link] s.m n))
  ∧ (∀ len seq i j, (s.m.mbx.getD k {}).gen = 2 → s.m.link.ready → (s.m.mbx.getD k {}).busy = false →
      (s.m.mbx.getD k {}).rspReady = false → (s.m.chanOf (.mbx k)).blocked = none →
      fieldAt (s.m.mbx.getD k {}).window 4 2 = len → 12 ≤ len → len ≤ 1024 →
      fieldAt (s.m.mbx.getD k {}).window 0 1 = 2 → fieldAt (s.m.mbx.getD k {}).window 2 2 = seq →
      fieldAt (s.m.mbx.getD k {}).window 6 2 = i → fieldAt (s.m.mbx.getD k {}).window 8 1 = j →
      (crcHolds ((s.m.mbx.getD k {}).window ++ List.replicate 1024 0) len = true → len = 12 →
        fieldAt (s.m.mbx.getD k {}).window 1 1 = 1 →
        ∃ t, exec (.mbxDoorbell (2 ^ k)) s = .next t ∧ exec (.read ⟨.mbx k, seq, 0, 0, true, true, true⟩ i j) s = .next t)
      ∧ (crcHolds ((s.m.mbx.getD k {}).window ++ List.replicate 1024 0) len = false →
        Does (.mbxDoorbell (2 ^ k)) s (fun n => Only frameParts s.m n ∧ OnlyEntries [Ob.crcFail] s.m n
          ∧ n.get Ob.crcFail = (s.m.get Ob.crcFail + 1) % 4294967296)))

/-- What a sender held goes: the end of GROUP_TIMEOUT takes an open group with EV013, whose argument names the sender, the writes
held and the opening command (R53, R67), and without an open group does nothing; a session that its peer closes goes with its
stream channels and, where it was open, with EV102 (R62, R397). -/
def Obligations.LateGroupsAndClosedSessionsGo : Prop :=
  ∀ (s : State) (snd : Sender) (k : Nat),
  Does (.groupDiscarded snd) s (fun n =>
    ((s.m.chanOf snd).group = none → n = s.m)
    ∧ ∀ g, (s.m.chanOf snd).group = some g →
        (n.chanOf snd).group = none
        ∧ (n.chanOf snd).kept = (s.m.chanOf snd).kept
        ∧ Tells 13 sevWarn 0x1102 (s.m.senderBits snd + 256 * g.writes.length + 65536 * g.beginSeq) s.m n
        ∧ Only (.clk :: .mbx :: evParts) s.m n ∧ n.now = max s.m.now (g.openedPs + msPs (s.m.get Ob.groupTimeout)))
  ∧ Does (.sessionClose k) s (fun n =>
    Only (.streams :: evParts) s.m n
    ∧ (s.m.sessAt k = none → n = s.m)
    ∧ ∀ x, s.m.sessAt k = some x →
        n.sessAt k = none
        ∧ n.streams = s.m.streams.filter (fun p => p.2.snd ≠ Sender.session k)
        ∧ (x.isOpen → n.seenEv = 102 :: s.m.seenEv))

/-- R66, when the firmware of a lane starts (it has a good image that its flash reads): with certified mode on, every mailbox whose stored MBX_GEN
entry, as power-up has put it in force, holds 01h is set to 02h, for good, with one EV014 for each in turn, whose ARG is the number of
the mailbox; with certified mode off, and on every other mailbox, MBX_GEN stays as it is. -/
def Obligations.CertifiedModeReplacesOldMailboxes : Prop :=
  ∀ (s : State) (l : Nat) (ia ib : ImageInfo), l < 2 → s.m.starts l = true → (s.m.laneAt l).boot = true → s.m.cirqueUp l = true →
  ((imageOk s.kept s.m 1 ia = true ∧ (l, 0) ∉ s.m.secu.badImg) ∨ (imageOk s.kept s.m 1 ib = true ∧ (l, 1) ∉ s.m.secu.badImg)) →
  Does (.firmwareImageVerified l ia ib) s (fun n =>
    (s.m.get Ob.certifiedMode = 1 →
      (∀ k, k < 4 → s.m.get (Ob.mbxGen k) = 1 → n.get (Ob.mbxGen k) = 2 ∧ cellGet dfltOf (Ob.mbxGen k) n.sto = 2)
      ∧ (∀ k, k < 4 → s.m.get (Ob.mbxGen k) ≠ 1 → n.get (Ob.mbxGen k) = s.m.get (Ob.mbxGen k))
      ∧ TellsInTurn 14 sevWarn 0x1103 ((List.range 4).filter (fun k => s.m.get (Ob.mbxGen k) = 1)) s.m n)
    ∧ (s.m.get Ob.certifiedMode ≠ 1 → Only [.lanes, .secu] s.m n)
    ∧ Only ([.lanes, .secu, .obj, .sto] ++ evParts) s.m n ∧ OnlyEntries ((List.range 4).map Ob.mbxGen) s.m n)

/-- R51, for the command `c` of a frame that is no SESSION_OPEN, on a way that is open: with kept number p and
d = (s − p) modulo 2^16, a duplicate (d = 0) resends the stored response and executes nothing, 1 to 32 767 is a new command, gaps
allowed, whose number is kept, and 32 768 and more is SEQ_ERROR, which keeps what was kept; with no number kept any is new, and
none is kept after power-up, in a new network session, and after a SESSION_OPEN that opens one. -/
def Obligations.SequenceNumbersDecide : Prop :=
  (∀ (s : State) (c : Instr) (f : Frame), (∀ t, exec c t = State.frame f t) → f.h.seq < 65536 → f.op < 256 → f.idx < 65536 → f.sub < 256 →
    f.opensSession = false → s.m.wayOpen f.h.snd f.data.length = true → (s.m.chanOf f.h.snd).blocked = none →
    (s.m.genOf f.h.snd ≠ 3 ∨ s.m.authentic f = true) →
  (∀ p r, (s.m.chanOf f.h.snd).kept = some p → (f.h.seq + 65536 - p) % 65536 = 0 → (s.m.chanOf f.h.snd).stored = some r → s.m.roomFor f.h.snd r = true →
    Does c s (fun n => Sent f.h.snd r s.m n ∧ (n.chanOf f.h.snd).kept = some p ∧ (n.chanOf f.h.snd).stored = some r
      ∧ Only frameParts s.m n ∧ OnlyEntries [Ob.framesOk] s.m n))
  ∧ (∀ p, (s.m.chanOf f.h.snd).kept = some p → 32768 ≤ (f.h.seq + 65536 - p) % 65536 → s.m.roomFor f.h.snd (f.rsp (0x31, [])) = true →
    Does c s (fun n => Sent f.h.snd (f.rsp (0x31, [])) s.m n ∧ (n.chanOf f.h.snd).kept = some p
      ∧ (n.chanOf f.h.snd).stored = (s.m.chanOf f.h.snd).stored ∧ Only frameParts s.m n ∧ OnlyEntries [Ob.framesOk, Ob.seqError] s.m n))
  ∧ ((s.m.chanOf f.h.snd).out.length < 8 →
      ((s.m.chanOf f.h.snd).kept = none
        ∨ ∃ p, (s.m.chanOf f.h.snd).kept = some p ∧ 1 ≤ (f.h.seq + 65536 - p) % 65536 ∧ (f.h.seq + 65536 - p) % 65536 ≤ 32767) →
      s.m.accepts f = true
      ∧ (f.op ≠ 4 → Does c s (fun n => (n.chanOf f.h.snd).kept = some f.h.seq ∧ n.get Ob.framesOk = (s.m.get Ob.framesOk + 1) % 4294967296))))
  ∧ (∀ (s : State) (t : Bool) (l : List Nat), s.m.power.power = false →
      Completes (.powerOn t l) s (fun t => ∀ k, (t.m.chanOf (.mbx k)).kept = none))
  ∧ (∀ (s : State) (addr j : Nat), s.m.link.ready = true → s.m.net.banned.all (fun x => x.1 ≠ addr) = true → s.m.freeKey 0 8 = some j →
      Does (.tcpConnect addr (s.m.get Ob.ghp3Port)) s (fun n => (n.chanOf (.session j)).kept = none))
  ∧ (∀ (s : State) (h : Hdr) (nonce : List Byte) (k : Nat), h.snd = .mbx k → s.m.genOf h.snd = 3 →
      s.m.accepts ⟨h, 4, 0x6421, 0, nonce⟩ = true → nonce.length = 16 → s.m.cirqueOk = true → s.m.sdc.lockout = false →
      (s.m.chanOf h.snd).group = none →
      Does (.sessionOpen h nonce) s (fun n => (n.chanOf h.snd).kept = none))

/-- A READ that is taken is answered with the bytes that the entry holds at the response, and changes nothing else; what no
table lists is BAD_OBJECT, and what cannot be read, or is longer than a frame of the sender carries, BAD_STATE (R49). -/
def Obligations.ReadAnswersTheEntry : Prop :=
  ∀ (s : State) (h : Hdr) (i j : Nat), s.m.accepts ⟨h, 1, i, j, []⟩ → i < 65536 → j < 256 →
  (∀ r, rowOf i j = some r →
    Does (.read h i j) s (fun n => Only frameParts s.m n ∧ OnlyEntries [Ob.framesOk] s.m n
      ∧ (r.acc ≠ .wo → r.acc ≠ .act → r.acc ≠ .src → r.ty.size ≤ dataLimit (s.m.genOf h.snd) →
          n.answer h.snd = some (h.seq, 0, leBytes r.ty.size ((s.m.taken ⟨h, 1, i, j, []⟩).readRaw s.kept h.snd r (i * 256 + j))))
      ∧ ((r.acc = .wo ∨ r.acc = .act ∨ r.acc = .src ∨ dataLimit (s.m.genOf h.snd) < r.ty.size) → n.answer h.snd = some (h.seq, 0x12, []))))
  ∧ (rowOf i j = none →
    Does (.read h i j) s (fun n => Only frameParts s.m n ∧ OnlyEntries [Ob.framesOk] s.m n ∧ n.answer h.snd = some (h.seq, 0x10, [])))

/-- Outside a group a WRITE or WRITE_COMMIT that passes its checks is staged for a boundary with its value, and is answered
there; in an open group a WRITE is answered OK and held, and a WRITE_COMMIT closes the group and stages all its writes together. -/
def Obligations.WritesAreStagedOrHeld : Prop :=
  ∀ (s : State) (h : Hdr) (i j : Nat) (d : List Byte), i < 65536 → j < 256 →
  (∀ op, (op = 2 ∨ op = 3) → s.m.accepts ⟨h, op, i, j, d⟩ → (s.m.chanOf h.snd).group = none →
    (s.m.taken ⟨h, op, i, j, d⟩).checkWrite h.snd (s.m.roleOf h.snd) false false false s.m.stagedWrites (i * 256 + j, d) = none →
    Does (if op = 2 then .write h i j d else .writeCommit h i j d) s (fun n =>
      Only ([.staged, .order] ++ frameParts) s.m n ∧ OnlyEntries [Ob.framesOk, Ob.writesDeferred] s.m n
      ∧ ∃ w, n.staged = s.m.staged ++ [w] ∧ w.work = .writes [(i * 256 + j, d)] ∧ w.snd = h.snd ∧ w.seq = h.seq
          ∧ w.late = decide (s.m.clk.phase = .staging)))
  ∧ (∀ g, s.m.accepts ⟨h, 2, i, j, d⟩ → (s.m.chanOf h.snd).group = some g →
    (s.m.taken ⟨h, 2, i, j, d⟩).checkWrite h.snd (s.m.roleOf h.snd) true (g.full d.length) false (s.m.stagedWrites ++ g.writes)
      (i * 256 + j, d) = none →
    Does (.write h i j d) s (fun n => Only frameParts s.m n ∧ OnlyEntries [Ob.framesOk] s.m n
      ∧ n.answer h.snd = some (h.seq, 0, []) ∧ (n.chanOf h.snd).group = some { g with writes := g.writes ++ [(i * 256 + j, d)] }))
  ∧ (∀ g, s.m.accepts ⟨h, 3, i, j, d⟩ → (s.m.chanOf h.snd).group = some g →
    (s.m.taken ⟨h, 3, i, j, d⟩).checkWrite h.snd (s.m.roleOf h.snd) true (g.full d.length) false (s.m.stagedWrites ++ g.writes)
      (i * 256 + j, d) = none →
    Does (.writeCommit h i j d) s (fun n => Only ([.staged, .order] ++ frameParts) s.m n
      ∧ (n.chanOf h.snd).group = none
      ∧ ∃ w, n.staged = s.m.staged ++ [w] ∧ w.work = .writes (g.writes ++ [(i * 256 + j, d)]) ∧ w.isGroup))

/-- A WRITE that its checks refuse is answered with the first status that applies and stages nothing (R49). -/
def Obligations.RefusedWriteStagesNothing : Prop :=
  ∀ (s : State) (h : Hdr) (i j : Nat) (d : List Byte) (st : Nat), i < 65536 → j < 256 → s.m.accepts ⟨h, 2, i, j, d⟩ →
    (s.m.chanOf h.snd).group = none →
    (s.m.taken ⟨h, 2, i, j, d⟩).checkWrite h.snd (s.m.roleOf h.snd) false false false s.m.stagedWrites (i * 256 + j, d) = some st →
    Does (.write h i j d) s (fun n => n.answer h.snd = some (h.seq, st, []) ∧ n.staged = s.m.staged
      ∧ Only (evParts ++ frameParts) s.m n ∧ OnlyEntries [Ob.framesOk] s.m n)

/-- GROUP_BEGIN opens a group; GROUP_COMMIT stages its writes together, or with an apply time in the future places them in the
scheduled-action table and is answered QUEUED; without a group it is BAD_STATE. -/
def Obligations.GroupsOpenAndCommit : Prop :=
  ∀ (s : State) (h : Hdr),
  (s.m.accepts ⟨h, 5, 0, 0, []⟩ → (s.m.chanOf h.snd).group = none →
    Does (.groupBegin h) s (fun n => Only frameParts s.m n ∧ OnlyEntries [Ob.framesOk] s.m n
      ∧ n.answer h.snd = some (h.seq, 0, []) ∧ (n.chanOf h.snd).group = some ⟨h.seq, s.m.now, []⟩))
  ∧ (s.m.accepts ⟨h, 5, 0, 0, []⟩ → (s.m.chanOf h.snd).group.isSome →
    Does (.groupBegin h) s (fun n => Only frameParts s.m n ∧ n.answer h.snd = some (h.seq, 0x12, [])
      ∧ (n.chanOf h.snd).group = (s.m.chanOf h.snd).group))
  ∧ (∀ g, s.m.accepts ⟨h, 6, 0, 0, []⟩ → (s.m.chanOf h.snd).group = some g →
    Does (.groupCommit h none) s (fun n => Only ([.staged, .order] ++ frameParts) s.m n
      ∧ (n.chanOf h.snd).group = none
      ∧ ∃ w, n.staged = s.m.staged ++ [w] ∧ w.work = .writes g.writes ∧ w.isGroup ∧ w.seq = h.seq ∧ w.snd = h.snd))
  ∧ (∀ g t, s.m.accepts ⟨h, 6, 0, 0, leBytes 8 t⟩ → (s.m.chanOf h.snd).group = some g →
      (s.m.taken ⟨h, 6, 0, 0, leBytes 8 t⟩).schedRefusal (Raw.signed 64 (leNat (leBytes 8 t))) = none →
      (∃ e, e < 64 ∧ ∀ x ∈ s.m.sched, x.entry ≠ e) →
    Does (.groupCommit h (some t)) s (fun n => n.answer h.snd = some (h.seq, 3, []) ∧ (n.chanOf h.snd).group = none
      ∧ ∃ e ∈ n.sched, e.writes = g.writes ∧ e.applyAt = Raw.signed 64 (leNat (leBytes 8 t)) ∧ e.seq = h.seq ∧ e.snd = h.snd))
  ∧ (s.m.accepts ⟨h, 6, 0, 0, []⟩ → (s.m.chanOf h.snd).group = none →
    Does (.groupCommit h none) s (fun n => Only frameParts s.m n ∧ n.answer h.snd = some (h.seq, 0x12, [])))

/-- EVENT_ACK removes the sender's entries from the oldest up to the one named; a number that the queue does not hold is
BAD_RANGE and removes nothing (R61). -/
def Obligations.EventAckRemovesUpToTheNumber : Prop :=
  ∀ (s : State) (h : Hdr) (q : Nat), q < 65536 → s.m.accepts ⟨h, 10, 0, 0, leBytes 2 q⟩ →
  (∀ gone e rest, (s.m.queueOf h.snd).entries = gone ++ e :: rest → e.qseq = q → (∀ x ∈ gone, x.qseq ≠ q) →
    (s.m.queueOf h.snd).lostNew = 0 →
    Does (.eventAck h q) s (fun n => n.answer h.snd = some (h.seq, 0, []) ∧ (n.queueOf h.snd).entries = rest
      ∧ (n.queueOf h.snd).first = ((s.m.queueOf h.snd).first + gone.length + 1) % 256
      ∧ (n.queueOf h.snd).masks = (s.m.queueOf h.snd).masks
      ∧ Only (.hostQ :: frameParts) s.m n ∧ OnlyEntries [Ob.framesOk] s.m n))
  ∧ ((∀ x ∈ (s.m.queueOf h.snd).entries, x.qseq ≠ q) →
    Does (.eventAck h q) s (fun n => n.answer h.snd = some (h.seq, 0x11, []) ∧ (n.queueOf h.snd).entries = (s.m.queueOf h.snd).entries
      ∧ Only frameParts s.m n ∧ OnlyEntries [Ob.framesOk] s.m n))

/-- STREAM_OPEN binds a free channel to its source and STREAM_CLOSE ends one (R62); on a GHP1 mailbox, on a channel that is
open, and on a close of one that is not, the answer is BAD_STATE. -/
def Obligations.StreamChannelsOpenAndClose : Prop :=
  ∀ (s : State) (h : Hdr) (i c : Nat) (d : List Byte), c < 8 → i < 65536 →
  (s.m.accepts ⟨h, 8, i, c, d⟩ → isSourceObject i → s.m.genOf h.snd ≠ 1 → (s.m.chanOf h.snd).group = none → s.m.streamOpen c = false →
      s.m.sourceReady i → d.length = sourceArgs i →
    Does (.streamOpen h i c d) s (fun n => n.answer h.snd = some (h.seq, 0, [])
      ∧ (∃ x, n.streamAt c = some x ∧ x.idx = i ∧ x.snd = h.snd ∧ x.args = d ∧ x.gen = s.m.genOf h.snd ∧ x.ended = false)
      ∧ (∀ k, k ≠ c → n.streamAt k = s.m.streamAt k)
      ∧ Only (.streams :: frameParts) s.m n ∧ OnlyEntries [Ob.framesOk] s.m n))
  ∧ (s.m.accepts ⟨h, 8, i, c, d⟩ → isSourceObject i → (s.m.genOf h.snd = 1 ∨ s.m.streamOpen c = true) →
    Does (.streamOpen h i c d) s (fun n => n.answer h.snd = some (h.seq, 0x12, []) ∧ Only frameParts s.m n))
  ∧ (s.m.accepts ⟨h, 9, 0, c, []⟩ → (s.m.chanOf h.snd).group = none → s.m.streamOpen c = true →
    Does (.streamClose h c) s (fun n => n.answer h.snd = some (h.seq, 0, []) ∧ n.streamOpen c = false
      ∧ Only (.streams :: frameParts) s.m n ∧ OnlyEntries [Ob.framesOk] s.m n))
  ∧ (s.m.accepts ⟨h, 9, 0, c, []⟩ → s.m.streamOpen c = false →
    Does (.streamClose h c) s (fun n => n.answer h.snd = some (h.seq, 0x12, []) ∧ Only frameParts s.m n))

/-- TICK_STATS_CLEAR sets the peaks of both engines to 0 (R84); a calibration point of a channel starts its averaging and is
answered QUEUED (R101); CAL_APPLY stores offset and gain in their limits and restarts OFFSET_TRACK (R102); CAL_ABORT drops
what the procedure holds, and a running point with EV039. -/
def Obligations.TickAndCalibrationActions : Prop :=
  ∀ (s : State) (h : Hdr) (ch : Nat), ch < 24 →
  (s.m.runs ⟨h, 4, 0x1205, 0, []⟩ = true →
    Done (.tickStatsClear h) ⟨h, 4, 0x1205, 0, []⟩ s 0 [] [.obj] [Ob.eng0Peak, Ob.eng1Peak] (fun n =>
      n.get Ob.eng0Peak = 0 ∧ n.get Ob.eng1Peak = 0))
  ∧ (∀ blocks f, 10 ≤ blocks → blocks ≤ 1000 →
      f = Frame.mk h 4 0x2100 0 (leBytes 1 ch ++ leBytes 1 0 ++ leBytes 4 0 ++ leBytes 2 blocks) →
      s.m.runs f = true → (s.m.taken f).calRefused ch false = false →
    Done (.calZero h ch blocks) f s 3 [] [.obj, .meas] [Ob.calState] (fun n =>
        n.meas.cal.run = some 0 ∧ n.meas.cal.seq = h.seq ∧ n.meas.cal.chan = ch ∧ n.meas.cal.blocks = blocks ∧ n.get Ob.calState = 1))
  ∧ (∀ ref blocks f, 10 ≤ blocks → blocks ≤ 1000 → ref < 4294967296 → (f32Val ref).isSome = true →
      f = Frame.mk h 4 0x2100 0 (leBytes 1 ch ++ leBytes 1 1 ++ leBytes 4 ref ++ leBytes 2 blocks) →
      s.m.runs f = true → (s.m.taken f).calRefused ch false = false →
    Done (.calDcSpan h ch ref blocks) f s 3 [] [.obj, .meas] [Ob.calState] (fun n =>
        n.meas.cal.run = some 1 ∧ n.meas.cal.seq = h.seq ∧ n.meas.cal.chan = ch ∧ n.meas.cal.blocks = blocks ∧ n.get Ob.calState = 1))
  ∧ (∀ ref blocks f, 10 ≤ blocks → blocks ≤ 1000 → ref < 4294967296 → (f32Val ref).isSome = true →
      f = Frame.mk h 4 0x2100 0 (leBytes 1 ch ++ leBytes 1 2 ++ leBytes 4 ref ++ leBytes 2 blocks) →
      s.m.runs f = true → (s.m.taken f).calRefused ch false = false →
    Done (.calAcSpan h ch ref blocks) f s 3 [] [.obj, .meas] [Ob.calState] (fun n =>
        n.meas.cal.run = some 2 ∧ n.meas.cal.seq = h.seq ∧ n.meas.cal.chan = ch ∧ n.meas.cal.blocks = blocks ∧ n.get Ob.calState = 1))
  ∧ (∀ g f, f = Frame.mk h 4 0x2100 0 (leBytes 1 ch ++ leBytes 1 3 ++ leBytes 6 0) →
      s.m.runs f = true → (s.m.taken f).calRefused ch false = false → s.m.meas.cal.chan = ch → s.m.meas.cal.zero = true →
      s.m.meas.cal.span ≠ 0 → (s.m.taken f).newGainOf = some g → 9 / 10 ≤ g → g ≤ 11 / 10 → absR (pu (s.m.getS Ob.dZero)) ≤ 5 / 100 →
    Done (.calApply h ch) f s 0 [] [.obj, .sto, .meas] [Ob.calOffset ch, Ob.calGain ch, Ob.offsetTrack ch, Ob.calTime ch, Ob.calState] (fun n =>
        n.get (Ob.calOffset ch) = s.m.get Ob.dZero ∧ n.get (Ob.calGain ch) = (gainRaw g).toNat ∧ n.get (Ob.offsetTrack ch) = 0
        ∧ n.get (Ob.calTime ch) = s.m.t64 ∧ n.meas.cal.zero = false ∧ n.meas.cal.span = 0))
  ∧ (∀ f, f = Frame.mk h 4 0x2100 0 (leBytes 1 ch ++ leBytes 1 4 ++ leBytes 6 0) →
      s.m.runs f = true → (s.m.taken f).calRefused ch true = false →
    Done (.calAbort h ch) f s 0 [] (.obj :: .meas :: evParts) [Ob.calState] (fun n =>
        n.meas.cal.run = none ∧ n.meas.cal.zero = false ∧ n.meas.cal.span = 0 ∧ n.get Ob.calState = 0
        ∧ (s.m.meas.cal.run.isSome → Tells 39 sevWarn 0x200B s.m.meas.cal.seq s.m n)))

/-- The actions on a context, on Moraine and on the injection generator: CTX_RESET and TRACE_FORCE wait for the boundary (R139,
R142), TRACE_ARM clears the buffer and records (R143), TRACE_STOP ends the trace with EV022 (R143), INJ_RUN clears the results
and runs (R147, R151) or stops with EV025, and its points stay (R150). -/
def Obligations.EngineActions : Prop :=
  ∀ (s : State) (h : Hdr),
  (∀ k f, k < 160 → f = Frame.mk h 4 0x2701 0 (leBytes 1 k) →
      s.m.runs f = true → (s.m.taken f).inCascade k = false → ((s.m.taken f).isAdditional k && (s.m.taken f).ctxBusy k) = false →
    Done (.ctxReset h k) f s 0 [] [.acts] [] (fun n => n.acts = s.m.acts ++ [.ctxReset k]))
  ∧ (s.m.runs ⟨h, 4, 0x7006, 0, []⟩ = true →
    Done (.traceForce h) ⟨h, 4, 0x7006, 0, []⟩ s 0 [] [.acts] [] (fun n => n.acts = s.m.acts ++ [.traceForce]))
  ∧ (s.m.runs ⟨h, 4, 0x7004, 0, []⟩ = true → (s.m.traceSt = traceIdle ∨ s.m.traceSt = traceDoneState) →
    Done (.traceArm h) ⟨h, 4, 0x7004, 0, []⟩ s 0 [] [.obj, .trace]
      [Ob.traceState, Ob.traceRecords, Ob.triggerRecord, Ob.triggerT0, Ob.gapCount] (fun n =>
        n.trace = { seen := s.m.seenEv.length } ∧ n.get Ob.traceRecords = 0 ∧ n.get Ob.gapCount = 0
        ∧ n.traceSt = if s.m.get Ob.traceMode = 1 then traceRunning else if s.m.preNow = 0 then traceArmed else traceArming))
  ∧ (s.m.runs ⟨h, 4, 0x7005, 0, []⟩ = true → s.m.traceSt ≠ traceIdle →
    Done (.traceStop h) ⟨h, 4, 0x7005, 0, []⟩ s 0 [] (.obj :: .trace :: evParts) [Ob.traceState] (fun n =>
      n.traceSt = traceDoneState ∧ n.trace.recs = s.m.trace.recs ∧ Tells 22 sevInfo 0 (s.m.get Ob.traceRecords) s.m n))
  ∧ (s.m.runs ⟨h, 4, 0x2711, 0, [0]⟩ = true → (s.m.taken ⟨h, 4, 0x2711, 0, [0]⟩).injRefusal = none →
    Done (.injStart h) ⟨h, 4, 0x2711, 0, [0]⟩ s 3 [] [.obj, .inj, .trace]
      ([Ob.injState, Ob.injPointNow] ++ (List.range 64).flatMap (fun p => [Ob.sweepFreq p, Ob.sweepGain p, Ob.sweepPhase p, Ob.aAmpl p, Ob.sweepValid p]))
      (fun n => n.inj.run = true ∧ n.inj.seq = h.seq ∧ n.inj.point = 0 ∧ n.get Ob.injPointNow = 0
        ∧ n.get Ob.injState = (if s.m.get Ob.injType = 1 then 3 else 1)))
  ∧ (s.m.runs ⟨h, 4, 0x2711, 0, [1]⟩ = true → s.m.inj.run = true →
    Done (.injStop h) ⟨h, 4, 0x2711, 0, [1]⟩ s 0 [] (.obj :: .inj :: evParts) [Ob.injState] (fun n =>
      n.inj.run = false ∧ n.get Ob.injState = 0 ∧ Tells 25 sevWarn 0x2410 (s.m.inj.seq + 65536 * s.m.pointsDone) s.m n))

/-- ID_RUN and SCAN_RUN are answered QUEUED, the one injecting in the section's next slot (R185), the other at once (R217);
INTEGRITY_CLEAR sets every counter to 0 (R319); LANE_SWITCHOVER waits for the boundary (R341), LANE_RESYNC starts the
resynchronisation of the unhealthy standby lane (R340, R342); SDC_FAULT_CLEAR clears a latched relay fault while every
signal reads open and no channel demands (R358). -/
def Obligations.UnitLaneAndSafetyActions : Prop :=
  ∀ (s : State) (h : Hdr) (u : Nat), u < 4 →
  (∀ f, f = Frame.mk h 4 (0x3058 + u) 0 [] → s.m.runs f = true → (s.m.taken f).joined u = true → s.m.get (Ob.idValid u) ≠ 3 → s.m.sec.length = 4 →
    Done (.idRun h u) f s 3 [] [.sec] [] (fun n => (n.secAt u).idRun = some h.seq ∧ ∀ v, v ≠ u → n.secAt v = s.m.secAt v))
  ∧ (∀ f, f = Frame.mk h 4 (0x352C + u) 0 [] → s.m.runs f = true → s.m.dcs u = dcRunning → s.m.get (Ob.dcMode u) = 1 →
      (s.m.taken f).scanBlocked u = false → (s.m.dcAt u).scan = false → s.m.dc.length = 4 →
    Done (.scanRun h u) f s 3 [] [.obj, .dc] [Ob.scanTime u, Ob.vMppRef u] (fun n =>
      (n.dcAt u).scan = true ∧ (n.dcAt u).point = 0 ∧ n.get (Ob.scanTime u) = s.m.t64
      ∧ (n.dcAt u).v0 = (s.m.dcAt u).vRef ∧ (n.dcAt u).p0 = (s.m.dcAt u).pMean))
  ∧ (∀ f, f = Frame.mk h 4 0x4630 0 [] → s.m.runs f = true →
    Done (.integrityClear h) f s 0 [] [.obj, .lanes] integrityKeys (fun n => ∀ k ∈ integrityKeys, n.get k = 0))
  ∧ (∀ f, f = Frame.mk h 4 0x4801 0 [] → s.m.runs f = true → s.m.isRedundant = true → s.m.arb.cause = none →
    Done (.laneSwitchover h) f s 0 [] [.acts] [] (fun n => n.acts = s.m.acts ++ [.laneSwitchover]))
  ∧ (∀ f, f = Frame.mk h 4 0x4802 0 [] → s.m.runs f = true → s.m.healthOf s.m.standby = 2 → s.m.arb.armed = true → s.m.arb.cause = none →
    Done (.laneResync h) f s 3 [] [.obj, .lanes, .arb]
      [Ob.health s.m.standby, Ob.roleNow s.m.standby, Ob.resync24h s.m.standby, Ob.redundant] (fun n =>
        n.get (Ob.health s.m.standby) = 3 ∧ n.arb.resyncSeq = h.seq))
  ∧ (∀ f c, f = Frame.mk h 4 0x4A20 0 [] → s.m.runs f = true → s.m.sdc.relayFault = some c → s.m.sdc.a = ⟨true, true, true, true, true, true⟩ →
      s.m.sdc.b = ⟨true, true, true, true, true, true⟩ →
    Done (.sdcFaultClear h) f s 0 [] (.obj :: .sdc :: .grp :: evParts)
      ([Ob.latchedFault, Ob.safeCause, Ob.sdcState] ++ (List.range 4).flatMap (fun g => [Ob.tripSources g, Ob.outState g])) (fun n =>
        n.sdc.relayFault = none ∧ n.get Ob.latchedFault = if s.m.sdc.discFault then 0x4A01 else 0))

/-- TIME_SET gives the seconds of the 1PPS source while a step is allowed (R378); TIME_REACQUIRE suspends entries and triggers
and allows one step, with EV103 (R382); SCHED_CANCEL frees an entry of its sender, with EV097 (R380); SENSOR_RESTORE starts
the restoring of a sensor (R419); CD_FAULT_CLEAR clears the drive's faults and returns its allowance (R430); HK_URGENT takes
the next slot of the active lane's converter (R447). -/
def Obligations.TimeAndCoolingActions : Prop :=
  ∀ (s : State) (h : Hdr),
  (∀ f t, f = Frame.mk h 4 0x5003 0 (leBytes 8 t) → t < 2 ^ 64 → s.m.runs f = true → s.m.get Ob.timeSource = 1 → s.m.get Ob.stepAllowed = 1 →
    Done (.timeSet h t) f s 0 [] [.time] [] (fun n => n.time.secondsOk = true ∧ n.time.masterTo = some ((t : Int) - s.m.tai)))
  ∧ (∀ f, f = Frame.mk h 4 0x5004 0 [] → s.m.runs f = true →
    Done (.timeReacquire h) f s 0 [] ([.obj, .time, .sched, .staged] ++ evParts)
      ([Ob.schedUsed, Ob.stepAllowed, Ob.timeState] ++ s.m.sched.flatMap (fun x =>
        [Ob.entryState x.entry, Ob.applyTime x.entry, Ob.entrySeq x.entry, Ob.entrySource x.entry, Ob.entryWrites x.entry])) (fun n =>
          n.get Ob.stepAllowed = 1 ∧ n.get Ob.timeState = (if s.m.time.qualified then timeAcquiring else timeFreerun)
          ∧ n.sched = s.m.sched.map (fun x => { x with suspended := true }) ∧ (∀ w ∈ n.staged, w.entry = none)
          ∧ (∀ x ∈ n.time.trig, x.suspended = true)))
  ∧ (∀ f e x, f = Frame.mk h 4 0x5041 0 (leBytes 1 e) → e < 64 → s.m.runs f = true → s.m.sched.find? (fun y => y.entry = e) = some x →
      x.snd = h.snd → s.m.entryStaged e = false →
    Done (.schedCancel h e) f s 0 [] ([.obj, .sched] ++ evParts)
      [Ob.schedUsed, Ob.entryState e, Ob.applyTime e, Ob.entrySeq e, Ob.entrySource e, Ob.entryWrites e] (fun n =>
        n.sched = s.m.sched.filter (fun y => y.entry ≠ e) ∧ n.get (Ob.entryState e) = 0
        ∧ Tells 97 sevWarn 0x5001 (x.seq + 65536 * 0x12) s.m n))
  ∧ (∀ f x, f = Frame.mk h 4 0x5838 0 (leBytes 1 x) → x < 16 → s.m.runs f = true → 1 ≤ s.m.sensorSt x → s.m.sensorSt x ≤ 3 →
      s.m.therm.restore.length = 16 →
    Done (.sensorRestore h x) f s 0 [] [.therm] [] (fun n =>
      n.therm.restore[x]? = some (some 0) ∧ ∀ y, y ≠ x → n.therm.restore[y]? = s.m.therm.restore[y]?))
  ∧ (∀ f, f = Frame.mk h 4 0x5858 0 [] → s.m.runs f = true →
    Done (.cdFaultClear h) f s 0 [] [.obj, .cd] [Ob.cdFault, Ob.cdState, Ob.cdRetries, Ob.derateRequest] (fun n =>
      n.get Ob.cdFault = 0 ∧ n.get Ob.cdRetries = 0 ∧ n.cd.retries = [] ∧ n.cd.waiting = false))
  ∧ (∀ f i, f = Frame.mk h 4 0x5DC0 0 (leBytes 1 i) → i < 32 → s.m.runs f = true → s.m.hk.urgentIn.getD s.m.lane false = false →
    Done (.hkUrgent h i) f s 3 [] [.hk] [] (fun n => n.hk.urgent = some (h.seq, i, s.m.lane)))

/-- PLAN_NOW computes a plan: where it differs enough it is adopted, with the next generation and EV124, or logged only while
PLAN_FREEZE is 01h (R489, R492). AGEING_REBASE waits for the boundary while the units of the component are at rest (R493). -/
def Obligations.AgeingActions : Prop :=
  ∀ (s : State) (h : Hdr) (f : Frame), f = Frame.mk h 4 0x6002 0 [] →
  (s.m.runs f = true → (s.m.taken f).differs (s.m.taken f).planTargets s.m.age.target = false →
    Done (.planNow h) f s 0 [] [] [] (fun _ => True))
  ∧ (s.m.runs f = true → (s.m.taken f).differs (s.m.taken f).planTargets s.m.age.target = true → s.m.get Ob.planFreeze = 1 →
    Done (.planNow h) f s 0 [] [.age] [] (fun n => n.age.target = s.m.age.target ∧ ∃ r, n.age.frozen = some (r, (s.m.taken f).planTargets)
      ∧ r.state = 0 ∧ r ∈ n.age.log))
  ∧ (s.m.runs f = true → (s.m.taken f).differs (s.m.taken f).planTargets s.m.age.target = true → s.m.get Ob.planFreeze ≠ 1 → s.m.age.frozen = none →
    Done (.planNow h) f s 0 [] ([.obj, .sto, .age] ++ evParts)
      ([Ob.planGen, Ob.planTime, Ob.planFlags, Ob.planState] ++ (List.range 24).map Ob.kI) (fun n =>
        n.age.target = (s.m.taken f).planTargets ∧ n.get Ob.planGen = (s.m.get Ob.planGen + 1) % 4294967296 ∧ n.get Ob.planTime = s.m.t64
        ∧ n.seenEv.head? = some 124))
  ∧ (∀ g kind unit, g = Frame.mk h 4 0x6004 0 (leBytes 1 kind ++ leBytes 1 unit) → kind < 256 → unit < 256 → s.m.runs g = true →
      (s.m.taken g).rebaseRefusal kind unit = none →
    Done (.ageingRebase h kind unit) g s 0 [] [.acts] [] (fun n => n.acts = s.m.acts ++ [.ageingRebase kind unit]))

/-- The operational certificate, a trust anchor and a chunk of the CRL are taken where Cirque verifies them (R459, R460), and
are otherwise BAD_RANGE and change nothing; empty data clears an anchor. KEY_INSTALL replaces the key and the role of a slot where
Cirque unwraps the key (R463). What Cirque answers on given bytes is free. -/
def Obligations.CertificatesAndKeysAreInstalled : Prop :=
  ∀ (s : State) (h : Hdr),
  (∀ f der, f = Frame.mk h 4 0x6403 0 der → s.m.runs f = true → s.m.cirqueOk = true → der ≠ [] → der.length ≤ 974 →
    Done (.certInstall h der) f s (if Config.certOk der then 0 else 0x11) [] [.secu] [] (fun n => n.secu.anchors = s.m.secu.anchors
      ∧ (Config.certOk der = true → n.secu.opCert = der ∧ n.secu.opKey = true) ∧ (Config.certOk der = false → n.secu = s.m.secu)))
  ∧ (∀ f k der, f = Frame.mk h 4 0x6404 (k + 1) der → k < 4 → s.m.secu.anchors.length = 4 → s.m.runs f = true →
      (der = [] ∨ s.m.cirqueOk = true) →
    Done (.trustAnchor h k der) f s (if der = [] ∨ Config.certOk der = true then 0 else 0x11) [] [.secu] [] (fun n =>
      n.secu.anchors[k]? = (if der = [] ∨ Config.certOk der = true then some der else s.m.secu.anchors[k]?)
      ∧ ∀ j, j ≠ k → n.secu.anchors[j]? = s.m.secu.anchors[j]?))
  ∧ (∀ f off chunk, f = Frame.mk h 4 0x6405 0 (leBytes 4 off ++ chunk) → s.m.runs f = true → s.m.cirqueOk = true →
      (off = 0 ∨ off = s.m.secu.crl.length) → chunk.length ≤ 252 → off + chunk.length ≤ 65536 →
      (∀ p ∈ s.m.sess, p.2.isOpen = true → (Config.crlSerials ((if off = 0 then [] else s.m.secu.crl) ++ chunk)).contains p.2.serial = false) →
    Done (.crlInstall h off chunk) f s 0 [] [.secu] [] (fun n =>
      n.secu.crl = (if off = 0 then [] else s.m.secu.crl) ++ chunk ∧ n.secu.revoked = Config.crlSerials n.secu.crl))
  ∧ (∀ f data slot role, f = Frame.mk h 4 0x6420 0 data → s.m.runs f = true → s.m.cirqueOk = true → data.length = 159 →
      data[0]? = some slot → data[1]? = some role → slot.toNat < 16 → 1 ≤ role.toNat → role.toNat ≤ 3 →
      s.m.secu.keys.length = 16 →
    Done (.keyInstall h data) f s (if (Config.unwrapKey data).isSome then 0 else 0x11) [] [.obj, .sto, .secu, .mbx]
      [Ob.slotRole slot.toNat] (fun n => (∀ j, j ≠ slot.toNat → n.secu.keys[j]? = s.m.secu.keys[j]?)
        ∧ (∀ key, Config.unwrapKey data = some key → n.secu.keys[slot.toNat]? = some key ∧ n.get (Ob.slotRole slot.toNat) = role.toNat)
        ∧ (Config.unwrapKey data = none → n.secu = s.m.secu ∧ n.get (Ob.slotRole slot.toNat) = s.m.get (Ob.slotRole slot.toNat))))

/-- An upload chunk is staged as a write and joins the image at its boundary (R456); FW_STAGE starts the verification (R456);
CERT_MODE_SET takes effect at the next power cycle (R467); DEBUG_UNLOCK answers with the challenge (R466). -/
def Obligations.UpdateAndModeActions : Prop :=
  ∀ (s : State) (h : Hdr),
  (∀ off chunk, exec (.fwUpload h off chunk) s = exec (.write h 0x6450 0 (leBytes 4 off ++ chunk)) s)
  ∧ (∀ (m : Mod) off chunk, off < 4294967296 → (off = 0 ∨ off = m.secu.upload.length) → chunk.length ≤ 252 → off + chunk.length ≤ 6291456 →
      m.applyWrite h.snd (Ob.fwUpload, leBytes 4 off ++ chunk)
        = { m with secu := { m.secu with upload := (if off = 0 then [] else m.secu.upload) ++ chunk
                                         staged := if off = 0 then none else m.secu.staged
                                         badImg := if off = 0 then m.secu.badImg.filter (fun p => (m.laneAt p.1).imageB = (p.2 = 1))
                                                   else m.secu.badImg } })
  ∧ (∀ f off chunk, f = Frame.mk h 2 0x6450 0 (leBytes 4 off ++ chunk) → s.m.accepts f = true → (s.m.chanOf h.snd).group = none →
      (s.m.taken f).checkWrite h.snd (s.m.roleOf h.snd) false false false s.m.stagedWrites (Ob.fwUpload, leBytes 4 off ++ chunk) = none →
    Does (.fwUpload h off chunk) s (fun n => (∃ w, n.staged = s.m.staged ++ [w] ∧ w.work = .writes [(Ob.fwUpload, leBytes 4 off ++ chunk)]
        ∧ w.snd = h.snd ∧ w.seq = h.seq ∧ w.late = decide (s.m.clk.phase = .staging))
      ∧ Only ([.staged, .order] ++ frameParts) s.m n ∧ OnlyEntries [Ob.framesOk, Ob.writesDeferred] s.m n))
  ∧ (∀ f, f = Frame.mk h 4 0x6451 0 [] → s.m.runs f = true → s.m.secu.staging = none → s.m.secu.upload ≠ [] → s.m.cirqueOk = true →
    Done (.fwStage h) f s 3 [] [.secu] [] (fun n => n.secu.staging = some h.seq))
  ∧ (∀ f, f = Frame.mk h 4 0x6454 0 [1] → s.m.runs f = true →
    Done (.certModeEnter h) f s 0 [] [.secu] [] (fun n => n.secu.certNext = some 1))
  ∧ (∀ f, f = Frame.mk h 4 0x6454 0 [0] → s.m.runs f = true →
    Done (.certModeLeave h) f s 0 [] [.secu] [] (fun n => n.secu.certNext = some 0))
  ∧ (∀ f, f = Frame.mk h 4 0x6470 0 [] → s.m.runs f = true → s.m.isRedundant = true →
    ∃ c, c.take 8 = leBytes 8 Config.serialNumber ∧
      Done (.debugUnlock h) f s 0 c [.secu, .free] [] (fun n => n.secu.debug = some (s.m.now, c)))
  ∧ (∀ f sig t c, f = Frame.mk h 4 0x6471 0 sig → s.m.runs f = true → s.m.isRedundant = true → s.m.secu.debug = some (t, c) →
      s.m.now ≤ t + sPs 60 → sig.length = 96 → s.m.healthOf s.m.standby = 0 → s.m.arb.incoming = none →
    Done (.debugResponse h sig) f s (if Config.debugSigOk c sig then 0 else 0x11) [] ([.obj, .lanes, .arb, .secu] ++ evParts)
      [Ob.health s.m.standby, Ob.unhealthyCause s.m.standby, Ob.roleNow s.m.standby, Ob.resync24h s.m.standby, Ob.redundant] (fun n =>
        n.secu.debug = none
        ∧ (Config.debugSigOk c sig = true → 109 ∈ n.seenEv ∧ (n.healthOf s.m.standby = 2 ∨ n.healthOf s.m.standby = 3))
        ∧ (Config.debugSigOk c sig = false → n.healthOf s.m.standby = 0)))

/-- SESSION_OPEN on a GHP3 mailbox of the serial link starts a session under its key slot (R462): K is HMAC-SHA-256 of the
slot's key over "GHP3", the host's nonce and a nonce of the module; its role is the slot's, its message counters start at 0. -/
def Obligations.SessionOpenStartsASession : Prop :=
  ∀ (s : State) (h : Hdr) (nonce : List Byte) (f : Frame), f = Frame.mk h 4 0x6421 0 nonce → (∃ k, h.snd = .mbx k) → s.m.genOf h.snd = 3 →
    s.m.accepts f = true → nonce.length = 16 → s.m.cirqueOk = true → s.m.sdc.lockout = false → (s.m.chanOf h.snd).group = none →
    Does (.sessionOpen h nonce) s (fun n => Only (.free :: frameParts) s.m n ∧ OnlyEntries [Ob.framesOk] s.m n
      ∧ (n.chanOf h.snd).slot = some h.slot ∧ (n.chanOf h.snd).role = s.m.get (Ob.slotRole h.slot) ∧ (n.chanOf h.snd).ctrIn = some 0
      ∧ ∃ r : List Byte, r.length = 16
          ∧ (n.chanOf h.snd).key = Config.hmacSha256 (s.m.secu.keys.getD h.slot []) (ghp3Label ++ nonce ++ r))

/-- FW_ACTIVATE with every group at rest, both relays open and an image staged resets both lanes and the safety die and makes
the staged image the one they boot (R457): the clock goes on, nothing staged, no session and no running tick is left, and the
stored values are in force, but for the entries that a reset does not touch (R12, R17, R23). Its response goes with the resets. -/
def Obligations.FwActivateResetsTheModule : Prop :=
  ∀ (s : State) (h : Hdr) (f : Frame) (a b : ImageInfo), f = Frame.mk h 4 0x6452 0 [] → s.m.runs f = true → (s.m.taken f).allAtRest = true →
    s.m.bothOpen = true → s.m.secu.staged = some (a, b) →
    Does (.fwActivate h) s (fun n => n.clk = { upPs := s.m.clk.upPs } ∧ (∀ k, n.get k = if k ∈ resetHeldKeys then s.m.get k else ({ obj := s.m.sto } : Mod).get k)
      ∧ n.sto = s.m.sto ∧ n.gens = s.m.gens ∧ n.sess = [] ∧ n.staged = []
      ∧ n.secu.staged = none ∧ (a.target = 2 → n.secu.safety = some a) ∧ n.secu.keys = s.m.secu.keys ∧ n.power.released = none
      ∧ n.prot.log = s.m.prot.log)

/-- FW_COMMIT while no lane fails raises the anti-rollback counter of the running image to its SEC_VERSION where that is
higher, with EV107, and no other counter (R458, R468); no counter ever falls. -/
def Obligations.FwCommitRaisesTheCounter : Prop :=
  ∀ (s : State) (h : Hdr) (f : Frame) (a : ImageInfo), f = Frame.mk h 4 0x6453 0 [] → s.m.runs f = true →
    (s.m.taken f).laneFailing = false → s.m.cirqueOk = true → s.m.secu.running.getD s.m.lane none = some a → a.counter < 64 → a.secVersion ≤ 1023 →
    s.kept.rollback.length = 64 →
    Completes (.fwCommit h) s (fun t => t.m.answer h.snd = some (h.seq, 0, [])
      ∧ t.kept.rollback.getD a.counter 0 = max (s.kept.rollback.getD a.counter 0) a.secVersion
      ∧ (∀ c, c ≠ a.counter → t.kept.rollback[c]? = s.kept.rollback[c]?)
      ∧ (s.kept.rollback.getD a.counter 0 < a.secVersion → Tells 107 sevInfo 0 (a.counter + 256 * a.secVersion) s.m t.m)
      ∧ Only (evParts ++ frameParts) s.m t.m ∧ OnlyEntries [Ob.framesOk] s.m t.m)

/-- GF_COMMAND, DC_COMMAND, PWM_TRIP_CLEAR, PWM_DIRECT and RETIREMENT are unit actions: an accepted one stands staged for the
first boundary whose cutoff it meets, and is not answered before it (R72, R515). -/
def Obligations.UnitActionsAreStaged : Prop :=
  ∀ (s : State) (h : Hdr) (u g k x y : Nat), u < 4 → g < 8 → k < 256 → x ≤ 2 → y < (if x = 0 then 8 else if x = 1 then 24 else 32) →
  (∀ f, f = Frame.mk h 4 (0x3004 + u) 0 [0] → s.m.runs f = true → Stages (.gfStart h u) f s (.unitAct (0x3004 + u) [0]))
  ∧ (∀ f, f = Frame.mk h 4 (0x3004 + u) 0 [1] → s.m.runs f = true → Stages (.gfStop h u) f s (.unitAct (0x3004 + u) [1]))
  ∧ (∀ f, f = Frame.mk h 4 (0x3504 + u) 0 [0] → s.m.runs f = true → Stages (.dcStart h u) f s (.unitAct (0x3504 + u) [0]))
  ∧ (∀ f, f = Frame.mk h 4 (0x3504 + u) 0 [1] → s.m.runs f = true → Stages (.dcStop h u) f s (.unitAct (0x3504 + u) [1]))
  ∧ (∀ f, f = Frame.mk h 4 0x40F0 0 (leBytes 1 k) → s.m.runs f = true → Stages (.pwmTripClear h k) f s (.unitAct 0x40F0 [k]))
  ∧ (∀ f, f = Frame.mk h 4 0x40F1 0 (leBytes 1 g ++ [0]) → s.m.runs f = true →
      Stages (.pwmDirectStart h g) f s (.unitAct 0x40F1 [g, 0]))
  ∧ (∀ f, f = Frame.mk h 4 0x40F1 0 (leBytes 1 g ++ [1]) → s.m.runs f = true →
      Stages (.pwmDirectStop h g) f s (.unitAct 0x40F1 [g, 1]))
  ∧ (∀ f, f = Frame.mk h 4 0x44B0 0 (leBytes 1 0 ++ leBytes 1 x ++ leBytes 1 y) → s.m.runs f = true →
      Stages (.retire h x y) f s (.unitAct 0x44B0 [0, x, y]))
  ∧ (∀ f, f = Frame.mk h 4 0x44B0 0 (leBytes 1 1 ++ leBytes 1 x ++ leBytes 1 y) → s.m.runs f = true →
      Stages (.reinstate h x y) f s (.unitAct 0x44B0 [1, x, y]))

/-- At its boundary a start of a section or a channel at rest that may start is answered QUEUED and begins: a section confirms a
dead bus or runs its enter-service delay, a channel waits for its entry conditions; any other start is BAD_STATE (R153, R162,
R164, R199, R213, R214). A stop of a section that runs begins STOPPING, of one at rest or stopping changes nothing (R163, R164);
a channel that waits or holds goes to rest, one that runs winds down (R213). -/
def Obligations.SectionAndChannelCommandsBegin : Prop :=
  ∀ (m : Mod) (pend : List Assertion) (snd : Sender) (seq u : Nat), u < 4 → m.sdc.lockout = false → m.sec.length = 4 → m.dc.length = 4 →
  (m.gf u = gfRest → m.startBlocked u = false → m.sectionChannels u = true → m.profileAdmits u = true →
      (m.busDead u = true → m.get (Ob.opMode u) ≠ 2 ∧ m.get (Ob.startKind u) ≠ 0) →
    (m.unitAct pend snd seq (0x3004 + u) [0]).2 = 3
    ∧ (m.unitAct pend snd seq (0x3004 + u) [0]).1.gf u = (if m.busDead u then gfDeadWait else gfDelay)
    ∧ ((m.unitAct pend snd seq (0x3004 + u) [0]).1.secAt u).start = some seq
    ∧ (m.unitAct pend snd seq (0x3004 + u) [0]).1.get (Ob.bsOutcome u) = 0)
  ∧ (m.gf u ≠ gfRest ∨ m.startBlocked u = true ∨ m.sectionChannels u = false ∨ m.profileAdmits u = false →
      m.unitAct pend snd seq (0x3004 + u) [0] = (m, 0x12))
  ∧ (m.gf u = gfRest ∨ m.gf u = gfStopping → m.unitAct pend snd seq (0x3004 + u) [1] = (m, 0))
  ∧ (m.gf u ≠ gfRest → m.gf u ≠ gfStopping → (m.unitAct pend snd seq (0x3004 + u) [1]).2 = 0
      ∧ (m.unitAct pend snd seq (0x3004 + u) [1]).1.gf u = gfStopping
      ∧ ((m.unitAct pend snd seq (0x3004 + u) [1]).1.secAt u).noRamps = false)
  ∧ (m.dcs u = dcRest → m.startBlocked (4 + u) = false → m.assigned (4 + u) 7 ≠ [] → m.assigned (4 + u) 8 ≠ [] →
      (m.assigned (4 + u) 4 ≠ [] ∨ m.hasHalves (4 + u) = true) → m.get (Ob.dcMode u) ≠ 0 →
    (m.unitAct pend snd seq (0x3504 + u) [0]).2 = 3 ∧ (m.unitAct pend snd seq (0x3504 + u) [0]).1.dcs u = dcWait
    ∧ ((m.unitAct pend snd seq (0x3504 + u) [0]).1.dcAt u).start = some seq)
  ∧ (m.dcs u ≠ dcRest ∨ m.startBlocked (4 + u) = true ∨ m.get (Ob.dcMode u) = 0 → m.unitAct pend snd seq (0x3504 + u) [0] = (m, 0x12))
  ∧ (m.dcs u = dcWait ∨ m.dcs u = dcHold → (m.unitAct pend snd seq (0x3504 + u) [1]).2 = 0
      ∧ (m.unitAct pend snd seq (0x3504 + u) [1]).1.dcs u = dcRest ∧ ((m.unitAct pend snd seq (0x3504 + u) [1]).1.dcAt u).start = none)
  ∧ (m.dcs u = dcRunning → (m.unitAct pend snd seq (0x3504 + u) [1]).2 = 0
      ∧ (m.unitAct pend snd seq (0x3504 + u) [1]).1.dcs u = dcStopping
      ∧ ((m.unitAct pend snd seq (0x3504 + u) [1]).1.dcAt u).stopPs = some (m.now + 10000000000000))

/-- A tick runs through its phases (R71): the samples are ready 0.25 µs after t0, the commit deadline and the staging cutoff
stand 0.4 µs before the boundary, and at the boundary the next tick begins, one tick period after t0. A module whose tick does
not run leaves all three events without effect. -/
def Obligations.TickRunsThroughItsPhases : Prop :=
  ∀ (s : State) (smp : Samples) (rep : TickReport),
  (s.m.clk.running = false → exec .tickBoundary s = .next s ∧ exec (.samplesReady smp) s = .next s ∧ exec (.commitDeadline rep) s = .next s)
  ∧ (s.m.clk.running = true → s.m.clk.phase = .boundary →
      Does (.samplesReady smp) s (fun n => n.clk = { s.m.clk with phase := .compute, upPs := max s.m.clk.upPs (s.m.clk.t0Ps + 250000) }))
  ∧ (s.m.clk.running = true → s.m.clk.phase = .compute →
      Does (.commitDeadline rep) s (fun n =>
        n.clk = { s.m.clk with phase := .staging, upPs := max s.m.clk.upPs (s.m.clk.t0Ps + s.m.tickPs - 400000)
                               busyPs := n.clk.busyPs, loadPs := n.clk.loadPs }))
  ∧ (s.m.clk.running = true →
      Does .tickBoundary s (fun n => n.clk.t0Ps = s.m.clk.t0Ps + s.m.tickPs ∧ n.clk.phase = .boundary ∧ n.clk.tick = s.m.clk.tick + 1
        ∧ n.clk.running = true ∧ s.m.clk.t0Ps + s.m.tickPs ≤ n.clk.upPs))

/-- An overrun of the active lane leaves the shadow registers of every group, and with them the duties of the tick before, and
the engines as they stood at the start of the tick; it is counted, with its t0, and told by EV016 (R80, R82). A tick that both
engines finish moves the outputs of every group to its shadow registers in one transfer (R71). -/
def Obligations.OverrunKeepsTheDuties : Prop :=
  ∀ (s : State) (rep : TickReport), s.m.clk.running = true → s.m.clk.phase = .compute →
  (windowCycles s.m.tickPs < rep.act0 ∨ windowCycles s.m.tickPs < rep.act1 →
    Does (.commitDeadline rep) s (fun n => n.grp = s.m.grp ∧ n.eng = s.m.saved
      ∧ n.get Ob.overrunTotal = (s.m.get Ob.overrunTotal + 1) % 4294967296 ∧ n.get Ob.lastOverrun = s.m.tickT0 ∧ 16 ∈ n.seenEv))
  ∧ (rep.act0 ≤ windowCycles s.m.tickPs → rep.act1 ≤ windowCycles s.m.tickPs → s.m.standbyServes = false → rep.mirror = none →
      s.m.arb.cause = none → s.m.grp.length = 8 →
    Does (.commitDeadline rep) s (fun n => n.eng = s.m.eng ∧ n.get Ob.lastT0 = s.m.tickT0
      ∧ ∀ g, g < 8 → s.m.eng.duty.getD g [] ≠ [] → (n.grpAt g).duty = s.m.eng.duty.getD g [] ∧ (n.grpAt g).active = (s.m.grpAt g).active))

/-- FOC_TRIP: each channel whose windows exceed its level and that neither lane has found yet trips every group in use that its
OWNER_MASK names at once, each to its safe pattern with the latch set, and the fault waits for the boundary with the instant of
the crossing (R95, R97, R284, R309); a group that no such channel names stands as it stood. FOC_ALERT sets the flags to the
channels whose windows exceed its level, and raises EV035 with those that newly cross (R95). Both complete whatever the windows. -/
def Obligations.FastOvercurrentTripsItsUnits : Prop :=
  ∀ (s : State) (dt lanes : Nat) (wins : List Nat),
  Does (.focTrip dt lanes wins) s (fun n => n.clk.upPs = s.m.clk.upPs + dt * 1000
      ∧ (∀ c ∈ s.m.focCrossed Ob.focTrip wins, (∃ l, l < 2 ∧ bit lanes l = true) → (∀ l, l < 2 → bit (s.m.prot.focLane.getD l 0) c = false) →
          (∀ g ∈ groupsOf (s.m.owners c), s.m.inUse g = true → g < s.m.grp.length → (n.grpAt g).latched = true ∧ (n.grpAt g).on = false)
          ∧ ((∃ g ∈ groupsOf (s.m.owners c), s.m.inUse g = true) →
              ∃ a ∈ n.prot.pend, a.fault = focFault (s.m.get (Ob.role c)) ∧ a.cls = 1 ∧ a.channels = 2 ^ c ∧ a.atPs = s.m.now + dt * 1000))
      ∧ (∀ g, g < 8 → g < s.m.grp.length → (∀ c ∈ s.m.focCrossed Ob.focTrip wins, g ∉ groupsOf (s.m.owners c)) → n.grpAt g = s.m.grpAt g)
      ∧ Only [.clk, .obj, .grp, .prot] s.m n
      ∧ OnlyEntries ((List.range 8).flatMap (fun g => [Ob.forceEn g, Ob.tripSources g, Ob.outState g])) s.m n)
  ∧ Does (.focAlert dt wins) s (fun n => n.clk.upPs = s.m.clk.upPs + dt * 1000
      ∧ n.prot.focAlert = maskOf (s.m.focCrossed Ob.focAlert wins)
      ∧ ((∃ c ∈ s.m.focCrossed Ob.focAlert wins, bit s.m.prot.focAlert c = false) →
          Tells 35 sevWarn 0x2009 (maskOf ((s.m.focCrossed Ob.focAlert wins).filter (fun c => !bit s.m.prot.focAlert c))) s.m n)
      ∧ Only (.clk :: .prot :: evParts) s.m n ∧ OnlyEntries [] s.m n)

/-- A channel whose stream or clock is lost, or that fails a plausibility check, is lost: CH_STATE shows why, and EV032, EV033
or EV036 is raised (R109, R111, R112, R113); a finding of one lane alone that is not the active one acts on that lane only
(R111). A lane that loses its own generators gives up control, or is unhealthy as the standby lane (R111). A channel whose bits
are good again for long enough becomes valid at the next boundary, a retired one stays retired (R108). -/
def Obligations.LostChannelsAreShown : Prop :=
  ∀ (s : State) (dt c l u kind mask lanes : Nat) (clipped : Bool), c < 24 → l < 2 → (if kind = 0 ∨ kind = 2 then u < 4 else u < 24) →
  (s.m.get (Ob.chState c) = 0 ∨ s.m.get (Ob.chState c) = 4 →
    (s.m.oneLane lanes = none ∨ s.m.oneLane lanes = some s.m.lane →
      Does (.streamLost dt c clipped lanes) s (fun n => n.get (Ob.chState c) = 2 ∧ n.seenEv.head? = some 32 ∧ bit n.meas.lost c = true))
    ∧ (s.m.oneLane lanes = some l → l ≠ s.m.lane →
      Does (.streamLost dt c clipped lanes) s (fun n => n.arb.due = s.m.arb.due ++ [(l, 0x480A)] ∧ Only [.clk, .arb] s.m n ∧ OnlyEntries [] s.m n)))
  ∧ ((∃ k ∈ s.m.mclksOn mask, s.m.get (Ob.mclkState k) ≠ 2) → s.m.oneLane lanes = none ∨ s.m.oneLane lanes = some s.m.lane →
    Does (.mclkLost dt mask lanes) s (fun n => (∀ k ∈ s.m.mclksOn mask, n.get (Ob.mclkState k) = 2) ∧ n.seenEv.head? = some 33
      ∧ (s.m.get (Ob.mclkSrc c) ∈ s.m.mclksOn mask → s.m.get (Ob.mclkState (s.m.get (Ob.mclkSrc c))) ≠ 2 → s.m.get (Ob.role c) ≠ 0 →
          s.m.get (Ob.chState c) = 0 ∨ s.m.get (Ob.chState c) = 4 → n.get (Ob.chState c) = 1)))
  ∧ ((∀ k ∈ s.m.mclksOn mask, s.m.get (Ob.mclkState k) = 2) →
    Does (.mclkLost dt mask lanes) s (fun n => Only [.clk] s.m n ∧ OnlyEntries [] s.m n))
  ∧ (s.m.mclksOn mask ≠ [] →
    Does (.mclkLostInLane dt l mask) s (fun n => 33 ∈ n.seenEv ∧ (l = s.m.lane → ∀ k ∈ s.m.mclksOn mask, n.get (Ob.mclkState k) = 3)
      ∧ (l = s.m.lane → s.m.arb.cause = none → s.m.arb.grant.isSome = true → n.arb.cause = some 0x2003)
      ∧ (l ≠ s.m.lane → n.healthOf s.m.standby = 2 ∨ n.healthOf s.m.standby = 3)))
  ∧ (kind ≤ 3 → c ∈ s.m.checkChans kind u → (s.m.meas.checks.getD (checkIx kind u) {}).failed = false →
      s.m.checkTicks kind u ≤ (s.m.meas.checks.getD (checkIx kind u) {}).run → s.m.get (Ob.chState c) = 0 ∨ s.m.get (Ob.chState c) = 4 →
    Does (.plausibility kind u) s (fun n => n.get (Ob.chState c) = (if kind = 3 then 2 else 3)
      ∧ n.seenEv.head? = some (if kind = 3 then 32 else 36)))
  ∧ (1 ≤ s.m.get (Ob.chState c) → s.m.get (Ob.chState c) ≤ 5 → s.m.get (Ob.mclkFreq (s.m.get (Ob.mclkSrc c))) ≠ 255 →
      3 * s.m.get (Ob.osr c) + 31 ≤ (s.m.chAt c).good.getD 0 → c < s.m.meas.ch.length →
    Does (.channelSettled c) s (fun n => (n.chAt c).settled = true ∧ Only [.meas] s.m n ∧ OnlyEntries [] s.m n))
  ∧ ((s.m.chAt c).settled = true → (s.m.settleActs c).get (Ob.chState c) = (if s.m.get (Ob.chState c) = 5 then 5 else 0)
      ∧ bit (s.m.settleActs c).meas.lost c = false)

/-- METER_BLOCK_END, where a block of the unit ends and every sample of it is valid, gives a section's or a channel's metered values
and adds to its energy counters (R93, R94); any other end changes no energy. CAL_POINT_DONE stores the average of the running
point's blocks, D_ZERO or D_SPAN, with their spread, and raises EV038 (R101). OFFSET_TRACK_UPDATE sets the tracked offset of a
channel at rest to the mean of its 200 ms, or raises EV041 beyond 0.005 pu and leaves it (R104). GRID_FREQ_UPDATE takes the rate of
GRID_PHASE over the 20 ms of its history (R107). -/
def Obligations.MeasurementResultsAreShown : Prop :=
  ∀ (s : State) (b : MeterBlock) (u c e : Nat) (m : Mod), u < 4 → c < 24 → m = (s.m.reach e).meterChans b.unit b → s.m.meas.cal.run = none →
  (b.unit = u → s.m.blockEndPs u = some e → m.inUse u = true → m.meterVolts u ≠ [] → m.meterAmps u ≠ [] →
      (∀ n ∈ m.meterVolts u ++ m.meterAmps u, m.validSince n (s.m.meterAt u).startPs = true) →
    Does (.meterBlockEnd b) s (fun n => n.getS (Ob.acP u) = q29Of (m.blockPower u b) ∧ n.getS (Ob.acQ u) = sat29 b.q
      ∧ n.getS (Ob.vRms u) = q29OfLsb (m.sectionRms b (m.meterVolts u)) ∧ n.getS (Ob.iRms u) = q29OfLsb (m.sectionRms b (m.meterAmps u))
      ∧ n.get (Ob.blockEnd u) = n.t64 ∧ n.clk.upPs = max s.m.clk.upPs e
      ∧ (0 ≤ m.blockPower u b → n.get (Ob.acEnergyIn u) = s.m.get (Ob.acEnergyIn u))
      ∧ (m.blockPower u b = 0 → n.get (Ob.acEnergyOut u)
          = (s.m.get (Ob.acEnergyOut u) + ((s.m.meterAt u).remOut).floor.toNat) % 18446744073709551616)
      ∧ Only [.clk, .obj, .sto, .meas] s.m n
      ∧ OnlyEntries ([Ob.acP u, Ob.acQ u, Ob.vRms u, Ob.iRms u, Ob.blockEnd u, Ob.acEnergyOut u, Ob.acEnergyIn u]
          ++ (List.range 24).flatMap (fun k => [Ob.meterMean k, Ob.meterRms k])) s.m n))
  ∧ (b.unit = 4 + u → s.m.blockEndPs (4 + u) = some e → m.inUse (4 + u) = true → m.meterVolts (4 + u) ≠ [] → m.meterAmps (4 + u) ≠ [] →
      (∀ n ∈ m.meterVolts (4 + u) ++ m.meterAmps (4 + u), m.validSince n (s.m.meterAt (4 + u)).startPs = true) →
    Does (.meterBlockEnd b) s (fun n => n.getS (Ob.pDc u) = q29Of (m.blockPower (4 + u) b) ∧ n.clk.upPs = max s.m.clk.upPs e
      ∧ (0 ≤ m.blockPower (4 + u) b → n.get (Ob.dcEnergyIn u) = s.m.get (Ob.dcEnergyIn u))
      ∧ Only [.clk, .obj, .sto, .meas] s.m n
      ∧ OnlyEntries ([Ob.pDc u, Ob.dcEnergyOut u, Ob.dcEnergyIn u] ++ (List.range 24).flatMap (fun k => [Ob.meterMean k, Ob.meterRms k])) s.m n))
  ∧ (b.unit = u → (∃ n ∈ s.m.meterAmps u, s.m.chValid n = false) →
    Does (.meterBlockEnd b) s (fun n => n.get (Ob.acEnergyOut u) = s.m.get (Ob.acEnergyOut u) ∧ n.get (Ob.acEnergyIn u) = s.m.get (Ob.acEnergyIn u)
      ∧ n.get (Ob.acP u) = s.m.get (Ob.acP u)))
  ∧ (∀ (t : State) pt, t.m.meas.cal.run = some pt → t.m.meas.cal.blocks ≤ t.m.meas.cal.vals.length →
    Does .calPointDone t (fun n => n.getS (if pt = 0 then Ob.dZero else Ob.dSpan) = q29OfLsb (meanV t.m.meas.cal.vals)
      ∧ n.getS Ob.calSpread = q29OfLsb (spreadV t.m.meas.cal.vals) ∧ n.meas.cal.run = none ∧ Tells 38 sevInfo 0 t.m.meas.cal.seq t.m n
      ∧ Only ([.obj, .meas, .free] ++ evParts) t.m n
      ∧ OnlyEntries [Ob.dZero, Ob.dSpan, Ob.calSpread, Ob.calState, Ob.newOffset, Ob.newGain] t.m n))
  ∧ (∀ t mean, s.m.get (Ob.trackEn c) = 1 → (s.m.get (Ob.role c) = 1 ∨ s.m.get (Ob.role c) = 7) → s.m.usersRest c = true → s.m.bothOpen = true →
      (s.m.chAt c).restPs = some t → t + 1000000000000 ≤ (s.m.chAt c).trkPs + 200000000000 → (s.m.chAt c).trkN ≠ 0 →
      mean = ((s.m.chAt c).trkSum : Rat) / (((s.m.chAt c).trkN : Nat) : Rat) →
    Does (.offsetTrackUpdate c) s (fun n => n.clk.upPs = max s.m.clk.upPs ((s.m.chAt c).trkPs + 200000000000) ∧
      (absR mean ≤ 5 / 1000 * 536870912 → n.getS (Ob.offsetTrack c) = q29OfLsb mean ∧ Only [.clk, .obj, .meas] s.m n
        ∧ OnlyEntries [Ob.offsetTrack c] s.m n)
      ∧ (5 / 1000 * 536870912 < absR mean → 41 ∈ n.seenEv ∧ Only (.clk :: .meas :: evParts) s.m n ∧ OnlyEntries [] s.m n)))
  ∧ (∀ a z l, (s.m.secAt u).phases = a :: l → (a :: l).find? (fun p => p.1 + 20000000000 ≤ s.m.now) = some z → a.1 ≠ z.1 →
    Does (.gridFreqUpdate u) s (fun n => n.getS (Ob.gridFreq u) = clampI (-2147483648) 2147483647
        (wholeNear ((((a.2 - z.2 : Int) : Rat) / 4294967296 * 1000000000000 / ((a.1 - z.1 : Nat) : Rat) - s.m.getF (Ob.fRated u)) * 1000000))
      ∧ Only [.obj] s.m n ∧ OnlyEntries [Ob.gridFreq u] s.m n))

/-- NOTCH_UPDATE recomputes the centre of every tracking notch of a context that runs while its section's angle is valid, for
the next boundary (R124). A trace is armed once its pre-trigger records stand and ends with EV022 once its depth is recorded
(R143). A sweep point measures once it has settled, the next point follows a measured one, and the end of the injection leaves
the generator idle with EV024 (R147, R150). -/
def Obligations.EngineEventsTakeEffect : Prop :=
  ∀ (s : State) (c k : Nat), c < 160 → k < 4 → s.m.eng.ctx.length = 160 →
  (s.m.get (Ob.notchTrack c) = k + 1 → (s.m.ctxAt c).on = true → s.m.get (Ob.angleValid k) = 1 →
    Does .notchUpdate s (fun n => (n.ctxAt c).next = s.m.trackStart c ∧ (n.ctxAt c).centre = (s.m.ctxAt c).centre ∧ Only [.eng] s.m n))
  ∧ (s.m.traceSt = 1 → s.m.preNow ≤ s.m.trace.recs.length →
    Does .tracePreFilled s (fun n => n.traceSt = 2 ∧ n.trace = { s.m.trace with seen := s.m.seenEv.length } ∧ Only [.obj, .trace] s.m n ∧ OnlyEntries [Ob.traceState] s.m n))
  ∧ (s.m.traceSt = 3 → s.m.depthNow - s.m.preNow ≤ s.m.trace.since →
    Does .traceDone s (fun n => n.traceSt = 4 ∧ Tells 22 sevInfo 0 (s.m.get Ob.traceRecords) s.m n
      ∧ Only ([.obj, .trace] ++ evParts) s.m n ∧ OnlyEntries [Ob.traceState] s.m n))
  ∧ (s.m.inj.run = true → s.m.get Ob.injState = 1 → s.m.get Ob.injSettle * 4294967296 ≤ s.m.inj.ticks * s.m.inj.step →
    Does .sweepSettled s (fun n => n.get Ob.injState = 2 ∧ n.inj.ticks = 0 ∧ n.inj.point = s.m.inj.point ∧ n.inj.ang = s.m.inj.ang
      ∧ Only [.obj, .inj] s.m n ∧ OnlyEntries [Ob.injState] s.m n))
  ∧ (s.m.inj.run = true → s.m.get Ob.injState = 2 → s.m.inj.point + 1 < s.m.get Ob.injPoints → s.m.sweepTicks ≤ s.m.inj.ticks → s.m.inj.point < 64 →
    Does .sweepPointMeasured s (fun n => n.get Ob.injState = 1 ∧ n.inj.point = s.m.inj.point + 1 ∧ n.inj.ang = s.m.inj.ang
      ∧ n.get Ob.injPointNow = s.m.inj.point + 1 ∧ n.get (Ob.sweepValid s.m.inj.point) = s.m.inj.mark
      ∧ Only [.obj, .inj, .free] s.m n))
  ∧ (s.m.inj.run = true → s.m.injFinished = true →
    Does .injectionDone s (fun n => n.get Ob.injState = 0 ∧ n.inj.run = false ∧ n.inj.sig = 0 ∧ Tells 24 sevInfo 0 s.m.inj.seq s.m n
      ∧ Only ([.obj, .inj] ++ evParts) s.m n ∧ OnlyEntries [Ob.injState] s.m n))

/-- The start of a section goes on (R162, R165, R166, R170 to R172): a dead bus that is confirmed starts the backoff of
BS_SLOT × (fleet index mod BS_SLOTS) + a jitter of at most BS_JITTER ms; a backoff that ends with the bus dead requests
connection; a bus live for 5 ms makes the section join it, in DELAY; the enter-service delay ends in PRESYNC with the outputs starting at
the next carrier boundary; windows held for SYNC_HOLD request connection; a ramp
whose reference has reached its target leaves the section FORMING. -/
def Obligations.StartSequenceGoesOn : Prop :=
  ∀ (s : State) (u : Nat), u < 4 → s.m.sec.length = 4 → s.m.grp.length = 8 →
  (∀ t, s.m.gf u = gfDeadWait → (s.m.secAt u).confirmPs = some t →
    Does (.deadConfirmExpiry u) s (fun n => n.gf u = gfBackoff
      ∧ ∃ j, j ≤ s.m.get (Ob.bsJitter u) ∧ n.get (Ob.backoffMs u)
            = (s.m.get (Ob.bsSlot u) * ((s.m.secAt u).fleet % max 1 (s.m.get (Ob.bsSlots u))) + j) % 65536
          ∧ (n.secAt u).backoffPs
            = some (n.now + msPs (s.m.get (Ob.bsSlot u) * ((s.m.secAt u).fleet % max 1 (s.m.get (Ob.bsSlots u))) + j))))
  ∧ (s.m.gf u = gfBackoff → s.m.busDead u = true →
    Does (.backoffExpiry u) s (fun n => n.gf u = gfClosingDead ∧ (n.secAt u).ask = true
      ∧ Only ([.clk, .sec, .obj, .saved] ++ evParts) s.m n ∧ OnlyEntries [Ob.gfState u] s.m n))
  ∧ (∀ t, s.m.gf u = gfDeadWait ∨ s.m.gf u = gfBackoff → (s.m.secAt u).livePs = some t →
    Does (.busLive u) s (fun n => n.gf u = gfDelay ∧ (n.secAt u).joining = true ∧ (n.secAt u).ask = false ∧ n.get (Ob.bsOutcome u) = 2
      ∧ 66 ∈ n.seenEv ∧ n.clk.upPs = max s.m.clk.upPs (t + msPs 5)
      ∧ Only ([.clk, .sec, .obj, .saved] ++ evParts) s.m n ∧ OnlyEntries [Ob.gfState u, Ob.bsOutcome u] s.m n))
  ∧ (∀ t, s.m.gf u = gfClosingDead → (s.m.secAt u).livePs = some t → s.m.sdcSt ≠ sdcClosed →
    Does (.busLive u) s (fun n => n.gf u = gfDelay ∧ (n.secAt u).joining = true ∧ (n.secAt u).ask = false ∧ n.get (Ob.bsOutcome u) = 3))
  ∧ (∀ t, s.m.gf u = gfDelay → (s.m.secAt u).delayPs = some t → s.m.gridNormal u = true →
    Does (.enterServiceDelayEnd u) s (fun n => n.gf u = gfPresync ∧ (n.grpAt u).starting = true ∧ (n.secAt u).delayPs = none))
  ∧ (∀ t, s.m.gf u = gfPresync → (s.m.secAt u).holdPs = some t →
    Does (.syncHoldMet u) s (fun n => n.gf u = gfClosingLive ∧ (n.secAt u).ask = true ∧ bit (n.get (Ob.syncFlags u)) 4 = true
      ∧ Only ([.clk, .sec, .obj, .saved] ++ evParts) s.m n ∧ OnlyEntries [Ob.gfState u, Ob.syncFlags u] s.m n))
  ∧ (s.m.gf u = gfRamp → (s.m.ctxAt (24 * u + 2)).r = s.m.eng.signal u 0x19 →
    Does (.rampComplete u) s (fun n => n.gf u = gfForming ∧ n.get (Ob.bsOutcome u) = (if (s.m.secAt u).fromDead then 1 else 2)
      ∧ (n.secAt u).start = none ∧ (∀ q, (s.m.secAt u).start = some q → 65 ∈ n.seenEv)
      ∧ Only ([.sec, .obj, .saved] ++ evParts) s.m n ∧ OnlyEntries [Ob.gfState u, Ob.bsOutcome u] s.m n))

/-- A sequence that fails, and a stop (R162, R163, R170): a closing that times out and a synchronisation that times out end at
REST with EV067, the start over, the request withdrawn and PWM off; a ramp that times out begins a stop; the power of a stop that
has fallen withdraws the request; a stop with both relays open takes PWM off at the next carrier boundary and ends at REST, or
in DELAY after a grid event. -/
def Obligations.FailedSequencesAndStopsEnd : Prop :=
  ∀ (s : State) (u : Nat), u < 4 → s.m.sec.length = 4 → s.m.grp.length = 8 →
  (s.m.gf u = gfClosingDead ∨ s.m.gf u = gfClosingLive →
    Does (.closeTimeout u) s (fun n => n.gf u = gfRest ∧ (n.secAt u).ask = false ∧ (n.secAt u).start = none ∧ (n.grpAt u).on = false
      ∧ 67 ∈ n.seenEv ∧ Only (.clk :: .sec :: .saved :: ([.obj, .grp, .eng] ++ evParts)) s.m n
      ∧ OnlyEntries [Ob.gfState u, Ob.rtState u, Ob.outState u] s.m n))
  ∧ (s.m.gf u = gfPresync →
    Does (.syncTimeout u) s (fun n => n.gf u = gfRest ∧ (n.secAt u).ask = false ∧ (n.secAt u).start = none ∧ (n.grpAt u).on = false
      ∧ 67 ∈ n.seenEv ∧ Only (.clk :: .sec :: .saved :: ([.obj, .grp, .eng] ++ evParts)) s.m n
      ∧ OnlyEntries [Ob.gfState u, Ob.rtState u, Ob.outState u] s.m n))
  ∧ (s.m.gf u = gfRamp →
    Does (.rampTimeout u) s (fun n => n.gf u = gfStopping ∧ (n.secAt u).noRamps = false ∧ 67 ∈ n.seenEv
      ∧ Only (.clk :: .sec :: .saved :: .obj :: evParts) s.m n ∧ OnlyEntries [Ob.gfState u, Ob.rtState u, Ob.islState u] s.m n))
  ∧ (∀ t, s.m.gf u = gfStopping → (s.m.secAt u).stopEndPs = some t →
    Does (.stopPowerLow u) s (fun n => n.gf u = gfStopping ∧ (n.secAt u).ask = false ∧ (n.secAt u).stopEndPs = none
      ∧ n.clk.upPs = max s.m.clk.upPs (s.m.stopLowPs u t) ∧ Only [.clk, .sec, .saved] s.m n))
  ∧ (s.m.gf u = gfStopping → (s.m.secAt u).stopEndPs = none → s.m.bothOpen = true →
    Does (.stopComplete u) s (fun n =>
      ((s.m.grpAt u).on = true → n.gf u = gfStopping ∧ (n.grpAt u).stopping = true ∧ Only [.grp, .saved] s.m n)
      ∧ ((s.m.grpAt u).on = false → (s.m.secAt u).toDelay = false → n.gf u = gfRest ∧ (n.secAt u).start = none ∧ (n.secAt u).ask = false)
      ∧ ((s.m.grpAt u).on = false → (s.m.secAt u).toDelay = true → n.gf u = gfDelay)))

/-- Impedance identification and islanding (R181, R182, R185, R202, R203, R205): a slot of a section that takes part seeds its
register with (fleet index mod 2^ID_ORDER − 1) + 1, and its injection waits for the next boundary; one period of the sequence ends
the injection; a result of coherence below 0.8 leaves the impedance and sets ID_VALID 01h, a good one sets ID_VALID 00h with
COHERENCE and publishes the means of R_G and X_G; a passive check of a section that is joined, in normal ride-through and without a
latch, raises EV070 and latches when its window has been left for its time. -/
def Obligations.IdentificationAndIslanding : Prop :=
  ∀ (s : State) (u t : Nat) (bins : List IdBin), u < 4 → s.m.sec.length = 4 →
  (s.m.get (Ob.idEn u) = 1 ∨ (s.m.secAt u).idRun.isSome = true → s.m.get (Ob.idOrder u) ≠ 0 → s.m.slotSkipped u = false →
    Does (.idSlotStart u) s (fun n => (n.secAt u).idWait = true ∧ (n.secAt u).idOn = false ∧ (n.secAt u).idSlot = s.m.nextSlot u
      ∧ (n.secAt u).idReg = (s.m.secAt u).fleet % (2 ^ s.m.get (Ob.idOrder u) - 1) + 1 ∧ Only [.clk, .sec, .saved] s.m n))
  ∧ ((s.m.secAt u).idOn = true → s.m.idPeriod u ≤ (s.m.secAt u).idTicks →
    Does (.idInjectionEnd u) s (fun n => (n.secAt u).idOn = false ∧ (n.secAt u).idDone = true ∧ Only [.sec, .saved] s.m n))
  ∧ ((s.m.secAt u).idDone = true → meanCoherence (s.m.fitBins u bins) < 8 / 10 →
    Does (.idResult u bins) s (fun n => n.get (Ob.idValid u) = 1 ∧ n.get (Ob.coherence u) = f32Raw (meanCoherence (s.m.fitBins u bins))
      ∧ (n.secAt u).idRun = none ∧ (n.secAt u).idDone = false
      ∧ n.get (Ob.idRG u) = s.m.get (Ob.idRG u) ∧ n.get (Ob.idXG u) = s.m.get (Ob.idXG u) ∧ n.get (Ob.scr u) = s.m.get (Ob.scr u)
      ∧ ((s.m.secAt u).idRun.isSome = true → 69 ∈ n.seenEv)))
  ∧ ((s.m.secAt u).idDone = true → 8 / 10 ≤ meanCoherence (s.m.fitBins u bins) → s.m.get (Ob.idAvg u) ≤ 1 →
    Does (.idResult u bins) s (fun n => n.get (Ob.idValid u) = 0 ∧ n.get (Ob.coherence u) = f32Raw (meanCoherence (s.m.fitBins u bins))
      ∧ n.get (Ob.idTime u) = ((s.m.secAt u).idSlot % 18446744073709551616).toNat
      ∧ (n.secAt u).idRun = none ∧ (n.secAt u).idRes = [s.m.fitZ u (s.m.fitBins u bins)]
      ∧ n.get (Ob.idRG u) = f32Raw (meanR [(s.m.fitZ u (s.m.fitBins u bins)).1])))
  ∧ (s.m.joined u = true → (s.m.secAt u).isl = false → s.m.get (Ob.rtState u) = 0 → bit (s.m.get (Ob.islPassiveMask u)) 0 = true →
      s.m.getS (Ob.vPos u) < s.m.getS (Ob.islVLow u) → (s.m.secAt u).islWinPs = some t → t + msPs (s.m.get (Ob.islWinTime u)) ≤ s.m.now →
    Does (.islandingCheck u) s (fun n => (n.secAt u).isl = true ∧ (n.secAt u).islNow = true ∧ n.get (Ob.islState u) = 2
      ∧ n.get (Ob.islTime u) = s.m.t64 ∧ 70 ∈ n.seenEv))

/-- The states of a DC channel and its limits (R212, R213): entry conditions that have held start the channel with PWM at the
next carrier boundary; a PV channel of low power winds down for 10 s at the most to wait again; a battery channel out of its
window by 0.02 pu rests with 3502h and PWM off at the next boundary; a stop that has ended rests, or waits again after low
power; limits that nobody has written in time expire at the next boundary, with EV072 and LIMIT_FLAGS bit 6. -/
def Obligations.ChannelStatesAndLimits : Prop :=
  ∀ (s : State) (c : Nat), c < 4 → s.m.dc.length = 4 → s.m.grp.length = 8 →
  (∀ t, s.m.dcs c = dcWait → (s.m.dcAt c).entryPs = some t →
    Does (.dcEntryConditionsMet c) s (fun n => n.clk.upPs = max s.m.clk.upPs (t + s.m.entryTimePs c) ∧ n.dcs c = dcRunning ∧ (n.grpAt (4 + c)).starting = true ∧ (n.dcAt c).scan = false
      ∧ 71 ∈ n.seenEv))
  ∧ (∀ t, s.m.dcs c = dcRunning → s.m.get (Ob.dcMode c) = 1 → (s.m.dcAt c).pLowPs = some t →
    Does (.pvLowPower c) s (fun n => n.dcs c = dcStopping ∧ (n.dcAt c).toWait = true
      ∧ (n.dcAt c).stopPs = some (n.now + sPs 10) ∧ 71 ∈ n.seenEv
      ∧ n.clk.upPs = max s.m.clk.upPs (t + sPs 60) ∧ Only ([.clk, .dc, .obj, .eng, .saved] ++ evParts) s.m n ∧ OnlyEntries [Ob.dcState c] s.m n))
  ∧ (∀ t, s.m.dcs c = dcRunning → s.m.get (Ob.dcMode c) = 2 → (s.m.dcAt c).outPs = some t →
    Does (.batteryOutOfWindow c) s (fun n => n.dcs c = dcRest ∧ (n.grpAt (4 + c)).stopping = true ∧ (n.dcAt c).start = none
      ∧ 71 ∈ n.seenEv ∧ n.clk.upPs = max s.m.clk.upPs (t + msPs 10) ∧ Only ([.clk, .dc, .obj, .grp, .eng, .saved] ++ evParts) s.m n ∧ OnlyEntries [Ob.dcState c] s.m n))
  ∧ (s.m.dcs c = dcStopping →
    Does (.dcStopComplete c) s (fun n => n.dcs c = (if (s.m.dcAt c).toWait then dcWait else dcRest)
      ∧ (n.grpAt (4 + c)).stopping = (s.m.grpAt (4 + c)).on ∧ (n.dcAt c).toWait = false ∧ 71 ∈ n.seenEv
      ∧ Only ([.clk, .dc, .obj, .grp, .eng, .saved] ++ evParts) s.m n ∧ OnlyEntries [Ob.dcState c] s.m n))
  ∧ (∀ t, s.m.dcs c ≠ dcRest → (s.m.dcAt c).limitPs = some t →
    Does (.dcLimitsExpired c) s (fun n => (n.dcAt c).expDue = true ∧ (n.dcAt c).limitPs = none ∧ n.clk.upPs = max s.m.clk.upPs t
      ∧ Only [.clk, .dc, .saved] s.m n ∧ OnlyEntries [] s.m n))
  ∧ ((s.m.dcAt c).expDue = true → ((s.m.expireActs c).dcAt c).expired = true ∧ ((s.m.expireActs c).dcAt c).expPs = s.m.now
      ∧ bit ((s.m.expireActs c).get (Ob.limitFlags c)) 6 = true ∧ (s.m.expireActs c).dcs c = s.m.dcs c ∧ 72 ∈ (s.m.expireActs c).seenEv)

/-- Maximum power point tracking and the global scan (R215 to R217) of a PV channel that runs: a capped channel follows the
source voltage; perturb and observe within the power deadband moves V_MPP_REF by one STEP_MIN with the last sign; a scan that
is due starts at SCAN_V_HIGH, or waits under its conditions; a dwell that ends passes to the next voltage and keeps the better
power; the check keeps V_best with SCAN_RESULT 01h where the power has grown by SCAN_MIN_GAIN, and returns to V0 with 02h else,
with EV073. -/
def Obligations.TrackingAndScan : Prop :=
  ∀ (s : State) (c : Nat) (v p : Int), c < 4 → s.m.dc.length = 4 → s.m.dcs c = dcRunning → s.m.get (Ob.dcMode c) = 1 →
  ((s.m.dcAt c).scan = false → s.m.capped c = true → (s.m.dcAt c).partN ≠ 0 → p = meanOver (s.m.dcAt c).partP (s.m.dcAt c).partN →
    Does (.mpptStep c) s (fun n => n.getS (Ob.vMppRef c) = sat29 (s.m.eng.dcSignal c 1)
      ∧ n.getS (Ob.pSrc c) = sat29 (meanOver (s.m.dcAt c).perP (s.m.dcAt c).perN)
      ∧ bit (n.get (Ob.limitFlags c)) 7 = decide (s.m.getS (Ob.pvPLimit c) < p)
      ∧ Only [.clk, .obj, .dc, .saved] s.m n ∧ OnlyEntries [Ob.vMppRef c, Ob.pSrc c, Ob.limitFlags c] s.m n))
  ∧ (∀ vp, (s.m.dcAt c).scan = false → s.m.capped c = false → (s.m.dcAt c).waits = false → (s.m.dcAt c).vPrev = some vp →
      (s.m.dcAt c).partN ≠ 0 → v = meanOver (s.m.dcAt c).partV (s.m.dcAt c).partN → p = meanOver (s.m.dcAt c).partP (s.m.dcAt c).partN →
      p ≤ s.m.getS (Ob.pvPLimit c) → s.m.get (Ob.mpptMethod c) = 0 → absI (p - (s.m.dcAt c).pPrev) ≤ s.m.getS (Ob.pDeadband c) →
    Does (.mpptStep c) s (fun n =>
      n.getS (Ob.vMppRef c) = sat29 (s.m.mppClamp c (s.m.getS (Ob.vMppRef c) + (s.m.dcAt c).sign * s.m.getS (Ob.stepMin c)))
      ∧ n.getS (Ob.pSrc c) = sat29 (meanOver (s.m.dcAt c).perP (s.m.dcAt c).perN) ∧ (n.dcAt c).sign = (s.m.dcAt c).sign ∧ (n.dcAt c).vPrev = some v ∧ (n.dcAt c).pPrev = p
      ∧ Only [.clk, .obj, .dc, .saved] s.m n ∧ OnlyEntries [Ob.vMppRef c, Ob.pSrc c, Ob.limitFlags c] s.m n))
  ∧ (s.m.get (Ob.scanPeriod c) ≠ 0 → (s.m.dcAt c).scan = false →
    (s.m.scanBlocked c = false →
      Does (.scanDue c) s (fun n => (n.dcAt c).scan = true ∧ (n.dcAt c).point = 0 ∧ (n.dcAt c).v0 = (s.m.dcAt c).vRef
        ∧ (n.dcAt c).p0 = (s.m.dcAt c).pMean ∧ n.getS (Ob.vMppRef c) = sat29 (s.m.scanVolts c 0)
        ∧ Only [.clk, .obj, .dc, .saved] s.m n ∧ OnlyEntries [Ob.vMppRef c, Ob.scanTime c] s.m n))
    ∧ (s.m.scanBlocked c = true →
      Does (.scanDue c) s (fun n => (n.dcAt c).scan = false ∧ (n.dcAt c).waits = true
        ∧ Only [.clk, .dc, .saved] s.m n)))
  ∧ ((s.m.dcAt c).scan = true → s.m.scanBlocked c = false → (s.m.dcAt c).point + 1 < s.m.get (Ob.scanPoints c) →
      (s.m.dcAt c).partN ≠ 0 → p = meanOver (s.m.dcAt c).partP (s.m.dcAt c).partN →
    Does (.scanDwellEnd c) s (fun n => (n.dcAt c).point = (s.m.dcAt c).point + 1
      ∧ n.getS (Ob.vMppRef c) = sat29 (s.m.scanVolts c ((s.m.dcAt c).point + 1))
      ∧ ((s.m.dcAt c).pBest < p → (n.dcAt c).pBest = p ∧ (n.dcAt c).vBest = s.m.scanVolts c (s.m.dcAt c).point)
      ∧ (p ≤ (s.m.dcAt c).pBest → (n.dcAt c).pBest = (s.m.dcAt c).pBest ∧ (n.dcAt c).vBest = (s.m.dcAt c).vBest)
      ∧ Only [.clk, .obj, .dc, .saved] s.m n ∧ OnlyEntries [Ob.vMppRef c] s.m n))
  ∧ ((s.m.dcAt c).scan = true → s.m.scanBlocked c = false → s.m.get (Ob.scanPoints c) ≤ (s.m.dcAt c).point →
      (s.m.dcAt c).perN ≠ 0 → p = meanOver (s.m.dcAt c).perP (s.m.dcAt c).perN →
    Does (.scanCheckEnd c) s (fun n => (n.dcAt c).scan = false ∧ 73 ∈ n.seenEv ∧ (n.dcAt c).big = true
      ∧ (pu (s.m.dcAt c).p0 * (1 + s.m.getF (Ob.scanMinGain c) / 100) ≤ pu p →
          n.get (Ob.scanResult c) = 1 ∧ n.getS (Ob.vMppRef c) = sat29 (s.m.dcAt c).vBest)
      ∧ (pu p < pu (s.m.dcAt c).p0 * (1 + s.m.getF (Ob.scanMinGain c) / 100) →
          n.get (Ob.scanResult c) = 2 ∧ n.getS (Ob.vMppRef c) = sat29 (s.m.dcAt c).v0)
      ∧ Only ([.clk, .obj, .dc, .saved] ++ evParts) s.m n ∧ OnlyEntries [Ob.vMppRef c, Ob.pSrc c, Ob.scanResult c] s.m n))

/-- Fault ride-through (R227, R228, R233, R238, R240 to R242): the curve check shows the boundary, and notes a stop where the mean of
the lowest phase lies below it; a frequency stage that has lasted its time notes one; the stops noted act together at the boundary:
the section stops to DELAY with every cause shown and EV076; RECOV_TIME inside the shrunk window starts the recovery, whose
completion is normal operation; a loss of synchronism that is not one too many blanks the section with EV078; LOS_BLANK elapsed
leaves the resynchronisation for the boundary, at the grid's phase; the current limit that releases starts the recovery ramp. -/
def Obligations.RideThroughGoesOn : Prop :=
  ∀ (s : State) (u stage t : Nat), u < 4 → s.m.sec.length = 4 → s.m.eng.vsm.length = 4 →
  (s.m.detects u = true → s.m.rt u = rtLvrt → (s.m.secAt u).mags ≠ [] →
      s.m.curveNow u false ≤ meanLsb ((s.m.secAt u).mags.map (·.2.1)) → meanLsb ((s.m.secAt u).mags.map (·.2.2)) ≤ s.m.curveNow u true →
    Does (.rtCurveCheck u) s (fun n => n.getS (Ob.boundary u) = q29OfLsb (s.m.curveNow u false)
      ∧ Only [.obj, .saved] s.m n ∧ OnlyEntries [Ob.boundary u] s.m n))
  ∧ (s.m.detects u = true → s.m.rt u = rtLvrt → (s.m.grpAt u).latched = false → (s.m.secAt u).mags ≠ [] →
      meanLsb ((s.m.secAt u).mags.map (·.2.1)) < s.m.curveNow u false →
    Does (.rtCurveCheck u) s (fun n => (n.secAt u).stops = (s.m.secAt u).stops ++ [(2, 0x3701)]
      ∧ n.getS (Ob.boundary u) = q29OfLsb (s.m.curveNow u false) ∧ Only [.obj, .sec, .saved] s.m n ∧ OnlyEntries [Ob.boundary u] s.m n))
  ∧ (stage < 4 → s.m.detects u = true → (s.m.grpAt u).latched = false → (s.m.secAt u).stagePs.getD stage none = some t →
    Does (.freqTripStage u stage) s (fun n => (n.secAt u).stops = (s.m.secAt u).stops ++ [(4, 0x3703)]
      ∧ n.clk.upPs = max s.m.clk.upPs (t + msPs (s.m.stageMs u stage)) ∧ Only [.clk, .sec, .saved] s.m n ∧ OnlyEntries [] s.m n))
  ∧ (s.m.detects u = true → (s.m.grpAt u).latched = false → (∃ p ∈ (s.m.secAt u).stops, p.1 ≠ 6) →
      (s.m.rideActs u).gf u = gfStopping ∧ ((s.m.rideActs u).secAt u).noRamps = true ∧ ((s.m.rideActs u).secAt u).toDelay = true
      ∧ ((s.m.rideActs u).secAt u).stops = [] ∧ (s.m.rideActs u).get (Ob.rtState u) = 0 ∧ 76 ∈ (s.m.rideActs u).seenEv
      ∧ (s.m.rideActs u).get (Ob.rtCause u) = (s.m.secAt u).stops.foldl (fun a p => setBit a p.1 true)
          (if s.m.rt u = rtNormal then 0 else s.m.get (Ob.rtCause u)))
  ∧ (s.m.detects u = true → s.m.rt u = rtLvrt ∨ s.m.rt u = rtHvrt ∨ s.m.rt u = rtCeased → (s.m.secAt u).recovPs = some t →
    Does (.recovTimeMet u) s (fun n => n.rt u = rtRecovery ∧ (n.vsmAt u).idRec = (s.m.vsmAt u).refs.getD 0 0
      ∧ n.clk.upPs = max s.m.clk.upPs (t + msPs (s.m.get (Ob.recovTime u)))
      ∧ Only ([.clk, .obj, .eng, .saved] ++ evParts) s.m n ∧ OnlyEntries [Ob.rtState u] s.m n))
  ∧ (s.m.rt u = rtRecovery → s.m.rideOver u = true →
    Does (.rtRecoveryComplete u) s (fun n => n.rt u = rtNormal ∧ (n.secAt u).tauPs = none
      ∧ Only ([.obj, .sec, .saved] ++ evParts) s.m n ∧ OnlyEntries [Ob.rtState u] s.m n))
  ∧ (s.m.joined u = true → s.m.rt u ≠ rtLos → s.m.losAt u = some t → (s.m.reach t).losEvents u + 1 ≤ s.m.get (Ob.losN u) →
    Does (.lossOfSync u) s (fun n => n.rt u = rtLos ∧ (n.secAt u).losTimes.head? = some n.now ∧ (n.secAt u).jump = none
      ∧ (n.secAt u).blankPs = some n.now ∧ n.clk.upPs = max s.m.clk.upPs t ∧ 78 ∈ n.seenEv
      ∧ Only ([.clk, .obj, .sec, .saved] ++ evParts) s.m n ∧ OnlyEntries [Ob.rtState u, Ob.losInWindow u] s.m n))
  ∧ (s.m.rt u = rtLos → (s.m.secAt u).blankPs = some t →
    Does (.losBlankEnd u) s (fun n => (n.secAt u).blankEnds = true ∧ (n.secAt u).blankPs = none
      ∧ n.clk.upPs = max s.m.clk.upPs (t + msPs (s.m.get (Ob.losBlank u))) ∧ Only [.clk, .sec, .saved] s.m n ∧ OnlyEntries [] s.m n))
  ∧ ((s.m.secAt u).follow = false → ((s.m.resync u).vsmAt u).theta = s.m.get (Ob.gridPhase u) ∧ ((s.m.resync u).vsmAt u).dw = s.m.gridDw u)
  ∧ ((s.m.vsmAt u).limited = true → (s.m.secAt u).follow = false → (s.m.vsmAt u).calmPs = some t →
    Does (.currentLimitRelease u) s (fun n => (n.vsmAt u).limited = false ∧ (n.secAt u).recovRamp = true
      ∧ n.clk.upPs = max s.m.clk.upPs (t + msPs (s.m.get (Ob.releaseTime u))) ∧ Only [.clk, .eng, .sec, .saved] s.m n))

/-- A trip acts at once (R264, R270 to R272, R284): an FLT input whose filter completes and a request on a lane's trip lines trip
every group in use that they name, latched and with PWM off, and leave every other group; the fault waits for the boundary with its
instant, its code and its source. Serac's second interlock trips the pair's group with EV048, and the active lane's withdrawal
falls due at the boundary. SAFE_DT after the trip the group stands in its safe pattern. -/
def Obligations.TripSourcesActAtOnce : Prop :=
  ∀ (s : State) (dt f l gs pair g : Nat), f < 16 → l < 2 → g < 8 → s.m.grp.length = 8 →
  (∀ inputs : List FltInput,
    Does (.fltTrip dt inputs) s (fun n => n.now = s.m.now + dt * 1000
      ∧ ((inputs.getD f { fell := none }).fell.isSome = true → s.m.fltDone f (inputs.getD f { fell := none }) = true → bit s.m.prot.fltOn f = false →
          bit n.prot.fltOn f = true ∧ bit (n.get Ob.fltLevel) f = true
          ∧ (∀ h, h ∈ groupsOf (s.m.get (Ob.fltTarget f)) → s.m.inUse h = true → (n.grpAt h).latched = true ∧ (n.grpAt h).on = false)
          ∧ ((∃ h ∈ groupsOf (s.m.get (Ob.fltTarget f)), s.m.inUse h = true) →
              ∃ a ∈ n.prot.pend, a.fault = 0x4402 ∧ a.cls = 1 ∧ a.sources = 2 ^ f ∧ a.atPs = s.m.now + dt * 1000))
      ∧ ((inputs.getD f { fell := none }).fell = none → bit n.prot.fltOn f = false ∧ bit (n.get Ob.fltLevel) f = false)
      ∧ (∀ h, h < 8 → (∀ k, k < 16 → (inputs.getD k { fell := none }).fell.isSome = true → s.m.fltDone k (inputs.getD k { fell := none }) = true →
          bit s.m.prot.fltOn k = false → h ∉ groupsOf (s.m.get (Ob.fltTarget k))) → n.grpAt h = s.m.grpAt h)
      ∧ Only [.clk, .obj, .grp, .prot] s.m n))
  ∧ (s.m.prot.laneReq.getD l 0 = 0 →
    Does (.laneTripRequest dt l gs) s (fun n => n.now = s.m.now + dt * 1000
      ∧ (∀ h, h ∈ groupsOf gs → s.m.inUse h = true → (n.grpAt h).latched = true ∧ (n.grpAt h).on = false)
      ∧ (∀ h, h < 8 → h ∉ groupsOf gs → n.grpAt h = s.m.grpAt h)
      ∧ ((∃ h ∈ groupsOf gs, s.m.inUse h = true) →
          ∃ a, n.prot.pend = s.m.prot.pend ++ [a] ∧ a.cls = 1 ∧ a.sources = 2 ^ (16 + l) ∧ a.atPs = s.m.now + dt * 1000)
      ∧ Only [.clk, .obj, .grp, .prot] s.m n))
  ∧ (pair < 32 → s.m.groupOfPair pair = some g → s.m.inUse g = true →
    ∀ b, Does (.interlockViolation dt pair b) s (fun n => n.now = s.m.now + dt * 1000
      ∧ (n.grpAt g).latched = true ∧ (n.grpAt g).on = false ∧ 48 ∈ n.seenEv
      ∧ (∃ a, n.prot.pend = s.m.prot.pend ++ [a] ∧ a.fault = 0x4406 ∧ a.cls = 1 ∧ a.trips = [g])
      ∧ n.arb.due = s.m.arb.due ++ [(s.m.lane, 0x4001)]
      ∧ Only ([.clk, .obj, .grp, .prot, .arb] ++ evParts) s.m n))
  ∧ ((s.m.grpAt g).pins = .tripping →
    Does (.safeDtExpiry g) s (fun n => (n.grpAt g).pins = .safe ∧ (n.grpAt g).latched = (s.m.grpAt g).latched
      ∧ (∀ h, h ≠ g → n.grpAt h = s.m.grpAt h) ∧ n.clk.upPs = max s.m.clk.upPs ((s.m.grpAt g).offPs + s.m.get (Ob.safeDt g))
      ∧ Only [.clk, .grp] s.m n))

/-- Leg maps and dead-time trimming (R265, R278, R279): a map that agrees stands, one that disagrees takes PWM off at the next
carrier boundary with EV053; a trim block of TRIM_AVG natural transitions shows the mean gap before the incoming side and the mean
turn-off delay of the outgoing side, and moves the effective dead time by the gap less the target, at most 1.25 ns, from the next
boundary on, and a pair whose trimming pauses only shows the means; 64 missing transitions return both dead times to their
programmed values with EV051; 64 good ones resume. -/
def Obligations.LegMapsAndTrims : Prop :=
  ∀ (s : State) (g p : Nat) (rep : LegMap) (b : Bool) (gap toff : Int) (es : List Transition), g < 8 → p < 32 → s.m.grp.length = 8 → s.m.pairs.length = 32 →
  gap = meanPs gapOf (s.m.naturals p b es) → toff = meanPs toffOf (s.m.naturals p b es) → (s.m.naturals p b es).length = s.m.get (Ob.trimAvg p) →
  ((s.m.grpAt g).map.isSome = true → s.m.inUse g = true → rep = s.m.ownMap g →
    Does (.legMapReport g rep) s (fun n => (n.grpAt g).mapBad = false ∧ (n.grpAt g).map = some rep ∧ (n.grpAt g).on = (s.m.grpAt g).on
      ∧ Only [.grp] s.m n))
  ∧ ((s.m.grpAt g).map.isSome = true → s.m.inUse g = true → rep ≠ s.m.ownMap g →
    Does (.legMapReport g rep) s (fun n => (n.grpAt g).mapBad = true ∧ (n.grpAt g).stopping = (s.m.grpAt g).on
      ∧ (n.grpAt g).starting = false ∧ Tells 53 sevFault 0x4006 g s.m n ∧ Only (.grp :: evParts) s.m n ∧ OnlyEntries [] s.m n))
  ∧ (b = false → s.m.get (Ob.trimEn p) = 1 → (s.m.pairAt p).paused = false → s.m.get (Ob.dtMin p) ≤ s.m.get (Ob.dtOnAEff p) →
      s.m.get (Ob.dtOnAEff p) ≤ s.m.get (Ob.dtOnA p) → gap = (s.m.get (Ob.trimTarget p) : Int) →
    Does (.trimBlockDone p b es) s (fun n => (n.pairAt p).nextA = some (s.m.get (Ob.dtOnAEff p))
      ∧ (n.pairAt p).boundA = false ∧ n.get (Ob.gapA p) = Raw.ofInt 32 gap ∧ n.get (Ob.toffB p) = Raw.ofInt 32 toff
      ∧ Only [.obj, .pairs] s.m n ∧ OnlyEntries [Ob.gapA p, Ob.toffB p] s.m n))
  ∧ (b = true → s.m.get (Ob.trimEn p) = 1 → (s.m.pairAt p).paused = false → s.m.get (Ob.dtMin p) + 1250 ≤ s.m.get (Ob.dtOnBEff p) →
      s.m.get (Ob.dtOnBEff p) ≤ s.m.get (Ob.dtOnB p) → (s.m.get (Ob.trimTarget p) : Int) + 1250 ≤ gap →
    Does (.trimBlockDone p b es) s (fun n => (n.pairAt p).nextB = some (s.m.get (Ob.dtOnBEff p) - 1250)
      ∧ (n.pairAt p).boundB = false ∧ Only [.obj, .pairs] s.m n ∧ OnlyEntries [Ob.gapB p, Ob.toffA p] s.m n))
  ∧ ((s.m.pairAt p).paused = true →
    Does (.trimBlockDone p b es) s (fun n => n.get (if b then Ob.gapB p else Ob.gapA p) = Raw.ofInt 32 gap
      ∧ n.get (if b then Ob.toffA p else Ob.toffB p) = Raw.ofInt 32 toff ∧ Only [.obj] s.m n))
  ∧ ((s.m.pairAt p).paused = false → s.m.lastMissing p es = true →
    Does (.comfbMissing p es) s (fun n => (n.pairAt p).paused = true ∧ (n.pairAt p).nextA = some (s.m.get (Ob.dtOnA p))
      ∧ (n.pairAt p).nextB = some (s.m.get (Ob.dtOnB p)) ∧ n.get (Ob.comfbState p) = 1 ∧ Tells 51 sevWarn 0x4004 p s.m n
      ∧ Only ([.obj, .pairs] ++ evParts) s.m n ∧ OnlyEntries [Ob.comfbState p] s.m n))
  ∧ ((s.m.pairAt p).paused = true → s.m.lastPresent p es = true →
    Does (.comfbRestored p es) s (fun n => (n.pairAt p).paused = false
      ∧ n.get (Ob.comfbState p) = (if s.m.get (Ob.trimEn p) = 1 then 0 else 2)
      ∧ Only [.obj, .pairs] s.m n ∧ OnlyEntries [Ob.comfbState p] s.m n))

/-- Protection (R284, R285, R297, R303): samples of a DC link above its level trip its units, with the instant of their tick, and
its warning raises EV062 once; when the recovery delay of a fault ends, or at a check of one that awaits its clear, the fault with
no active source recovers with EV055, FAULT_STATE 03h for a unit of the power path and 00h else, and the local safety source stages
the clear of its group; one with an active source awaits its clear with FAULT_STATE 02h, and is permanent at its retry timeout: a
record more, EV056, FAULT_STATE 04h. A hold that lasts HOLD_MAX stops every held section with a record more. -/
def Obligations.FaultsRecoverOrBecomePermanent : Prop :=
  ∀ (s : State) (c cls unit : Nat), c < 24 → s.m.prot.links.length = 24 → s.m.grp.length = 8 → s.m.sec.length = 4 → s.m.dc.length = 4 →
  ((s.m.prot.links.getD c {}).overOn = false → s.m.get (Ob.dclTime c) ≤ (s.m.prot.links.getD c {}).overTicks →
    Does (.dclinkTrip c true) s (fun n => (n.prot.links.getD c {}).overOn = true
      ∧ (∀ g, g ∈ groupsOf (s.m.owners c) → s.m.inUse g = true → (n.grpAt g).latched = true ∧ (n.grpAt g).on = false)
      ∧ (∀ g, g < 8 → g ∉ groupsOf (s.m.owners c) → n.grpAt g = s.m.grpAt g)
      ∧ ((∃ g ∈ groupsOf (s.m.owners c), s.m.inUse g = true) →
          ∃ a, n.prot.pend = s.m.prot.pend ++ [a] ∧ a.fault = 0x4404 ∧ a.cls = 1 ∧ a.channels = 2 ^ c ∧ a.atPs = s.m.clk.t0Ps)
      ∧ Only [.obj, .grp, .prot] s.m n))
  ∧ ((s.m.prot.links.getD c {}).armed = true → s.m.get (Ob.dclTime c) ≤ (s.m.prot.links.getD c {}).warn →
    Does (.dclinkWarning c) s (fun n => (n.prot.links.getD c {}).armed = false ∧ Tells 62 sevWarn 0x4404 c s.m n
      ∧ Only (.prot :: evParts) s.m n))
  ∧ (∀ r, (s.m.inst cls unit).recov = some r → r.awaiting = false → s.m.sourceActive cls unit r = false →
    Does (.recoveryDelayEnd cls unit) s (fun n => (n.inst cls unit).recov = none
      ∧ n.get (Ob.unitFaultState (statusIx cls unit)) = (if cls = 1 then 3 else 0) ∧ 55 ∈ n.seenEv ∧ r.endPs ≤ n.now
      ∧ (cls = 1 → r.trips = [unit] → (∀ i, i ∈ s.m.prot.insts → i.recov = none ∨ (i.cls = cls ∧ i.unit = unit)) →
          ∃ x l, n.staged = s.m.staged ++ x :: l ∧ x.snd = .localSafety ∧ x.work = .unitAct (Ob.pwmTripClear / 256) [2 ^ unit])
      ∧ Only ([.clk, .obj, .prot, .staged] ++ evParts) s.m n ∧ OnlyEntries [Ob.unitFaultState (statusIx cls unit)] s.m n))
  ∧ (∀ r, (s.m.inst cls unit).recov = some r → r.awaiting = false → s.m.sourceActive cls unit r = true →
    Does (.recoveryDelayEnd cls unit) s (fun n => (n.inst cls unit).recov = some { r with awaiting := true }
      ∧ n.get (Ob.unitFaultState (statusIx cls unit)) = 2
      ∧ Only [.clk, .obj, .prot] s.m n ∧ OnlyEntries [Ob.unitFaultState (statusIx cls unit)] s.m n))
  ∧ (∀ r, (s.m.inst cls unit).recov = some r → r.awaiting = true →
    (s.m.sourceActive cls unit r = false →
      (r.checkPs < r.retryPs → Does (.clearRecheck cls unit) s (fun n => (n.inst cls unit).recov = none ∧ r.checkPs ≤ n.now
        ∧ n.get (Ob.unitFaultState (statusIx cls unit)) = (if cls = 1 then 3 else 0) ∧ 55 ∈ n.seenEv
        ∧ Only ([.clk, .obj, .prot, .staged] ++ evParts) s.m n ∧ OnlyEntries [Ob.unitFaultState (statusIx cls unit)] s.m n))
      ∧ Does (.retryTimeout cls unit) s (fun n => (n.inst cls unit).recov = none
        ∧ n.get (Ob.unitFaultState (statusIx cls unit)) = (if cls = 1 then 3 else 0) ∧ 55 ∈ n.seenEv))
    ∧ (s.m.sourceActive cls unit r = true →
      (r.checkPs < r.retryPs → Does (.clearRecheck cls unit) s (fun n =>
        (n.inst cls unit).recov = some { r with checkPs := r.checkPs + msPs 100 } ∧ n.now = max s.m.now r.checkPs
        ∧ Only [.clk, .prot] s.m n))
      ∧ (cls = 1 → unit < 8 →
        Does (.retryTimeout cls unit) s (fun n => (n.inst cls unit).recov = none ∧ n.get (Ob.unitFaultState unit) = 4
        ∧ n.get Ob.recordCount = (s.m.get Ob.recordCount + 1) % 4294967296 ∧ 56 ∈ n.seenEv ∧ 57 ∈ n.seenEv ∧ r.retryPs ≤ n.now))))
  ∧ (s.m.get Ob.holdState = 1 → s.m.prot.maxMet = false → s.m.get Ob.holdMax ≠ 0 →
    Does .holdMaxReached s (fun n => n.prot.maxMet = true ∧ n.get Ob.holdState = 1
      ∧ (∀ u, u < 4 → s.m.inUse u = true → s.m.gf u = gfHold → n.gf u = gfStopping ∧ (n.secAt u).noRamps = true)
      ∧ n.get Ob.recordCount = (s.m.get Ob.recordCount + 1) % 4294967296))

/-- Data integrity (R312 to R318): a scrub pass, 60 s or 10 min after the last, adds the words it corrected, and one of the run region counts; an uncorrectable word or a parity error
counts, keeps its address, raises EV011 and makes its lane give up control or unhealthy, but a word of the Moraine region or of the
communications core costs no lane its control; a configuration record bad in both copies loses its entries with EV009; a good Floe
frame in sequence ends a row of lost ticks, a bad one counts; three ticks without a state frame make the standby lane unhealthy at
the next boundary; the third failed MAC makes Cirque unavailable with EV104; a TLS record that fails closes its session, EV110. -/
def Obligations.IntegrityFailuresActAndCount : Prop :=
  ∀ (s : State) (l a corrected k seq : Nat) (entries : List (Nat × Nat)), l < 2 → s.m.lanes.length = 2 → seq < 65535 →
  (Does (.scrubPass l false corrected) s (fun n => n.get (Ob.scrubPasses l) = (s.m.get (Ob.scrubPasses l) + 1) % 4294967296
      ∧ n.get (Ob.dramCorrected l) = (s.m.get (Ob.dramCorrected l) + corrected) % 4294967296
      ∧ (s.m.laneAt l).scrubPs.getD 0 0 + sPs 60 ≤ n.now
      ∧ Only ([.clk, .obj, .lanes] ++ evParts) s.m n ∧ OnlyEntries [Ob.scrubPasses l, Ob.dramCorrected l, Ob.dramCorrHour l] s.m n))
  ∧ (s.m.traceSt = 0 ∨ s.m.traceSt = 4 → Does (.scrubPass l true corrected) s (fun n =>
      n.get (Ob.dramCorrected l) = (s.m.get (Ob.dramCorrected l) + corrected) % 4294967296
      ∧ (s.m.laneAt l).scrubPs.getD 1 0 + sPs 600 ≤ n.now
      ∧ Only ([.clk, .obj, .lanes] ++ evParts) s.m n ∧ OnlyEntries [Ob.dramCorrected l, Ob.dramCorrHour l] s.m n))
  ∧ (s.m.traceSt ≠ 0 → s.m.traceSt ≠ 4 → Does (.scrubPass l true corrected) s (fun n => n = s.m))
  ∧ (∀ moraine, Does (.memoryUncorrectable l moraine a) s (fun n => 11 ∈ n.seenEv
      ∧ n.get (Ob.dramUncorrected l) = (s.m.get (Ob.dramUncorrected l) + 1) % 4294967296 ∧ n.get (Ob.lastErrorAddr l) = a % 4294967296
      ∧ (moraine = true → Only ([.obj, .trace] ++ evParts) s.m n)
      ∧ (moraine = false → l = s.m.lane → s.m.arb.cause = none → s.m.arb.grant.isSome = true →
          n.arb.cause = some 0x4602 ∧ n.arb.grant = none)
      ∧ (moraine = false → l ≠ s.m.lane → n.healthOf s.m.standby = 2 ∨ n.healthOf s.m.standby = 3)))
  ∧ Does (.flashUncorrectable l 3 a true entries) s (fun n => 11 ∈ n.seenEv ∧ 9 ∈ n.seenEv
      ∧ n.get (Ob.flashUncorrected l) = (s.m.get (Ob.flashUncorrected l) + 1) % 4294967296
      ∧ (∀ e, e ∈ entries → e.1 * 256 + e.2 ∈ n.lost) ∧ (∀ e, e ∈ s.m.lost → e ∈ n.lost)
      ∧ Only ([.obj, .lost] ++ evParts) s.m n ∧ OnlyEntries [Ob.flashUncorrected l, Ob.lastErrorAddr l] s.m n)
  ∧ Does (.flashUncorrectable l 3 a false entries) s (fun n => 11 ∈ n.seenEv
      ∧ Only (.obj :: evParts) s.m n ∧ OnlyEntries [Ob.flashUncorrected l, Ob.lastErrorAddr l] s.m n)
  ∧ Does (.parityError l 5 a) s (fun n => 11 ∈ n.seenEv ∧ n.get (Ob.parityErrors l) = (s.m.get (Ob.parityErrors l) + 1) % 4294967296
      ∧ (l = s.m.lane → s.m.arb.cause = none → s.m.arb.grant.isSome = true → n.arb.cause = some 0x4605 ∧ n.arb.grant = none)
      ∧ (l ≠ s.m.lane → n.healthOf s.m.standby = 2 ∨ n.healthOf s.m.standby = 3))
  ∧ Does (.parityError l 7 a) s (fun n => 11 ∈ n.seenEv ∧ n.get Ob.commCoreRestarts = (s.m.get Ob.commCoreRestarts + 1) % 4294967296
      ∧ n.arb = s.m.arb ∧ (l = s.m.lane → n.sess = []))
  ∧ ((s.m.laneAt s.m.standby).floeSeq = some seq → s.m.arb.adopt = false →
    Does (.floeFrame { lane := s.m.standby, seq := seq + 1, crcOk := true, kind := .state, mismatch := none }) s (fun n =>
      (n.laneAt s.m.standby).missing = 0 ∧ (n.laneAt s.m.standby).floeSeq = some (seq + 1) ∧ Only [.lanes] s.m n))
  ∧ (∀ kind x,
    Does (.floeFrame { lane := l, seq := seq, crcOk := false, kind := kind, mismatch := x }) s (fun n =>
      n.get (Ob.floeCrcFail l) = (s.m.get (Ob.floeCrcFail l) + 1) % 4294967296 ∧ Only [.obj, .lanes, .arb] s.m n))
  ∧ ((s.m.laneAt s.m.standby).missing = 0 → s.m.healthOf s.m.standby ≠ 2 → s.m.arb.floeEv = 0 →
      (s.m.laneAt s.m.standby).goodTick + 3 ≤ s.m.clk.tick →
    Does .floeStateLoss s (fun n => (n.laneAt s.m.standby).missing = 3
      ∧ n.get (Ob.floeLostTicks s.m.standby) = (s.m.get (Ob.floeLostTicks s.m.standby) + 3) % 4294967296
      ∧ n.arb.due = s.m.arb.due ++ [(s.m.standby, 0x4606)] ∧ Only [.obj, .lanes, .arb] s.m n))
  ∧ ((s.m.laneAt l).macFails = 2 →
    Does (.cirqueMacFail l) s (fun n => (n.laneAt l).macFails = 3 ∧ Tells 104 sevFault 0x6401 l s.m n
      ∧ n.get (Ob.cirqueMacFail l) = (s.m.get (Ob.cirqueMacFail l) + 1) % 4294967296
      ∧ (l = s.m.lane → n.get Ob.cirqueState = 1) ∧ Only ([.obj, .lanes] ++ evParts) s.m n))
  ∧ ((s.m.sessAt k).isSome = true →
    Does (.tlsRecordFail k) s (fun n => n.sessAt k = none ∧ 110 ∈ n.seenEv
      ∧ n.get Ob.tlsAuthFail = (s.m.get Ob.tlsAuthFail + 1) % 4294967296))

/-- The claim and the takeover (R321, R323, R332, R333, R335, R336): Serac grants the first claim of a lane that has passed its
steps, and the module is READY with EV000; a lane that has not claimed in time before any claim is unhealthy and EVT_N is low;
the second lane turns standby; a withdrawal passes the claim to a healthy standby lane, and at the takeover instant it is the
active lane, with cause and latency shown and the network sessions gone; a split claim counts with EV004; a broken claim pair
withdraws with 4809h; no grant for its time is a safe stop with K2 open. -/
def Obligations.LanesClaimAndTakeOver : Prop :=
  ∀ (s : State) (l claim cause : Nat) (b : Bool) (edges : List Nat), l < 2 → s.m.lanes.length = 2 → s.m.lane ≤ 1 →
  (s.m.mayClaim 0 = true → s.m.arb.armed = false → s.m.arb.grant = none → s.m.arb.incoming = none → s.m.sdc.resetLow = false →
    Does (.laneClaim true b) s (fun n => n.arb.grant = some 0 ∧ n.arb.armed = true ∧ n.link.ready = true
      ∧ n.get Ob.activeLane = 0 ∧ 0 ∈ n.seenEv))
  ∧ (s.m.mayClaim 1 = true → s.m.arb.armed = false → s.m.arb.grant = none → s.m.arb.incoming = none → s.m.sdc.resetLow = false →
    Does (.laneClaim false true) s (fun n => n.arb.grant = some 1 ∧ n.arb.armed = true ∧ n.link.ready = true
      ∧ n.get Ob.activeLane = 1 ∧ 0 ∈ n.seenEv))
  ∧ (s.m.power.released.isSome = true → s.m.arb.grant = none → s.m.arb.armed = false →
    Does (.claimTimeout l) s (fun n => (n.laneAt l).withdrawn = true ∧ n.healthOf l = 2 ∧ n.link.evtLow = true
      ∧ n.get (Ob.unhealthyCause l) = (if (s.m.failOf l).1 = 0 then 0x1009 else (s.m.failOf l).1)
      ∧ n.now = max s.m.now (s.m.power.released.getD 0 + sPs 2) ∧ Only [.clk, .lanes, .obj, .link] s.m n ∧ OnlyEntries [Ob.health l, Ob.unhealthyCause l] s.m n))
  ∧ (s.m.arb.armed = true → s.m.get (Ob.roleNow s.m.standby) = 2 → s.m.healthOf s.m.standby = 0 → s.m.arb.cause = none →
      (s.m.laneAt s.m.standby).floe = true → (s.m.laneAt s.m.standby).tested = true →
    Does .standbyReady s (fun n => n.get (Ob.roleNow s.m.standby) = 1 ∧ n.get Ob.redundant = 1
      ∧ n.gens = [s.m.gens.getD s.m.lane 0, s.m.gens.getD s.m.lane 0]
      ∧ Only [.obj, .sto, .lanes, .arb] s.m n ∧ OnlyEntries [Ob.roleNow s.m.standby, Ob.redundant] s.m n))
  ∧ (s.m.arb.cause = some cause → s.m.arb.reported = false → s.m.get (Ob.roleNow s.m.standby) = 1 → s.m.healthOf s.m.standby = 0 →
    Does .claimWithdrawn s (fun n => n.arb.incoming = some s.m.standby ∧ n.arb.grant = some s.m.standby
      ∧ n.healthOf s.m.lane = 2 ∧ n.get (Ob.unhealthyCause s.m.lane) = cause ∧ n.arb.reported = true
      ∧ Only [.obj, .lanes, .arb] s.m n))
  ∧ (s.m.arb.cause = some cause → s.m.arb.incoming = some s.m.standby →
    Does (.takeoverInstant claim edges) s (fun n => n.get Ob.activeLane = s.m.standby ∧ n.get (Ob.roleNow s.m.standby) = 0
      ∧ n.get (Ob.roleNow s.m.lane) = 1 ∧ n.get Ob.lastCause = cause
      ∧ n.get Ob.lastLatency = min (claim + (chooseInstant edges s.m.tickPs).1 / 1000) 4294967295
      ∧ n.arb.grant = some s.m.standby ∧ n.arb.incoming = none
      ∧ n.arb.commit = some (s.m.lane, cause, claim + (chooseInstant edges s.m.tickPs).1 / 1000, (chooseInstant edges s.m.tickPs).2)
      ∧ s.m.arb.twPs + claim * 1000 + (chooseInstant edges s.m.tickPs).1 ≤ n.now ∧ n.sess = []))
  ∧ (s.m.arb.grant.isSome = true → s.m.arb.armed = true →
    Does .splitClaim s (fun n => n.get Ob.splitClaims = (s.m.get Ob.splitClaims + 1) % 4294967296 ∧ 4 ∈ n.seenEv
      ∧ (n.healthOf s.m.standby = 2 ∨ n.healthOf s.m.standby = 3)))
  ∧ (s.m.arb.cause = none → s.m.arb.grant.isSome = true →
    Does (.claimPairBroken s.m.lane) s (fun n => n.arb.cause = some 0x4809 ∧ n.arb.grant = none ∧ n.arb.twPs = s.m.now ∧ Only [.arb] s.m n))
  ∧ (s.m.arb.incoming = some s.m.standby → s.m.healthOf s.m.standby ≠ 2 →
    Does (.claimPairBroken s.m.standby) s (fun n => n.arb.incoming = none ∧ n.arb.grant = none ∧ n.healthOf s.m.standby = 2
      ∧ n.get (Ob.unhealthyCause s.m.standby) = 0x4809 ∧ Only [.arb, .obj] s.m n))
  ∧ (s.m.arb.incoming = none → Does (.claimPairBroken s.m.standby) s (fun n => n = s.m))
  ∧ (s.m.arb.armed = true → s.m.arb.grant = none → s.m.prot.safeStop = false → s.m.grp.length = 8 →
    Does .noGrantTimeout s (fun n => n.prot.safeStop = true ∧ n.get Ob.moduleState = 4 ∧ n.get Ob.safeStopCause = 0x480B
      ∧ s.m.arb.noneAt + 300000000 ≤ n.now ∧ n.sdc.k2 = false ∧ 63 ∈ n.seenEv
      ∧ ∀ g, g < 8 → s.m.inUse g = true → (n.grpAt g).latched = true ∧ (n.grpAt g).on = false))

/-- The diagnosis of the lanes (R324, R330, R331, R337, R338, R340): a lockstep mismatch, an expired watchdog and a failed
known-answer test make the active lane give up control with 4801h, 4802h and 4807h, and a standby lane unhealthy; a failed
loopback acts at the boundary with 4806h; a mirror diagnosis ends with EV089 and the lane at fault; a carrier beyond 2.5 ns in
eight consecutive ticks makes the standby lane unhealthy; a full test starts in a healthy standby lane and ends with its result and EV090; redundancy is
restored with EV003. -/
def Obligations.LaneDiagnosisActs : Prop :=
  ∀ (s : State) (l failed : Nat), l < 2 → s.m.lanes.length = 2 → s.m.lane ≤ 1 →
  (s.m.lane = l → s.m.arb.cause = none → s.m.arb.grant.isSome = true →
    Does (.lockstepMismatch l) s (fun n => n.arb.cause = some 0x4801 ∧ n.arb.grant = none ∧ Only [.arb] s.m n)
    ∧ Does (.watchdogExpiry l) s (fun n => n.arb.cause = some 0x4802 ∧ n.arb.grant = none ∧ Only [.arb] s.m n)
    ∧ Does (.knownAnswerTestFail l) s (fun n => n.arb.cause = some 0x4807 ∧ n.arb.grant = none ∧ Only [.arb] s.m n))
  ∧ (s.m.lane ≠ l →
    Does (.lockstepMismatch l) s (fun n => n.healthOf l = 2 ∨ n.healthOf l = 3)
    ∧ Does (.watchdogExpiry l) s (fun n => n.healthOf l = 2 ∨ n.healthOf l = 3)
    ∧ Does (.knownAnswerTestFail l) s (fun n => n.healthOf l = 2 ∨ n.healthOf l = 3))
  ∧ Does (.floeLoopbackFail l) s (fun n => n.arb.due = s.m.arb.due ++ [(l, 0x4806)] ∧ Only [.arb] s.m n)
  ∧ (s.m.arb.diag = true →
    Does (.mirrorDiagnosis 0) s (fun n => n.arb.diag = false ∧ n.arb.due = s.m.arb.due ++ [(s.m.lane, 0x4803)]
      ∧ Tells 89 sevFault 0x4803 0 s.m n ∧ Only (.arb :: evParts) s.m n)
    ∧ Does (.mirrorDiagnosis 1) s (fun n => 89 ∈ n.seenEv ∧ (n.healthOf s.m.standby = 2 ∨ n.healthOf s.m.standby = 3))
    ∧ (s.m.arb.unexpl.length + 1 < s.m.get Ob.mcUnexplainedN →
        Does (.mirrorDiagnosis 2) s (fun n => n.arb.diag = false ∧ n.arb.adopt = true ∧ n.arb.due = s.m.arb.due
          ∧ Tells 89 sevInfo 0 2 s.m n ∧ Only (.arb :: evParts) s.m n)))
  ∧ (∀ ps d, ps.getLast? = some d → -2500 ≤ d → d ≤ 2500 →
    Does (.carrierAlign ps) s (fun n => n.getS16 (Ob.carrierAlign s.m.standby) = d ∧ Only [.obj] s.m n
      ∧ OnlyEntries [Ob.carrierAlign s.m.standby] s.m n))
  ∧ (∀ ps : List Int, 8 ≤ ps.length → (∀ x, x ∈ ps.reverse.take 8 → x < -2500 ∨ 2500 < x) → s.m.isRedundant = true →
    Does (.carrierAlign ps) s (fun n => 91 ∈ n.seenEv ∧ (n.healthOf s.m.standby = 2 ∨ n.healthOf s.m.standby = 3)))
  ∧ (s.m.get (Ob.roleNow s.m.standby) = 1 → s.m.healthOf s.m.standby = 0 →
    Does .fullTestStart s (fun n => n.healthOf s.m.standby = 1 ∧ n.get (Ob.lastFullTest s.m.standby) = n.t64
      ∧ n.now = max s.m.now (s.m.arb.testPs + sPs (60 * s.m.get Ob.fullTestPeriod)) ∧ n.arb.testPs = n.now
      ∧ Only [.clk, .obj, .arb] s.m n ∧ OnlyEntries [Ob.health s.m.standby, Ob.lastFullTest s.m.standby] s.m n))
  ∧ (s.m.healthOf s.m.standby = 3 → s.m.compared = true →
    Does .fullTestStart s (fun n => n.get (Ob.lastFullTest s.m.standby) = s.m.t64
      ∧ Only [.obj] s.m n ∧ OnlyEntries [Ob.lastFullTest s.m.standby] s.m n))
  ∧ (s.m.healthOf s.m.standby = 1 →
    Does (.selfTestDone 0 false) s (fun n => n.healthOf s.m.standby = 0 ∧ n.get (Ob.fullTestResult s.m.standby) = 1
      ∧ Tells 90 sevInfo 0 s.m.standby s.m n ∧ Only ([.obj, .lanes, .arb] ++ evParts) s.m n)
    ∧ (failed % 128 ≠ 0 →
        Does (.selfTestDone failed false) s (fun n => (n.healthOf s.m.standby = 2 ∨ n.healthOf s.m.standby = 3)
          ∧ n.get (Ob.fullTestResult s.m.standby) = 2 ∧ n.get (Ob.testFailSlice s.m.standby) = failed % 128 ∧ 90 ∈ n.seenEv)))
  ∧ (s.m.healthOf s.m.standby = 3 → s.m.get (Ob.roleNow s.m.standby) = 1 → s.m.compared = true → s.m.arb.synced = true →
    Does .redundancyRestored s (fun n => n.healthOf s.m.standby = 0 ∧ n.get (Ob.roleNow s.m.standby) = 1
      ∧ Tells 3 sevInfo 0 (s.m.standby + 65536 * (s.m.arb.resyncSeq % 65536)) s.m n
      ∧ Only ([.obj, .arb] ++ evParts) s.m n ∧ OnlyEntries [Ob.health s.m.standby, Ob.unhealthyCause s.m.standby, Ob.redundant] s.m n))

/-- The safe state (R346, R348, R349, R351, R354, R355, R359): a demand, three lost cross-link frames, a lost safety link, an oscillator that
cannot be trusted, a discrepancy and a relay that is late each bring it from any state but SAFE, FAULT and LOCKOUT: both drives
low, every AC group in use tripped, every section at rest, SDC_STATE SAFE, or FAULT with the latched relay fault. -/
def Obligations.CausesBringTheSafeState : Prop :=
  ∀ (s : State) (a b : SdcInputs) (chanB : Bool) (bad : Nat), s.m.grp.length = 8 → s.m.sec.length = 4 → s.m.sdcSt ≠ sdcSafe → s.m.sdcSt ≠ sdcFault → s.m.sdcSt ≠ sdcLockout →
  (a.sdrA = false ∨ a.sdrB = false → s.m.sdc.resetLow = false → s.m.sdc.lockout = false →
    Does (.sdcSample a b) s (fun n => (n.sdcSt = sdcSafe ∨ n.sdcSt = sdcFault) ∧ n.sdc.k1 = false ∧ n.sdc.k2 = false ∧ 81 ∈ n.seenEv
      ∧ n.now = max s.m.now (s.m.sdc.samplePs + msPs 1)
      ∧ (∀ g, g < 4 → s.m.inUse g = true → (n.grpAt g).latched = true ∧ (n.grpAt g).on = false) ∧ (∀ u, u < 4 → n.gf u = gfRest)))
  ∧ (s.m.sdc.lostA = 2 → s.m.sdc.resetLow = false →
    Does (.safetyCrosslinkFrame false true bad) s (fun n => n.sdcSt = sdcSafe ∧ n.sdc.lostA = 3 ∧ n.sdc.k1 = false ∧ n.sdc.k2 = false
      ∧ 81 ∈ n.seenEv ∧ (∀ g, g < 4 → s.m.inUse g = true → (n.grpAt g).latched = true ∧ (n.grpAt g).on = false)
      ∧ (∀ u, u < 4 → n.gf u = gfRest)))
  ∧ ((s.m.modSdc (fun x => { x with lostA := 0, lostB := 0 })).safeCauses = 0 →
    Does (.safetyCrosslinkFrame true true bad) s (fun n => n.sdc.lostA = 0 ∧ n.sdc.lostB = 0
      ∧ (∀ l, l < 2 → n.get (Ob.safetyLinkCrcFail l)
          = (if bit bad l then (s.m.get (Ob.safetyLinkCrcFail l) + 1) % 4294967296 else s.m.get (Ob.safetyLinkCrcFail l)))
      ∧ Only [.obj, .sdc] s.m n ∧ OnlyEntries [Ob.safetyLinkCrcFail 0, Ob.safetyLinkCrcFail 1] s.m n))
  ∧ (s.m.sdc.resetLow = false → Does (.safetyLinkLoss chanB) s (fun n => n.sdcSt = sdcSafe ∧ n.sdc.k1 = false ∧ n.sdc.k2 = false ∧ bit (n.get Ob.safeCause) 2 = true
      ∧ 81 ∈ n.seenEv ∧ ∀ g, g < 4 → s.m.inUse g = true → (n.grpAt g).latched = true ∧ (n.grpAt g).on = false))
  ∧ (s.m.sdc.oscDemand = false →
    Does .seracOscFault s (fun n => n.sdcSt = sdcSafe ∧ n.sdc.oscDemand = true ∧ n.sdc.k1 = false ∧ n.sdc.k2 = false ∧ 82 ∈ n.seenEv
      ∧ ∀ g, g < 4 → s.m.inUse g = true → (n.grpAt g).latched = true ∧ (n.grpAt g).on = false))
  ∧ (s.m.sdc.b.sdrA ≠ s.m.sdc.b.sdrB → s.m.sdc.discFault = false → s.m.sdc.relayFault = none →
      s.m.get Ob.discTime ≤ s.m.sdc.discRun →
    Does .discrepancyFault s (fun n => n.sdcSt = sdcSafe ∧ n.sdc.discFault = true ∧ n.get Ob.latchedFault = 0x4A01
      ∧ n.sdc.k1 = false ∧ n.sdc.k2 = false ∧ 82 ∈ n.seenEv))
  ∧ (s.m.sdcSt = sdcTestK1 → s.m.readsClosed false = false → s.m.sdc.relayFault = none →
    Does .relayTimeout s (fun n => (∀ t, s.m.sdc.k1Edge = some t → t + msPs (s.m.get Ob.operateMax) ≤ n.now) ∧ n.sdcSt = sdcFault ∧ n.sdc.relayFault = some 0x4A02 ∧ n.get Ob.latchedFault = 0x4A02
      ∧ n.sdc.k1 = false ∧ n.sdc.k2 = false ∧ 82 ∈ n.seenEv ∧ 84 ∈ n.seenEv ∧ n.get Ob.lastResult = 2))

/-- The connection sequence with its weld test, the test interval, the seals and RESET_N (R354, R357, R362, R363): a request raised
in OPEN starts the test with K1; each reading held for 5 ms takes the next step of the sequence, up to CLOSED with a passed
test; a withdrawn request opens; the test falls due with EV086 and overdue stops every section; three readings of the seals that
differ set SEAL_PENDING with EV092; RESET_N low for 10 µs leaves every die but Serac in reset, with
Serac's trip latches, and a shorter low than 1 µs is ignored (R506). -/
def Obligations.ConnectionIsSequenced : Prop :=
  ∀ (s : State) (seconds dt ns a b : Nat), s.m.grp.length = 8 → s.m.sec.length = 4 →
  (s.m.sdcSt = sdcOpen → s.m.sdc.request = false → s.m.safeCauses = 0 → s.m.sdc.resetLow = false →
      s.m.asks = true → s.m.sdc.ignored = false →
    Does (.connectionRequest true) s (fun n => n.sdcSt = sdcTestK1 ∧ n.sdc.k1 = true ∧ n.sdc.k2 = s.m.sdc.k2 ∧ n.sdc.request = true ∧ 80 ∈ n.seenEv))
  ∧ (∀ t, s.m.sdc.readyPs = some t → s.m.asks = true →
    (s.m.sdcSt = sdcTestK1 → s.m.readsClosed false = true → s.m.readsOpen true = true →
      Does .sdcStepConfirmed s (fun n => n.sdcSt = sdcTestK1Off ∧ n.sdc.k1 = false ∧ n.sdc.k2 = s.m.sdc.k2
        ∧ n.now = max s.m.now (t + msPs 5)))
    ∧ (s.m.sdcSt = sdcTestK1Off → s.m.readsOpen false = true →
      Does .sdcStepConfirmed s (fun n => n.sdcSt = sdcTestK2 ∧ n.sdc.k2 = true ∧ n.sdc.k1 = s.m.sdc.k1))
    ∧ (s.m.sdcSt = sdcTestK2 → s.m.readsClosed true = true → s.m.readsOpen false = true →
      Does .sdcStepConfirmed s (fun n => n.sdcSt = sdcTestK2Off ∧ n.sdc.k2 = false ∧ n.sdc.k1 = s.m.sdc.k1))
    ∧ (s.m.sdcSt = sdcTestK2Off → s.m.readsOpen true = true →
      Does .sdcStepConfirmed s (fun n => n.sdcSt = sdcClosing ∧ n.sdc.k1 = true ∧ n.sdc.k2 = s.m.sdc.k2))
    ∧ (s.m.sdcSt = sdcClosing → s.m.sdc.second = false → s.m.readsClosed false = true →
      Does .sdcStepConfirmed s (fun n => n.sdcSt = sdcClosing ∧ n.sdc.k2 = true ∧ n.sdc.k1 = s.m.sdc.k1))
    ∧ (s.m.sdcSt = sdcClosing → s.m.sdc.second = true → s.m.readsClosed false = true → s.m.readsClosed true = true →
      Does .sdcStepConfirmed s (fun n => n.sdcSt = sdcClosed ∧ n.sdc.k1 = s.m.sdc.k1 ∧ n.sdc.k2 = s.m.sdc.k2
        ∧ n.get Ob.lastResult = 1 ∧ 84 ∈ n.seenEv)))
  ∧ (testing s.m.sdcSt = true → s.m.asks = false →
    Does .sdcStepConfirmed s (fun n => n.sdcSt = sdcOpen ∧ n.sdc.k1 = false ∧ n.sdc.k2 = false ∧ n.sdc.request = false))
  ∧ (s.m.sdcSt = sdcClosed → s.m.sdc.overdue = false →
    Does (.connectionRequest false) s (fun n => n.sdcSt = sdcOpening ∧ n.sdc.k1 = false ∧ n.sdc.k2 = false ∧ n.sdc.request = false))
  ∧ (testing s.m.sdcSt = true →
    Does (.connectionRequest false) s (fun n => n.sdcSt = sdcOpen ∧ n.sdc.k1 = false ∧ n.sdc.k2 = false ∧ n.get Ob.lastResult = 3))
  ∧ (s.m.sdcSt = sdcClosed → s.m.get Ob.testDue = 0 → s.m.sdc.passedAt.isSome = true →
    Does .weldTestDue s (fun n => n.get Ob.testDue = 1 ∧ 86 ∈ n.seenEv ∧ s.m.testEnd 1 ≤ n.tai ∧ Only (.clk :: .obj :: evParts) s.m n ∧ OnlyEntries [Ob.testDue] s.m n))
  ∧ (s.m.sdcSt = sdcClosed → s.m.get Ob.testDue = 1 → s.m.sdc.overdue = false →
    Does .weldTestOverdue s (fun n => n.sdc.overdue = true
      ∧ ∀ u, u < 4 → s.m.gf u ≠ gfRest → n.gf u = gfStopping))
  ∧ (a ≠ s.kept.sealA ∨ b ≠ s.kept.sealB → s.m.sdc.sealDiff = 2 → s.m.get Ob.sealPending = 0 →
    Does (.sealRecheck a b) s (fun n => n.get Ob.sealPending = 1 ∧ Tells 92 sevWarn 0 (a % 256 + 256 * (b % 256)) s.m n
      ∧ n.now = max s.m.now (s.m.sdc.sealPs + sPs 1) ∧ Only ([.clk, .obj, .sdc] ++ evParts) s.m n ∧ OnlyEntries [Ob.sealPending] s.m n))
  ∧ (a = s.kept.sealA → b = s.kept.sealB →
    Does (.sealRecheck a b) s (fun n => n.sdc.sealDiff = 0 ∧ Only [.clk, .sdc] s.m n))
  ∧ (s.m.sdc.resetLow = false → s.m.power.power = true → 10000 ≤ ns →
    Does (.resetAsserted dt ns) s (fun n => n.sdc.resetLow = true ∧ n.sdc.k1 = false ∧ n.sdc.k2 = false ∧ n.link.ready = false
      ∧ n.arb.grant = none ∧ (∀ g, g < 8 → (n.grpAt g).pins = .hiZ ∧ (n.grpAt g).on = false ∧ (n.grpAt g).latched = (s.m.grpAt g).latched)
      ∧ n.now = s.m.now + dt * 1000 ∧ n.sto = s.m.sto))
  ∧ (ns < 1000 → Does (.resetAsserted dt ns) s (fun n => n.now = s.m.now + dt * 1000 ∧ Only [.clk] s.m n))
  ∧ (s.m.sdc.resetLow = true → 10 ≤ seconds →
    Does (.resetHeld seconds) s (fun n => n.get Ob.resetHeldS = min seconds 65535
      ∧ n.now = max s.m.now (s.m.sdc.resetPs + sPs seconds) ∧ Only [.clk, .obj] s.m n ∧ OnlyEntries [Ob.resetHeldS] s.m n))
  ∧ (s.m.sdc.resetLow = true →
    Does .resetReleased s (fun n => n.sdc.resetLow = false ∧ n.power.relPs = s.m.now + msPs 1 ∧ Only [.sdc, .power] s.m n))

/-- Time (R370 to R373, R378, R379, R381): an Announce of the module's domain gives a module without a master its parent; a two-step
Sync of the parent waits for its Follow_Up; a delay response gives PATH_DELAY; a delay request takes the next number and the
module's time; a lost source is HOLDOVER with EV098, and FREEWHEEL once HOLDOVER_LIMIT has passed; an edge of PPS_IN shows its
offset; PPS_OUT and the triggers pulse by their programmes; an entry of the scheduled-action table is staged at its cutoff. -/
def Obligations.TimeIsDisciplined : Prop :=
  ∀ (s : State) (a : PtpMsg) (k e dt : Nat) (t t3 d : Int), k < 4 → e < 64 → s.m.time.trig.length = 4 →
  (a.kind = .announce → a.domain = s.m.domainNow → s.m.get Ob.slavePort = 255 →
    Does (.ptpMessage a) s (fun n => n.get Ob.parentId = a.parentId ∧ n.get Ob.gmId = a.gmId ∧ n.get Ob.stepsRemoved = a.stepsRemoved
      ∧ n.get Ob.slavePort = a.port ∧ n.time.syncs = 0 ∧ n.time.delays = 0 ∧ Only [.obj, .time] s.m n
      ∧ OnlyEntries [Ob.parentId, Ob.gmId, Ob.stepsRemoved, Ob.slavePort, Ob.leapPending, Ob.utcOffset] s.m n))
  ∧ (a.kind = .sync → a.domain = s.m.domainNow → s.m.fromParent a = true → a.twoStep = true → s.m.syncAccepted a.logInterval = true →
    Does (.ptpMessage a) s (fun n => n.time.twoStep = some (a.sequenceId, a.rx, a.correction)
      ∧ n.time.syncPs = some (s.m.now, syncPsOf a.logInterval) ∧ Only [.time] s.m n))
  ∧ (a.kind = .delayResp → a.domain = s.m.domainNow → s.m.fromParent a = true → s.m.peerDelay = false →
      s.m.time.request = some (a.sequenceId, t3) → s.m.time.masterTo = some d →
    Does (.ptpMessage a) s (fun n => n.time.delay = some ((d + (a.origin - t3 - a.correction)) / 2)
      ∧ n.get Ob.pathDelay = (clampI 0 4294967295 ((d + (a.origin - t3 - a.correction)) / 2 * 1000)).toNat ∧ n.time.request = none))
  ∧ (a.domain ≠ s.m.domainNow ∨ (a.kind = .sync ∧ s.m.syncAccepted a.logInterval = false) ∨ a.kind = .management → Does (.ptpMessage a) s (fun n => n = s.m))
  ∧ Does .delayReq s (fun n => n.time.request = some ((s.m.time.reqSeq + 1) % 65536, s.m.tai) ∧ Only [.time] s.m n)
  ∧ (s.m.timeSt = timeLocked ∨ s.m.timeSt = timeAcquiring →
    Does .timeSourceLost s (fun n => n.timeSt = timeHoldover ∧ n.time.qualified = false ∧ n.time.lostPs = some n.now
      ∧ s.m.silent.now ≤ n.now
      ∧ Tells 98 sevWarn 0x5002 (3 + 256 * s.m.timeSt) s.m n
      ∧ Only ([.clk, .obj, .time] ++ evParts) s.m n ∧ OnlyEntries [Ob.timeState, Ob.slavePort] s.m n))
  ∧ (s.m.timeSt = timeHoldover →
    Does .holdoverLimitExpiry s (fun n => n.timeSt = timeFreewheel ∧ Tells 98 sevWarn 0x5002 (4 + 256 * 3) s.m n
      ∧ n.now = max s.m.now (s.m.time.lostPs.getD s.m.now + sPs (s.m.get Ob.holdoverLimit))
      ∧ Only (.clk :: .obj :: evParts) s.m n ∧ OnlyEntries [Ob.timeState] s.m n))
  ∧ (s.m.get Ob.timeSource ≠ 1 →
    Does (.ppsInEdge dt) s (fun n => n.now = s.m.now + dt * 1000
      ∧ n.getS Ob.ppsInOffset = (s.m.passNs dt).tai - s.m.getS Ob.ppsInDelay / 1000 - nearestSecond ((s.m.passNs dt).tai - s.m.getS Ob.ppsInDelay / 1000)
      ∧ Only [.clk, .obj, .time] s.m n ∧ OnlyEntries [Ob.ppsInOffset] s.m n))
  ∧ (s.m.get Ob.ppsOutMode = 1 → s.m.timeSt = timeLocked →
    Does .ppsOutPulse s (fun n => n.time.lastPps = some s.m.nextPps ∧ s.m.nextPps ≤ n.tai ∧ Only [.clk, .time] s.m n))
  ∧ (s.m.get Ob.ppsOutMode = 0 → Does .ppsOutPulse s (fun n => n = s.m))
  ∧ ((s.m.trigAt k).next = some t → (s.m.trigAt k).suspended = false → (s.m.trigAt k).left = none → s.m.get (Ob.trigMode k) = 2 →
    Does (.trigPulse k) s (fun n => (n.trigAt k).last = some t ∧ (n.trigAt k).next = some (t + (s.m.get (Ob.trigPeriod k) : Int))
      ∧ (∀ j, j ≠ k → n.trigAt j = s.m.trigAt j) ∧ t ≤ n.tai ∧ Only [.clk, .time] s.m n))
  ∧ (∀ x, s.m.sched.find? (fun y => y.entry = e) = some x → x.suspended = false → s.m.entryStaged e = false →
      x.applyAt ≤ s.m.clk.taiBase + ((s.m.clk.t0Ps + s.m.tickPs) / 1000 : Nat) →
    Does (.scheduledEntry e) s (fun n => (∃ w, n.staged = s.m.staged ++ [w] ∧ w.entry = some e ∧ w.snd = x.snd ∧ w.seq = x.seq
      ∧ w.work = .writes x.writes) ∧ Only [.staged] s.m n))

/-- The network services (R387 to R391, R393, R460, R461, R464): a connection on GHP3_PORT opens a session under a free key, the
ninth is reset; a handshake whose peer is granted a role makes the session open with EV102, a failed one closes it; SESSION_IDLE
without a frame closes it; a link that changes shows its state with EV101; a Modbus read of whole entries answers their registers,
of others exception 02, a write without MB_WRITE_EN exception 01, an admitted one is staged as one group; a DNP3 request of the
master to the module's address is answered its points, and any other gets no answer. -/
def Obligations.NetworkServicesAnswer : Prop :=
  ∀ (s : State) (addr k port status start count reg value : Nat) (p : TlsPeer) (rq : MbReq) (dq : DnpReq) (values : List Nat),
  s.m.link.ready = true →
  (s.m.net.banned.all (fun x => x.1 ≠ addr) = true →
    (∀ j, s.m.freeKey 0 8 = some j →
      Does (.tcpConnect addr (s.m.get Ob.ghp3Port)) s (fun n => n.sess = s.m.sess ++ [(j, { kind := .ghp3, addr := addr, lastPs := s.m.now })]
        ∧ Only [.sess] s.m n))
    ∧ (s.m.freeKey 0 8 = none →
      Does (.tcpConnect addr (s.m.get Ob.ghp3Port)) s (fun n => n.net.refused = s.m.net.refused + 1 ∧ Only [.net] s.m n)))
  ∧ (∀ x, s.m.sess.find? (fun x => x.2.kind = .ghp3 && !x.2.tls && x.2.addr = p.addr) = some (k, x) → (s.m.sessAt k).isSome = true →
      (∀ role head, s.m.peerGrant p = some (role, head) →
        Does (.tlsHandshake p) s (fun n => 102 ∈ n.seenEv ∧ ∃ y, n.sessAt k = some y ∧ y.tls = true ∧ y.chan.role = role ∧ y.headEnd = head
          ∧ y.serial = p.serial))
      ∧ (s.m.peerGrant p = none →
        Does (.tlsHandshake p) s (fun n => n.sessAt k = none ∧ Only ([.net, .streams] ++ evParts) s.m n)))
  ∧ (∀ x, s.m.sessAt k = some x → x.kind = .ghp3 →
      Does (.sessionIdleTimeout k) s (fun n => n.sessAt k = none ∧ x.lastPs + sPs (s.m.get Ob.sessionIdle) ≤ n.now
        ∧ Only ([.clk, .streams] ++ evParts) s.m n))
  ∧ (port < 2 → status < 256 → s.m.get (Ob.portLink port) ≠ status →
      Does (.linkState port status) s (fun n => n.get (Ob.portLink port) = status ∧ Tells 101 sevInfo 0 (port + 256 * status) s.m n
        ∧ Only (.obj :: evParts) s.m n ∧ OnlyEntries [Ob.portLink port] s.m n))
  ∧ (s.m.mbServed rq false = true → 0 < count → count ≤ 125 →
      (∀ l vs, s.m.mbCover false 257 start count = some l → s.m.mbValues s.kept (.modbus rq.order) l = .ok vs →
        Does (.modbusReadHolding rq start count) s (fun n => n.net.mbReply = some (0, vs) ∧ Only [.net] s.m n))
      ∧ (s.m.mbCover false 257 start count = none →
        Does (.modbusReadHolding rq start count) s (fun n => n.net.mbReply = some (2, []) ∧ Only [.net] s.m n))
      ∧ (∀ l vs, s.m.mbCover true 257 start count = some l → s.m.mbValues s.kept (.modbus rq.order) l = .ok vs →
        Does (.modbusReadInput rq start count) s (fun n => n.net.mbReply = some (0, vs) ∧ Only [.net] s.m n))
      ∧ (s.m.mbCover true 257 start count = none →
        Does (.modbusReadInput rq start count) s (fun n => n.net.mbReply = some (2, []) ∧ Only [.net] s.m n)))
  ∧ (s.m.mbServed rq true = true → (rq.rtu && rq.address = 0) = false → values ≠ [] → values.length ≤ 123 →
      (s.m.get Ob.mbWriteEn ≠ 1 →
        Does (.modbusWriteSingle rq reg value) s (fun n => n.net.mbReply = some (1, []) ∧ Only [.net] s.m n)
        ∧ Does (.modbusWriteMultiple rq start values) s (fun n => n.net.mbReply = some (1, []) ∧ Only [.net] s.m n))
      ∧ (s.m.get Ob.mbWriteEn = 1 → ∀ l ws, s.m.mbCover false 257 start values.length = some l →
          l.all (fun x => bit (s.m.get (Ob.mbFlags x.1)) 0) = true → mbWrites l values = some ws →
          s.m.firstRefused (.modbus rq.order) s.m.stagedWrites ws = none →
          Does (.modbusWriteMultiple rq start values) s (fun n => ∃ w, n.staged = s.m.staged ++ [w] ∧ w.snd = .modbus rq.order
            ∧ w.work = .writes ws ∧ w.isGroup = true ∧ n.net = s.m.net))
      ∧ (s.m.get Ob.mbWriteEn = 1 → ∀ l ws, s.m.mbCover false 257 reg 1 = some l →
          l.all (fun x => bit (s.m.get (Ob.mbFlags x.1)) 0) = true → mbWrites l [value] = some ws →
          s.m.firstRefused (.modbus rq.order) s.m.stagedWrites ws = none →
          Does (.modbusWriteSingle rq reg value) s (fun n => ∃ w, n.staged = s.m.staged ++ [w] ∧ w.snd = .modbus rq.order
            ∧ w.work = .writes ws ∧ w.isGroup = true ∧ n.net = s.m.net)))
  ∧ (dq.serial = true → s.m.get Ob.rs485Protocol = 2 →
      (dq.master = s.m.get Ob.dnpMaster → dq.dest = s.m.get Ob.dnpAddr → dq.ops = [] → dq.confirm = 0 →
        Does (.dnp3Request dq) s (fun n => n.net.dnpReply = dq.reads.flatMap ((s.m.modNet (fun x => { x with dnpReply := [] })).dnpRead s.kept)
          ∧ n.net.dnpEvents = s.m.net.dnpEvents ∧ Only [.net] s.m n))
      ∧ (dq.master ≠ s.m.get Ob.dnpMaster ∨ dq.dest ≠ s.m.get Ob.dnpAddr → Does (.dnp3Request dq) s (fun n => n = s.m)))

/-- Field inputs and outputs (R399 to R412): a good Rime frame ends a row of missing ones, a bad one counts; four missing on the
active lane switch off every output with SAFE_VALUE 00h, with EV115; a sample above the level counts an input's filter up; an
input held for MAX_ACTIVE raises EV117; a chatter window without an input beyond the limit shows its counts and starts anew; an
overload and a thermal trip switch the output off, and the fault waits for the boundary; a load warning raises EV118 once; a group
supply out of range for 10 ms, lost at two measurements and back for 20 ms raises EV113, EV113 and EV114, and a lost one switches its
outputs off. Each time counts from the instant at which its condition began. -/
def Obligations.FieldChannelsAct : Prop :=
  ∀ (s : State) (n g l k t : Nat) (rd : FieldReading) (volts : List (Nat × Nat)) (absent : Bool), n < 32 → g < 4 → l < 2 → k < 8 →
  s.m.fld.length = 32 → s.m.fgrp.length = 4 → s.m.rime.length = 2 →
  ((s.m.rimeAt l).missIn < 4 →
    Does (.rimeFrame { lane := l, good := true, absent := false, toField := false }) s (fun m => (m.rimeAt l).missIn = 0 ∧ Only [.rime] s.m m))
  ∧ ((s.m.rimeAt l).missIn < 3 →
    Does (.rimeFrame { lane := l, good := false, absent := absent, toField := false }) s (fun m => (m.rimeAt l).missIn = (s.m.rimeAt l).missIn + 1
      ∧ m.get (Ob.rimeCrcFail l) = (if absent then s.m.get (Ob.rimeCrcFail l) else (s.m.get (Ob.rimeCrcFail l) + 1) % 4294967296)
      ∧ m.get (Ob.rimeMissingMax l) = max (s.m.get (Ob.rimeMissingMax l)) ((s.m.rimeAt l).missIn + 1)
      ∧ Only [.obj, .rime] s.m m ∧ OnlyEntries [Ob.rimeCrcFail l, Ob.rimeMissingMax l] s.m m))
  ∧ (s.m.lane = l → (s.m.rimeAt l).lost = false →
    Does (.rimeLoss l) s (fun m => (m.rimeAt l).lost = true ∧ 115 ∈ m.seenEv
      ∧ (s.m.get (Ob.safeValue n) = 0 → (m.fldAt n).on = false ∧ bit (m.get Ob.fieldOutState) n = false)))
  ∧ (n = 8 * g + k → s.m.get (Ob.fioMode n) = 1 → s.m.inputLive n = true → 15000 ≤ rd.volts.getD k 0 →
    Does (.fieldSample g rd) s (fun m => m.get (Ob.filterCount n) = min (s.m.get (Ob.filterCount n) + 1) (s.m.get (Ob.filterN n))
      ∧ (m.fldAt n).raw = true ∧ (m.fldAt n).on = false
      ∧ m.now = max s.m.now ((s.m.fgrp.getD g {}).samplePs + s.m.get (Ob.samplePeriod g) * 1000000)))
  ∧ (s.m.get (Ob.maxActive n) ≠ 0 → bit (s.m.get Ob.fieldIn) n = true → (s.m.fldAt n).maxDone = false → (s.m.fldAt n).onePs = some t →
    Does (.inputMaxActive n) s (fun m => (m.fldAt n).maxDone = true ∧ Tells 117 sevWarn 0x5408 n s.m m
      ∧ m.now = max s.m.now (t + sPs (s.m.get (Ob.maxActive n)))
      ∧ Only (.clk :: .fld :: evParts) s.m m ∧ OnlyEntries [] s.m m))
  ∧ ((∀ j, j < 32 → (s.m.fldAt j).changes ≤ s.m.get Ob.chatterLimit) →
    Does .chatterWindowEnd s (fun m => m.get (Ob.chatterCount n) = min (s.m.fldAt n).changes 65535 ∧ (m.fldAt n).changes = 0
      ∧ (m.fldAt n).leftOut = false
      ∧ m.now = max s.m.now ((s.m.fgrp.getD 0 {}).chatPs + msPs (s.m.get Ob.chatterWindow)) ∧ Only [.clk, .obj, .fld, .fgrp] s.m m))
  ∧ (s.m.get (Ob.fioMode n) = 2 → s.m.fldRetired n = false → s.m.get (Ob.groupState (n / 8)) ≠ 1 →
    ((s.m.fldAt n).on = true → (s.m.fldAt n).limitPs = some t →
      Does (.outputOverload n) s (fun m => (m.fldAt n).on = false ∧ bit (m.get Ob.fieldOutState) n = false
        ∧ (m.fldAt n).overCur = true ∧ m.get (Ob.readback n) = 2 ∧ m.now = max s.m.now (t + s.m.get (Ob.limitTime n) * 100000000)
        ∧ (∃ a, m.prot.pend = s.m.prot.pend ++ [a] ∧ a.fault = 0x5401 ∧ a.cls = 3 ∧ a.units = [n] ∧ a.atPs = m.now)
        ∧ Only [.clk, .fld, .obj, .prot] s.m m ∧ OnlyEntries [Ob.fieldOutState, Ob.readback n] s.m m))
    ∧ ((s.m.fldAt n).hot = false →
      Does (.outputThermal n) s (fun m => (m.fldAt n).on = false ∧ (m.fldAt n).hot = true ∧ m.get (Ob.readback n) = 3
        ∧ (∃ a, m.prot.pend = s.m.prot.pend ++ [a] ∧ a.fault = 0x5402 ∧ a.cls = 3 ∧ a.units = [n] ∧ a.atPs = s.m.now)
        ∧ Only [.fld, .obj, .prot] s.m m ∧ OnlyEntries [Ob.fieldOutState, Ob.readback n] s.m m)))
  ∧ ((s.m.fgrp.getD g {}).overDone = false → (s.m.fgrp.getD g {}).overPs = some t →
    Does (.fieldLoadWarning true g true) s (fun m => (m.fgrp.getD g {}).overDone = true ∧ Tells 118 sevWarn 0x540A (256 * g) s.m m
      ∧ m.now = max s.m.now (t + sPs 1) ∧ Only (.clk :: .fgrp :: evParts) s.m m))
  ∧ ((s.m.fgrp.getD g {}).calmPs = some t →
    Does (.fieldLoadWarning true g false) s (fun m => (m.fgrp.getD g {}).overDone = false ∧ m.now = max s.m.now (t + sPs 1)
      ∧ Only [.clk, .fgrp] s.m m))
  ∧ ((s.m.fldAt n).openDone = false → s.m.get (Ob.openLoadEn n) = 1 → (s.m.fldAt n).on = true → (s.m.fldAt n).openPs = some t →
    Does (.fieldLoadWarning false n true) s (fun m => (m.fldAt n).openDone = true ∧ m.get (Ob.readback n) = 5
      ∧ Tells 118 sevWarn 0x5409 n s.m m ∧ m.now = max s.m.now (t + sPs 1)
      ∧ Only ([.clk, .obj, .fld] ++ evParts) s.m m ∧ OnlyEntries [Ob.readback n] s.m m))
  ∧ (200 ≤ lastRun (fun v => !(decide (1920 ≤ v) && decide (v ≤ 3000))) volts → (s.m.fgrp.getD g {}).armed = true →
    Does (.fsupOutOfRange g volts) s (fun m => m.get (Ob.fsupVoltage g) = newestVolt volts ∧ (m.fgrp.getD g {}).armed = false
      ∧ Tells 113 sevWarn 0x5405 (g + 65536 * newestVolt volts) s.m m ∧ Only ([.obj, .fgrp] ++ evParts) s.m m
      ∧ OnlyEntries [Ob.fsupVoltage g] s.m m))
  ∧ (s.m.get (Ob.groupState g) ≠ 1 → 2 ≤ lastRun (fun v => decide (v < 1600)) volts →
    Does (.fsupLost g volts) s (fun m => m.get (Ob.groupState g) = 1 ∧ m.get (Ob.fsupVoltage g) = newestVolt volts ∧ 113 ∈ m.seenEv
      ∧ (m.fldAt (8 * g + k)).on = false ∧ Only ([.obj, .fld, .prot] ++ evParts) s.m m))
  ∧ (lastRun (fun v => decide (v < 1600)) volts < 2 →
    Does (.fsupLost g volts) s (fun m => m.get (Ob.fsupVoltage g) = newestVolt volts ∧ Only [.obj] s.m m
      ∧ OnlyEntries [Ob.fsupVoltage g] s.m m))
  ∧ (s.m.get (Ob.groupState g) = 1 → 400 ≤ lastRun (fun v => decide (1800 < v)) volts →
    Does (.fsupBack g volts) s (fun m => m.get (Ob.groupState g) = (if s.m.get (Ob.autoRestore g) = 1 then 0 else 2)
      ∧ m.get (Ob.fsupVoltage g) = newestVolt volts ∧ 114 ∈ m.seenEv ∧ Only ([.obj, .fld] ++ evParts) s.m m))

/-- Thermal management and the cooling drive (R422 to R431). The throttle step rises while the level stands and falls once it
has been left, each with EV120; GRACE_TIME ends in enforcement; a fault of the cooling stage latches and switches all six
switches off, waits for its retry or, with none left, raises EV123 and requests derating; a retry, and a low of CD_EN of 10 µs,
clear it, and one below 8 µs does nothing; a low between them clears or not as the free value has it; a
Hall edge commutates by the table of R426. -/
def Obligations.ThermalAndCoolingAct : Prop :=
  ∀ (s : State) (code ns rpm ma cv h hi lo p : Nat) (byPin : Bool),
  (s.m.levelOn 0 = true → s.m.get Ob.throttleStep < 3 → s.m.therm.throtPs = some p →
    Does .throttleStepTimer s (fun m => m.get Ob.throttleStep = s.m.get Ob.throttleStep + 1
      ∧ Tells 120 sevInfo 0 (s.m.get Ob.thermalState + 256 * s.m.get Ob.thermalState + 65536 * (s.m.get Ob.throttleStep + 1)) s.m m
      ∧ m.now = max s.m.now (p + sPs 1) ∧ m.therm.throtPs = some m.now
      ∧ Only ([.clk, .therm, .obj] ++ evParts) s.m m ∧ OnlyEntries [Ob.throttleStep] s.m m))
  ∧ (s.m.levelOn 0 = false → 1 < s.m.get Ob.throttleStep → s.m.therm.throtPs = some p →
    Does .throttleStepTimer s (fun m => m.get Ob.throttleStep = s.m.get Ob.throttleStep - 1
      ∧ Tells 120 sevInfo 0 (s.m.get Ob.thermalState + 256 * s.m.get Ob.thermalState + 65536 * (s.m.get Ob.throttleStep - 1)) s.m m
      ∧ m.now = max s.m.now (p + sPs 10) ∧ m.therm.throtPs = some m.now
      ∧ Only ([.clk, .therm, .obj] ++ evParts) s.m m ∧ OnlyEntries [Ob.throttleStep] s.m m))
  ∧ (s.m.get Ob.thermalState = 2 → s.m.derateOn = true → s.m.therm.gracePs = some p →
    Does .graceTimeEnd s (fun m => m.get Ob.thermalState = 3 ∧ m.therm.starts = true ∧ m.therm.gracePs = none
      ∧ Tells 120 sevInfo 0 (3 + 256 * 2 + 65536 * s.m.get Ob.throttleStep) s.m m
      ∧ m.now = max s.m.now p ∧ Only ([.clk, .obj, .therm] ++ evParts) s.m m ∧ OnlyEntries [Ob.thermalState] s.m m))
  ∧ (s.m.get Ob.cdFault = 0 → s.m.cdFaultDue code = some p →
    Does (.cdFault code) s (fun m => m.get Ob.cdFault = code ∧ m.cd.phases = none ∧ m.cd.duty = 0 ∧ 122 ∈ m.seenEv
      ∧ m.now = max s.m.now p ∧ m.cd.faultPs = m.now ∧ m.get Ob.cdRetries = (s.m.reach p).cdRecent.length
      ∧ ((s.m.reach p).cdRecent.length < s.m.get Ob.cdRetryMax → m.cd.waiting = true ∧ m.get Ob.cdState = 2)
      ∧ (s.m.get Ob.cdRetryMax ≤ (s.m.reach p).cdRecent.length → m.cd.waiting = false ∧ m.get Ob.cdState = 3 ∧ 123 ∈ m.seenEv
          ∧ bit (m.get Ob.derateRequest) 1 = true)
      ∧ Only ([.clk, .obj, .cd] ++ evParts) s.m m ∧ OnlyEntries [Ob.cdFault, Ob.cdRetries, Ob.cdState, Ob.derateRequest] s.m m))
  ∧ (s.m.cdFaultDue code = none → Does (.cdFault code) s (fun m => m = s.m))
  ∧ (s.m.cd.heldPs = some p →
    Does .cdBootstrapRefresh s (fun m => m.cd.refresh = s.m.cd.refresh + 1 ∧ m.now = max s.m.now (p + msPs 1)
      ∧ m.cd.heldPs = some (m.now + 1000 * (s.m.get Ob.cdRefresh + 2 * s.m.get Ob.cdDt)) ∧ Only [.clk, .cd] s.m m))
  ∧ (10000 ≤ ns →
    Does (.cdEnableLow byPin ns) s (fun m => m.get Ob.cdFault = 0 ∧ m.cd.waiting = false
      ∧ (byPin = true → m.cd.retries = [] ∧ m.get Ob.cdRetries = 0 ∧ bit (m.get Ob.derateRequest) 1 = false)
      ∧ Only [.obj, .cd] s.m m ∧ OnlyEntries [Ob.cdFault, Ob.cdRetries, Ob.cdState, Ob.derateRequest] s.m m))
  ∧ (8000 ≤ ns → ns < 10000 →
    Does (.cdEnableLow byPin ns) s (fun m => m.free = s.m.free + 1
      ∧ m.get Ob.cdFault = (if Config.cdLowClears s.m.free then 0 else s.m.get Ob.cdFault) ∧ Only [.free, .obj, .cd] s.m m))
  ∧ (ns < 8000 → Does (.cdEnableLow byPin ns) s (fun m => m = s.m))
  ∧ (s.m.cd.waiting = true →
    Does .cdRetryDelayEnd s (fun m => m.get Ob.cdFault = 0 ∧ m.cd.waiting = false
      ∧ m.now = max s.m.now (s.m.cd.faultPs + msPs (s.m.get Ob.cdRetryDelay) + 20000000)
      ∧ m.get Ob.cdRetries = (s.m.reach (s.m.cd.faultPs + msPs (s.m.get Ob.cdRetryDelay) + 20000000)).cdRecent.length + 1
      ∧ Only [.clk, .obj, .cd] s.m m ∧ OnlyEntries [Ob.cdFault, Ob.cdRetries, Ob.cdState] s.m m))
  ∧ (rpm ≤ 65535 → ma ≤ 65535 → cv ≤ 65535 →
    Does (.cdSpeedUpdate rpm ma cv) s (fun m => m.get Ob.cdSpeed = rpm ∧ m.get Ob.cdCurrent = ma ∧ m.get Ob.cdVbus = cv
      ∧ m.now = max s.m.now (s.m.cd.updPs + msPs 10)
      ∧ m.cd.busGood = (s.m.cd.bus m.now cv).busGood ∧ m.cd.goodPs = (s.m.cd.bus m.now cv).goodPs
      ∧ (m.cdRuns = true → s.m.get Ob.cdMode = 0 → m.cd.duty = (s.m.get Ob.cdDuty : Rat) / 100)
      ∧ (m.cdRuns = false → m.cd.duty = 0)
      ∧ Only [.clk, .obj, .cd, .free] s.m m ∧ OnlyEntries [Ob.cdSpeed, Ob.cdCurrent, Ob.cdVbus, Ob.cdState] s.m m))
  ∧ (s.m.cdRuns = true → (h, hi, lo) ∈ [(4, 0, 1), (6, 0, 2), (2, 1, 2), (3, 1, 0), (1, 2, 0), (5, 2, 1)] →
    Does (.hallEdge h) s (fun m => m.get Ob.cdHall = h ∧ m.cd.hallPs = s.m.now
      ∧ m.cd.phases = (if s.m.get Ob.cdDir = 1 then some (lo, hi) else some (hi, lo))
      ∧ Only [.obj, .cd] s.m m ∧ OnlyEntries [Ob.cdHall, Ob.cdState] s.m m))
  ∧ (h = 0 ∨ h = 7 → Does (.hallEdge h) s (fun m => m.get Ob.cdHall = h ∧ m.cd.phases = none ∧ Only [.obj, .cd] s.m m))

/-- Clocks and the housekeeping converters (R438 to R447). Eight good windows in a row lock a loop, two bad ones unlock it with
EV027; a window while N moves is not judged; the loss of the TCXO and its return move REF of both lanes with EV026; a round counts,
shows its ground reading and gives the value of each input at 100 S/s; the third bad ground in a row makes the converter
faulty with EV029 and all its readings invalid; an urgent conversion ends with its value and EV030. -/
def Obligations.ClocksAndHousekeepingAct : Prop :=
  ∀ (s : State) (l i sq v : Nat) (dev xo : Int) (r : HkRound), l < 2 → i < 0x13 →
  s.m.lanes.length = 2 → s.m.hk.refMoved.length = 2 → s.m.hk.margins.length = 2 → s.m.hk.groundBad.length = 2 → r.conv = l →
  (s.m.hk.moving = 0 → s.m.hk.refMoved.getD l false = false → dev.natAbs ≤ 1000 → (s.m.laneAt l).good = 7 →
    s.m.get (Ob.adpllState l) = 0 →
    Does (.lockWindow l dev xo) s (fun m => m.get (Ob.adpllState l) = 1 ∧ m.getS (Ob.lockDev l) = dev ∧ (m.laneAt l).bad = 0
      ∧ m.now = max s.m.now (s.m.hk.winPs.getD l 0 + 10000000)
      ∧ (s.m.hk.tcxoLost = false → -2147483648 ≤ xo → xo < 2147483648 → m.getS (Ob.xoRatio l) = xo)
      ∧ (s.m.hk.tcxoLost = true → m.get (Ob.xoRatio l) = s.m.get (Ob.xoRatio l))
      ∧ Only [.clk, .hk, .obj, .lanes] s.m m ∧ OnlyEntries [Ob.adpllState l, Ob.lockDev l, Ob.lockMargin l, Ob.xoRatio l] s.m m))
  ∧ (s.m.hk.moving = 0 → s.m.hk.refMoved.getD l false = false → 10000 < dev.natAbs → 1 ≤ (s.m.laneAt l).bad →
    s.m.get (Ob.adpllState l) = 1 →
    Does (.lockWindow l dev xo) s (fun m => m.get (Ob.adpllState l) = 2 ∧ 27 ∈ m.seenEv))
  ∧ (s.m.hk.moving ≠ 0 → Does (.lockWindow l dev xo) s (fun m => Only [.clk, .hk, .obj] s.m m ∧ OnlyEntries [Ob.xoRatio l] s.m m))
  ∧ (s.m.hk.tcxoLost = false → s.m.get (Ob.refSource 0) = 0 → s.m.get (Ob.refSource 1) = 0 →
    Does .tcxoLost s (fun m => m.get (Ob.refSource 0) = 1 ∧ m.get (Ob.refSource 1) = 1 ∧ 26 ∈ m.seenEv
      ∧ Only ([.hk, .obj] ++ evParts) s.m m ∧ OnlyEntries [Ob.refSource 0, Ob.refSource 1] s.m m))
  ∧ (s.m.hk.tcxoLost = true → s.m.get (Ob.refSource 0) = 1 → s.m.get (Ob.refSource 1) = 1 →
    Does .tcxoRestored s (fun m => m.get (Ob.refSource 0) = 0 ∧ m.get (Ob.refSource 1) = 0 ∧ 26 ∈ m.seenEv
      ∧ m.now = max s.m.now (s.m.hk.lossPs + sPs 60)
      ∧ Only ([.clk, .hk, .obj] ++ evParts) s.m m ∧ OnlyEntries [Ob.refSource 0, Ob.refSource 1] s.m m))
  ∧ (s.m.get (Ob.hkState l) = 0 → 1248750 ≤ r.refUv → r.refUv ≤ 1251250 → r.groundUv.natAbs ≤ 100 →
    Does (.hkRound r) s (fun m => m.get (Ob.roundCount l) = (s.m.get (Ob.roundCount l) + 1) % 4294967296
      ∧ m.getS (Ob.groundRead l) = r.groundUv ∧ m.get (Ob.hkState l) = 0
      ∧ m.now = max s.m.now (s.m.hk.roundPs.getD l 0 + msPs 10)
      ∧ (8 ≤ i → m.get (if l = 0 then Ob.hkValue0 i else Ob.hkValue1 i) = r.vals.getD i 0 ∧ bit (m.get (Ob.hkValid i)) l = true)))
  ∧ (s.m.get (Ob.hkState l) = 0 → s.m.hk.groundBad.getD l 0 = 2 → 100 < r.groundUv.natAbs →
    Does (.hkRound r) s (fun m => m.get (Ob.hkState l) = 1 ∧ 29 ∈ m.seenEv ∧ bit (m.get (Ob.hkValid i)) l = false))
  ∧ (s.m.hk.urgent = some (sq, i, l) →
    Does (.hkUrgentDone v) s (fun m => m.hk.urgent = none ∧ m.get (if l = 0 then Ob.hkValue0 i else Ob.hkValue1 i) = v
      ∧ bit (m.get (Ob.hkValid i)) l = true ∧ Tells 30 sevInfo 0 (sq + 65536 * i) s.m m
      ∧ Only ([.hk, .obj] ++ evParts) s.m m
      ∧ OnlyEntries [Ob.hkValue0 i, Ob.hkValue1 i, Ob.hkValid i, Ob.hkTime i] s.m m))

/-- Security (R456, R458, R460, R464). The end of a block frees an address or a mailbox; a certificate within thirty days of its
end raises EV111 once; the verification of an image ends in EV106 and stages it, or, refused, leaves what was staged; the end of
COMMIT_DELAY, run by both lanes, raises the counter of the running image to its SEC_VERSION with EV107, and beside it no counter, and not while a
lane fails. -/
def Obligations.SecurityGoesOn : Prop :=
  ∀ (s : State) (a n w d sq c v p q : Nat) (ia ib img : ImageInfo), n < 4 → w < 5 → sq < 65536 →
  s.m.mbx.length = 4 → s.kept.rollback.length = 64 → s.m.secu.running.length = 2 → s.m.lane < 2 →
  (s.m.net.banned.find? (fun x => x.1 = a) = some (q, p) →
    Does (.authBlockEnd (some a) (.mbx n)) s (fun m => m.net.banned = s.m.net.banned.filter (fun p => p.1 ≠ a)
      ∧ m.net.fails = s.m.net.fails.filter (fun p => p.1 ≠ a) ∧ m.now = max s.m.now p ∧ Only [.clk, .net] s.m m))
  ∧ ((s.m.chanOf (.mbx n)).blocked = some p →
    Does (.authBlockEnd none (.mbx n)) s (fun m => (m.chanOf (.mbx n)).blocked = none ∧ (m.chanOf (.mbx n)).authFails = []
      ∧ m.now = max s.m.now p ∧ Only [.clk, .mbx] s.m m ∧ ∀ k, k < 4 → k ≠ n → m.mbx.getD k {} = s.m.mbx.getD k {}))
  ∧ ((s.m.chanOf (.mbx n)).blocked = none → Does (.authBlockEnd none (.mbx n)) s (fun m => m = s.m))
  ∧ ((w = 0 → s.m.secu.opCert ≠ []) → (w ≠ 0 → s.m.secu.anchors.getD (w - 1) [] ≠ []) → d ≤ 30 → w ∉ s.m.secu.told →
    Does (.certExpiring w d) s (fun m => w ∈ m.secu.told ∧ Tells 111 sevWarn 0x6406 d s.m m ∧ Only (.secu :: evParts) s.m m))
  ∧ (s.m.secu.staging = some sq → (ia.target = 0 ∨ ia.target = 1 ∨ ia.target = 2) → ib.target = ia.target →
    (∀ x ∈ [ia, ib], x.magicOk = true ∧ x.digestOk = true ∧ s.kept.rollback.getD x.counter 0 ≤ x.secVersion ∧ x.dev = false
      ∧ x.hashFused = true ∧ x.revoked = false ∧ x.sigOk = true) →
    Does (.fwStaged ia ib) s (fun m => m.secu.staging = none ∧ m.secu.staged = some (ia, ib) ∧ Tells 106 sevInfo 0 sq s.m m
      ∧ Only (.secu :: evParts) s.m m))
  ∧ (s.m.secu.staging = some sq → (ia.secVersion < s.kept.rollback.getD ia.counter 0 ∨ ia.digestOk = false ∨ ib.digestOk = false) →
    Does (.fwStaged ia ib) s (fun m => m.secu.staging = none ∧ m.secu.staged = s.m.secu.staged ∧ Tells 106 sevWarn 0x6403 sq s.m m
      ∧ Only (.secu :: evParts) s.m m))
  ∧ (s.m.secu.running.getD s.m.lane none = some img → img.counter = c → c < 64 → img.secVersion = v → v ≤ 1023 →
    s.kept.rollback.getD c 0 < v → s.m.cirqueOk = true → s.m.isRedundant = true →
    (s.m.laneFailing = false → Completes .commitDelayExpiry s (fun t => t.kept.rollback.getD c 0 = v
      ∧ (∀ j, j ≠ c → t.kept.rollback.getD j 0 = s.kept.rollback.getD j 0)
      ∧ t.kept.sealA = s.kept.sealA ∧ t.kept.sealB = s.kept.sealB ∧ t.kept.sealState = s.kept.sealState
      ∧ t.m.now = max s.m.now (s.m.arb.bothPs + sPs (s.m.get Ob.commitDelay))
      ∧ Tells 107 sevInfo 0 (c + 256 * v) s.m t.m ∧ Only (.clk :: evParts) s.m t.m))
    ∧ (s.m.laneFailing = true → Completes .commitDelayExpiry s (fun t => t.kept = s.kept ∧ Only [.clk] s.m t.m)))
  ∧ (s.m.isRedundant = false → exec .commitDelayExpiry s = .next s)

/-- Power-up to service (R361, R452 to R454, R471 to R475, R479). The supply brings Serac up, which holds the readings of its
seals; a dip leaves the stored values; the release starts both lanes with the time at 0, and one without lock fails with 1003h;
a boot loader that Cirque accepts runs and another fails with 1001h; the safety die decides the seals: equal and stable
ones give the profile and its times, different ones lock the module out; of two good images the higher version runs;
training marks both lanes, a Rime link that fails on both leaves the field die at fault; the self-test passes, with the carrier
running from there and the later of two configuration regions copied (R7, R69, R476), or fails with 1006h. -/
def Obligations.StartUpGoesOn : Prop :=
  ∀ (s : State) (l b rel : Nat) (sb sa : List Nat) (ia ib : ImageInfo), l < 2 → s.m.lanes.length = 2 →
  (s.m.power.power = false → sb = List.replicate 10 b → b < 256 →
    Completes (.powerOn true sb) s (fun t => t.m.power.power = true ∧ t.kept.sealB = b ∧ t.m.get Ob.sealB = b
      ∧ t.kept.rollback = s.kept.rollback ∧ t.kept.sealA = s.kept.sealA ∧ t.m.power.sealBBad = false ∧ t.m.hk.tcxoLost = false
      ∧ t.m.prot.log = s.m.prot.log)
    ∧ Completes (.powerOn false sb) s (fun t => t.m.power.power = true ∧ t.m.get (Ob.refSource 0) = 1 ∧ t.m.get (Ob.refSource 1) = 1
      ∧ (cellGet dfltOf (Ob.refSource 0) s.m.sto = 0 → 26 ∈ t.m.seenEv)))
  ∧ (s.m.power.power = true → exec (.powerOn true sb) s = .next s)
  ∧ (s.m.secu.certNext = none →
    Does .powerDip s (fun m => m.power.power = false ∧ m.link.ready = false ∧ m.sess = [] ∧ m.prot.log = s.m.prot.log
      ∧ m.obj = s.m.sto ∧ m.sto = s.m.sto))
  ∧ (s.m.power.power = true → s.m.sdc.resetLow = false → s.m.power.released = none →
    Does (.lanesReleased true true) s (fun m => (∀ k, k < 2 → (m.laneAt k).released = true ∧ (m.laneAt k).locked = true
        ∧ m.get (Ob.adpllState k) = 1) ∧ m.power.released = some (max s.m.now s.m.power.relPs) ∧ m.tai = 0
      ∧ Only [.clk, .lanes, .obj, .power] s.m m ∧ OnlyEntries [Ob.adpllState 0, Ob.adpllState 1] s.m m)
    ∧ ((s.m.laneAt 0).failCode = 0 → s.m.arb.armed = false →
      Does (.lanesReleased false true) s (fun m => (m.laneAt 0).failCode = 0x1003 ∧ (m.laneAt 0).failStep = 2
        ∧ m.get (Ob.adpllState 0) = 0 ∧ (m.laneAt 1).locked = true ∧ Only [.clk, .lanes, .obj, .power] s.m m)))
  ∧ (s.m.starts l = true → (s.m.laneAt l).locked = true → (s.m.laneAt l).macFails < 3 →
    (imageOk s.kept s.m 0 ia = true →
      Does (.bootLoaderVerified l ia) s (fun m => (m.laneAt l).boot = true ∧ Only [.lanes] s.m m))
    ∧ (imageOk s.kept s.m 0 ia = false → (s.m.laneAt l).failCode = 0 → s.m.arb.armed = false →
      Does (.bootLoaderVerified l ia) s (fun m => (m.laneAt l).boot = (s.m.laneAt l).boot ∧ (m.laneAt l).failCode = 0x1001
        ∧ (m.laneAt l).failStep = 3 ∧ Only [.lanes] s.m m)))
  ∧ (s.m.power.released = some rel → s.m.power.safetyUp = false → s.m.power.sealDone = false → s.m.power.sealBBad = false →
    sa = List.replicate 10 b → b < 256 →
    (b % 16 < 9 → s.kept.sealB = b →
      Completes (.safetyDieRunning true sa) s (fun t => t.kept.sealA = b ∧ t.kept.sealB = b ∧ t.kept.sealState = 0
        ∧ t.kept.rollback = s.kept.rollback
        ∧ t.m.get Ob.sealA = b ∧ t.m.get Ob.sealState = 0 ∧ t.m.power.safetyUp = true ∧ t.m.get Ob.profileActive = b % 16
        ∧ t.m.get Ob.discTime = [20, 50, 100, 200].getD (b / 16 % 4) 0
        ∧ t.m.get Ob.testInterval = [24, 12, 72, 168].getD (b / 64 % 4) 0))
    ∧ (s.kept.sealB ≠ b →
      Completes (.safetyDieRunning true sa) s (fun t => t.kept.sealA = b ∧ t.kept.sealState = 1 ∧ t.m.sdc.lockout = true
        ∧ t.m.get Ob.sealState = 1)))
  ∧ (s.m.starts l = true → (s.m.laneAt l).boot = true → (s.m.laneAt l).macFails < 3 → s.m.get Ob.certifiedMode ≠ 1 →
    s.m.secu.badImg.all (fun x => x.1 ≠ l) = true → imageOk s.kept s.m 1 ia = true → imageOk s.kept s.m 1 ib = true →
    (ia.version < ib.version → Does (.firmwareImageVerified l ia ib) s (fun m => (m.laneAt l).image = true ∧ (m.laneAt l).imageB = true
      ∧ (m.laneAt l).version = ib.version ∧ (m.laneAt l).reason = 0 ∧ Only [.lanes, .secu] s.m m))
    ∧ (ib.version ≤ ia.version → Does (.firmwareImageVerified l ia ib) s (fun m => (m.laneAt l).image = true ∧ (m.laneAt l).imageB = false
      ∧ (m.laneAt l).version = ia.version ∧ (m.laneAt l).reason = (if ia.version = ib.version then 2 else 0)
      ∧ Only [.lanes, .secu] s.m m)))
  ∧ ((∀ k, k < 2 → s.m.starts k = true ∧ (s.m.laneAt k).image = true) → (s.m.laneAt 0).version = (s.m.laneAt 1).version →
    Does (.floeTraining true true false false) s (fun m => (∀ k, k < 2 → (m.laneAt k).floe = true) ∧ Only [.lanes] s.m m))
  ∧ (s.m.starts l = true →
    Does (.rimeTraining l true) s (fun m => (m.laneAt l).rime = true ∧ (m.laneAt l).rimeFailed = false ∧ Only [.lanes] s.m m)
    ∧ ((s.m.laneAt (1 - l)).rimeFailed = true →
      Does (.rimeTraining l false) s (fun m => m.power.fieldBad = true ∧ Only [.lanes, .power] s.m m)))
  ∧ (s.m.starts l = true → (s.m.laneAt l).image = true →
    Does (.selfTestComplete l true) s (fun m => (m.laneAt l).tested = true ∧ m.clk.running = true
      ∧ (s.m.arb.armed = false → s.m.gens.getD 0 0 ≠ s.m.gens.getD 1 0 →
          m.gens = List.replicate 2 (if genAfter (s.m.gens.getD 1 0) (s.m.gens.getD 0 0) then s.m.gens.getD 1 0 else s.m.gens.getD 0 0))
      ∧ (s.m.gens.getD 0 0 = s.m.gens.getD 1 0 → Only [.clk, .lanes] s.m m) ∧ Only [.clk, .sto, .lanes, .power] s.m m
      ∧ m.sto = s.m.sto)
    ∧ ((s.m.laneAt l).failCode = 0 → s.m.arb.armed = false →
      Does (.selfTestComplete l false) s (fun m => (m.laneAt l).failCode = 0x1006 ∧ (m.laneAt l).failStep = 8
        ∧ Only [.lanes] s.m m)))

/-- Self-measured ageing (R484 to R492). The hundredth block of a link in which its units carry at least
0.3 pu shows the means of its estimates and makes them valid, an hour counts in the bin of its
temperature, and a worn flash warns once with EV127; the baseline learns the references of the valid links; a plan that does not
differ leaves the targets, a frozen one is logged only, and another becomes the target, with its record, its generation and EV124; no
step moves an adjustment while plans are frozen, and a step that reaches every target raises EV125. -/
def Obligations.AgeingGoesOn : Prop :=
  ∀ (s : State) (n c e l k r : Nat) (load : Int), n < 24 → l < 2 → c < 4294967296 → e < 4294967296 → r < 4 →
  s.m.age.blocks.length = 24 → s.m.age.erases.length = 8 →
  (load < 161061274 → Does (.estimateBlock (.linkCap n load c e)) s (fun m => m = s.m))
  ∧ (161061274 ≤ load → s.m.estimates (s.m.linkGroups n) = true → s.m.retired 2 n = false →
    ((s.m.age.blocks.getD n []).length < 99 → Does (.estimateBlock (.linkCap n load c e)) s (fun m =>
      m.age.blocks.getD n [] = s.m.age.blocks.getD n [] ++ [(c, e)] ∧ Only [.age] s.m m))
    ∧ (99 ≤ (s.m.age.blocks.getD n []).length → Does (.estimateBlock (.linkCap n load c e)) s (fun m =>
      m.get (Ob.cEst n) = f32Raw (((lastOf 100 (s.m.age.blocks.getD n []) (c, e)).foldl (fun a x => a + (f32Val x.1).getD 0) 0) / 100)
      ∧ m.get (Ob.esrEst n) = f32Raw (((lastOf 100 (s.m.age.blocks.getD n []) (c, e)).foldl (fun a x => a + (f32Val x.2).getD 0) 0) / 100)
      ∧ m.get (Ob.estValid n) = 1 ∧ (0, n) ∈ m.age.valid
      ∧ Only [.obj, .age] s.m m ∧ OnlyEntries [Ob.cEst n, Ob.esrEst n, Ob.estValid n] s.m m)))
  ∧ (8500 ≤ s.m.getS16 Ob.dieTemp → s.m.getS16 Ob.dieTemp < 10500 →
    Does (.estimateBlock .dieHour) s (fun m => m.get (Ob.dieHours 1) = (s.m.get (Ob.dieHours 1) + 1) % 4294967296
      ∧ m.age.opHours = (if s.m.get Ob.moduleState = 2 then s.m.age.opHours + 1 else s.m.age.opHours)
      ∧ m.now = max s.m.now (s.m.age.hourPs + sPs 3600)
      ∧ Only [.clk, .age, .obj, .sto] s.m m ∧ OnlyEntries [Ob.dieHours 1] s.m m))
  ∧ (80000 ≤ k → (∀ j, j < 4 → s.m.age.erases.getD (4 * l + j) 0 ≤ k) → (∀ x ∈ s.m.age.warned, x ≠ 2 * 0x6004 + l) →
    Does (.estimateBlock (.flashWear l r k)) s (fun m => m.get (Ob.flashWear l) = min (k / 1000) 255 ∧ Tells 127 sevWarn 0x6004 l s.m m
      ∧ Only ([.obj, .age] ++ evParts) s.m m ∧ OnlyEntries [Ob.flashWear l] s.m m))
  ∧ Does .baselineComplete s (fun m => (s.m.baselineOver 0 n = true → (0, n) ∈ s.m.age.valid → (∀ x ∈ s.m.age.learned, x.1 ≠ n) →
        (n, s.m.get (Ob.cEst n), s.m.get (Ob.esrEst n)) ∈ m.age.learned ∧ (0, n) ∈ m.age.based)
      ∧ (∀ x ∈ s.m.age.learned, x ∈ m.age.learned) ∧ Only [.age] s.m m)
  ∧ (s.m.differs s.m.planTargets s.m.age.target = false →
    Does .planCompute s (fun m => m.now = max s.m.now (s.m.age.planPs + sPs (3600 * s.m.get Ob.planPeriod))
      ∧ m.age = { s.m.age with planPs := m.now } ∧ Only [.clk, .age] s.m m))
  ∧ (s.m.differs s.m.planTargets s.m.age.target = true → s.m.get Ob.planFreeze = 1 →
    Does .planCompute s (fun m => m.age.target = s.m.age.target
      ∧ (∃ x, m.age.frozen = some (x, s.m.planTargets) ∧ m.age.log.getLast? = some x ∧ x.state = 0 ∧ x.time = m.t64)
      ∧ Only [.clk, .age] s.m m))
  ∧ (s.m.differs s.m.planTargets s.m.age.target = true → s.m.get Ob.planFreeze = 0 → s.m.age.frozen = none →
    Does .planCompute s (fun m => m.age.target = s.m.planTargets ∧ m.age.moving = true
      ∧ m.get Ob.planGen = (s.m.get Ob.planGen + 1) % 4294967296 ∧ 124 ∈ m.seenEv
      ∧ (∃ x, m.age.log.getLast? = some x ∧ x.state = 1 ∧ x.time = m.t64 ∧ x.prev = s.m.get Ob.planGen)
      ∧ Only ([.clk, .age, .obj, .sto] ++ evParts) s.m m))
  ∧ (s.m.get Ob.planFreeze = 1 → exec .planStep s = .next s)
  ∧ (s.m.get Ob.planFreeze = 0 → s.m.age.moving = true → s.m.stepped.done = true →
    Does .planStep s (fun m => m.age.moving = false ∧ 125 ∈ m.seenEv ∧ m.get Ob.planState = (if s.m.get Ob.planGen = 0 then 0 else 2)
      ∧ m.now = max s.m.now (s.m.age.stepPs + sPs 60) ∧ m.age.stepPs = m.now ∧ (∀ x ∈ m.age.log, x.state ≠ 1)))
  ∧ (s.m.get Ob.planFreeze = 0 → s.m.allAtRest = true →
    Does .planStep s (fun m => m.age.derate = s.m.age.target.derate))

/-- After a reset (R471 to R474) the block waits for its supply: no command waits, the host link is not ready, no lane holds the
grant, K1 and K2 are open, both stores are in canonical form and list nothing, every counter of Cirque is 0 (the model's choice, log entry 7); with no command waiting the block idles (the model's choice, log
entry 2). -/
def Obligations.ResetHoldsDefaults : Prop :=
  State.reset.pending = [] ∧ State.reset.m.link.ready = false ∧ State.reset.m.arb.grant = none ∧ State.reset.m.power.power = false
  ∧ State.reset.m.sdc.k1 = false ∧ State.reset.m.sdc.k2 = false
  ∧ (∀ k, State.reset.m.get k = dfltOf k) ∧ cellsOk dfltOf State.reset.m.obj = true ∧ cellsOk dfltOf State.reset.m.sto = true
  ∧ State.reset.kept.rollback.length = 64 ∧ (∀ v ∈ State.reset.kept.rollback, v = 0)
  ∧ (∀ s : State, s.pending = [] → step s = .next s)

/-- The 64 counters of Cirque (R458): in every state that has them, each from 0 to 1023, every step leaves 64 counters, each from
0 to 1023, and none lower than before: no command, no reset, no power cycle and no new image lowers one. -/
def Obligations.CountersNeverFall : Prop :=
  ∀ s t : State, s.kept.rollback.length = 64 → (∀ v ∈ s.kept.rollback, v ≤ 1023) → step s = .next t →
    t.kept.rollback.length = 64 ∧ (∀ v ∈ t.kept.rollback, v ≤ 1023)
    ∧ ∀ c, s.kept.rollback.getD c 0 ≤ t.kept.rollback.getD c 0

/-- The seals (R361, R362): no step but the power-up of Serac changes its reading, no step but the start of the safety die changes
channel A's reading or the verdict, and, once the verdict is reached, not even that: it holds until the supply rises again. -/
def Obligations.SealsHoldUntilPowerUp : Prop :=
  ∀ s t : State, step s = .next t →
    ((∀ tcxo r, s.pending.head? ≠ some (.powerOn tcxo r)) → t.kept.sealB = s.kept.sealB)
    ∧ ((∀ st r, s.pending.head? ≠ some (.safetyDieRunning st r)) →
        t.kept.sealA = s.kept.sealA ∧ t.kept.sealState = s.kept.sealState)
    ∧ (s.m.power.sealDone = true → t.kept.sealA = s.kept.sealA ∧ t.kept.sealState = s.kept.sealState)
    ∧ (s.m.power.power = true → t.kept.sealB = s.kept.sealB)
end

