-- ==== Sys2Proof/Laws/Store.lean ====
section
/-!
SUPPORT. The object store (R8, R10): reading after a write, and the canonical form that every write keeps.
-/
namespace Sys2Proof.Machine

variable {d : Nat → Nat} {k j v : Nat} {l : List (Nat × Nat)}

/-! ### Reading -/

theorem cellGet_cellPut_same : cellGet d k (cellPut k v l) = v := by
  induction l with
  | nil => simp [cellPut, cellGet]
  | cons p ps ih => unfold cellPut; split <;> (try split) <;> simp_all [cellGet]

theorem cellGet_cellPut_other (hj : j ≠ k) : cellGet d j (cellPut k v l) = cellGet d j l := by
  induction l with
  | nil => simp [cellPut, cellGet, Ne.symm hj]
  | cons p ps ih =>
    unfold cellPut
    split
    · rename_i h
      simp [cellGet, h, Ne.symm hj]
    · split <;> simp [cellGet, ih, Ne.symm hj]

theorem cellGet_cellDrop_same : cellGet d k (cellDrop k l) = d k := by
  induction l with
  | nil => rfl
  | cons p ps ih => unfold cellDrop; split <;> simp_all [cellGet]

theorem cellGet_cellDrop_other (hj : j ≠ k) : cellGet d j (cellDrop k l) = cellGet d j l := by
  induction l with
  | nil => rfl
  | cons p ps ih =>
    unfold cellDrop
    split
    · rename_i h
      simp [cellGet, ih, h, Ne.symm hj]
    · simp [cellGet, ih]

/-- A read after a write of the same entry gives the value written. -/
theorem cellGet_cellSet_same : cellGet d k (cellSet d k v l) = v := by
  unfold cellSet
  split
  · rename_i h
    rw [cellGet_cellDrop_same, h]
  · exact cellGet_cellPut_same

/-- A write leaves every other entry as it was. -/
theorem cellGet_cellSet_other (hj : j ≠ k) : cellGet d j (cellSet d k v l) = cellGet d j l := by
  unfold cellSet
  split
  · exact cellGet_cellDrop_other hj
  · exact cellGet_cellPut_other hj

/-! ### The canonical form -/

theorem cellsFrom_raise {a : Option Nat} {b : Nat} (h : cellsFrom d (some b) l = true) (ha : ∀ i, a = some i → i ≤ b) :
    cellsFrom d a l = true := by
  cases l with
  | nil => simp [cellsFrom]
  | cons p ps =>
    simp only [cellsFrom, Bool.and_eq_true, decide_eq_true_eq] at h
    cases a with
    | none => simp [cellsFrom, h]
    | some i =>
      have := ha i rfl
      simp only [cellsFrom, Bool.and_eq_true, decide_eq_true_eq]
      exact ⟨⟨by omega, h.1.2⟩, h.2⟩

theorem cellsFrom_cellDrop {lo : Option Nat} (h : cellsFrom d lo l = true) : cellsFrom d lo (cellDrop k l) = true := by
  induction l generalizing lo with
  | nil => simp [cellDrop, cellsFrom]
  | cons p ps ih =>
    simp only [cellsFrom, Bool.and_eq_true] at h
    unfold cellDrop
    split
    · refine cellsFrom_raise (ih h.2) (fun i hi => ?_)
      subst hi
      exact Nat.le_of_lt (by simpa using h.1.1)
    · simp only [cellsFrom, Bool.and_eq_true]
      exact ⟨h.1, ih h.2⟩

theorem cellsFrom_cellPut {lo : Option Nat} (h : cellsFrom d lo l = true) (hv : v ≠ d k)
    (hlo : ∀ b, lo = some b → b < k) : cellsFrom d lo (cellPut k v l) = true := by
  induction l generalizing lo with
  | nil => cases lo <;> simp_all [cellPut, cellsFrom]
  | cons p ps ih =>
    have hp := h
    simp only [cellsFrom, Bool.and_eq_true] at h
    unfold cellPut
    split
    · rename_i h1
      subst h1
      cases lo <;> simp_all [cellsFrom]
    · split
      · rename_i h1 h2
        cases lo <;> simp_all [cellsFrom]
      · rename_i h1 h2
        simp only [cellsFrom, Bool.and_eq_true]
        refine ⟨h.1, ih h.2 (fun b hb => ?_)⟩
        injection hb
        omega

/-- A write keeps the canonical form. -/
theorem cellsOk_cellSet (h : cellsOk d l = true) : cellsOk d (cellSet d k v l) = true := by
  unfold cellSet
  split
  · exact cellsFrom_cellDrop h
  · rename_i hv
    exact cellsFrom_cellPut h hv (by simp)

/-! ### Entries of the module -/

@[simp] theorem get_put_same (m : Mod) : (m.put k v).get k = v := cellGet_cellSet_same

theorem get_put_other (m : Mod) (hj : j ≠ k) : (m.put k v).get j = m.get j := cellGet_cellSet_other hj

@[simp] theorem get_keep_same (m : Mod) : (m.keep k v).get k = v := cellGet_cellSet_same

theorem get_keep_other (m : Mod) (hj : j ≠ k) : (m.keep k v).get j = m.get j := cellGet_cellSet_other hj

/-- What an entry reads as after a write. -/
theorem get_put (m : Mod) : (m.put k v).get j = if j = k then v else m.get j := by
  split
  · subst j; exact get_put_same m
  · exact get_put_other m ‹_›

theorem get_keep (m : Mod) : (m.keep k v).get j = if j = k then v else m.get j := by
  split
  · subst j; exact get_keep_same m
  · exact get_keep_other m ‹_›

theorem put_canonical {m : Mod} (h : cellsOk dfltOf m.obj = true) : cellsOk dfltOf (m.put k v).obj = true := cellsOk_cellSet h

theorem keep_canonical {m : Mod} (h : cellsOk dfltOf m.sto = true) : cellsOk dfltOf (m.keep k v).sto = true := cellsOk_cellSet h

end Sys2Proof.Machine
end

