-- ==== Sys2Proof/Laws/State.lean ====
section
/-!
SUPPORT. What each update of the state leaves: one lemma per field, true by rfl, and what raising an event leaves.
-/
namespace Sys2Proof.Machine

variable (m : Mod) (k v : Nat)

/-! ### Derived writes of an entry -/

@[simp] theorem putQ_eq (x : Int) : m.putQ k x = m.put k (Raw.ofInt 32 (sat29 x)) := rfl
@[simp] theorem putS_eq (x : Int) : m.putS k x = m.put k (Raw.ofInt 32 (clampI (-2147483648) 2147483647 x)) := rfl
@[simp] theorem putS16_eq (x : Int) : m.putS16 k x = m.put k (Raw.ofInt 16 (clampI (-32768) 32767 x)) := rfl
@[simp] theorem putF_eq (x : Rat) : m.putF k x = m.put k (f32Raw x) := rfl
@[simp] theorem bump_eq : m.bump k = m.put k ((m.get k + 1) % 4294967296) := rfl
@[simp] theorem putBit_eq (i : Nat) (b : Bool) : m.putBit k i b = m.put k (setBit (m.get k) i b) := rfl
@[simp] theorem raise_eq (ev sev fault arg : Nat) : m.raise ev sev fault arg = m.raiseAt m.t32 ev sev fault arg := rfl
@[simp] theorem inform_eq (ev arg : Nat) : m.inform ev arg = m.raiseAt m.t32 ev sevInfo 0 arg := rfl

/-! ### A value put in force -/

@[simp] theorem put_clk : (m.put k v).clk = m.clk := rfl
@[simp] theorem put_sto : (m.put k v).sto = m.sto := rfl
@[simp] theorem put_gens : (m.put k v).gens = m.gens := rfl
@[simp] theorem put_link : (m.put k v).link = m.link := rfl
@[simp] theorem put_mbx : (m.put k v).mbx = m.mbx := rfl
@[simp] theorem put_sess : (m.put k v).sess = m.sess := rfl
@[simp] theorem put_hostQ : (m.put k v).hostQ = m.hostQ := rfl
@[simp] theorem put_qseq : (m.put k v).qseq = m.qseq := rfl
@[simp] theorem put_streams : (m.put k v).streams = m.streams := rfl
@[simp] theorem put_staged : (m.put k v).staged = m.staged := rfl
@[simp] theorem put_acts : (m.put k v).acts = m.acts := rfl
@[simp] theorem put_sched : (m.put k v).sched = m.sched := rfl
@[simp] theorem put_order : (m.put k v).order = m.order := rfl
@[simp] theorem put_free : (m.put k v).free = m.free := rfl
@[simp] theorem put_seenEv : (m.put k v).seenEv = m.seenEv := rfl
@[simp] theorem put_grp : (m.put k v).grp = m.grp := rfl
@[simp] theorem put_pairs : (m.put k v).pairs = m.pairs := rfl
@[simp] theorem put_idle : (m.put k v).idle = m.idle := rfl
@[simp] theorem put_prot : (m.put k v).prot = m.prot := rfl
@[simp] theorem put_sdc : (m.put k v).sdc = m.sdc := rfl
@[simp] theorem put_sec : (m.put k v).sec = m.sec := rfl
@[simp] theorem put_dc : (m.put k v).dc = m.dc := rfl
@[simp] theorem put_fld : (m.put k v).fld = m.fld := rfl
@[simp] theorem put_fgrp : (m.put k v).fgrp = m.fgrp := rfl
@[simp] theorem put_rime : (m.put k v).rime = m.rime := rfl
@[simp] theorem put_lanes : (m.put k v).lanes = m.lanes := rfl
@[simp] theorem put_arb : (m.put k v).arb = m.arb := rfl
@[simp] theorem put_eng : (m.put k v).eng = m.eng := rfl
@[simp] theorem put_saved : (m.put k v).saved = m.saved := rfl
@[simp] theorem put_trace : (m.put k v).trace = m.trace := rfl
@[simp] theorem put_inj : (m.put k v).inj = m.inj := rfl
@[simp] theorem put_hostSet : (m.put k v).hostSet = m.hostSet := rfl
@[simp] theorem put_lost : (m.put k v).lost = m.lost := rfl
@[simp] theorem put_meas : (m.put k v).meas = m.meas := rfl
@[simp] theorem put_time : (m.put k v).time = m.time := rfl
@[simp] theorem put_net : (m.put k v).net = m.net := rfl
@[simp] theorem put_secu : (m.put k v).secu = m.secu := rfl
@[simp] theorem put_therm : (m.put k v).therm = m.therm := rfl
@[simp] theorem put_cd : (m.put k v).cd = m.cd := rfl
@[simp] theorem put_hk : (m.put k v).hk = m.hk := rfl
@[simp] theorem put_age : (m.put k v).age = m.age := rfl
@[simp] theorem put_power : (m.put k v).power = m.power := rfl

/-! ### A value kept -/

@[simp] theorem keep_clk : (m.keep k v).clk = m.clk := rfl
@[simp] theorem keep_link : (m.keep k v).link = m.link := rfl
@[simp] theorem keep_mbx : (m.keep k v).mbx = m.mbx := rfl
@[simp] theorem keep_sess : (m.keep k v).sess = m.sess := rfl
@[simp] theorem keep_hostQ : (m.keep k v).hostQ = m.hostQ := rfl
@[simp] theorem keep_qseq : (m.keep k v).qseq = m.qseq := rfl
@[simp] theorem keep_streams : (m.keep k v).streams = m.streams := rfl
@[simp] theorem keep_staged : (m.keep k v).staged = m.staged := rfl
@[simp] theorem keep_acts : (m.keep k v).acts = m.acts := rfl
@[simp] theorem keep_sched : (m.keep k v).sched = m.sched := rfl
@[simp] theorem keep_order : (m.keep k v).order = m.order := rfl
@[simp] theorem keep_free : (m.keep k v).free = m.free := rfl
@[simp] theorem keep_seenEv : (m.keep k v).seenEv = m.seenEv := rfl
@[simp] theorem keep_grp : (m.keep k v).grp = m.grp := rfl
@[simp] theorem keep_pairs : (m.keep k v).pairs = m.pairs := rfl
@[simp] theorem keep_idle : (m.keep k v).idle = m.idle := rfl
@[simp] theorem keep_prot : (m.keep k v).prot = m.prot := rfl
@[simp] theorem keep_sdc : (m.keep k v).sdc = m.sdc := rfl
@[simp] theorem keep_sec : (m.keep k v).sec = m.sec := rfl
@[simp] theorem keep_dc : (m.keep k v).dc = m.dc := rfl
@[simp] theorem keep_fld : (m.keep k v).fld = m.fld := rfl
@[simp] theorem keep_fgrp : (m.keep k v).fgrp = m.fgrp := rfl
@[simp] theorem keep_rime : (m.keep k v).rime = m.rime := rfl
@[simp] theorem keep_lanes : (m.keep k v).lanes = m.lanes := rfl
@[simp] theorem keep_arb : (m.keep k v).arb = m.arb := rfl
@[simp] theorem keep_eng : (m.keep k v).eng = m.eng := rfl
@[simp] theorem keep_saved : (m.keep k v).saved = m.saved := rfl
@[simp] theorem keep_trace : (m.keep k v).trace = m.trace := rfl
@[simp] theorem keep_inj : (m.keep k v).inj = m.inj := rfl
@[simp] theorem keep_hostSet : (m.keep k v).hostSet = m.hostSet := rfl
@[simp] theorem keep_lost : (m.keep k v).lost = m.lost := rfl
@[simp] theorem keep_meas : (m.keep k v).meas = m.meas := rfl
@[simp] theorem keep_time : (m.keep k v).time = m.time := rfl
@[simp] theorem keep_net : (m.keep k v).net = m.net := rfl
@[simp] theorem keep_secu : (m.keep k v).secu = m.secu := rfl
@[simp] theorem keep_therm : (m.keep k v).therm = m.therm := rfl
@[simp] theorem keep_cd : (m.keep k v).cd = m.cd := rfl
@[simp] theorem keep_hk : (m.keep k v).hk = m.hk := rfl
@[simp] theorem keep_age : (m.keep k v).age = m.age := rfl
@[simp] theorem keep_power : (m.keep k v).power = m.power := rfl

/-! ### An instant reached -/

@[simp] theorem reach_obj : (m.reach k).obj = m.obj := rfl
@[simp] theorem reach_sto : (m.reach k).sto = m.sto := rfl
@[simp] theorem reach_gens : (m.reach k).gens = m.gens := rfl
@[simp] theorem reach_link : (m.reach k).link = m.link := rfl
@[simp] theorem reach_mbx : (m.reach k).mbx = m.mbx := rfl
@[simp] theorem reach_sess : (m.reach k).sess = m.sess := rfl
@[simp] theorem reach_hostQ : (m.reach k).hostQ = m.hostQ := rfl
@[simp] theorem reach_qseq : (m.reach k).qseq = m.qseq := rfl
@[simp] theorem reach_streams : (m.reach k).streams = m.streams := rfl
@[simp] theorem reach_staged : (m.reach k).staged = m.staged := rfl
@[simp] theorem reach_acts : (m.reach k).acts = m.acts := rfl
@[simp] theorem reach_sched : (m.reach k).sched = m.sched := rfl
@[simp] theorem reach_order : (m.reach k).order = m.order := rfl
@[simp] theorem reach_free : (m.reach k).free = m.free := rfl
@[simp] theorem reach_seenEv : (m.reach k).seenEv = m.seenEv := rfl
@[simp] theorem reach_grp : (m.reach k).grp = m.grp := rfl
@[simp] theorem reach_pairs : (m.reach k).pairs = m.pairs := rfl
@[simp] theorem reach_idle : (m.reach k).idle = m.idle := rfl
@[simp] theorem reach_prot : (m.reach k).prot = m.prot := rfl
@[simp] theorem reach_sdc : (m.reach k).sdc = m.sdc := rfl
@[simp] theorem reach_sec : (m.reach k).sec = m.sec := rfl
@[simp] theorem reach_dc : (m.reach k).dc = m.dc := rfl
@[simp] theorem reach_fld : (m.reach k).fld = m.fld := rfl
@[simp] theorem reach_fgrp : (m.reach k).fgrp = m.fgrp := rfl
@[simp] theorem reach_rime : (m.reach k).rime = m.rime := rfl
@[simp] theorem reach_lanes : (m.reach k).lanes = m.lanes := rfl
@[simp] theorem reach_arb : (m.reach k).arb = m.arb := rfl
@[simp] theorem reach_eng : (m.reach k).eng = m.eng := rfl
@[simp] theorem reach_saved : (m.reach k).saved = m.saved := rfl
@[simp] theorem reach_trace : (m.reach k).trace = m.trace := rfl
@[simp] theorem reach_inj : (m.reach k).inj = m.inj := rfl
@[simp] theorem reach_hostSet : (m.reach k).hostSet = m.hostSet := rfl
@[simp] theorem reach_lost : (m.reach k).lost = m.lost := rfl
@[simp] theorem reach_meas : (m.reach k).meas = m.meas := rfl
@[simp] theorem reach_time : (m.reach k).time = m.time := rfl
@[simp] theorem reach_net : (m.reach k).net = m.net := rfl
@[simp] theorem reach_secu : (m.reach k).secu = m.secu := rfl
@[simp] theorem reach_therm : (m.reach k).therm = m.therm := rfl
@[simp] theorem reach_cd : (m.reach k).cd = m.cd := rfl
@[simp] theorem reach_hk : (m.reach k).hk = m.hk := rfl
@[simp] theorem reach_age : (m.reach k).age = m.age := rfl
@[simp] theorem reach_power : (m.reach k).power = m.power := rfl

/-! ### Time passing -/

@[simp] theorem pass_obj : (m.pass k).obj = m.obj := rfl
@[simp] theorem pass_sto : (m.pass k).sto = m.sto := rfl
@[simp] theorem pass_gens : (m.pass k).gens = m.gens := rfl
@[simp] theorem pass_link : (m.pass k).link = m.link := rfl
@[simp] theorem pass_mbx : (m.pass k).mbx = m.mbx := rfl
@[simp] theorem pass_sess : (m.pass k).sess = m.sess := rfl
@[simp] theorem pass_hostQ : (m.pass k).hostQ = m.hostQ := rfl
@[simp] theorem pass_qseq : (m.pass k).qseq = m.qseq := rfl
@[simp] theorem pass_streams : (m.pass k).streams = m.streams := rfl
@[simp] theorem pass_staged : (m.pass k).staged = m.staged := rfl
@[simp] theorem pass_acts : (m.pass k).acts = m.acts := rfl
@[simp] theorem pass_sched : (m.pass k).sched = m.sched := rfl
@[simp] theorem pass_order : (m.pass k).order = m.order := rfl
@[simp] theorem pass_free : (m.pass k).free = m.free := rfl
@[simp] theorem pass_seenEv : (m.pass k).seenEv = m.seenEv := rfl
@[simp] theorem pass_grp : (m.pass k).grp = m.grp := rfl
@[simp] theorem pass_pairs : (m.pass k).pairs = m.pairs := rfl
@[simp] theorem pass_idle : (m.pass k).idle = m.idle := rfl
@[simp] theorem pass_prot : (m.pass k).prot = m.prot := rfl
@[simp] theorem pass_sdc : (m.pass k).sdc = m.sdc := rfl
@[simp] theorem pass_sec : (m.pass k).sec = m.sec := rfl
@[simp] theorem pass_dc : (m.pass k).dc = m.dc := rfl
@[simp] theorem pass_fld : (m.pass k).fld = m.fld := rfl
@[simp] theorem pass_fgrp : (m.pass k).fgrp = m.fgrp := rfl
@[simp] theorem pass_rime : (m.pass k).rime = m.rime := rfl
@[simp] theorem pass_lanes : (m.pass k).lanes = m.lanes := rfl
@[simp] theorem pass_arb : (m.pass k).arb = m.arb := rfl
@[simp] theorem pass_eng : (m.pass k).eng = m.eng := rfl
@[simp] theorem pass_saved : (m.pass k).saved = m.saved := rfl
@[simp] theorem pass_trace : (m.pass k).trace = m.trace := rfl
@[simp] theorem pass_inj : (m.pass k).inj = m.inj := rfl
@[simp] theorem pass_hostSet : (m.pass k).hostSet = m.hostSet := rfl
@[simp] theorem pass_lost : (m.pass k).lost = m.lost := rfl
@[simp] theorem pass_meas : (m.pass k).meas = m.meas := rfl
@[simp] theorem pass_time : (m.pass k).time = m.time := rfl
@[simp] theorem pass_net : (m.pass k).net = m.net := rfl
@[simp] theorem pass_secu : (m.pass k).secu = m.secu := rfl
@[simp] theorem pass_therm : (m.pass k).therm = m.therm := rfl
@[simp] theorem pass_cd : (m.pass k).cd = m.cd := rfl
@[simp] theorem pass_hk : (m.pass k).hk = m.hk := rfl
@[simp] theorem pass_age : (m.pass k).age = m.age := rfl
@[simp] theorem pass_power : (m.pass k).power = m.power := rfl

/-! ### One unit changed -/

@[simp] theorem modSec_clk (s : Nat) (f : SecRt → SecRt) : (m.modSec s f).clk = m.clk := rfl
@[simp] theorem modSec_obj (s : Nat) (f : SecRt → SecRt) : (m.modSec s f).obj = m.obj := rfl
@[simp] theorem modSec_sto (s : Nat) (f : SecRt → SecRt) : (m.modSec s f).sto = m.sto := rfl
@[simp] theorem modSec_seenEv (s : Nat) (f : SecRt → SecRt) : (m.modSec s f).seenEv = m.seenEv := rfl
@[simp] theorem modSec_grp (s : Nat) (f : SecRt → SecRt) : (m.modSec s f).grp = m.grp := rfl
@[simp] theorem modSec_sdc (s : Nat) (f : SecRt → SecRt) : (m.modSec s f).sdc = m.sdc := rfl
@[simp] theorem modSec_arb (s : Nat) (f : SecRt → SecRt) : (m.modSec s f).arb = m.arb := rfl
@[simp] theorem modSec_power (s : Nat) (f : SecRt → SecRt) : (m.modSec s f).power = m.power := rfl
@[simp] theorem modSec_prot (s : Nat) (f : SecRt → SecRt) : (m.modSec s f).prot = m.prot := rfl
@[simp] theorem modSec_dc (s : Nat) (f : SecRt → SecRt) : (m.modSec s f).dc = m.dc := rfl
@[simp] theorem modSec_fld (s : Nat) (f : SecRt → SecRt) : (m.modSec s f).fld = m.fld := rfl
@[simp] theorem modSec_time (s : Nat) (f : SecRt → SecRt) : (m.modSec s f).time = m.time := rfl
@[simp] theorem modSec_therm (s : Nat) (f : SecRt → SecRt) : (m.modSec s f).therm = m.therm := rfl
@[simp] theorem modSec_cd (s : Nat) (f : SecRt → SecRt) : (m.modSec s f).cd = m.cd := rfl
@[simp] theorem modSec_hk (s : Nat) (f : SecRt → SecRt) : (m.modSec s f).hk = m.hk := rfl
@[simp] theorem modSec_age (s : Nat) (f : SecRt → SecRt) : (m.modSec s f).age = m.age := rfl
@[simp] theorem modSec_secu (s : Nat) (f : SecRt → SecRt) : (m.modSec s f).secu = m.secu := rfl
@[simp] theorem modSec_lanes (s : Nat) (f : SecRt → SecRt) : (m.modSec s f).lanes = m.lanes := rfl
@[simp] theorem modSec_inj (s : Nat) (f : SecRt → SecRt) : (m.modSec s f).inj = m.inj := rfl
@[simp] theorem modSec_trace (s : Nat) (f : SecRt → SecRt) : (m.modSec s f).trace = m.trace := rfl
@[simp] theorem modSec_meas (s : Nat) (f : SecRt → SecRt) : (m.modSec s f).meas = m.meas := rfl
@[simp] theorem modDc_clk (c : Nat) (f : DcRt → DcRt) : (m.modDc c f).clk = m.clk := rfl
@[simp] theorem modDc_obj (c : Nat) (f : DcRt → DcRt) : (m.modDc c f).obj = m.obj := rfl
@[simp] theorem modDc_sto (c : Nat) (f : DcRt → DcRt) : (m.modDc c f).sto = m.sto := rfl
@[simp] theorem modDc_seenEv (c : Nat) (f : DcRt → DcRt) : (m.modDc c f).seenEv = m.seenEv := rfl
@[simp] theorem modDc_grp (c : Nat) (f : DcRt → DcRt) : (m.modDc c f).grp = m.grp := rfl
@[simp] theorem modDc_sdc (c : Nat) (f : DcRt → DcRt) : (m.modDc c f).sdc = m.sdc := rfl
@[simp] theorem modDc_arb (c : Nat) (f : DcRt → DcRt) : (m.modDc c f).arb = m.arb := rfl
@[simp] theorem modDc_power (c : Nat) (f : DcRt → DcRt) : (m.modDc c f).power = m.power := rfl
@[simp] theorem modDc_prot (c : Nat) (f : DcRt → DcRt) : (m.modDc c f).prot = m.prot := rfl
@[simp] theorem modDc_sec (c : Nat) (f : DcRt → DcRt) : (m.modDc c f).sec = m.sec := rfl
@[simp] theorem modDc_fld (c : Nat) (f : DcRt → DcRt) : (m.modDc c f).fld = m.fld := rfl
@[simp] theorem modDc_time (c : Nat) (f : DcRt → DcRt) : (m.modDc c f).time = m.time := rfl
@[simp] theorem modDc_therm (c : Nat) (f : DcRt → DcRt) : (m.modDc c f).therm = m.therm := rfl
@[simp] theorem modDc_cd (c : Nat) (f : DcRt → DcRt) : (m.modDc c f).cd = m.cd := rfl
@[simp] theorem modDc_hk (c : Nat) (f : DcRt → DcRt) : (m.modDc c f).hk = m.hk := rfl
@[simp] theorem modDc_age (c : Nat) (f : DcRt → DcRt) : (m.modDc c f).age = m.age := rfl
@[simp] theorem modDc_secu (c : Nat) (f : DcRt → DcRt) : (m.modDc c f).secu = m.secu := rfl
@[simp] theorem modDc_lanes (c : Nat) (f : DcRt → DcRt) : (m.modDc c f).lanes = m.lanes := rfl
@[simp] theorem modDc_inj (c : Nat) (f : DcRt → DcRt) : (m.modDc c f).inj = m.inj := rfl
@[simp] theorem modDc_trace (c : Nat) (f : DcRt → DcRt) : (m.modDc c f).trace = m.trace := rfl
@[simp] theorem modDc_meas (c : Nat) (f : DcRt → DcRt) : (m.modDc c f).meas = m.meas := rfl
@[simp] theorem modGrp_clk (g : Nat) (f : GrpRt → GrpRt) : (m.modGrp g f).clk = m.clk := rfl
@[simp] theorem modGrp_obj (g : Nat) (f : GrpRt → GrpRt) : (m.modGrp g f).obj = m.obj := rfl
@[simp] theorem modGrp_sto (g : Nat) (f : GrpRt → GrpRt) : (m.modGrp g f).sto = m.sto := rfl
@[simp] theorem modGrp_seenEv (g : Nat) (f : GrpRt → GrpRt) : (m.modGrp g f).seenEv = m.seenEv := rfl
@[simp] theorem modGrp_sdc (g : Nat) (f : GrpRt → GrpRt) : (m.modGrp g f).sdc = m.sdc := rfl
@[simp] theorem modGrp_arb (g : Nat) (f : GrpRt → GrpRt) : (m.modGrp g f).arb = m.arb := rfl
@[simp] theorem modGrp_power (g : Nat) (f : GrpRt → GrpRt) : (m.modGrp g f).power = m.power := rfl
@[simp] theorem modGrp_prot (g : Nat) (f : GrpRt → GrpRt) : (m.modGrp g f).prot = m.prot := rfl
@[simp] theorem modGrp_sec (g : Nat) (f : GrpRt → GrpRt) : (m.modGrp g f).sec = m.sec := rfl
@[simp] theorem modGrp_dc (g : Nat) (f : GrpRt → GrpRt) : (m.modGrp g f).dc = m.dc := rfl
@[simp] theorem modGrp_fld (g : Nat) (f : GrpRt → GrpRt) : (m.modGrp g f).fld = m.fld := rfl
@[simp] theorem modGrp_time (g : Nat) (f : GrpRt → GrpRt) : (m.modGrp g f).time = m.time := rfl
@[simp] theorem modGrp_therm (g : Nat) (f : GrpRt → GrpRt) : (m.modGrp g f).therm = m.therm := rfl
@[simp] theorem modGrp_cd (g : Nat) (f : GrpRt → GrpRt) : (m.modGrp g f).cd = m.cd := rfl
@[simp] theorem modGrp_hk (g : Nat) (f : GrpRt → GrpRt) : (m.modGrp g f).hk = m.hk := rfl
@[simp] theorem modGrp_age (g : Nat) (f : GrpRt → GrpRt) : (m.modGrp g f).age = m.age := rfl
@[simp] theorem modGrp_secu (g : Nat) (f : GrpRt → GrpRt) : (m.modGrp g f).secu = m.secu := rfl
@[simp] theorem modGrp_lanes (g : Nat) (f : GrpRt → GrpRt) : (m.modGrp g f).lanes = m.lanes := rfl
@[simp] theorem modGrp_inj (g : Nat) (f : GrpRt → GrpRt) : (m.modGrp g f).inj = m.inj := rfl
@[simp] theorem modGrp_trace (g : Nat) (f : GrpRt → GrpRt) : (m.modGrp g f).trace = m.trace := rfl
@[simp] theorem modGrp_meas (g : Nat) (f : GrpRt → GrpRt) : (m.modGrp g f).meas = m.meas := rfl
@[simp] theorem modPair_clk (p : Nat) (f : PairRt → PairRt) : (m.modPair p f).clk = m.clk := rfl
@[simp] theorem modPair_obj (p : Nat) (f : PairRt → PairRt) : (m.modPair p f).obj = m.obj := rfl
@[simp] theorem modPair_sto (p : Nat) (f : PairRt → PairRt) : (m.modPair p f).sto = m.sto := rfl
@[simp] theorem modPair_seenEv (p : Nat) (f : PairRt → PairRt) : (m.modPair p f).seenEv = m.seenEv := rfl
@[simp] theorem modPair_grp (p : Nat) (f : PairRt → PairRt) : (m.modPair p f).grp = m.grp := rfl
@[simp] theorem modPair_sdc (p : Nat) (f : PairRt → PairRt) : (m.modPair p f).sdc = m.sdc := rfl
@[simp] theorem modPair_arb (p : Nat) (f : PairRt → PairRt) : (m.modPair p f).arb = m.arb := rfl
@[simp] theorem modPair_power (p : Nat) (f : PairRt → PairRt) : (m.modPair p f).power = m.power := rfl
@[simp] theorem modPair_prot (p : Nat) (f : PairRt → PairRt) : (m.modPair p f).prot = m.prot := rfl
@[simp] theorem modPair_sec (p : Nat) (f : PairRt → PairRt) : (m.modPair p f).sec = m.sec := rfl
@[simp] theorem modPair_dc (p : Nat) (f : PairRt → PairRt) : (m.modPair p f).dc = m.dc := rfl
@[simp] theorem modPair_fld (p : Nat) (f : PairRt → PairRt) : (m.modPair p f).fld = m.fld := rfl
@[simp] theorem modPair_time (p : Nat) (f : PairRt → PairRt) : (m.modPair p f).time = m.time := rfl
@[simp] theorem modPair_therm (p : Nat) (f : PairRt → PairRt) : (m.modPair p f).therm = m.therm := rfl
@[simp] theorem modPair_cd (p : Nat) (f : PairRt → PairRt) : (m.modPair p f).cd = m.cd := rfl
@[simp] theorem modPair_hk (p : Nat) (f : PairRt → PairRt) : (m.modPair p f).hk = m.hk := rfl
@[simp] theorem modPair_age (p : Nat) (f : PairRt → PairRt) : (m.modPair p f).age = m.age := rfl
@[simp] theorem modPair_secu (p : Nat) (f : PairRt → PairRt) : (m.modPair p f).secu = m.secu := rfl
@[simp] theorem modPair_lanes (p : Nat) (f : PairRt → PairRt) : (m.modPair p f).lanes = m.lanes := rfl
@[simp] theorem modPair_inj (p : Nat) (f : PairRt → PairRt) : (m.modPair p f).inj = m.inj := rfl
@[simp] theorem modPair_trace (p : Nat) (f : PairRt → PairRt) : (m.modPair p f).trace = m.trace := rfl
@[simp] theorem modPair_meas (p : Nat) (f : PairRt → PairRt) : (m.modPair p f).meas = m.meas := rfl
@[simp] theorem modCtx_clk (n : Nat) (f : CtxRt → CtxRt) : (m.modCtx n f).clk = m.clk := rfl
@[simp] theorem modCtx_obj (n : Nat) (f : CtxRt → CtxRt) : (m.modCtx n f).obj = m.obj := rfl
@[simp] theorem modCtx_sto (n : Nat) (f : CtxRt → CtxRt) : (m.modCtx n f).sto = m.sto := rfl
@[simp] theorem modCtx_seenEv (n : Nat) (f : CtxRt → CtxRt) : (m.modCtx n f).seenEv = m.seenEv := rfl
@[simp] theorem modCtx_grp (n : Nat) (f : CtxRt → CtxRt) : (m.modCtx n f).grp = m.grp := rfl
@[simp] theorem modCtx_sdc (n : Nat) (f : CtxRt → CtxRt) : (m.modCtx n f).sdc = m.sdc := rfl
@[simp] theorem modCtx_arb (n : Nat) (f : CtxRt → CtxRt) : (m.modCtx n f).arb = m.arb := rfl
@[simp] theorem modCtx_power (n : Nat) (f : CtxRt → CtxRt) : (m.modCtx n f).power = m.power := rfl
@[simp] theorem modCtx_prot (n : Nat) (f : CtxRt → CtxRt) : (m.modCtx n f).prot = m.prot := rfl
@[simp] theorem modCtx_sec (n : Nat) (f : CtxRt → CtxRt) : (m.modCtx n f).sec = m.sec := rfl
@[simp] theorem modCtx_dc (n : Nat) (f : CtxRt → CtxRt) : (m.modCtx n f).dc = m.dc := rfl
@[simp] theorem modCtx_fld (n : Nat) (f : CtxRt → CtxRt) : (m.modCtx n f).fld = m.fld := rfl
@[simp] theorem modCtx_time (n : Nat) (f : CtxRt → CtxRt) : (m.modCtx n f).time = m.time := rfl
@[simp] theorem modCtx_therm (n : Nat) (f : CtxRt → CtxRt) : (m.modCtx n f).therm = m.therm := rfl
@[simp] theorem modCtx_cd (n : Nat) (f : CtxRt → CtxRt) : (m.modCtx n f).cd = m.cd := rfl
@[simp] theorem modCtx_hk (n : Nat) (f : CtxRt → CtxRt) : (m.modCtx n f).hk = m.hk := rfl
@[simp] theorem modCtx_age (n : Nat) (f : CtxRt → CtxRt) : (m.modCtx n f).age = m.age := rfl
@[simp] theorem modCtx_secu (n : Nat) (f : CtxRt → CtxRt) : (m.modCtx n f).secu = m.secu := rfl
@[simp] theorem modCtx_lanes (n : Nat) (f : CtxRt → CtxRt) : (m.modCtx n f).lanes = m.lanes := rfl
@[simp] theorem modCtx_inj (n : Nat) (f : CtxRt → CtxRt) : (m.modCtx n f).inj = m.inj := rfl
@[simp] theorem modCtx_trace (n : Nat) (f : CtxRt → CtxRt) : (m.modCtx n f).trace = m.trace := rfl
@[simp] theorem modCtx_meas (n : Nat) (f : CtxRt → CtxRt) : (m.modCtx n f).meas = m.meas := rfl
@[simp] theorem modVsm_clk (s : Nat) (f : VsmRt → VsmRt) : (m.modVsm s f).clk = m.clk := rfl
@[simp] theorem modVsm_obj (s : Nat) (f : VsmRt → VsmRt) : (m.modVsm s f).obj = m.obj := rfl
@[simp] theorem modVsm_sto (s : Nat) (f : VsmRt → VsmRt) : (m.modVsm s f).sto = m.sto := rfl
@[simp] theorem modVsm_seenEv (s : Nat) (f : VsmRt → VsmRt) : (m.modVsm s f).seenEv = m.seenEv := rfl
@[simp] theorem modVsm_grp (s : Nat) (f : VsmRt → VsmRt) : (m.modVsm s f).grp = m.grp := rfl
@[simp] theorem modVsm_sdc (s : Nat) (f : VsmRt → VsmRt) : (m.modVsm s f).sdc = m.sdc := rfl
@[simp] theorem modVsm_arb (s : Nat) (f : VsmRt → VsmRt) : (m.modVsm s f).arb = m.arb := rfl
@[simp] theorem modVsm_power (s : Nat) (f : VsmRt → VsmRt) : (m.modVsm s f).power = m.power := rfl
@[simp] theorem modVsm_prot (s : Nat) (f : VsmRt → VsmRt) : (m.modVsm s f).prot = m.prot := rfl
@[simp] theorem modVsm_sec (s : Nat) (f : VsmRt → VsmRt) : (m.modVsm s f).sec = m.sec := rfl
@[simp] theorem modVsm_dc (s : Nat) (f : VsmRt → VsmRt) : (m.modVsm s f).dc = m.dc := rfl
@[simp] theorem modVsm_fld (s : Nat) (f : VsmRt → VsmRt) : (m.modVsm s f).fld = m.fld := rfl
@[simp] theorem modVsm_time (s : Nat) (f : VsmRt → VsmRt) : (m.modVsm s f).time = m.time := rfl
@[simp] theorem modVsm_therm (s : Nat) (f : VsmRt → VsmRt) : (m.modVsm s f).therm = m.therm := rfl
@[simp] theorem modVsm_cd (s : Nat) (f : VsmRt → VsmRt) : (m.modVsm s f).cd = m.cd := rfl
@[simp] theorem modVsm_hk (s : Nat) (f : VsmRt → VsmRt) : (m.modVsm s f).hk = m.hk := rfl
@[simp] theorem modVsm_age (s : Nat) (f : VsmRt → VsmRt) : (m.modVsm s f).age = m.age := rfl
@[simp] theorem modVsm_secu (s : Nat) (f : VsmRt → VsmRt) : (m.modVsm s f).secu = m.secu := rfl
@[simp] theorem modVsm_lanes (s : Nat) (f : VsmRt → VsmRt) : (m.modVsm s f).lanes = m.lanes := rfl
@[simp] theorem modVsm_inj (s : Nat) (f : VsmRt → VsmRt) : (m.modVsm s f).inj = m.inj := rfl
@[simp] theorem modVsm_trace (s : Nat) (f : VsmRt → VsmRt) : (m.modVsm s f).trace = m.trace := rfl
@[simp] theorem modVsm_meas (s : Nat) (f : VsmRt → VsmRt) : (m.modVsm s f).meas = m.meas := rfl
@[simp] theorem modSdc_clk (f : SdcRt → SdcRt) : (m.modSdc f).clk = m.clk := rfl
@[simp] theorem modSdc_obj (f : SdcRt → SdcRt) : (m.modSdc f).obj = m.obj := rfl
@[simp] theorem modSdc_sto (f : SdcRt → SdcRt) : (m.modSdc f).sto = m.sto := rfl
@[simp] theorem modSdc_seenEv (f : SdcRt → SdcRt) : (m.modSdc f).seenEv = m.seenEv := rfl
@[simp] theorem modSdc_grp (f : SdcRt → SdcRt) : (m.modSdc f).grp = m.grp := rfl
@[simp] theorem modSdc_sdc (f : SdcRt → SdcRt) : (m.modSdc f).sdc = f m.sdc := rfl
@[simp] theorem modSdc_arb (f : SdcRt → SdcRt) : (m.modSdc f).arb = m.arb := rfl
@[simp] theorem modSdc_power (f : SdcRt → SdcRt) : (m.modSdc f).power = m.power := rfl
@[simp] theorem modSdc_prot (f : SdcRt → SdcRt) : (m.modSdc f).prot = m.prot := rfl
@[simp] theorem modSdc_sec (f : SdcRt → SdcRt) : (m.modSdc f).sec = m.sec := rfl
@[simp] theorem modSdc_dc (f : SdcRt → SdcRt) : (m.modSdc f).dc = m.dc := rfl
@[simp] theorem modSdc_fld (f : SdcRt → SdcRt) : (m.modSdc f).fld = m.fld := rfl
@[simp] theorem modSdc_time (f : SdcRt → SdcRt) : (m.modSdc f).time = m.time := rfl
@[simp] theorem modSdc_therm (f : SdcRt → SdcRt) : (m.modSdc f).therm = m.therm := rfl
@[simp] theorem modSdc_cd (f : SdcRt → SdcRt) : (m.modSdc f).cd = m.cd := rfl
@[simp] theorem modSdc_hk (f : SdcRt → SdcRt) : (m.modSdc f).hk = m.hk := rfl
@[simp] theorem modSdc_age (f : SdcRt → SdcRt) : (m.modSdc f).age = m.age := rfl
@[simp] theorem modSdc_secu (f : SdcRt → SdcRt) : (m.modSdc f).secu = m.secu := rfl
@[simp] theorem modSdc_lanes (f : SdcRt → SdcRt) : (m.modSdc f).lanes = m.lanes := rfl
@[simp] theorem modSdc_inj (f : SdcRt → SdcRt) : (m.modSdc f).inj = m.inj := rfl
@[simp] theorem modSdc_trace (f : SdcRt → SdcRt) : (m.modSdc f).trace = m.trace := rfl
@[simp] theorem modSdc_meas (f : SdcRt → SdcRt) : (m.modSdc f).meas = m.meas := rfl
@[simp] theorem modArb_clk (f : ArbRt → ArbRt) : (m.modArb f).clk = m.clk := rfl
@[simp] theorem modArb_obj (f : ArbRt → ArbRt) : (m.modArb f).obj = m.obj := rfl
@[simp] theorem modArb_sto (f : ArbRt → ArbRt) : (m.modArb f).sto = m.sto := rfl
@[simp] theorem modArb_seenEv (f : ArbRt → ArbRt) : (m.modArb f).seenEv = m.seenEv := rfl
@[simp] theorem modArb_grp (f : ArbRt → ArbRt) : (m.modArb f).grp = m.grp := rfl
@[simp] theorem modArb_sdc (f : ArbRt → ArbRt) : (m.modArb f).sdc = m.sdc := rfl
@[simp] theorem modArb_arb (f : ArbRt → ArbRt) : (m.modArb f).arb = f m.arb := rfl
@[simp] theorem modArb_power (f : ArbRt → ArbRt) : (m.modArb f).power = m.power := rfl
@[simp] theorem modArb_prot (f : ArbRt → ArbRt) : (m.modArb f).prot = m.prot := rfl
@[simp] theorem modArb_sec (f : ArbRt → ArbRt) : (m.modArb f).sec = m.sec := rfl
@[simp] theorem modArb_dc (f : ArbRt → ArbRt) : (m.modArb f).dc = m.dc := rfl
@[simp] theorem modArb_fld (f : ArbRt → ArbRt) : (m.modArb f).fld = m.fld := rfl
@[simp] theorem modArb_time (f : ArbRt → ArbRt) : (m.modArb f).time = m.time := rfl
@[simp] theorem modArb_therm (f : ArbRt → ArbRt) : (m.modArb f).therm = m.therm := rfl
@[simp] theorem modArb_cd (f : ArbRt → ArbRt) : (m.modArb f).cd = m.cd := rfl
@[simp] theorem modArb_hk (f : ArbRt → ArbRt) : (m.modArb f).hk = m.hk := rfl
@[simp] theorem modArb_age (f : ArbRt → ArbRt) : (m.modArb f).age = m.age := rfl
@[simp] theorem modArb_secu (f : ArbRt → ArbRt) : (m.modArb f).secu = m.secu := rfl
@[simp] theorem modArb_lanes (f : ArbRt → ArbRt) : (m.modArb f).lanes = m.lanes := rfl
@[simp] theorem modArb_inj (f : ArbRt → ArbRt) : (m.modArb f).inj = m.inj := rfl
@[simp] theorem modArb_trace (f : ArbRt → ArbRt) : (m.modArb f).trace = m.trace := rfl
@[simp] theorem modArb_meas (f : ArbRt → ArbRt) : (m.modArb f).meas = m.meas := rfl
@[simp] theorem modLane_clk (l : Nat) (f : LaneRt → LaneRt) : (m.modLane l f).clk = m.clk := rfl
@[simp] theorem modLane_obj (l : Nat) (f : LaneRt → LaneRt) : (m.modLane l f).obj = m.obj := rfl
@[simp] theorem modLane_sto (l : Nat) (f : LaneRt → LaneRt) : (m.modLane l f).sto = m.sto := rfl
@[simp] theorem modLane_seenEv (l : Nat) (f : LaneRt → LaneRt) : (m.modLane l f).seenEv = m.seenEv := rfl
@[simp] theorem modLane_grp (l : Nat) (f : LaneRt → LaneRt) : (m.modLane l f).grp = m.grp := rfl
@[simp] theorem modLane_sdc (l : Nat) (f : LaneRt → LaneRt) : (m.modLane l f).sdc = m.sdc := rfl
@[simp] theorem modLane_arb (l : Nat) (f : LaneRt → LaneRt) : (m.modLane l f).arb = m.arb := rfl
@[simp] theorem modLane_power (l : Nat) (f : LaneRt → LaneRt) : (m.modLane l f).power = m.power := rfl
@[simp] theorem modLane_prot (l : Nat) (f : LaneRt → LaneRt) : (m.modLane l f).prot = m.prot := rfl
@[simp] theorem modLane_sec (l : Nat) (f : LaneRt → LaneRt) : (m.modLane l f).sec = m.sec := rfl
@[simp] theorem modLane_dc (l : Nat) (f : LaneRt → LaneRt) : (m.modLane l f).dc = m.dc := rfl
@[simp] theorem modLane_fld (l : Nat) (f : LaneRt → LaneRt) : (m.modLane l f).fld = m.fld := rfl
@[simp] theorem modLane_time (l : Nat) (f : LaneRt → LaneRt) : (m.modLane l f).time = m.time := rfl
@[simp] theorem modLane_therm (l : Nat) (f : LaneRt → LaneRt) : (m.modLane l f).therm = m.therm := rfl
@[simp] theorem modLane_cd (l : Nat) (f : LaneRt → LaneRt) : (m.modLane l f).cd = m.cd := rfl
@[simp] theorem modLane_hk (l : Nat) (f : LaneRt → LaneRt) : (m.modLane l f).hk = m.hk := rfl
@[simp] theorem modLane_age (l : Nat) (f : LaneRt → LaneRt) : (m.modLane l f).age = m.age := rfl
@[simp] theorem modLane_secu (l : Nat) (f : LaneRt → LaneRt) : (m.modLane l f).secu = m.secu := rfl
@[simp] theorem modLane_inj (l : Nat) (f : LaneRt → LaneRt) : (m.modLane l f).inj = m.inj := rfl
@[simp] theorem modLane_trace (l : Nat) (f : LaneRt → LaneRt) : (m.modLane l f).trace = m.trace := rfl
@[simp] theorem modLane_meas (l : Nat) (f : LaneRt → LaneRt) : (m.modLane l f).meas = m.meas := rfl
@[simp] theorem modFld_clk (n : Nat) (f : FieldRt → FieldRt) : (m.modFld n f).clk = m.clk := rfl
@[simp] theorem modFld_obj (n : Nat) (f : FieldRt → FieldRt) : (m.modFld n f).obj = m.obj := rfl
@[simp] theorem modFld_sto (n : Nat) (f : FieldRt → FieldRt) : (m.modFld n f).sto = m.sto := rfl
@[simp] theorem modFld_seenEv (n : Nat) (f : FieldRt → FieldRt) : (m.modFld n f).seenEv = m.seenEv := rfl
@[simp] theorem modFld_grp (n : Nat) (f : FieldRt → FieldRt) : (m.modFld n f).grp = m.grp := rfl
@[simp] theorem modFld_sdc (n : Nat) (f : FieldRt → FieldRt) : (m.modFld n f).sdc = m.sdc := rfl
@[simp] theorem modFld_arb (n : Nat) (f : FieldRt → FieldRt) : (m.modFld n f).arb = m.arb := rfl
@[simp] theorem modFld_power (n : Nat) (f : FieldRt → FieldRt) : (m.modFld n f).power = m.power := rfl
@[simp] theorem modFld_prot (n : Nat) (f : FieldRt → FieldRt) : (m.modFld n f).prot = m.prot := rfl
@[simp] theorem modFld_sec (n : Nat) (f : FieldRt → FieldRt) : (m.modFld n f).sec = m.sec := rfl
@[simp] theorem modFld_dc (n : Nat) (f : FieldRt → FieldRt) : (m.modFld n f).dc = m.dc := rfl
@[simp] theorem modFld_time (n : Nat) (f : FieldRt → FieldRt) : (m.modFld n f).time = m.time := rfl
@[simp] theorem modFld_therm (n : Nat) (f : FieldRt → FieldRt) : (m.modFld n f).therm = m.therm := rfl
@[simp] theorem modFld_cd (n : Nat) (f : FieldRt → FieldRt) : (m.modFld n f).cd = m.cd := rfl
@[simp] theorem modFld_hk (n : Nat) (f : FieldRt → FieldRt) : (m.modFld n f).hk = m.hk := rfl
@[simp] theorem modFld_age (n : Nat) (f : FieldRt → FieldRt) : (m.modFld n f).age = m.age := rfl
@[simp] theorem modFld_secu (n : Nat) (f : FieldRt → FieldRt) : (m.modFld n f).secu = m.secu := rfl
@[simp] theorem modFld_lanes (n : Nat) (f : FieldRt → FieldRt) : (m.modFld n f).lanes = m.lanes := rfl
@[simp] theorem modFld_inj (n : Nat) (f : FieldRt → FieldRt) : (m.modFld n f).inj = m.inj := rfl
@[simp] theorem modFld_trace (n : Nat) (f : FieldRt → FieldRt) : (m.modFld n f).trace = m.trace := rfl
@[simp] theorem modFld_meas (n : Nat) (f : FieldRt → FieldRt) : (m.modFld n f).meas = m.meas := rfl
@[simp] theorem modFgrp_clk (g : Nat) (f : FieldGrpRt → FieldGrpRt) : (m.modFgrp g f).clk = m.clk := rfl
@[simp] theorem modFgrp_obj (g : Nat) (f : FieldGrpRt → FieldGrpRt) : (m.modFgrp g f).obj = m.obj := rfl
@[simp] theorem modFgrp_sto (g : Nat) (f : FieldGrpRt → FieldGrpRt) : (m.modFgrp g f).sto = m.sto := rfl
@[simp] theorem modFgrp_seenEv (g : Nat) (f : FieldGrpRt → FieldGrpRt) : (m.modFgrp g f).seenEv = m.seenEv := rfl
@[simp] theorem modFgrp_grp (g : Nat) (f : FieldGrpRt → FieldGrpRt) : (m.modFgrp g f).grp = m.grp := rfl
@[simp] theorem modFgrp_sdc (g : Nat) (f : FieldGrpRt → FieldGrpRt) : (m.modFgrp g f).sdc = m.sdc := rfl
@[simp] theorem modFgrp_arb (g : Nat) (f : FieldGrpRt → FieldGrpRt) : (m.modFgrp g f).arb = m.arb := rfl
@[simp] theorem modFgrp_power (g : Nat) (f : FieldGrpRt → FieldGrpRt) : (m.modFgrp g f).power = m.power := rfl
@[simp] theorem modFgrp_prot (g : Nat) (f : FieldGrpRt → FieldGrpRt) : (m.modFgrp g f).prot = m.prot := rfl
@[simp] theorem modFgrp_sec (g : Nat) (f : FieldGrpRt → FieldGrpRt) : (m.modFgrp g f).sec = m.sec := rfl
@[simp] theorem modFgrp_dc (g : Nat) (f : FieldGrpRt → FieldGrpRt) : (m.modFgrp g f).dc = m.dc := rfl
@[simp] theorem modFgrp_fld (g : Nat) (f : FieldGrpRt → FieldGrpRt) : (m.modFgrp g f).fld = m.fld := rfl
@[simp] theorem modFgrp_time (g : Nat) (f : FieldGrpRt → FieldGrpRt) : (m.modFgrp g f).time = m.time := rfl
@[simp] theorem modFgrp_therm (g : Nat) (f : FieldGrpRt → FieldGrpRt) : (m.modFgrp g f).therm = m.therm := rfl
@[simp] theorem modFgrp_cd (g : Nat) (f : FieldGrpRt → FieldGrpRt) : (m.modFgrp g f).cd = m.cd := rfl
@[simp] theorem modFgrp_hk (g : Nat) (f : FieldGrpRt → FieldGrpRt) : (m.modFgrp g f).hk = m.hk := rfl
@[simp] theorem modFgrp_age (g : Nat) (f : FieldGrpRt → FieldGrpRt) : (m.modFgrp g f).age = m.age := rfl
@[simp] theorem modFgrp_secu (g : Nat) (f : FieldGrpRt → FieldGrpRt) : (m.modFgrp g f).secu = m.secu := rfl
@[simp] theorem modFgrp_lanes (g : Nat) (f : FieldGrpRt → FieldGrpRt) : (m.modFgrp g f).lanes = m.lanes := rfl
@[simp] theorem modFgrp_inj (g : Nat) (f : FieldGrpRt → FieldGrpRt) : (m.modFgrp g f).inj = m.inj := rfl
@[simp] theorem modFgrp_trace (g : Nat) (f : FieldGrpRt → FieldGrpRt) : (m.modFgrp g f).trace = m.trace := rfl
@[simp] theorem modFgrp_meas (g : Nat) (f : FieldGrpRt → FieldGrpRt) : (m.modFgrp g f).meas = m.meas := rfl
@[simp] theorem modRime_clk (l : Nat) (f : RimeRt → RimeRt) : (m.modRime l f).clk = m.clk := rfl
@[simp] theorem modRime_obj (l : Nat) (f : RimeRt → RimeRt) : (m.modRime l f).obj = m.obj := rfl
@[simp] theorem modRime_sto (l : Nat) (f : RimeRt → RimeRt) : (m.modRime l f).sto = m.sto := rfl
@[simp] theorem modRime_seenEv (l : Nat) (f : RimeRt → RimeRt) : (m.modRime l f).seenEv = m.seenEv := rfl
@[simp] theorem modRime_grp (l : Nat) (f : RimeRt → RimeRt) : (m.modRime l f).grp = m.grp := rfl
@[simp] theorem modRime_sdc (l : Nat) (f : RimeRt → RimeRt) : (m.modRime l f).sdc = m.sdc := rfl
@[simp] theorem modRime_arb (l : Nat) (f : RimeRt → RimeRt) : (m.modRime l f).arb = m.arb := rfl
@[simp] theorem modRime_power (l : Nat) (f : RimeRt → RimeRt) : (m.modRime l f).power = m.power := rfl
@[simp] theorem modRime_prot (l : Nat) (f : RimeRt → RimeRt) : (m.modRime l f).prot = m.prot := rfl
@[simp] theorem modRime_sec (l : Nat) (f : RimeRt → RimeRt) : (m.modRime l f).sec = m.sec := rfl
@[simp] theorem modRime_dc (l : Nat) (f : RimeRt → RimeRt) : (m.modRime l f).dc = m.dc := rfl
@[simp] theorem modRime_fld (l : Nat) (f : RimeRt → RimeRt) : (m.modRime l f).fld = m.fld := rfl
@[simp] theorem modRime_time (l : Nat) (f : RimeRt → RimeRt) : (m.modRime l f).time = m.time := rfl
@[simp] theorem modRime_therm (l : Nat) (f : RimeRt → RimeRt) : (m.modRime l f).therm = m.therm := rfl
@[simp] theorem modRime_cd (l : Nat) (f : RimeRt → RimeRt) : (m.modRime l f).cd = m.cd := rfl
@[simp] theorem modRime_hk (l : Nat) (f : RimeRt → RimeRt) : (m.modRime l f).hk = m.hk := rfl
@[simp] theorem modRime_age (l : Nat) (f : RimeRt → RimeRt) : (m.modRime l f).age = m.age := rfl
@[simp] theorem modRime_secu (l : Nat) (f : RimeRt → RimeRt) : (m.modRime l f).secu = m.secu := rfl
@[simp] theorem modRime_lanes (l : Nat) (f : RimeRt → RimeRt) : (m.modRime l f).lanes = m.lanes := rfl
@[simp] theorem modRime_inj (l : Nat) (f : RimeRt → RimeRt) : (m.modRime l f).inj = m.inj := rfl
@[simp] theorem modRime_trace (l : Nat) (f : RimeRt → RimeRt) : (m.modRime l f).trace = m.trace := rfl
@[simp] theorem modRime_meas (l : Nat) (f : RimeRt → RimeRt) : (m.modRime l f).meas = m.meas := rfl
@[simp] theorem modTherm_clk (f : ThermRt → ThermRt) : (m.modTherm f).clk = m.clk := rfl
@[simp] theorem modTherm_obj (f : ThermRt → ThermRt) : (m.modTherm f).obj = m.obj := rfl
@[simp] theorem modTherm_sto (f : ThermRt → ThermRt) : (m.modTherm f).sto = m.sto := rfl
@[simp] theorem modTherm_seenEv (f : ThermRt → ThermRt) : (m.modTherm f).seenEv = m.seenEv := rfl
@[simp] theorem modTherm_grp (f : ThermRt → ThermRt) : (m.modTherm f).grp = m.grp := rfl
@[simp] theorem modTherm_sdc (f : ThermRt → ThermRt) : (m.modTherm f).sdc = m.sdc := rfl
@[simp] theorem modTherm_arb (f : ThermRt → ThermRt) : (m.modTherm f).arb = m.arb := rfl
@[simp] theorem modTherm_power (f : ThermRt → ThermRt) : (m.modTherm f).power = m.power := rfl
@[simp] theorem modTherm_prot (f : ThermRt → ThermRt) : (m.modTherm f).prot = m.prot := rfl
@[simp] theorem modTherm_sec (f : ThermRt → ThermRt) : (m.modTherm f).sec = m.sec := rfl
@[simp] theorem modTherm_dc (f : ThermRt → ThermRt) : (m.modTherm f).dc = m.dc := rfl
@[simp] theorem modTherm_fld (f : ThermRt → ThermRt) : (m.modTherm f).fld = m.fld := rfl
@[simp] theorem modTherm_time (f : ThermRt → ThermRt) : (m.modTherm f).time = m.time := rfl
@[simp] theorem modTherm_therm (f : ThermRt → ThermRt) : (m.modTherm f).therm = f m.therm := rfl
@[simp] theorem modTherm_cd (f : ThermRt → ThermRt) : (m.modTherm f).cd = m.cd := rfl
@[simp] theorem modTherm_hk (f : ThermRt → ThermRt) : (m.modTherm f).hk = m.hk := rfl
@[simp] theorem modTherm_age (f : ThermRt → ThermRt) : (m.modTherm f).age = m.age := rfl
@[simp] theorem modTherm_secu (f : ThermRt → ThermRt) : (m.modTherm f).secu = m.secu := rfl
@[simp] theorem modTherm_lanes (f : ThermRt → ThermRt) : (m.modTherm f).lanes = m.lanes := rfl
@[simp] theorem modTherm_inj (f : ThermRt → ThermRt) : (m.modTherm f).inj = m.inj := rfl
@[simp] theorem modTherm_trace (f : ThermRt → ThermRt) : (m.modTherm f).trace = m.trace := rfl
@[simp] theorem modTherm_meas (f : ThermRt → ThermRt) : (m.modTherm f).meas = m.meas := rfl
@[simp] theorem modCd_clk (f : CdRt → CdRt) : (m.modCd f).clk = m.clk := rfl
@[simp] theorem modCd_obj (f : CdRt → CdRt) : (m.modCd f).obj = m.obj := rfl
@[simp] theorem modCd_sto (f : CdRt → CdRt) : (m.modCd f).sto = m.sto := rfl
@[simp] theorem modCd_seenEv (f : CdRt → CdRt) : (m.modCd f).seenEv = m.seenEv := rfl
@[simp] theorem modCd_grp (f : CdRt → CdRt) : (m.modCd f).grp = m.grp := rfl
@[simp] theorem modCd_sdc (f : CdRt → CdRt) : (m.modCd f).sdc = m.sdc := rfl
@[simp] theorem modCd_arb (f : CdRt → CdRt) : (m.modCd f).arb = m.arb := rfl
@[simp] theorem modCd_power (f : CdRt → CdRt) : (m.modCd f).power = m.power := rfl
@[simp] theorem modCd_prot (f : CdRt → CdRt) : (m.modCd f).prot = m.prot := rfl
@[simp] theorem modCd_sec (f : CdRt → CdRt) : (m.modCd f).sec = m.sec := rfl
@[simp] theorem modCd_dc (f : CdRt → CdRt) : (m.modCd f).dc = m.dc := rfl
@[simp] theorem modCd_fld (f : CdRt → CdRt) : (m.modCd f).fld = m.fld := rfl
@[simp] theorem modCd_time (f : CdRt → CdRt) : (m.modCd f).time = m.time := rfl
@[simp] theorem modCd_therm (f : CdRt → CdRt) : (m.modCd f).therm = m.therm := rfl
@[simp] theorem modCd_cd (f : CdRt → CdRt) : (m.modCd f).cd = f m.cd := rfl
@[simp] theorem modCd_hk (f : CdRt → CdRt) : (m.modCd f).hk = m.hk := rfl
@[simp] theorem modCd_age (f : CdRt → CdRt) : (m.modCd f).age = m.age := rfl
@[simp] theorem modCd_secu (f : CdRt → CdRt) : (m.modCd f).secu = m.secu := rfl
@[simp] theorem modCd_lanes (f : CdRt → CdRt) : (m.modCd f).lanes = m.lanes := rfl
@[simp] theorem modCd_inj (f : CdRt → CdRt) : (m.modCd f).inj = m.inj := rfl
@[simp] theorem modCd_trace (f : CdRt → CdRt) : (m.modCd f).trace = m.trace := rfl
@[simp] theorem modCd_meas (f : CdRt → CdRt) : (m.modCd f).meas = m.meas := rfl
@[simp] theorem modHk_clk (f : HkRt → HkRt) : (m.modHk f).clk = m.clk := rfl
@[simp] theorem modHk_obj (f : HkRt → HkRt) : (m.modHk f).obj = m.obj := rfl
@[simp] theorem modHk_sto (f : HkRt → HkRt) : (m.modHk f).sto = m.sto := rfl
@[simp] theorem modHk_seenEv (f : HkRt → HkRt) : (m.modHk f).seenEv = m.seenEv := rfl
@[simp] theorem modHk_grp (f : HkRt → HkRt) : (m.modHk f).grp = m.grp := rfl
@[simp] theorem modHk_sdc (f : HkRt → HkRt) : (m.modHk f).sdc = m.sdc := rfl
@[simp] theorem modHk_arb (f : HkRt → HkRt) : (m.modHk f).arb = m.arb := rfl
@[simp] theorem modHk_power (f : HkRt → HkRt) : (m.modHk f).power = m.power := rfl
@[simp] theorem modHk_prot (f : HkRt → HkRt) : (m.modHk f).prot = m.prot := rfl
@[simp] theorem modHk_sec (f : HkRt → HkRt) : (m.modHk f).sec = m.sec := rfl
@[simp] theorem modHk_dc (f : HkRt → HkRt) : (m.modHk f).dc = m.dc := rfl
@[simp] theorem modHk_fld (f : HkRt → HkRt) : (m.modHk f).fld = m.fld := rfl
@[simp] theorem modHk_time (f : HkRt → HkRt) : (m.modHk f).time = m.time := rfl
@[simp] theorem modHk_therm (f : HkRt → HkRt) : (m.modHk f).therm = m.therm := rfl
@[simp] theorem modHk_cd (f : HkRt → HkRt) : (m.modHk f).cd = m.cd := rfl
@[simp] theorem modHk_hk (f : HkRt → HkRt) : (m.modHk f).hk = f m.hk := rfl
@[simp] theorem modHk_age (f : HkRt → HkRt) : (m.modHk f).age = m.age := rfl
@[simp] theorem modHk_secu (f : HkRt → HkRt) : (m.modHk f).secu = m.secu := rfl
@[simp] theorem modHk_lanes (f : HkRt → HkRt) : (m.modHk f).lanes = m.lanes := rfl
@[simp] theorem modHk_inj (f : HkRt → HkRt) : (m.modHk f).inj = m.inj := rfl
@[simp] theorem modHk_trace (f : HkRt → HkRt) : (m.modHk f).trace = m.trace := rfl
@[simp] theorem modHk_meas (f : HkRt → HkRt) : (m.modHk f).meas = m.meas := rfl
@[simp] theorem modAge_clk (f : AgeRt → AgeRt) : (m.modAge f).clk = m.clk := rfl
@[simp] theorem modAge_obj (f : AgeRt → AgeRt) : (m.modAge f).obj = m.obj := rfl
@[simp] theorem modAge_sto (f : AgeRt → AgeRt) : (m.modAge f).sto = m.sto := rfl
@[simp] theorem modAge_seenEv (f : AgeRt → AgeRt) : (m.modAge f).seenEv = m.seenEv := rfl
@[simp] theorem modAge_grp (f : AgeRt → AgeRt) : (m.modAge f).grp = m.grp := rfl
@[simp] theorem modAge_sdc (f : AgeRt → AgeRt) : (m.modAge f).sdc = m.sdc := rfl
@[simp] theorem modAge_arb (f : AgeRt → AgeRt) : (m.modAge f).arb = m.arb := rfl
@[simp] theorem modAge_power (f : AgeRt → AgeRt) : (m.modAge f).power = m.power := rfl
@[simp] theorem modAge_prot (f : AgeRt → AgeRt) : (m.modAge f).prot = m.prot := rfl
@[simp] theorem modAge_sec (f : AgeRt → AgeRt) : (m.modAge f).sec = m.sec := rfl
@[simp] theorem modAge_dc (f : AgeRt → AgeRt) : (m.modAge f).dc = m.dc := rfl
@[simp] theorem modAge_fld (f : AgeRt → AgeRt) : (m.modAge f).fld = m.fld := rfl
@[simp] theorem modAge_time (f : AgeRt → AgeRt) : (m.modAge f).time = m.time := rfl
@[simp] theorem modAge_therm (f : AgeRt → AgeRt) : (m.modAge f).therm = m.therm := rfl
@[simp] theorem modAge_cd (f : AgeRt → AgeRt) : (m.modAge f).cd = m.cd := rfl
@[simp] theorem modAge_hk (f : AgeRt → AgeRt) : (m.modAge f).hk = m.hk := rfl
@[simp] theorem modAge_age (f : AgeRt → AgeRt) : (m.modAge f).age = f m.age := rfl
@[simp] theorem modAge_secu (f : AgeRt → AgeRt) : (m.modAge f).secu = m.secu := rfl
@[simp] theorem modAge_lanes (f : AgeRt → AgeRt) : (m.modAge f).lanes = m.lanes := rfl
@[simp] theorem modAge_inj (f : AgeRt → AgeRt) : (m.modAge f).inj = m.inj := rfl
@[simp] theorem modAge_trace (f : AgeRt → AgeRt) : (m.modAge f).trace = m.trace := rfl
@[simp] theorem modAge_meas (f : AgeRt → AgeRt) : (m.modAge f).meas = m.meas := rfl
@[simp] theorem modTime_clk (f : TimeRt → TimeRt) : (m.modTime f).clk = m.clk := rfl
@[simp] theorem modTime_obj (f : TimeRt → TimeRt) : (m.modTime f).obj = m.obj := rfl
@[simp] theorem modTime_sto (f : TimeRt → TimeRt) : (m.modTime f).sto = m.sto := rfl
@[simp] theorem modTime_seenEv (f : TimeRt → TimeRt) : (m.modTime f).seenEv = m.seenEv := rfl
@[simp] theorem modTime_grp (f : TimeRt → TimeRt) : (m.modTime f).grp = m.grp := rfl
@[simp] theorem modTime_sdc (f : TimeRt → TimeRt) : (m.modTime f).sdc = m.sdc := rfl
@[simp] theorem modTime_arb (f : TimeRt → TimeRt) : (m.modTime f).arb = m.arb := rfl
@[simp] theorem modTime_power (f : TimeRt → TimeRt) : (m.modTime f).power = m.power := rfl
@[simp] theorem modTime_prot (f : TimeRt → TimeRt) : (m.modTime f).prot = m.prot := rfl
@[simp] theorem modTime_sec (f : TimeRt → TimeRt) : (m.modTime f).sec = m.sec := rfl
@[simp] theorem modTime_dc (f : TimeRt → TimeRt) : (m.modTime f).dc = m.dc := rfl
@[simp] theorem modTime_fld (f : TimeRt → TimeRt) : (m.modTime f).fld = m.fld := rfl
@[simp] theorem modTime_time (f : TimeRt → TimeRt) : (m.modTime f).time = f m.time := rfl
@[simp] theorem modTime_therm (f : TimeRt → TimeRt) : (m.modTime f).therm = m.therm := rfl
@[simp] theorem modTime_cd (f : TimeRt → TimeRt) : (m.modTime f).cd = m.cd := rfl
@[simp] theorem modTime_hk (f : TimeRt → TimeRt) : (m.modTime f).hk = m.hk := rfl
@[simp] theorem modTime_age (f : TimeRt → TimeRt) : (m.modTime f).age = m.age := rfl
@[simp] theorem modTime_secu (f : TimeRt → TimeRt) : (m.modTime f).secu = m.secu := rfl
@[simp] theorem modTime_lanes (f : TimeRt → TimeRt) : (m.modTime f).lanes = m.lanes := rfl
@[simp] theorem modTime_inj (f : TimeRt → TimeRt) : (m.modTime f).inj = m.inj := rfl
@[simp] theorem modTime_trace (f : TimeRt → TimeRt) : (m.modTime f).trace = m.trace := rfl
@[simp] theorem modTime_meas (f : TimeRt → TimeRt) : (m.modTime f).meas = m.meas := rfl
@[simp] theorem modMeas_clk (f : MeasRt → MeasRt) : (m.modMeas f).clk = m.clk := rfl
@[simp] theorem modMeas_obj (f : MeasRt → MeasRt) : (m.modMeas f).obj = m.obj := rfl
@[simp] theorem modMeas_sto (f : MeasRt → MeasRt) : (m.modMeas f).sto = m.sto := rfl
@[simp] theorem modMeas_seenEv (f : MeasRt → MeasRt) : (m.modMeas f).seenEv = m.seenEv := rfl
@[simp] theorem modMeas_grp (f : MeasRt → MeasRt) : (m.modMeas f).grp = m.grp := rfl
@[simp] theorem modMeas_sdc (f : MeasRt → MeasRt) : (m.modMeas f).sdc = m.sdc := rfl
@[simp] theorem modMeas_arb (f : MeasRt → MeasRt) : (m.modMeas f).arb = m.arb := rfl
@[simp] theorem modMeas_power (f : MeasRt → MeasRt) : (m.modMeas f).power = m.power := rfl
@[simp] theorem modMeas_prot (f : MeasRt → MeasRt) : (m.modMeas f).prot = m.prot := rfl
@[simp] theorem modMeas_sec (f : MeasRt → MeasRt) : (m.modMeas f).sec = m.sec := rfl
@[simp] theorem modMeas_dc (f : MeasRt → MeasRt) : (m.modMeas f).dc = m.dc := rfl
@[simp] theorem modMeas_fld (f : MeasRt → MeasRt) : (m.modMeas f).fld = m.fld := rfl
@[simp] theorem modMeas_time (f : MeasRt → MeasRt) : (m.modMeas f).time = m.time := rfl
@[simp] theorem modMeas_therm (f : MeasRt → MeasRt) : (m.modMeas f).therm = m.therm := rfl
@[simp] theorem modMeas_cd (f : MeasRt → MeasRt) : (m.modMeas f).cd = m.cd := rfl
@[simp] theorem modMeas_hk (f : MeasRt → MeasRt) : (m.modMeas f).hk = m.hk := rfl
@[simp] theorem modMeas_age (f : MeasRt → MeasRt) : (m.modMeas f).age = m.age := rfl
@[simp] theorem modMeas_secu (f : MeasRt → MeasRt) : (m.modMeas f).secu = m.secu := rfl
@[simp] theorem modMeas_lanes (f : MeasRt → MeasRt) : (m.modMeas f).lanes = m.lanes := rfl
@[simp] theorem modMeas_inj (f : MeasRt → MeasRt) : (m.modMeas f).inj = m.inj := rfl
@[simp] theorem modMeas_trace (f : MeasRt → MeasRt) : (m.modMeas f).trace = m.trace := rfl
@[simp] theorem modMeas_meas (f : MeasRt → MeasRt) : (m.modMeas f).meas = f m.meas := rfl
@[simp] theorem modNet_clk (f : NetRt → NetRt) : (m.modNet f).clk = m.clk := rfl
@[simp] theorem modNet_obj (f : NetRt → NetRt) : (m.modNet f).obj = m.obj := rfl
@[simp] theorem modNet_sto (f : NetRt → NetRt) : (m.modNet f).sto = m.sto := rfl
@[simp] theorem modNet_seenEv (f : NetRt → NetRt) : (m.modNet f).seenEv = m.seenEv := rfl
@[simp] theorem modNet_grp (f : NetRt → NetRt) : (m.modNet f).grp = m.grp := rfl
@[simp] theorem modNet_sdc (f : NetRt → NetRt) : (m.modNet f).sdc = m.sdc := rfl
@[simp] theorem modNet_arb (f : NetRt → NetRt) : (m.modNet f).arb = m.arb := rfl
@[simp] theorem modNet_power (f : NetRt → NetRt) : (m.modNet f).power = m.power := rfl
@[simp] theorem modNet_prot (f : NetRt → NetRt) : (m.modNet f).prot = m.prot := rfl
@[simp] theorem modNet_sec (f : NetRt → NetRt) : (m.modNet f).sec = m.sec := rfl
@[simp] theorem modNet_dc (f : NetRt → NetRt) : (m.modNet f).dc = m.dc := rfl
@[simp] theorem modNet_fld (f : NetRt → NetRt) : (m.modNet f).fld = m.fld := rfl
@[simp] theorem modNet_time (f : NetRt → NetRt) : (m.modNet f).time = m.time := rfl
@[simp] theorem modNet_therm (f : NetRt → NetRt) : (m.modNet f).therm = m.therm := rfl
@[simp] theorem modNet_cd (f : NetRt → NetRt) : (m.modNet f).cd = m.cd := rfl
@[simp] theorem modNet_hk (f : NetRt → NetRt) : (m.modNet f).hk = m.hk := rfl
@[simp] theorem modNet_age (f : NetRt → NetRt) : (m.modNet f).age = m.age := rfl
@[simp] theorem modNet_secu (f : NetRt → NetRt) : (m.modNet f).secu = m.secu := rfl
@[simp] theorem modNet_lanes (f : NetRt → NetRt) : (m.modNet f).lanes = m.lanes := rfl
@[simp] theorem modNet_inj (f : NetRt → NetRt) : (m.modNet f).inj = m.inj := rfl
@[simp] theorem modNet_trace (f : NetRt → NetRt) : (m.modNet f).trace = m.trace := rfl
@[simp] theorem modNet_meas (f : NetRt → NetRt) : (m.modNet f).meas = m.meas := rfl
@[simp] theorem modNet_net (f : NetRt → NetRt) : (m.modNet f).net = f m.net := rfl
@[simp] theorem modPower_clk (f : BootRt → BootRt) : (m.modPower f).clk = m.clk := rfl
@[simp] theorem modPower_obj (f : BootRt → BootRt) : (m.modPower f).obj = m.obj := rfl
@[simp] theorem modPower_sto (f : BootRt → BootRt) : (m.modPower f).sto = m.sto := rfl
@[simp] theorem modPower_seenEv (f : BootRt → BootRt) : (m.modPower f).seenEv = m.seenEv := rfl
@[simp] theorem modPower_grp (f : BootRt → BootRt) : (m.modPower f).grp = m.grp := rfl
@[simp] theorem modPower_sdc (f : BootRt → BootRt) : (m.modPower f).sdc = m.sdc := rfl
@[simp] theorem modPower_arb (f : BootRt → BootRt) : (m.modPower f).arb = m.arb := rfl
@[simp] theorem modPower_power (f : BootRt → BootRt) : (m.modPower f).power = f m.power := rfl
@[simp] theorem modPower_prot (f : BootRt → BootRt) : (m.modPower f).prot = m.prot := rfl
@[simp] theorem modPower_sec (f : BootRt → BootRt) : (m.modPower f).sec = m.sec := rfl
@[simp] theorem modPower_dc (f : BootRt → BootRt) : (m.modPower f).dc = m.dc := rfl
@[simp] theorem modPower_fld (f : BootRt → BootRt) : (m.modPower f).fld = m.fld := rfl
@[simp] theorem modPower_time (f : BootRt → BootRt) : (m.modPower f).time = m.time := rfl
@[simp] theorem modPower_therm (f : BootRt → BootRt) : (m.modPower f).therm = m.therm := rfl
@[simp] theorem modPower_cd (f : BootRt → BootRt) : (m.modPower f).cd = m.cd := rfl
@[simp] theorem modPower_hk (f : BootRt → BootRt) : (m.modPower f).hk = m.hk := rfl
@[simp] theorem modPower_age (f : BootRt → BootRt) : (m.modPower f).age = m.age := rfl
@[simp] theorem modPower_secu (f : BootRt → BootRt) : (m.modPower f).secu = m.secu := rfl
@[simp] theorem modPower_lanes (f : BootRt → BootRt) : (m.modPower f).lanes = m.lanes := rfl
@[simp] theorem modPower_inj (f : BootRt → BootRt) : (m.modPower f).inj = m.inj := rfl
@[simp] theorem modPower_trace (f : BootRt → BootRt) : (m.modPower f).trace = m.trace := rfl
@[simp] theorem modPower_meas (f : BootRt → BootRt) : (m.modPower f).meas = m.meas := rfl
@[simp] theorem modSecu_clk (f : SecuRt → SecuRt) : (m.modSecu f).clk = m.clk := rfl
@[simp] theorem modSecu_obj (f : SecuRt → SecuRt) : (m.modSecu f).obj = m.obj := rfl
@[simp] theorem modSecu_sto (f : SecuRt → SecuRt) : (m.modSecu f).sto = m.sto := rfl
@[simp] theorem modSecu_seenEv (f : SecuRt → SecuRt) : (m.modSecu f).seenEv = m.seenEv := rfl
@[simp] theorem modSecu_grp (f : SecuRt → SecuRt) : (m.modSecu f).grp = m.grp := rfl
@[simp] theorem modSecu_sdc (f : SecuRt → SecuRt) : (m.modSecu f).sdc = m.sdc := rfl
@[simp] theorem modSecu_arb (f : SecuRt → SecuRt) : (m.modSecu f).arb = m.arb := rfl
@[simp] theorem modSecu_power (f : SecuRt → SecuRt) : (m.modSecu f).power = m.power := rfl
@[simp] theorem modSecu_prot (f : SecuRt → SecuRt) : (m.modSecu f).prot = m.prot := rfl
@[simp] theorem modSecu_sec (f : SecuRt → SecuRt) : (m.modSecu f).sec = m.sec := rfl
@[simp] theorem modSecu_dc (f : SecuRt → SecuRt) : (m.modSecu f).dc = m.dc := rfl
@[simp] theorem modSecu_fld (f : SecuRt → SecuRt) : (m.modSecu f).fld = m.fld := rfl
@[simp] theorem modSecu_time (f : SecuRt → SecuRt) : (m.modSecu f).time = m.time := rfl
@[simp] theorem modSecu_therm (f : SecuRt → SecuRt) : (m.modSecu f).therm = m.therm := rfl
@[simp] theorem modSecu_cd (f : SecuRt → SecuRt) : (m.modSecu f).cd = m.cd := rfl
@[simp] theorem modSecu_hk (f : SecuRt → SecuRt) : (m.modSecu f).hk = m.hk := rfl
@[simp] theorem modSecu_age (f : SecuRt → SecuRt) : (m.modSecu f).age = m.age := rfl
@[simp] theorem modSecu_secu (f : SecuRt → SecuRt) : (m.modSecu f).secu = f m.secu := rfl
@[simp] theorem modSecu_lanes (f : SecuRt → SecuRt) : (m.modSecu f).lanes = m.lanes := rfl
@[simp] theorem modSecu_inj (f : SecuRt → SecuRt) : (m.modSecu f).inj = m.inj := rfl
@[simp] theorem modSecu_trace (f : SecuRt → SecuRt) : (m.modSecu f).trace = m.trace := rfl
@[simp] theorem modSecu_meas (f : SecuRt → SecuRt) : (m.modSecu f).meas = m.meas := rfl
@[simp] theorem modTrace_clk (f : TraceRt → TraceRt) : (m.modTrace f).clk = m.clk := rfl
@[simp] theorem modTrace_obj (f : TraceRt → TraceRt) : (m.modTrace f).obj = m.obj := rfl
@[simp] theorem modTrace_sto (f : TraceRt → TraceRt) : (m.modTrace f).sto = m.sto := rfl
@[simp] theorem modTrace_seenEv (f : TraceRt → TraceRt) : (m.modTrace f).seenEv = m.seenEv := rfl
@[simp] theorem modTrace_grp (f : TraceRt → TraceRt) : (m.modTrace f).grp = m.grp := rfl
@[simp] theorem modTrace_sdc (f : TraceRt → TraceRt) : (m.modTrace f).sdc = m.sdc := rfl
@[simp] theorem modTrace_arb (f : TraceRt → TraceRt) : (m.modTrace f).arb = m.arb := rfl
@[simp] theorem modTrace_power (f : TraceRt → TraceRt) : (m.modTrace f).power = m.power := rfl
@[simp] theorem modTrace_prot (f : TraceRt → TraceRt) : (m.modTrace f).prot = m.prot := rfl
@[simp] theorem modTrace_sec (f : TraceRt → TraceRt) : (m.modTrace f).sec = m.sec := rfl
@[simp] theorem modTrace_dc (f : TraceRt → TraceRt) : (m.modTrace f).dc = m.dc := rfl
@[simp] theorem modTrace_fld (f : TraceRt → TraceRt) : (m.modTrace f).fld = m.fld := rfl
@[simp] theorem modTrace_time (f : TraceRt → TraceRt) : (m.modTrace f).time = m.time := rfl
@[simp] theorem modTrace_therm (f : TraceRt → TraceRt) : (m.modTrace f).therm = m.therm := rfl
@[simp] theorem modTrace_cd (f : TraceRt → TraceRt) : (m.modTrace f).cd = m.cd := rfl
@[simp] theorem modTrace_hk (f : TraceRt → TraceRt) : (m.modTrace f).hk = m.hk := rfl
@[simp] theorem modTrace_age (f : TraceRt → TraceRt) : (m.modTrace f).age = m.age := rfl
@[simp] theorem modTrace_secu (f : TraceRt → TraceRt) : (m.modTrace f).secu = m.secu := rfl
@[simp] theorem modTrace_lanes (f : TraceRt → TraceRt) : (m.modTrace f).lanes = m.lanes := rfl
@[simp] theorem modTrace_inj (f : TraceRt → TraceRt) : (m.modTrace f).inj = m.inj := rfl
@[simp] theorem modTrace_trace (f : TraceRt → TraceRt) : (m.modTrace f).trace = f m.trace := rfl
@[simp] theorem modTrace_meas (f : TraceRt → TraceRt) : (m.modTrace f).meas = m.meas := rfl
@[simp] theorem modInj_clk (f : InjRt → InjRt) : (m.modInj f).clk = m.clk := rfl
@[simp] theorem modInj_obj (f : InjRt → InjRt) : (m.modInj f).obj = m.obj := rfl
@[simp] theorem modInj_sto (f : InjRt → InjRt) : (m.modInj f).sto = m.sto := rfl
@[simp] theorem modInj_seenEv (f : InjRt → InjRt) : (m.modInj f).seenEv = m.seenEv := rfl
@[simp] theorem modInj_grp (f : InjRt → InjRt) : (m.modInj f).grp = m.grp := rfl
@[simp] theorem modInj_sdc (f : InjRt → InjRt) : (m.modInj f).sdc = m.sdc := rfl
@[simp] theorem modInj_arb (f : InjRt → InjRt) : (m.modInj f).arb = m.arb := rfl
@[simp] theorem modInj_power (f : InjRt → InjRt) : (m.modInj f).power = m.power := rfl
@[simp] theorem modInj_prot (f : InjRt → InjRt) : (m.modInj f).prot = m.prot := rfl
@[simp] theorem modInj_sec (f : InjRt → InjRt) : (m.modInj f).sec = m.sec := rfl
@[simp] theorem modInj_dc (f : InjRt → InjRt) : (m.modInj f).dc = m.dc := rfl
@[simp] theorem modInj_fld (f : InjRt → InjRt) : (m.modInj f).fld = m.fld := rfl
@[simp] theorem modInj_time (f : InjRt → InjRt) : (m.modInj f).time = m.time := rfl
@[simp] theorem modInj_therm (f : InjRt → InjRt) : (m.modInj f).therm = m.therm := rfl
@[simp] theorem modInj_cd (f : InjRt → InjRt) : (m.modInj f).cd = m.cd := rfl
@[simp] theorem modInj_hk (f : InjRt → InjRt) : (m.modInj f).hk = m.hk := rfl
@[simp] theorem modInj_age (f : InjRt → InjRt) : (m.modInj f).age = m.age := rfl
@[simp] theorem modInj_secu (f : InjRt → InjRt) : (m.modInj f).secu = m.secu := rfl
@[simp] theorem modInj_lanes (f : InjRt → InjRt) : (m.modInj f).lanes = m.lanes := rfl
@[simp] theorem modInj_inj (f : InjRt → InjRt) : (m.modInj f).inj = f m.inj := rfl
@[simp] theorem modInj_trace (f : InjRt → InjRt) : (m.modInj f).trace = m.trace := rfl
@[simp] theorem modInj_meas (f : InjRt → InjRt) : (m.modInj f).meas = m.meas := rfl
@[simp] theorem modSess_clk (j : Nat) (f : Session → Session) : (m.modSess j f).clk = m.clk := rfl
@[simp] theorem modSess_obj (j : Nat) (f : Session → Session) : (m.modSess j f).obj = m.obj := rfl
@[simp] theorem modSess_sto (j : Nat) (f : Session → Session) : (m.modSess j f).sto = m.sto := rfl
@[simp] theorem modSess_seenEv (j : Nat) (f : Session → Session) : (m.modSess j f).seenEv = m.seenEv := rfl
@[simp] theorem modSess_grp (j : Nat) (f : Session → Session) : (m.modSess j f).grp = m.grp := rfl
@[simp] theorem modSess_sdc (j : Nat) (f : Session → Session) : (m.modSess j f).sdc = m.sdc := rfl
@[simp] theorem modSess_arb (j : Nat) (f : Session → Session) : (m.modSess j f).arb = m.arb := rfl
@[simp] theorem modSess_power (j : Nat) (f : Session → Session) : (m.modSess j f).power = m.power := rfl
@[simp] theorem modSess_prot (j : Nat) (f : Session → Session) : (m.modSess j f).prot = m.prot := rfl
@[simp] theorem modSess_sec (j : Nat) (f : Session → Session) : (m.modSess j f).sec = m.sec := rfl
@[simp] theorem modSess_dc (j : Nat) (f : Session → Session) : (m.modSess j f).dc = m.dc := rfl
@[simp] theorem modSess_fld (j : Nat) (f : Session → Session) : (m.modSess j f).fld = m.fld := rfl
@[simp] theorem modSess_time (j : Nat) (f : Session → Session) : (m.modSess j f).time = m.time := rfl
@[simp] theorem modSess_therm (j : Nat) (f : Session → Session) : (m.modSess j f).therm = m.therm := rfl
@[simp] theorem modSess_cd (j : Nat) (f : Session → Session) : (m.modSess j f).cd = m.cd := rfl
@[simp] theorem modSess_hk (j : Nat) (f : Session → Session) : (m.modSess j f).hk = m.hk := rfl
@[simp] theorem modSess_age (j : Nat) (f : Session → Session) : (m.modSess j f).age = m.age := rfl
@[simp] theorem modSess_secu (j : Nat) (f : Session → Session) : (m.modSess j f).secu = m.secu := rfl
@[simp] theorem modSess_lanes (j : Nat) (f : Session → Session) : (m.modSess j f).lanes = m.lanes := rfl
@[simp] theorem modSess_inj (j : Nat) (f : Session → Session) : (m.modSess j f).inj = m.inj := rfl
@[simp] theorem modSess_trace (j : Nat) (f : Session → Session) : (m.modSess j f).trace = m.trace := rfl
@[simp] theorem modSess_meas (j : Nat) (f : Session → Session) : (m.modSess j f).meas = m.meas := rfl

/-! ### What an entry reads as: the store alone decides -/

theorem get_of_obj {a b : Mod} (h : a.obj = b.obj) : a.get k = b.get k := by simp [Mod.get, h]

@[simp] theorem get_modSec (s : Nat) (f : SecRt → SecRt) : (m.modSec s f).get k = m.get k := rfl
@[simp] theorem get_modDc (c : Nat) (f : DcRt → DcRt) : (m.modDc c f).get k = m.get k := rfl
@[simp] theorem get_modGrp (g : Nat) (f : GrpRt → GrpRt) : (m.modGrp g f).get k = m.get k := rfl
@[simp] theorem get_modPair (p : Nat) (f : PairRt → PairRt) : (m.modPair p f).get k = m.get k := rfl
@[simp] theorem get_modCtx (n : Nat) (f : CtxRt → CtxRt) : (m.modCtx n f).get k = m.get k := rfl
@[simp] theorem get_modVsm (s : Nat) (f : VsmRt → VsmRt) : (m.modVsm s f).get k = m.get k := rfl
@[simp] theorem get_modSdc (f : SdcRt → SdcRt) : (m.modSdc f).get k = m.get k := rfl
@[simp] theorem get_modArb (f : ArbRt → ArbRt) : (m.modArb f).get k = m.get k := rfl
@[simp] theorem get_modLane (l : Nat) (f : LaneRt → LaneRt) : (m.modLane l f).get k = m.get k := rfl
@[simp] theorem get_modFld (n : Nat) (f : FieldRt → FieldRt) : (m.modFld n f).get k = m.get k := rfl
@[simp] theorem get_modFgrp (g : Nat) (f : FieldGrpRt → FieldGrpRt) : (m.modFgrp g f).get k = m.get k := rfl
@[simp] theorem get_modRime (l : Nat) (f : RimeRt → RimeRt) : (m.modRime l f).get k = m.get k := rfl
@[simp] theorem get_modTherm (f : ThermRt → ThermRt) : (m.modTherm f).get k = m.get k := rfl
@[simp] theorem get_modCd (f : CdRt → CdRt) : (m.modCd f).get k = m.get k := rfl
@[simp] theorem get_modHk (f : HkRt → HkRt) : (m.modHk f).get k = m.get k := rfl
@[simp] theorem get_modAge (f : AgeRt → AgeRt) : (m.modAge f).get k = m.get k := rfl
@[simp] theorem get_modTime (f : TimeRt → TimeRt) : (m.modTime f).get k = m.get k := rfl
@[simp] theorem get_modMeas (f : MeasRt → MeasRt) : (m.modMeas f).get k = m.get k := rfl
@[simp] theorem get_modNet (f : NetRt → NetRt) : (m.modNet f).get k = m.get k := rfl
@[simp] theorem get_modPower (f : BootRt → BootRt) : (m.modPower f).get k = m.get k := rfl
@[simp] theorem get_modSecu (f : SecuRt → SecuRt) : (m.modSecu f).get k = m.get k := rfl
@[simp] theorem get_modTrace (f : TraceRt → TraceRt) : (m.modTrace f).get k = m.get k := rfl
@[simp] theorem get_modInj (f : InjRt → InjRt) : (m.modInj f).get k = m.get k := rfl
@[simp] theorem get_modSess (j : Nat) (f : Session → Session) : (m.modSess j f).get k = m.get k := rfl
@[simp] theorem get_reach (p : Nat) : (m.reach p).get k = m.get k := rfl
@[simp] theorem get_pass (p : Nat) : (m.pass p).get k = m.get k := rfl

/-! ### An event raised -/

/-- EVT_N's pulse touches the link alone. -/
theorem wantPulse_frame : m.wantPulse = { m with link := m.wantPulse.link } := by
  unfold Mod.wantPulse; repeat' split
  all_goals rfl

theorem pulse_if (c : Prop) [Decidable c] : ∃ l, (if c then m.wantPulse else m) = { m with link := l } := by
  by_cases h : c
  · rw [if_pos h, wantPulse_frame]; exact ⟨_, rfl⟩
  · rw [if_neg h]; exact ⟨_, rfl⟩

/-- An event entered touches the queues, the sessions and the events of the tick alone. -/
theorem enterEvent_frame (time ev sev fault arg : Nat) : m.enterEvent time ev sev fault arg =
    { m with hostQ := (m.enterEvent time ev sev fault arg).hostQ, sess := (m.enterEvent time ev sev fault arg).sess
             qseq := (m.enterEvent time ev sev fault arg).qseq, seenEv := ev :: m.seenEv } := rfl

/-- Raising an event touches the queues, the sessions, the link and the events of the tick alone. -/
theorem raiseAt_frame (time ev sev fault arg : Nat) : ∃ l h se q, m.raiseAt time ev sev fault arg =
    { m with link := l, hostQ := h, sess := se, qseq := q, seenEv := ev :: m.seenEv } := by
  obtain ⟨l, h⟩ := pulse_if (m.enterEvent time ev sev fault arg)
    ((m.enterEvent time ev sev fault arg).hostQ.entries.length ≠ m.hostQ.entries.length)
  exact ⟨l, (m.enterEvent time ev sev fault arg).hostQ, (m.enterEvent time ev sev fault arg).sess,
    (m.enterEvent time ev sev fault arg).qseq, h⟩

@[simp] theorem raiseAt_clk (time ev sev fault arg : Nat) : (m.raiseAt time ev sev fault arg).clk = m.clk := by
  obtain ⟨_, _, _, _, h⟩ := raiseAt_frame m time ev sev fault arg
  rw [h]
@[simp] theorem raiseAt_obj (time ev sev fault arg : Nat) : (m.raiseAt time ev sev fault arg).obj = m.obj := by
  obtain ⟨_, _, _, _, h⟩ := raiseAt_frame m time ev sev fault arg
  rw [h]
@[simp] theorem raiseAt_sto (time ev sev fault arg : Nat) : (m.raiseAt time ev sev fault arg).sto = m.sto := by
  obtain ⟨_, _, _, _, h⟩ := raiseAt_frame m time ev sev fault arg
  rw [h]
@[simp] theorem raiseAt_gens (time ev sev fault arg : Nat) : (m.raiseAt time ev sev fault arg).gens = m.gens := by
  obtain ⟨_, _, _, _, h⟩ := raiseAt_frame m time ev sev fault arg
  rw [h]
@[simp] theorem raiseAt_mbx (time ev sev fault arg : Nat) : (m.raiseAt time ev sev fault arg).mbx = m.mbx := by
  obtain ⟨_, _, _, _, h⟩ := raiseAt_frame m time ev sev fault arg
  rw [h]
@[simp] theorem raiseAt_streams (time ev sev fault arg : Nat) : (m.raiseAt time ev sev fault arg).streams = m.streams := by
  obtain ⟨_, _, _, _, h⟩ := raiseAt_frame m time ev sev fault arg
  rw [h]
@[simp] theorem raiseAt_staged (time ev sev fault arg : Nat) : (m.raiseAt time ev sev fault arg).staged = m.staged := by
  obtain ⟨_, _, _, _, h⟩ := raiseAt_frame m time ev sev fault arg
  rw [h]
@[simp] theorem raiseAt_acts (time ev sev fault arg : Nat) : (m.raiseAt time ev sev fault arg).acts = m.acts := by
  obtain ⟨_, _, _, _, h⟩ := raiseAt_frame m time ev sev fault arg
  rw [h]
@[simp] theorem raiseAt_sched (time ev sev fault arg : Nat) : (m.raiseAt time ev sev fault arg).sched = m.sched := by
  obtain ⟨_, _, _, _, h⟩ := raiseAt_frame m time ev sev fault arg
  rw [h]
@[simp] theorem raiseAt_order (time ev sev fault arg : Nat) : (m.raiseAt time ev sev fault arg).order = m.order := by
  obtain ⟨_, _, _, _, h⟩ := raiseAt_frame m time ev sev fault arg
  rw [h]
@[simp] theorem raiseAt_free (time ev sev fault arg : Nat) : (m.raiseAt time ev sev fault arg).free = m.free := by
  obtain ⟨_, _, _, _, h⟩ := raiseAt_frame m time ev sev fault arg
  rw [h]
@[simp] theorem raiseAt_grp (time ev sev fault arg : Nat) : (m.raiseAt time ev sev fault arg).grp = m.grp := by
  obtain ⟨_, _, _, _, h⟩ := raiseAt_frame m time ev sev fault arg
  rw [h]
@[simp] theorem raiseAt_pairs (time ev sev fault arg : Nat) : (m.raiseAt time ev sev fault arg).pairs = m.pairs := by
  obtain ⟨_, _, _, _, h⟩ := raiseAt_frame m time ev sev fault arg
  rw [h]
@[simp] theorem raiseAt_idle (time ev sev fault arg : Nat) : (m.raiseAt time ev sev fault arg).idle = m.idle := by
  obtain ⟨_, _, _, _, h⟩ := raiseAt_frame m time ev sev fault arg
  rw [h]
@[simp] theorem raiseAt_prot (time ev sev fault arg : Nat) : (m.raiseAt time ev sev fault arg).prot = m.prot := by
  obtain ⟨_, _, _, _, h⟩ := raiseAt_frame m time ev sev fault arg
  rw [h]
@[simp] theorem raiseAt_sdc (time ev sev fault arg : Nat) : (m.raiseAt time ev sev fault arg).sdc = m.sdc := by
  obtain ⟨_, _, _, _, h⟩ := raiseAt_frame m time ev sev fault arg
  rw [h]
@[simp] theorem raiseAt_sec (time ev sev fault arg : Nat) : (m.raiseAt time ev sev fault arg).sec = m.sec := by
  obtain ⟨_, _, _, _, h⟩ := raiseAt_frame m time ev sev fault arg
  rw [h]
@[simp] theorem raiseAt_dc (time ev sev fault arg : Nat) : (m.raiseAt time ev sev fault arg).dc = m.dc := by
  obtain ⟨_, _, _, _, h⟩ := raiseAt_frame m time ev sev fault arg
  rw [h]
@[simp] theorem raiseAt_fld (time ev sev fault arg : Nat) : (m.raiseAt time ev sev fault arg).fld = m.fld := by
  obtain ⟨_, _, _, _, h⟩ := raiseAt_frame m time ev sev fault arg
  rw [h]
@[simp] theorem raiseAt_fgrp (time ev sev fault arg : Nat) : (m.raiseAt time ev sev fault arg).fgrp = m.fgrp := by
  obtain ⟨_, _, _, _, h⟩ := raiseAt_frame m time ev sev fault arg
  rw [h]
@[simp] theorem raiseAt_rime (time ev sev fault arg : Nat) : (m.raiseAt time ev sev fault arg).rime = m.rime := by
  obtain ⟨_, _, _, _, h⟩ := raiseAt_frame m time ev sev fault arg
  rw [h]
@[simp] theorem raiseAt_lanes (time ev sev fault arg : Nat) : (m.raiseAt time ev sev fault arg).lanes = m.lanes := by
  obtain ⟨_, _, _, _, h⟩ := raiseAt_frame m time ev sev fault arg
  rw [h]
@[simp] theorem raiseAt_arb (time ev sev fault arg : Nat) : (m.raiseAt time ev sev fault arg).arb = m.arb := by
  obtain ⟨_, _, _, _, h⟩ := raiseAt_frame m time ev sev fault arg
  rw [h]
@[simp] theorem raiseAt_eng (time ev sev fault arg : Nat) : (m.raiseAt time ev sev fault arg).eng = m.eng := by
  obtain ⟨_, _, _, _, h⟩ := raiseAt_frame m time ev sev fault arg
  rw [h]
@[simp] theorem raiseAt_saved (time ev sev fault arg : Nat) : (m.raiseAt time ev sev fault arg).saved = m.saved := by
  obtain ⟨_, _, _, _, h⟩ := raiseAt_frame m time ev sev fault arg
  rw [h]
@[simp] theorem raiseAt_trace (time ev sev fault arg : Nat) : (m.raiseAt time ev sev fault arg).trace = m.trace := by
  obtain ⟨_, _, _, _, h⟩ := raiseAt_frame m time ev sev fault arg
  rw [h]
@[simp] theorem raiseAt_inj (time ev sev fault arg : Nat) : (m.raiseAt time ev sev fault arg).inj = m.inj := by
  obtain ⟨_, _, _, _, h⟩ := raiseAt_frame m time ev sev fault arg
  rw [h]
@[simp] theorem raiseAt_hostSet (time ev sev fault arg : Nat) : (m.raiseAt time ev sev fault arg).hostSet = m.hostSet := by
  obtain ⟨_, _, _, _, h⟩ := raiseAt_frame m time ev sev fault arg
  rw [h]
@[simp] theorem raiseAt_lost (time ev sev fault arg : Nat) : (m.raiseAt time ev sev fault arg).lost = m.lost := by
  obtain ⟨_, _, _, _, h⟩ := raiseAt_frame m time ev sev fault arg
  rw [h]
@[simp] theorem raiseAt_meas (time ev sev fault arg : Nat) : (m.raiseAt time ev sev fault arg).meas = m.meas := by
  obtain ⟨_, _, _, _, h⟩ := raiseAt_frame m time ev sev fault arg
  rw [h]
@[simp] theorem raiseAt_time (time ev sev fault arg : Nat) : (m.raiseAt time ev sev fault arg).time = m.time := by
  obtain ⟨_, _, _, _, h⟩ := raiseAt_frame m time ev sev fault arg
  rw [h]
@[simp] theorem raiseAt_net (time ev sev fault arg : Nat) : (m.raiseAt time ev sev fault arg).net = m.net := by
  obtain ⟨_, _, _, _, h⟩ := raiseAt_frame m time ev sev fault arg
  rw [h]
@[simp] theorem raiseAt_secu (time ev sev fault arg : Nat) : (m.raiseAt time ev sev fault arg).secu = m.secu := by
  obtain ⟨_, _, _, _, h⟩ := raiseAt_frame m time ev sev fault arg
  rw [h]
@[simp] theorem raiseAt_therm (time ev sev fault arg : Nat) : (m.raiseAt time ev sev fault arg).therm = m.therm := by
  obtain ⟨_, _, _, _, h⟩ := raiseAt_frame m time ev sev fault arg
  rw [h]
@[simp] theorem raiseAt_cd (time ev sev fault arg : Nat) : (m.raiseAt time ev sev fault arg).cd = m.cd := by
  obtain ⟨_, _, _, _, h⟩ := raiseAt_frame m time ev sev fault arg
  rw [h]
@[simp] theorem raiseAt_hk (time ev sev fault arg : Nat) : (m.raiseAt time ev sev fault arg).hk = m.hk := by
  obtain ⟨_, _, _, _, h⟩ := raiseAt_frame m time ev sev fault arg
  rw [h]
@[simp] theorem raiseAt_age (time ev sev fault arg : Nat) : (m.raiseAt time ev sev fault arg).age = m.age := by
  obtain ⟨_, _, _, _, h⟩ := raiseAt_frame m time ev sev fault arg
  rw [h]
@[simp] theorem raiseAt_power (time ev sev fault arg : Nat) : (m.raiseAt time ev sev fault arg).power = m.power := by
  obtain ⟨_, _, _, _, h⟩ := raiseAt_frame m time ev sev fault arg
  rw [h]
@[simp] theorem raiseAt_seenEv (time ev sev fault arg : Nat) :
    (m.raiseAt time ev sev fault arg).seenEv = ev :: m.seenEv := by
  obtain ⟨_, _, _, _, h⟩ := raiseAt_frame m time ev sev fault arg
  rw [h]
@[simp] theorem get_raiseAt (time ev sev fault arg : Nat) : (m.raiseAt time ev sev fault arg).get k = m.get k :=
  get_of_obj k (raiseAt_obj m time ev sev fault arg)

/-! ### A function applied along a list -/

@[simp] theorem each_nil (f : Nat → Mod → Mod) : m.each [] f = m := rfl
@[simp] theorem each_cons (n : Nat) (l : List Nat) (f : Nat → Mod → Mod) : m.each (n :: l) f = (f n m).each l f := rfl

/-- What every application leaves, the whole leaves. -/
theorem each_keeps {α : Type} (p : Mod → α) {f : Nat → Mod → Mod} (hf : ∀ n m, p (f n m) = p m) (l : List Nat) :
    p (m.each l f) = p m := by
  induction l generalizing m with
  | nil => rfl
  | cons n l ih => rw [each_cons, ih, hf]

end Sys2Proof.Machine
end

