-- ==== Sys2Proof/Laws/Frames.lean ====
section
/-!
SUPPORT. What the way of a frame leaves (R42 to R51): a response changes mailboxes, sessions and the link alone, and an
accepted frame runs its command on the module as `Mod.taken` gives it.
-/
namespace Sys2Proof.Machine

/-! ### Parts that stay -/

theorem Only.refl (l : List Part) (a : Mod) : Only l a a := by
  intro p _; cases p <;> rfl

theorem Only.trans {l : List Part} {a b c : Mod} (h : Only l a b) (g : Only l b c) : Only l a c := by
  intro p hp
  have h1 := h p hp
  have h2 := g p hp
  cases p <;> exact Eq.trans h2 h1

theorem Only.mono {l k : List Part} {a b : Mod} (h : Only l a b) (hs : l ⊆ k) : Only k a b :=
  fun p hp => h p (fun hl => hp (hs hl))

/-- The parts that a response changes. -/
def rspParts : List Part := [.mbx, .sess, .link]

theorem only_modChan (snd : Sender) (f : Chan → Chan) (m : Mod) : Only rspParts m (m.modChan snd f) := by
  intro p hp
  cases snd <;> cases p <;> first | rfl | (simp [rspParts] at hp)

theorem only_modSess (k : Nat) (f : Session → Session) (m : Mod) : Only rspParts m (m.modSess k f) := by
  intro p hp
  cases p <;> first | rfl | (simp [rspParts] at hp)

theorem only_wantPulse (m : Mod) : Only rspParts m m.wantPulse := by
  intro p hp
  unfold Mod.wantPulse
  split
  · split
    · cases p <;> first | rfl | (simp [rspParts] at hp)
    · split <;> cases p <;> first | rfl | (simp [rspParts] at hp)
  · cases p <;> rfl

theorem only_evtCondition (m : Mod) (a b : Bool) : Only rspParts m (m.evtCondition a b) := by
  unfold Mod.evtCondition
  split
  · exact only_wantPulse m
  · exact Only.refl _ _

theorem only_mbx (m : Mod) (x : List Mailbox) : Only rspParts m { m with mbx := x } := by
  intro p hp
  cases p <;> first | rfl | (simp [rspParts] at hp)

theorem only_leaveMbx {n : Nat} {r : Rsp} {m m1 : Mod} (h : m.leaveMbx n r = some m1) : Only rspParts m m1 := by
  unfold Mod.leaveMbx at h
  dsimp only at h
  split at h
  · split at h
    · cases h
    · injection h with h
      subst h
      exact (only_mbx m _).trans (only_evtCondition _ _ _)
  · injection h with h
    subst h
    exact (only_mbx m _).trans (only_evtCondition _ _ _)

theorem only_leave {snd : Sender} {r : Rsp} {m m1 : Mod} (h : m.leave snd r = some m1) : Only rspParts m m1 := by
  cases snd with
  | mbx n => exact only_leaveMbx h
  | session k => injection h with h; subst h; exact only_modSess _ _ _
  | modbus o => injection h with h; subst h; exact Only.refl _ _
  | dnp3 o => injection h with h; subst h; exact Only.refl _ _
  | localSafety => injection h with h; subst h; exact Only.refl _ _

theorem only_leaveAll (snd : Sender) (l : List (Nat × Option Rsp)) (m : Mod) : Only rspParts m (Mod.leaveAll snd l m) := by
  induction l generalizing m with
  | nil => exact only_modChan _ _ _
  | cons p ps ih =>
    unfold Mod.leaveAll
    split
    · exact only_modChan _ _ _
    · rename_i m1 h
      cases hp : p.2 with
      | none => simp [hp] at h
      | some r =>
        rw [hp] at h
        exact (only_leave h).trans (ih m1)

theorem only_deliver (snd : Sender) (m : Mod) : Only rspParts m (m.deliver snd) :=
  (only_leaveAll snd _ m).trans (only_mbx _ _)

theorem only_respond (snd : Sender) (r : Rsp) (m : Mod) : Only rspParts m (m.respond snd r) :=
  (only_modChan snd _ m).trans (only_deliver snd _)

theorem only_freeMbx (n : Nat) (m : Mod) : Only rspParts m (m.freeMbx n) := only_mbx m _

/-! ### The response that is kept -/

/-- What a way of responses leaves of a channel: anything that neither the responses outstanding nor the counter show. -/
structure Steady {β : Type} (π : Chan → β) : Prop where
  sign : ∀ (r : Rsp) (c : Chan), π (c.sign r).2 = π c
  out  : ∀ (c : Chan) (o : List (Nat × Option Rsp)), π { c with out := o } = π c

theorem steady_stored : Steady (fun c : Chan => c.stored) :=
  ⟨fun r c => by unfold Chan.sign; split <;> first | rfl | (split <;> rfl), fun _ _ => rfl⟩

theorem steady_kept : Steady (fun c : Chan => c.kept) :=
  ⟨fun r c => by unfold Chan.sign; split <;> first | rfl | (split <;> rfl), fun _ _ => rfl⟩

theorem steady_group : Steady (fun c : Chan => c.group) :=
  ⟨fun r c => by unfold Chan.sign; split <;> first | rfl | (split <;> rfl), fun _ _ => rfl⟩

theorem modChan_proj {β : Type} (π : Chan → β) (snd : Sender) (f : Chan → Chan) (m : Mod) (hf : ∀ c, π (f c) = π c) :
    π ((m.modChan snd f).chanOf snd) = π (m.chanOf snd) := by
  cases snd with
  | mbx n =>
    simp only [Mod.modChan, Mod.chanOf, List.getD_eq_getElem?_getD, List.getElem?_modify]
    cases h : m.mbx[n]? <;> simp [hf]
  | session k =>
    simp only [Mod.modChan, Mod.chanOf, Mod.sessAt, Mod.modSess]
    rw [List.find?_map]
    have : (fun p : Nat × Session => decide (p.1 = k)) ∘ (fun p => if p.1 = k then (p.1, { p.2 with chan := f p.2.chan }) else p)
        = (fun p => decide (p.1 = k)) := by
      funext p; simp only [Function.comp]; split <;> simp_all
    rw [this]
    cases h : m.sess.find? (fun p => decide (p.1 = k)) with
    | none => simp
    | some p =>
      have hk := List.find?_some h
      simp only [decide_eq_true_eq] at hk
      simp [hk, hf]
  | modbus o => rfl
  | dnp3 o => rfl
  | localSafety => rfl

theorem modSess_proj {β : Type} (π : Chan → β) (k : Nat) (f : Session → Session) (m : Mod) (hf : ∀ x, π (f x).chan = π x.chan) :
    π ((m.modSess k f).chanOf (.session k)) = π (m.chanOf (.session k)) := by
  simp only [Mod.chanOf, Mod.sessAt, Mod.modSess]
  rw [List.find?_map]
  have : (fun p : Nat × Session => decide (p.1 = k)) ∘ (fun p => if p.1 = k then (p.1, f p.2) else p)
      = (fun p => decide (p.1 = k)) := by
    funext p; simp only [Function.comp]; split <;> simp_all
  rw [this]
  cases h : m.sess.find? (fun p => decide (p.1 = k)) with
  | none => simp
  | some p =>
    have hk := List.find?_some h
    simp only [decide_eq_true_eq] at hk
    simp [hk, hf]

theorem wantPulse_mbx (m : Mod) : m.wantPulse.mbx = m.mbx := by
  unfold Mod.wantPulse; split
  · split
    · rfl
    · split <;> rfl
  · rfl

theorem wantPulse_sess (m : Mod) : m.wantPulse.sess = m.sess := by
  unfold Mod.wantPulse; split
  · split
    · rfl
    · split <;> rfl
  · rfl

theorem evtCondition_mbx (m : Mod) (a b : Bool) : (m.evtCondition a b).mbx = m.mbx := by
  unfold Mod.evtCondition; split
  · exact wantPulse_mbx m
  · rfl

theorem evtCondition_sess (m : Mod) (a b : Bool) : (m.evtCondition a b).sess = m.sess := by
  unfold Mod.evtCondition; split
  · exact wantPulse_sess m
  · rfl

theorem leave_proj {β : Type} {π : Chan → β} (hπ : Steady π) {snd : Sender} {r : Rsp} {m m1 : Mod} (h : m.leave snd r = some m1) :
    π (m1.chanOf snd) = π (m.chanOf snd) := by
  cases snd with
  | mbx n =>
    simp only [Mod.leave] at h
    unfold Mod.leaveMbx at h
    dsimp only at h
    have key : ∀ y : Mailbox, π y.chan = π (m.mbx.getD n {}).chan →
        π ((m.mbx.set n y).getD n {}).chan = π (m.mbx.getD n {}).chan := by
      intro y hy
      simp only [List.getD_eq_getElem?_getD, List.getElem?_set, if_true] at hy ⊢
      split
      · exact hy
      · rename_i hlt
        have : m.mbx[n]? = none := List.getElem?_eq_none (by omega)
        simp [this]
    split at h
    · split at h
      · cases h
      · injection h with h
        subst h
        simp only [Mod.chanOf, evtCondition_mbx]
        exact key _ (hπ.sign _ _)
    · injection h with h
      subst h
      simp only [Mod.chanOf, evtCondition_mbx]
      exact key _ rfl
  | session k =>
    injection h with h; subst h
    exact modSess_proj π _ _ _ (fun x => hπ.sign r x.chan)
  | modbus o => injection h with h; subst h; rfl
  | dnp3 o => injection h with h; subst h; rfl
  | localSafety => injection h with h; subst h; rfl

theorem leaveAll_proj {β : Type} {π : Chan → β} (hπ : Steady π) (snd : Sender) (l : List (Nat × Option Rsp)) (m : Mod) :
    π ((Mod.leaveAll snd l m).chanOf snd) = π (m.chanOf snd) := by
  induction l generalizing m with
  | nil => exact modChan_proj π snd _ m (fun _ => hπ.out _ _)
  | cons p ps ih =>
    unfold Mod.leaveAll
    split
    · exact modChan_proj π snd _ m (fun _ => hπ.out _ _)
    · rename_i m1 h
      cases hp : p.2 with
      | none => simp [hp] at h
      | some r =>
        rw [hp] at h
        rw [ih m1]
        exact leave_proj hπ h

theorem settle_chan (x : Mailbox) : x.settle.chan = x.chan := by
  unfold Mailbox.settle
  split
  · rfl
  · split
    · rfl
    · split <;> rfl

theorem settleGens_chanOf (snd : Sender) (m : Mod) : m.settleGens.chanOf snd = m.chanOf snd := by
  cases snd with
  | mbx n =>
    simp only [Mod.chanOf, Mod.settleGens, List.getD_eq_getElem?_getD, List.getElem?_map]
    cases h : m.mbx[n]? <;> simp [settle_chan]
  | _ => rfl

theorem deliver_proj {β : Type} {π : Chan → β} (hπ : Steady π) (snd : Sender) (m : Mod) :
    π ((m.deliver snd).chanOf snd) = π (m.chanOf snd) := by
  unfold Mod.deliver
  rw [settleGens_chanOf]
  exact leaveAll_proj hπ snd _ m

/-! ### Sessions beside their channels -/

/-- A session without its command channel and what goes out on it. -/
def Session.rest (x : Session) : Session := { x with chan := {}, tx := [] }

/-- The sessions agree but for their command channels and what goes out on them. -/
def SameSessions (a b : Mod) : Prop := ∀ k, (b.sessAt k).map Session.rest = (a.sessAt k).map Session.rest

theorem SameSessions.of_sess {a b : Mod} (h : b.sess = a.sess) : SameSessions a b := by
  intro k; simp [Mod.sessAt, h]

theorem SameSessions.trans {a b c : Mod} (h : SameSessions a b) (g : SameSessions b c) : SameSessions a c :=
  fun k => (g k).trans (h k)

theorem sameSessions_modSess (j : Nat) (f : Session → Session) (m : Mod) (hf : ∀ x, (f x).rest = x.rest) : SameSessions m (m.modSess j f) := by
  intro k
  simp only [Mod.sessAt, Mod.modSess]
  rw [List.find?_map]
  have : (fun p : Nat × Session => decide (p.1 = k)) ∘ (fun p => if p.1 = j then (p.1, f p.2) else p)
      = (fun p => decide (p.1 = k)) := by
    funext p; simp only [Function.comp]; split <;> simp_all
  rw [this]
  cases m.sess.find? (fun p => decide (p.1 = k)) with
  | none => rfl
  | some p =>
    simp only [Option.map_some]
    split
    · simp [hf]
    · rfl

theorem sameSessions_modChan (snd : Sender) (f : Chan → Chan) (m : Mod) : SameSessions m (m.modChan snd f) := by
  cases snd with
  | session j => exact sameSessions_modSess j _ m (fun _ => rfl)
  | _ => exact SameSessions.of_sess rfl

theorem sameSessions_leave {snd : Sender} {r : Rsp} {m m1 : Mod} (h : m.leave snd r = some m1) : SameSessions m m1 := by
  cases snd with
  | mbx n =>
    apply SameSessions.of_sess
    simp only [Mod.leave] at h
    unfold Mod.leaveMbx at h
    dsimp only at h
    split at h
    · split at h
      · cases h
      · injection h with h; subst h; rw [evtCondition_sess]
    · injection h with h; subst h; rw [evtCondition_sess]
  | session k => injection h with h; subst h; exact sameSessions_modSess _ _ _ (fun _ => rfl)
  | modbus o => injection h with h; subst h; exact SameSessions.of_sess rfl
  | dnp3 o => injection h with h; subst h; exact SameSessions.of_sess rfl
  | localSafety => injection h with h; subst h; exact SameSessions.of_sess rfl

theorem sameSessions_leaveAll (snd : Sender) (l : List (Nat × Option Rsp)) (m : Mod) : SameSessions m (Mod.leaveAll snd l m) := by
  induction l generalizing m with
  | nil => exact sameSessions_modChan _ _ _
  | cons p ps ih =>
    unfold Mod.leaveAll
    split
    · exact sameSessions_modChan _ _ _
    · rename_i m1 h
      cases hp : p.2 with
      | none => simp [hp] at h
      | some r =>
        rw [hp] at h
        exact (sameSessions_leave h).trans (ih m1)

theorem sameSessions_deliver (snd : Sender) (m : Mod) : SameSessions m (m.deliver snd) :=
  (sameSessions_leaveAll snd _ m).trans (SameSessions.of_sess rfl)

theorem sameSessions_respond (snd : Sender) (r : Rsp) (m : Mod) : SameSessions m (m.respond snd r) :=
  (sameSessions_modChan snd _ m).trans (sameSessions_deliver snd _)

/-- What a change of a sender's channel makes of it, where the sender has one. -/
theorem chanOf_modChan {snd : Sender} {m : Mod} (f : Chan → Chan) (h : (m.chanOf snd).kept ≠ none) :
    (m.modChan snd f).chanOf snd = f (m.chanOf snd) := by
  cases snd with
  | mbx n =>
    simp only [Mod.modChan, Mod.chanOf, List.getD_eq_getElem?_getD, List.getElem?_modify] at h ⊢
    cases hx : m.mbx[n]? with
    | none => rw [hx] at h; exact absurd rfl h
    | some x => simp
  | session k =>
    simp only [Mod.modChan, Mod.chanOf, Mod.sessAt, Mod.modSess] at h ⊢
    rw [List.find?_map]
    have : (fun p : Nat × Session => decide (p.1 = k)) ∘ (fun p => if p.1 = k then (p.1, { p.2 with chan := f p.2.chan }) else p)
        = (fun p => decide (p.1 = k)) := by
      funext p; simp only [Function.comp]; split <;> simp_all
    rw [this]
    cases hx : m.sess.find? (fun p => decide (p.1 = k)) with
    | none => rw [hx] at h; exact absurd rfl h
    | some p =>
      have hk := List.find?_some hx
      simp only [decide_eq_true_eq] at hk
      simp [hk]
  | modbus o => exact absurd rfl h
  | dnp3 o => exact absurd rfl h
  | localSafety => exact absurd rfl h

/-- The response of the command that a channel keeps is stored for a duplicate (R51). -/
theorem respond_stored {snd : Sender} {r : Rsp} {m : Mod} (h : (m.chanOf snd).kept = some r.seq) :
    ((m.respond snd r).chanOf snd).stored = some r := by
  unfold Mod.respond
  rw [deliver_proj steady_stored, chanOf_modChan _ (by simp [h])]
  simp [h]

/-! ### An accepted frame -/

/-- Whether a sender has a command channel at present. -/
def Mod.hasChan (m : Mod) (snd : Sender) : Prop :=
  match snd with
  | .mbx n     => n < m.mbx.length
  | .session k => (m.sessAt k).isSome
  | _          => False

theorem sessAt_modSess (k : Nat) (f : Session → Session) (m : Mod) :
    (m.modSess k f).sessAt k = (m.sessAt k).map f := by
  simp only [Mod.sessAt, Mod.modSess]
  rw [List.find?_map]
  have : (fun p : Nat × Session => decide (p.1 = k)) ∘ (fun p => if p.1 = k then (p.1, f p.2) else p)
      = (fun p => decide (p.1 = k)) := by
    funext p; simp only [Function.comp]; split <;> simp_all
  rw [this]
  cases hx : m.sess.find? (fun p => decide (p.1 = k)) with
  | none => simp
  | some p =>
    have hk := List.find?_some hx
    simp only [decide_eq_true_eq] at hk
    simp [hk]

theorem chanOf_modChan_has {snd : Sender} {m : Mod} (f : Chan → Chan) (h : m.hasChan snd) :
    (m.modChan snd f).chanOf snd = f (m.chanOf snd) := by
  cases snd with
  | mbx n =>
    simp only [Mod.hasChan] at h
    simp [Mod.modChan, Mod.chanOf, List.getD_eq_getElem?_getD, h]
  | session k =>
    simp only [Mod.hasChan] at h
    obtain ⟨x, hx⟩ := Option.isSome_iff_exists.mp h
    simp only [Mod.modChan, Mod.chanOf, sessAt_modSess, hx]
    rfl
  | modbus o => exact h.elim
  | dnp3 o => exact h.elim
  | localSafety => exact h.elim

theorem hasChan_modChan {snd : Sender} {m : Mod} (f : Chan → Chan) (h : m.hasChan snd) : (m.modChan snd f).hasChan snd := by
  cases snd with
  | mbx n => simpa [Mod.hasChan, Mod.modChan] using h
  | session k =>
    simp only [Mod.hasChan, Mod.modChan, sessAt_modSess] at h ⊢
    simpa using h
  | modbus o => exact h.elim
  | dnp3 o => exact h.elim
  | localSafety => exact h.elim

theorem hasChan_of_accepts {m : Mod} {f : Frame} (h : m.accepts f = true) : m.hasChan f.h.snd := by
  simp only [Mod.accepts, Bool.and_eq_true] at h
  have hw := h.1.1.1.1.2
  unfold Mod.wayOpen at hw
  cases hs : f.h.snd with
  | mbx n =>
    rw [hs] at hw
    simp only [Bool.and_eq_true, decide_eq_true_eq] at hw
    show n < m.mbx.length
    omega
  | session k =>
    rw [hs] at hw
    simp only at hw
    show (m.sessAt k).isSome
    cases hk : m.sessAt k with
    | none => rw [hk] at hw; simp at hw
    | some x => rfl
  | modbus o => rw [hs] at hw; cases hw
  | dnp3 o => rw [hs] at hw; cases hw
  | localSafety => rw [hs] at hw; cases hw

/-- The way that a frame takes before its command is executed: BUSY of its mailbox, or the session heard from. -/
def Mod.heard (f : Frame) (m : Mod) : Mod :=
  match f.h.snd with
  | .mbx n     => if (m.mbx.getD n {}).gen = 3 then m else { m with mbx := m.mbx.set n { (m.mbx.getD n {}) with busy := true } }
  | .session k => m.modSess k (fun y => { y with lastPs := m.now })
  | _          => m

theorem hasChan_heard {m : Mod} {f : Frame} (h : m.hasChan f.h.snd) : (m.heard f).hasChan f.h.snd := by
  unfold Mod.heard
  cases hs : f.h.snd with
  | mbx n =>
    rw [hs] at h
    show n < _
    simp only
    split
    · exact h
    · simpa [Mod.hasChan] using h
  | session k =>
    rw [hs] at h
    simp only [Mod.hasChan, sessAt_modSess] at h ⊢
    simpa using h
  | modbus o => rw [hs] at h; exact h.elim
  | dnp3 o => rw [hs] at h; exact h.elim
  | localSafety => rw [hs] at h; exact h.elim

theorem chanOf_heard {m : Mod} {f : Frame} (h : m.hasChan f.h.snd) : (m.heard f).chanOf f.h.snd = m.chanOf f.h.snd := by
  unfold Mod.heard
  cases hs : f.h.snd with
  | mbx n =>
    rw [hs] at h
    simp only [Mod.hasChan] at h
    simp only
    split
    · rfl
    · simp [Mod.chanOf, List.getD_eq_getElem?_getD, h]
  | session k =>
    rw [hs] at h
    obtain ⟨x, hx⟩ := Option.isSome_iff_exists.mp (show (m.sessAt k).isSome from h)
    simp only [Mod.chanOf, sessAt_modSess, hx]
    rfl
  | modbus o => rfl
  | dnp3 o => rfl
  | localSafety => rfl

theorem taken_eq (f : Frame) (m : Mod) : m.taken f =
    (((m.heard f).bump Ob.framesOk).modChan f.h.snd (fun x => if m.genOf f.h.snd = 3 && !f.opensSession then { x with ctrIn := some f.h.counter } else x)).modChan
      f.h.snd (fun c => { c with kept := some f.h.seq, stored := none }) := rfl

theorem chanOf_taken {m : Mod} {f : Frame} (h : m.accepts f = true) :
    (m.taken f).chanOf f.h.snd = { m.chanOf f.h.snd with
      kept := some f.h.seq, stored := none,
      ctrIn := if m.genOf f.h.snd = 3 && !f.opensSession then some f.h.counter else (m.chanOf f.h.snd).ctrIn } := by
  have hc := hasChan_heard (hasChan_of_accepts h)
  have hc2 : ((m.heard f).bump Ob.framesOk).hasChan f.h.snd := by
    cases hs : f.h.snd <;> rw [hs] at hc <;> exact hc
  have h3 : ((m.heard f).bump Ob.framesOk).chanOf f.h.snd = m.chanOf f.h.snd := by
    rw [← chanOf_heard (hasChan_of_accepts h)]
    cases hs : f.h.snd <;> rfl
  rw [taken_eq, chanOf_modChan_has _ (hasChan_modChan _ hc2), chanOf_modChan_has _ hc2, h3]
  split <;> rfl

theorem hasChan_taken {m : Mod} {f : Frame} (h : m.hasChan f.h.snd) : (m.taken f).hasChan f.h.snd := by
  have hc := hasChan_heard h
  have hc2 : ((m.heard f).bump Ob.framesOk).hasChan f.h.snd := by
    cases hs : f.h.snd <;> rw [hs] at hc <;> exact hc
  rw [taken_eq]
  exact hasChan_modChan _ (hasChan_modChan _ hc2)

theorem only_heard (f : Frame) (m : Mod) : Only frameParts m (m.heard f) := by
  unfold Mod.heard
  split
  · split
    · exact Only.refl _ _
    · exact (only_mbx m _).mono (by decide)
  · intro p hp
    cases p <;> first | rfl | (simp [frameParts] at hp)
  · exact Only.refl _ _

/-- Taking a frame changes its sender's channel and the counters of frames alone. -/
theorem only_taken (f : Frame) (m : Mod) : Only frameParts m (m.taken f) := by
  rw [taken_eq]
  refine (only_heard f m).trans (Only.trans ?_ (((only_modChan _ _ _).trans (only_modChan _ _ _)).mono (by decide)))
  intro p hp
  cases p <;> first | rfl | (simp [frameParts] at hp)

theorem get_modChan (snd : Sender) (g : Chan → Chan) (m : Mod) (k : Nat) : (m.modChan snd g).get k = m.get k := by
  cases snd <;> rfl

theorem get_heard (f : Frame) (m : Mod) (k : Nat) : (m.heard f).get k = m.get k := by
  unfold Mod.heard
  split
  · split <;> rfl
  · rfl
  · rfl

theorem get_taken {f : Frame} {m : Mod} {k : Nat} (hk : k ≠ Ob.framesOk) : (m.taken f).get k = m.get k := by
  rw [taken_eq, get_modChan, get_modChan, bump_eq, get_put_other _ hk, get_heard]

/-! ### The command of an accepted frame -/

/-- The outcome of the command that an accepted frame brings. -/
def Mod.ran (kp : Kept) (f : Frame) (m : Mod) : Outcome := (m.taken f).command kp (m.genOf f.h.snd) false f

theorem takes_fresh {s : State} {gen : Nat} {f : Frame} {m1 : Mod}
    (hb : (s.m.chanOf f.h.snd).blocked = none) (ha : gen ≠ 3 ∨ s.m.authentic f = true)
    (hq : seqKind (s.m.chanOf f.h.snd).kept f.h.seq = .new)
    (hm : m1 = (s.m.bump Ob.framesOk).modChan f.h.snd (fun x => if gen = 3 && !f.opensSession then { x with ctrIn := some f.h.counter } else x)) :
    State.takes gen false f s = { s with
      m := (m1.fresh s.kept gen false f).1,
      kept := { s.kept with rollback := raiseCounter (m1.fresh s.kept gen false f).2 s.kept.rollback } } := by
  subst hm
  unfold State.takes Mod.incoming
  have h3 : ¬ (gen = 3 && !s.m.authentic f) = true := by
    rcases ha with h | h <;> simp [h]
  simp only [hb, Option.isSome_none, Bool.false_eq_true, if_false, h3, hq, ite_self]

/-- What `Mod.fresh` makes of a command that is no SESSION_OPEN of a GHP3 mailbox. -/
theorem fresh_eq {kp : Kept} {gen : Nat} {f : Frame} {m : Mod} (ho : (f.opensSession && decide (gen = 3)) = false) :
    m.fresh kp gen false f =
      (let m0 := m.modChan f.h.snd (fun c => { c with kept := some f.h.seq, stored := none })
       let r := m0.execute kp gen false f
       match r.2 with
       | none   => (r.1.modChan f.h.snd (fun c => { c with out := c.out ++ [(f.h.seq, none)] }), m0.counterOf kp f r)
       | some a =>
         if f.op = 4 && f.idx = 0x6452 && a.1 = 0 then (r.1, none)
         else ((r.1.modChan f.h.snd (fun c => { c with out := c.out ++ [(f.h.seq, none)] })).respond f.h.snd (f.rsp a),
           m0.counterOf kp f r)) := by
  unfold Mod.fresh
  simp only [ho, Bool.false_and, Bool.false_eq_true, if_false]
  try rfl

/-- A command that does not end the session is executed where fewer than eight are outstanding. -/
theorem execute_eq {kp : Kept} {gen : Nat} {f : Frame} {m : Mod} (hu : m.unbound f = false) (ho : (m.chanOf f.h.snd).out.length < 8) :
    m.execute kp gen false f = m.command kp gen false f := by
  unfold Mod.execute
  have : ¬ 8 ≤ (m.chanOf f.h.snd).out.length := by omega
  simp [hu, this]

theorem counterOf_none {kp : Kept} {f : Frame} {r : Outcome} {m : Mod} (h : ¬ (f.op = 4 ∧ f.idx = 0x6453)) :
    m.counterOf kp f r = none := by
  unfold Mod.counterOf
  split
  · rename_i h1
    simp only [Bool.and_eq_true, decide_eq_true_eq] at h1
    exact absurd ⟨h1.1.1.1.1, h1.1.1.1.2⟩ h
  · rfl

/-- The frame as it stands: its fields fit their widths. -/
theorem sized_eq {f : Frame} (h1 : f.h.seq < 65536) (h2 : f.op < 256) (h3 : f.idx < 65536) (h4 : f.sub < 256) : f.sized = f := by
  unfold Frame.sized
  rw [Nat.mod_eq_of_lt h1, Nat.mod_eq_of_lt h2, Nat.mod_eq_of_lt h3, Nat.mod_eq_of_lt h4]

/-- The module after the command of an accepted frame, its response left aside: equal to the command's own result but for
the way of the response. -/
structure Ran (kp : Kept) (f : Frame) (m n : Mod) : Prop where
  rest   : Only rspParts (m.ran kp f).1 n
  sess   : SameSessions (m.ran kp f).1 n
  group  : (n.chanOf f.h.snd).group = ((m.ran kp f).1.chanOf f.h.snd).group
  stored : ∀ a, (m.ran kp f).2 = some a → ((m.ran kp f).1.chanOf f.h.snd).kept = some f.h.seq →
    (n.chanOf f.h.snd).stored = some (f.rsp a)

theorem only_answered (snd : Sender) (q : Nat) (r : Rsp) (m : Mod) :
    Only rspParts m ((m.modChan snd (fun c => { c with out := c.out ++ [(q, none)] })).respond snd r) :=
  (only_modChan _ _ _).trans (only_respond _ _ _)

theorem sameSessions_answered (snd : Sender) (q : Nat) (r : Rsp) (m : Mod) :
    SameSessions m ((m.modChan snd (fun c => { c with out := c.out ++ [(q, none)] })).respond snd r) :=
  (sameSessions_modChan _ _ _).trans (sameSessions_respond _ _ _)

theorem group_respond (snd : Sender) (r : Rsp) (m : Mod) : ((m.respond snd r).chanOf snd).group = (m.chanOf snd).group := by
  unfold Mod.respond
  have h1 := deliver_proj steady_group snd (m.modChan snd (fun c => { c with
    out := fillOut r.seq r c.out, stored := if c.kept = some r.seq then some r else c.stored }))
  have h2 := modChan_proj (fun c : Chan => c.group) snd (fun c => { c with
    out := fillOut r.seq r c.out, stored := if c.kept = some r.seq then some r else c.stored }) m (fun _ => rfl)
  exact h1.trans h2

theorem group_answered (snd : Sender) (q : Nat) (r : Rsp) (m : Mod) :
    (((m.modChan snd (fun c => { c with out := c.out ++ [(q, none)] })).respond snd r).chanOf snd).group = (m.chanOf snd).group :=
  (group_respond _ _ _).trans (modChan_proj (fun c : Chan => c.group) snd _ m (fun _ => rfl))

theorem unbound_taken (f : Frame) (n : Mod) : (n.taken f).unbound f = n.unbound f := by
  unfold Mod.unbound
  cases hs : f.h.snd with
  | session k =>
    simp only
    have : ((n.taken f).sessAt k).map (fun x => x.bound.isNone) = (n.sessAt k).map (fun x => x.bound.isNone) := by
      rw [taken_eq]
      unfold Mod.heard
      simp only [hs, Mod.modChan, sessAt_modSess, bump_eq]
      have hp : ∀ a b (y : Mod), (y.put a b).sessAt k = y.sessAt k := fun _ _ _ => rfl
      rw [hp, sessAt_modSess]
      cases n.sessAt k <;> simp
    rw [this]
  | _ => rfl

theorem out_taken {m : Mod} {f : Frame} (h : m.accepts f = true) : ((m.taken f).chanOf f.h.snd).out.length < 8 := by
  rw [chanOf_taken h]
  simp only [Mod.accepts, Bool.and_eq_true, decide_eq_true_eq] at h
  exact h.2

theorem fresh_ran {kp : Kept} {f : Frame} {m m1 : Mod} (h : m.accepts f = true) (hu : m.unbound f = false)
    (ho : (f.opensSession && decide (m.genOf f.h.snd = 3)) = false) (hf : ¬ (f.op = 4 ∧ f.idx = 0x6452))
    (hm : m1.modChan f.h.snd (fun c => { c with kept := some f.h.seq, stored := none }) = m.taken f) :
    Ran kp f m (m1.fresh kp (m.genOf f.h.snd) false f).1 := by
  rw [fresh_eq ho]
  simp only [hm]
  rw [execute_eq (by rw [unbound_taken, hu]) (out_taken h)]
  have hran : (m.taken f).command kp (m.genOf f.h.snd) false f = m.ran kp f := rfl
  rw [hran]
  have hf2 : ∀ a : Nat × List Byte, (decide (f.op = 4) && decide (f.idx = 0x6452) && decide (a.1 = 0)) = false := by
    intro a
    by_cases h1 : f.op = 4
    · have : f.idx ≠ 0x6452 := fun h2 => hf ⟨h1, h2⟩
      simp [this]
    · simp [h1]
  cases hr : (m.ran kp f).2 with
  | none =>
    dsimp only
    exact ⟨only_modChan _ _ _, sameSessions_modChan _ _ _, modChan_proj (fun c : Chan => c.group) _ _ _ (fun _ => rfl),
      fun a ha => by rw [hr] at ha; cases ha⟩
  | some a =>
    simp only [hf2, Bool.false_eq_true, if_false]
    refine ⟨only_answered _ _ _ _, sameSessions_answered _ _ _ _, group_answered _ _ _ _, fun b hb hk => ?_⟩
    rw [hr] at hb
    injection hb with hb
    subst hb
    have hne : ((m.ran kp f).1.chanOf f.h.snd).kept ≠ none := by rw [hk]; simp
    exact respond_stored (by rw [chanOf_modChan _ hne]; exact hk)

theorem ran_trans {kp : Kept} {f : Frame} {m n k : Mod} (h : Ran kp f m n) (g : Only rspParts n k) (he : k.sess = n.sess)
    (hg : (k.chanOf f.h.snd).group = (n.chanOf f.h.snd).group)
    (hs : (k.chanOf f.h.snd).stored = (n.chanOf f.h.snd).stored) : Ran kp f m k :=
  ⟨h.rest.trans g, h.sess.trans (SameSessions.of_sess he), by rw [hg]; exact h.group, fun a ha hk => by rw [hs]; exact h.stored a ha hk⟩

theorem freeMbx_chan (n : Nat) (snd : Sender) (m : Mod) : (m.freeMbx n).chanOf snd = m.chanOf snd := by
  cases snd with
  | mbx j =>
    simp only [Mod.chanOf, Mod.freeMbx, List.getD_eq_getElem?_getD, List.getElem?_modify]
    cases h : m.mbx[j]? with
    | none => simp
    | some x =>
      by_cases hn : n = j
      · simp only [hn, if_true, Option.map_eq_map, Option.map_some, Option.getD_some]
        split <;> rfl
      · simp [hn]
  | _ => rfl

/-- A frame comes to `Mod.fresh` on a module that is the one its command finds but for its sequence number. -/
def Reaches (s : State) (f : Frame) (o : Host.Outcome State Fault Refusal) : Prop :=
  ∃ m1 n : Mod, s.m.unbound f = false ∧ m1.modChan f.h.snd (fun c => { c with kept := some f.h.seq, stored := none }) = s.m.taken f
    ∧ (n = (m1.fresh s.kept (s.m.genOf f.h.snd) false f).1 ∨ ∃ k, n = (m1.fresh s.kept (s.m.genOf f.h.snd) false f).1.freeMbx k)
    ∧ o = .next { s with
        m := n, kept := { s.kept with rollback := raiseCounter (m1.fresh s.kept (s.m.genOf f.h.snd) false f).2 s.kept.rollback } }

/-- A frame that is taken for a new command reaches `Mod.fresh` as it stands. -/
theorem frame_fresh {s : State} {f : Frame} (h : s.m.accepts f = true) (hop : f.op < 256) (hidx : f.idx < 65536) (hsub : f.sub < 256) : Reaches s f (State.frame f s) := by
  have hsz : f.sized = f := by
    simp only [Mod.accepts, Bool.and_eq_true, decide_eq_true_eq] at h
    exact sized_eq h.1.1.1.1.1.2 hop hidx hsub
  have hA := h
  simp only [Mod.accepts, Bool.and_eq_true, decide_eq_true_eq, Bool.or_eq_true, Option.isNone_iff_eq_none] at h
  obtain ⟨⟨⟨⟨⟨⟨⟨hcrc, hgen⟩, hseq⟩, hw⟩, hb⟩, ha⟩, hq⟩, hlen⟩ := h
  cases hs : f.h.snd with
  | mbx n =>
    have hg : s.m.genOf f.h.snd = (s.m.mbx.getD n {}).gen := by rw [hs]; rfl
    simp only [hs, Mod.wayOpen, Bool.and_eq_true, decide_eq_true_eq] at hw
    obtain ⟨⟨⟨hn, hl⟩, hr⟩, hw⟩ := hw
    have hu : s.m.unbound f = false := by unfold Mod.unbound; rw [hs]
    simp only [State.frame, hs, hn, if_true, hsz]
    unfold State.mailboxFrame
    simp only [hr, hcrc, hgen, Bool.not_true, Bool.false_eq_true, if_false, Bool.or_false]
    by_cases h3 : (s.m.mbx.getD n {}).gen = 3
    · simp only [h3, if_true, Bool.and_eq_true, decide_eq_true_eq] at hw ⊢
      obtain ⟨hquad, hlim⟩ := hw
      have hl2 : ¬ 974 < f.data.length := by omega
      simp only [hquad, Bool.not_true, Bool.false_eq_true, if_false, hl2]
      have hg3 : s.m.genOf f.h.snd = 3 := by rw [hg, h3]
      have haut : (3 : Nat) ≠ 3 ∨ s.m.authentic f = true := by
        rcases ha with h | h
        · exact absurd hg3 h
        · exact Or.inr h
      rw [takes_fresh hb haut hq rfl]
      rw [← hg3]
      refine ⟨_, _, hu, ?_, Or.inl rfl, rfl⟩
      rw [taken_eq]
      unfold Mod.heard
      simp only [hs, h3, if_true]
      rw [hs] at hg3
      simp only [hg3]
    · simp only [h3, if_false, Bool.and_eq_true, decide_eq_true_eq, Bool.not_eq_true'] at hw ⊢
      obtain ⟨⟨hbusy, hrdy⟩, hlim⟩ := hw
      have hmuted : s.m.muted (.mbx n) = false := by
        unfold Mod.muted
        rw [← hs, hb]; rfl
      have hgn : ∀ bad d, bad = false → d = f.data → State.takesAt n bad { f with data := d } s = State.takesAt n false f s := by
        intro bad d h1 h2; subst h1; subst h2; rfl
      have hres : Reaches s f (.next (State.takesAt n false f s)) := by
        unfold State.takesAt
        have hch : ({ s.m with mbx := s.m.mbx.set n { s.m.mbx.getD n {} with busy := true } } : Mod).chanOf f.h.snd = s.m.chanOf f.h.snd := by
          have hlt : n < s.m.mbx.length := by omega
          rw [hs]
          simp [Mod.chanOf, List.getD_eq_getElem?_getD, hlt]
        have hng : (s.m.mbx.getD n {}).gen ≠ 3 := h3
        dsimp only
        rw [takes_fresh (s := { s with m := { s.m with mbx := s.m.mbx.set n { s.m.mbx.getD n {} with busy := true } } })
          (by dsimp only; rw [hch]; exact hb) (Or.inl hng) (by dsimp only; rw [hch]; exact hq) rfl]
        dsimp only
        rw [← hg]
        refine ⟨_, _, hu, ?_, Or.inr ⟨n, rfl⟩, rfl⟩
        rw [taken_eq]
        unfold Mod.heard
        simp only [hs, h3, if_false]
        rfl
      simp only [hbusy, hrdy, Bool.or_self, Bool.false_eq_true, if_false, hmuted]
      by_cases h1 : (s.m.mbx.getD n {}).gen = 1
      · have hlim1 : f.data.length ≤ 56 := by rw [h1] at hlim; exact hlim
        simp only [h1, if_true]
        rw [hgn _ _ (by simp; omega) (List.take_of_length_le (by omega))]
        exact hres
      · have hlim2 : ¬ 1012 < f.data.length := by
          have : f.data.length ≤ 1012 := by
            unfold dataLimit at hlim
            simp only [h1, if_false] at hlim
            split at hlim <;> omega
          omega
        simp only [h1, if_false, hlim2]
        exact hres
  | session k =>
    simp only [hs, Mod.wayOpen] at hw
    cases hx : s.m.sessAt k with
    | none => rw [hx] at hw; simp at hw
    | some x =>
      rw [hx] at hw
      simp only [Bool.and_eq_true, decide_eq_true_eq] at hw
      obtain ⟨⟨hopen, hbound⟩, hlim⟩ := hw
      have hu : s.m.unbound f = false := by
        unfold Mod.unbound
        simp only [hs, hx, Option.map_some, Option.getD_some]
        cases hb2 : x.bound with
        | none => rw [hb2] at hbound; simp at hbound
        | some b => rfl
      have hg3 : s.m.genOf f.h.snd = 3 := by rw [hs]; rfl
      have haut : s.m.authentic f = true := by
        rcases ha with h | h
        · exact absurd hg3 h
        · exact h
      simp only [State.frame, hs, hsz]
      unfold State.sessionFrame
      have hl2 : ¬ 974 < f.data.length := by omega
      simp only [hx, hopen, hcrc, hgen, Bool.not_true, Bool.false_eq_true, if_false, hl2, Bool.or_false, decide_false]
      have hch : (s.m.modSess k (fun y => { y with lastPs := s.m.now })).chanOf f.h.snd = s.m.chanOf f.h.snd := by
        rw [hs]
        simp only [Mod.chanOf, sessAt_modSess, hx]
        rfl
      have haut2 : (s.m.modSess k (fun y => { y with lastPs := s.m.now })).authentic f = true := by
        rw [← haut]
        unfold Mod.authentic
        rw [hch, hs]
      rw [takes_fresh (s := { s with m := s.m.modSess k (fun y => { y with lastPs := s.m.now }) })
          (by dsimp only; rw [hch]; exact hb) (Or.inr haut2) (by dsimp only; rw [hch]; exact hq) rfl]
      dsimp only
      rw [← hg3]
      refine ⟨_, _, hu, ?_, Or.inl rfl, rfl⟩
      rw [taken_eq]
      unfold Mod.heard
      simp only [hs]
      rw [hs] at hg3
      simp only [hg3]
  | modbus o => simp [hs, Mod.wayOpen] at hw
  | dnp3 o => simp [hs, Mod.wayOpen] at hw
  | localSafety => simp [hs, Mod.wayOpen] at hw


/-- A frame that is taken for a new command and is no SESSION_OPEN of the serial link, no FW_ACTIVATE and no FW_COMMIT: a
next state in which the command has run. -/
theorem frame_ran {s : State} {f : Frame} (h : s.m.accepts f = true) (hop : f.op < 256) (hidx : f.idx < 65536) (hsub : f.sub < 256)
    (ho : f.opensSession = false) (hf : ¬ (f.op = 4 ∧ f.idx = 0x6452)) (hc : ¬ (f.op = 4 ∧ f.idx = 0x6453)) :
    ∃ n : Mod, State.frame f s = .next { s with m := n } ∧ Ran s.kept f s.m n := by
  obtain ⟨m1, n, hu, hm, hn, hs⟩ := frame_fresh h hop hidx hsub
  have hnone : raiseCounter (m1.fresh s.kept (s.m.genOf f.h.snd) false f).2 s.kept.rollback = s.kept.rollback := by
    rw [fresh_eq (by simp [ho])]
    dsimp only
    split
    · rw [counterOf_none hc]; rfl
    · split
      · rfl
      · rw [counterOf_none hc]; rfl
  rw [hnone] at hs
  have hR := fresh_ran (kp := s.kept) h hu (by simp [ho]) hf hm
  refine ⟨n, hs, ?_⟩
  rcases hn with rfl | ⟨k, rfl⟩
  · exact hR
  · exact ran_trans hR (only_freeMbx _ _) rfl (by rw [freeMbx_chan]) (by rw [freeMbx_chan])

/-! ### Actions -/

theorem gen_modChan (n : Nat) (snd : Sender) (g : Chan → Chan) (m : Mod) :
    ((m.modChan snd g).mbx.getD n {}).gen = (m.mbx.getD n {}).gen := by
  cases snd with
  | mbx j =>
    simp only [Mod.modChan, List.getD_eq_getElem?_getD, List.getElem?_modify]
    cases h : m.mbx[n]? with
    | none => simp
    | some x => by_cases hj : j = n <;> simp [hj]
  | _ => rfl

theorem gen_heard (n : Nat) (f : Frame) (m : Mod) : ((m.heard f).mbx.getD n {}).gen = (m.mbx.getD n {}).gen := by
  unfold Mod.heard
  split
  · rename_i j _
    split
    · rfl
    · simp only [List.getD_eq_getElem?_getD, List.getElem?_set]
      by_cases hj : j = n
      · subst hj
        by_cases hl : j < m.mbx.length
        · simp [hl]
        · simp [hl]
      · simp [hj]
  · rfl
  · rfl

theorem roleOf_taken {m : Mod} {f : Frame} (h : m.accepts f = true) : (m.taken f).roleOf f.h.snd = m.roleOf f.h.snd := by
  have hr : ((m.taken f).chanOf f.h.snd).role = (m.chanOf f.h.snd).role := by rw [chanOf_taken h]
  unfold Mod.roleOf
  cases hs : f.h.snd with
  | mbx n =>
    rw [hs] at hr
    have hg : ((m.taken f).mbx.getD n {}).gen = (m.mbx.getD n {}).gen := by
      rw [taken_eq, gen_modChan, gen_modChan]
      exact gen_heard n f m
    simp only [hg, hr, get_taken (show Ob.serialRole ≠ Ob.framesOk by decide)]
  | session k => rw [hs] at hr; exact hr
  | _ => rfl

theorem taken_sdc (f : Frame) (m : Mod) : (m.taken f).sdc = m.sdc := only_taken f m .sdc (by decide)

/-- An ACTION that may run and is no unit action is answered by its operation. -/
theorem ran_action {kp : Kept} {m : Mod} {f : Frame} (h : m.runs f = true) (hop : f.op = 4) (ha : isAction f.idx f.sub = true)
    (hu : isUnitAction f.idx = false) (hi : f.idx ≠ 0x6421) (hn : argBytes f.idx = none ∨ argBytes f.idx = some f.data.length) :
    m.ran kp f = answered ((m.taken f).actionOf kp f.h.snd f.h.slot f.h.seq f.idx f.sub f.data) := by
  simp only [Mod.runs, Bool.and_eq_true, decide_eq_true_eq, Bool.not_eq_true'] at h
  obtain ⟨⟨⟨⟨hacc, hrole⟩, hgrp⟩, hlock⟩, hcert⟩ := h
  have hg : ((m.taken f).chanOf f.h.snd).group.isSome = false := by
    rw [chanOf_taken hacc]
    cases hx : (m.chanOf f.h.snd).group <;> simp_all
  have hr : ¬ m.roleOf f.h.snd < actionRole f.idx f.data := by omega
  have hc : (m.taken f).get Ob.certifiedMode ≠ 1 := by rw [get_taken (by decide)]; exact hcert
  have hl : (m.taken f).sdc.lockout = false := by rw [taken_sdc]; exact hlock
  unfold Mod.ran Mod.command
  simp only [hop]
  unfold Mod.actionCommand Mod.runAction
  have hn2 : (argBytes f.idx ≠ none && argBytes f.idx ≠ some f.data.length) = false := by
    rcases hn with hn | hn <;> simp [hn]
  simp [ha, hi, roleOf_taken hacc, hr, hc, hg, hu, hl]
  rcases hn with hn | hn <;> simp [hn]

/-- A unit action that may run waits for its boundary (R515). -/
theorem ran_unitAction {kp : Kept} {m : Mod} {f : Frame} (h : m.runs f = true) (hop : f.op = 4) (ha : isAction f.idx f.sub = true)
    (hu : isUnitAction f.idx = true) (hi : f.idx ≠ 0x6421) (hi2 : f.idx ≠ 0x6470) (hi3 : f.idx ≠ 0x6471)
    (hn : (m.taken f).unitRefusal f.idx f.data = none) :
    m.ran kp f = ((m.taken f).stage
      { snd := f.h.snd, seq := f.h.seq, op := 4, idx := f.idx, sub := f.sub, work := .unitAct f.idx (f.data.map (·.toNat)) } 0, none) := by
  simp only [Mod.runs, Bool.and_eq_true, decide_eq_true_eq, Bool.not_eq_true'] at h
  obtain ⟨⟨⟨⟨hacc, hrole⟩, hgrp⟩, hlock⟩, hcert⟩ := h
  have hg : ((m.taken f).chanOf f.h.snd).group.isSome = false := by
    rw [chanOf_taken hacc]
    cases hx : (m.chanOf f.h.snd).group <;> simp_all
  have hr : ¬ m.roleOf f.h.snd < actionRole f.idx f.data := by omega
  unfold Mod.ran Mod.command
  simp only [hop]
  unfold Mod.actionCommand
  simp [ha, hi, hi2, hi3, roleOf_taken hacc, hr, hg, hu, hn]

/-- The channel of an accepted frame's sender keeps its number while the command leaves mailboxes and sessions alone. -/
theorem kept_taken {m : Mod} {f : Frame} (h : m.accepts f = true) : ((m.taken f).chanOf f.h.snd).kept = some f.h.seq := by
  rw [chanOf_taken h]

theorem accepts_of_runs {m : Mod} {f : Frame} (h : m.runs f = true) : m.accepts f = true := by
  simp only [Mod.runs, Bool.and_eq_true] at h
  exact h.1.1.1.1

/-- What an ACTION row that runs comes to: the result of its operation but for the way of the response, which carries it. -/
structure Acted (f : Frame) (r : Answer) (n : Mod) : Prop where
  rest   : Only rspParts r.1 n
  sess   : SameSessions r.1 n
  group  : (n.chanOf f.h.snd).group = (r.1.chanOf f.h.snd).group
  answer : (r.1.chanOf f.h.snd).kept = some f.h.seq → n.answer f.h.snd = some (f.h.seq, r.2.1, r.2.2)

theorem action_acts {s : State} {f : Frame} (h : s.m.runs f = true) (hop : f.op = 4) (ha : isAction f.idx f.sub = true)
    (hu : isUnitAction f.idx = false) (h1 : f.idx ≠ 0x6421) (h2 : f.idx ≠ 0x6452) (h3 : f.idx ≠ 0x6453) (hi : f.idx < 65536)
    (hs : f.sub < 256) (hn : argBytes f.idx = none ∨ argBytes f.idx = some f.data.length) :
    ∃ n : Mod, State.frame f s = .next { s with m := n }
      ∧ Acted f ((s.m.taken f).actionOf s.kept f.h.snd f.h.slot f.h.seq f.idx f.sub f.data) n := by
  have ho : f.opensSession = false := by unfold Frame.opensSession; simp [h1]
  obtain ⟨n, hn1, hr⟩ := frame_ran (accepts_of_runs h) (by omega) hi hs ho (fun x => h2 x.2) (fun x => h3 x.2)
  have hq := ran_action (kp := s.kept) h hop ha hu h1 hn
  refine ⟨n, hn1, ?_, ?_, ?_, ?_⟩
  · have := hr.rest; rw [hq] at this; exact this
  · have := hr.sess; rw [hq] at this; exact this
  · have := hr.group; rw [hq] at this; exact this
  · intro hk
    have := hr.stored _ (by rw [hq]; rfl) (by rw [hq]; exact hk)
    unfold Mod.answer
    rw [this]; rfl

/-- What a unit action that is taken comes to: it stands staged for a boundary and is not answered yet (R515). -/
theorem unitAction_staged {s : State} {f : Frame} (h : s.m.runs f = true) (hop : f.op = 4) (ha : isAction f.idx f.sub = true)
    (hu : isUnitAction f.idx = true) (h1 : f.idx ≠ 0x6421) (h2 : f.idx ≠ 0x6452) (h3 : f.idx ≠ 0x6453) (h4 : f.idx ≠ 0x6470)
    (h5 : f.idx ≠ 0x6471) (hi : f.idx < 65536) (hs : f.sub < 256) (hn : (s.m.taken f).unitRefusal f.idx f.data = none) :
    ∃ n : Mod, State.frame f s = .next { s with m := n } ∧ Only rspParts ((s.m.taken f).stage
      { snd := f.h.snd, seq := f.h.seq, op := 4, idx := f.idx, sub := f.sub, work := .unitAct f.idx (f.data.map (·.toNat)) } 0) n := by
  have ho : f.opensSession = false := by unfold Frame.opensSession; simp [h1]
  obtain ⟨n, hn1, hr⟩ := frame_ran (accepts_of_runs h) (by omega) hi hs ho (fun x => h2 x.2) (fun x => h3 x.2)
  have hq := ran_unitAction (kp := s.kept) h hop ha hu h1 h4 h5 hn
  refine ⟨n, hn1, ?_⟩
  have := hr.rest; rw [hq] at this; exact this

end Sys2Proof.Machine
end

