-- ==== Sys2Proof/Laws/Events.lean ====
section
/-!
SUPPORT. What raising an event leaves, and the entry that it makes (R58 to R61).
-/
namespace Sys2Proof.Machine

theorem wantPulse_only (m : Mod) : Only [.link] m m.wantPulse := by
  intro p hp
  unfold Mod.wantPulse
  split
  · split
    · cases p <;> first | rfl | (simp at hp)
    · split <;> cases p <;> first | rfl | (simp at hp)
  · cases p <;> rfl

/-- Raising an event changes the queues and what tells of them alone. -/
theorem only_raiseAt (m : Mod) (time ev sev fault arg : Nat) : Only evParts m (m.raiseAt time ev sev fault arg) := by
  have h : Only evParts m (m.enterEvent time ev sev fault arg) := by
    intro p hp
    cases p <;> first | rfl | (simp [evParts] at hp)
  unfold Mod.raiseAt
  dsimp only
  split
  · exact h.trans ((wantPulse_only _).mono (by decide))
  · exact h

theorem wantPulse_hostQ (m : Mod) : m.wantPulse.hostQ = m.hostQ := wantPulse_only m .hostQ (by decide)

/-- The entry that an event makes in a queue that takes it. -/
theorem take_enters {q : EvQueue} {mark e : EvEntry} {now : Int} (hw : q.wants e.ev = true) (hh : q.holds e.ev e.fault = false)
    (hr : q.entries.length + 2 ≤ 256) : e ∈ (q.take mark e now).entries := by
  unfold EvQueue.take
  simp only [hw, hh, Bool.not_true, Bool.false_eq_true, if_false, hr, if_true]
  split
  · simp [EvQueue.add]
  · rw [if_pos (by omega)]; simp [EvQueue.add]

/-- A raised event is told. -/
theorem tells_raiseAt (m : Mod) (time ev sev fault arg : Nat) (hs : sev < 4) : Tells ev sev fault arg m (m.raiseAt time ev sev fault arg) := by
  refine ⟨raiseAt_seenEv m time ev sev fault arg, fun hw hh hr => ?_⟩
  have hq : (m.raiseAt time ev sev fault arg).hostQ = (m.enterEvent time ev sev fault arg).hostQ := by
    unfold Mod.raiseAt
    dsimp only
    split
    · exact wantPulse_hostQ _
    · rfl
  rw [hq]
  refine ⟨_, take_enters hw hh hr, rfl, ?_, rfl, rfl, rfl⟩
  show (sev * 4 + b2n m.laneB * 2) / 4 % 4 = sev
  have : b2n m.laneB * 2 < 4 := by unfold b2n; split <;> omega
  omega

/-- Parts that do not tell of events may change before. -/
theorem Tells.of_eq {ev sev fault arg : Nat} {a b c : Mod} (h : Tells ev sev fault arg b c) (hq : b.hostQ = a.hostQ)
    (hs : b.seenEv = a.seenEv) : Tells ev sev fault arg a c := by
  unfold Tells at *
  rw [← hq, ← hs]
  exact h

/-- Parts that do not tell of events may change after. -/
theorem Tells.to_eq {ev sev fault arg : Nat} {a b c : Mod} (h : Tells ev sev fault arg a b) (hq : c.hostQ = b.hostQ)
    (hs : c.seenEv = b.seenEv) : Tells ev sev fault arg a c := by
  unfold Tells at *
  rw [hq, hs]
  exact h

theorem Only.tells {l : List Part} {a b : Mod} (h : Only l a b) (h1 : Part.hostQ ∉ l) (h2 : Part.seenEv ∉ l) :
    b.hostQ = a.hostQ ∧ b.seenEv = a.seenEv := ⟨h .hostQ h1, h .seenEv h2⟩

/-- Entries stay where the values in force do. -/
theorem Only.get {l : List Part} {a b : Mod} (h : Only l a b) (h1 : Part.obj ∉ l) (k : Nat) : b.get k = a.get k :=
  get_of_obj k (h .obj h1)

/-- Event frames sign with the session's counter, and leave the rest of its channel. -/
theorem eventFrames_proj {β : Type} {π : Chan → β} (hπ : Steady π) (n : Nat) (es : List EvEntry) (c : Chan) : π (eventFrames n es c).2 = π c := by
  induction n generalizing es c with
  | zero => rfl
  | succ n ih =>
    unfold eventFrames
    split
    · rfl
    · exact (ih _ _).trans (hπ.sign _ _)

theorem report_proj {β : Type} {π : Chan → β} (hπ : Steady π) (spread now sev : Nat) (x : Session) :
    π (Session.report spread now sev x).chan = π x.chan := by
  unfold Session.report Session.sendEvents
  split
  · rfl
  · split
    · exact eventFrames_proj hπ _ _ _
    · split <;> rfl

/-- A change that keeps the keys leaves where a key is found. -/
theorem find_map_key {k : Nat} {l : List (Nat × Session)} (h : Nat × Session → Nat × Session) (hk : ∀ p, (h p).1 = p.1) :
    (l.map h).find? (fun p => decide (p.1 = k)) = (l.find? (fun p => decide (p.1 = k))).map h := by
  rw [List.find?_map]
  congr 2
  funext p
  simp [hk]

/-- Raising an event leaves the command channels but for the counters of the event frames that it sends. -/
theorem raiseAt_proj {β : Type} {π : Chan → β} (hπ : Steady π) (m : Mod) (time ev sev fault arg : Nat) (snd : Sender) :
    π ((m.raiseAt time ev sev fault arg).chanOf snd) = π (m.chanOf snd) := by
  have h1 : ∀ x : Mod, x.wantPulse.chanOf snd = x.chanOf snd := by
    intro x
    cases snd with
    | mbx n => simp [Mod.chanOf, wantPulse_mbx]
    | session k => simp [Mod.chanOf, Mod.sessAt, wantPulse_sess]
    | _ => rfl
  have h2 : π ((m.enterEvent time ev sev fault arg).chanOf snd) = π (m.chanOf snd) := by
    cases snd with
    | session k =>
      simp only [Mod.chanOf, Mod.sessAt, Mod.enterEvent]
      rw [find_map_key _ (by intro p; split <;> rfl)]
      cases hx : m.sess.find? (fun p => decide (p.1 = k)) with
      | none => rfl
      | some p =>
        simp only [Option.map_some, Option.getD_some]
        split
        · exact report_proj hπ _ _ _ _
        · rfl
    | _ => rfl
  unfold Mod.raiseAt
  dsimp only
  split
  · rw [h1, h2]
  · exact h2

end Sys2Proof.Machine
end

