-- ==== Sys2Proof/Laws/Actions.lean ====
section
/-!
SUPPORT. An ACTION row that runs, from what its operation makes of the module as the command finds it.
-/
namespace Sys2Proof.Machine

theorem onlyEntries_refl (ks : List Nat) (m : Mod) : OnlyEntries ks m m := fun _ _ => rfl

theorem onlyEntries_put {ks : List Nat} {a b : Mod} (h : OnlyEntries ks a b) {k v : Nat} (hk : k ∈ ks) : OnlyEntries ks a (b.put k v) := by
  intro j hj
  have he : j ≠ k := by intro e; subst e; exact hj hk
  rw [get_put_other b he]
  exact h j hj

theorem onlyEntries_keep {ks : List Nat} {a b : Mod} (h : OnlyEntries ks a b) {k v : Nat} (hk : k ∈ ks) : OnlyEntries ks a (b.keep k v) := by
  intro j hj
  have he : j ≠ k := by intro e; subst e; exact hj hk
  rw [get_keep_other b he]
  exact h j hj

theorem onlyEntries_obj {ks : List Nat} {a b c : Mod} (h : OnlyEntries ks a b) (he : c.obj = b.obj) : OnlyEntries ks a c :=
  fun j hj => (get_of_obj j he).trans (h j hj)

theorem Only.kept {l : List Part} {a b : Mod} (h : Only l a b) (h1 : Part.mbx ∉ l) (h2 : Part.sess ∉ l) (snd : Sender) :
    (b.chanOf snd).kept = (a.chanOf snd).kept := by
  have e1 : b.mbx = a.mbx := h .mbx h1
  have e2 : b.sess = a.sess := h .sess h2
  cases snd <;> simp [Mod.chanOf, Mod.sessAt, e1, e2]

theorem Only.chanOf {l : List Part} {a b : Mod} (h : Only l a b) (h1 : Part.mbx ∉ l) (h2 : Part.sess ∉ l) (snd : Sender) :
    b.chanOf snd = a.chanOf snd := by
  have e1 : b.mbx = a.mbx := h .mbx h1
  have e2 : b.sess = a.sess := h .sess h2
  cases snd <;> simp [Mod.chanOf, Mod.sessAt, e1, e2]

theorem only_each {l : List Part} (ks : List Nat) (F : Nat → Mod → Mod) (m : Mod) (h : ∀ p m, Only l m (F p m)) : Only l m (m.each ks F) := by
  unfold Mod.each
  induction ks generalizing m with
  | nil => exact Only.refl _ _
  | cons k ks ih => exact (h k m).trans (ih _)

theorem entries_each {K : List Nat} (ks : List Nat) (F : Nat → Mod → Mod) (m : Mod)
    (h : ∀ p ∈ ks, ∀ m, OnlyEntries K m (F p m)) : OnlyEntries K m (m.each ks F) := by
  unfold Mod.each
  induction ks generalizing m with
  | nil => exact onlyEntries_refl _ _
  | cons k ks ih =>
    intro j hj
    exact (ih _ (fun p hp => h p (List.mem_cons_of_mem _ hp)) j hj).trans (h k (List.mem_cons_self ..) m j hj)

/-! ### An event after other changes -/

theorem Only.raise {l : List Part} {a b : Mod} (h : Only l a b) (ev sev fault arg : Nat) (hl : evParts ⊆ l) : Only l a (b.raise ev sev fault arg) :=
  h.trans ((only_raiseAt b b.t32 ev sev fault arg).mono hl)

theorem OnlyEntries.raise {ks : List Nat} {a b : Mod} (h : OnlyEntries ks a b) (ev sev fault arg : Nat) : OnlyEntries ks a (b.raise ev sev fault arg) :=
  onlyEntries_obj h (only_raiseAt b b.t32 ev sev fault arg .obj (by decide))

theorem raise_part (b : Mod) (ev sev fault arg : Nat) (p : Part) (h : p ∉ evParts) : p.same b (b.raise ev sev fault arg) :=
  only_raiseAt b b.t32 ev sev fault arg p h

theorem get_raised (b : Mod) (ev sev fault arg k : Nat) : (b.raise ev sev fault arg).get k = b.get k :=
  get_of_obj k (raise_part b ev sev fault arg .obj (by decide))

theorem kept_raise (b : Mod) (ev sev fault arg : Nat) (snd : Sender) : ((b.raise ev sev fault arg).chanOf snd).kept = (b.chanOf snd).kept :=
  raiseAt_proj steady_kept b b.t32 ev sev fault arg snd

/-- The event is told of from before the changes that tell of nothing. -/
theorem Only.tells_raise {l : List Part} {a b : Mod} (h : Only l a b) (ev sev fault arg : Nat) (h1 : Part.hostQ ∉ l) (h2 : Part.seenEv ∉ l)
    (hs : sev < 4) : Tells ev sev fault arg a (b.raise ev sev fault arg) :=
  (tells_raiseAt b b.t32 ev sev fault arg hs).of_eq (h.tells h1 h2).1 (h.tells h1 h2).2

/-- A later change that tells of nothing. -/
theorem Only.tells_after {l : List Part} {a b c : Mod} {ev sev fault arg : Nat} (h : Tells ev sev fault arg a b) (g : Only l b c)
    (h1 : Part.hostQ ∉ l) (h2 : Part.seenEv ∉ l) : Tells ev sev fault arg a c :=
  h.to_eq (g.tells h1 h2).1 (g.tells h1 h2).2

theorem OnlyEntries.mono {k l : List Nat} {a b : Mod} (h : OnlyEntries k a b) (hs : k ⊆ l) : OnlyEntries l a b :=
  fun j hj => h j (fun x => hj (hs x))

theorem OnlyEntries.trans {k : List Nat} {a b c : Mod} (h : OnlyEntries k a b) (g : OnlyEntries k b c) : OnlyEntries k a c :=
  fun j hj => (g j hj).trans (h j hj)

theorem kept_put (m : Mod) (k v : Nat) (snd : Sender) : ((m.put k v).chanOf snd).kept = (m.chanOf snd).kept := by cases snd <;> rfl

theorem chanOf_put (m : Mod) (k v : Nat) (snd : Sender) : (m.put k v).chanOf snd = m.chanOf snd := by cases snd <;> rfl

/-! ### One unit of many -/

theorem secAt_modSec (m : Mod) (u : Nat) (f : SecRt → SecRt) (h : u < m.sec.length) : (m.modSec u f).secAt u = f (m.secAt u) := by
  unfold Mod.secAt Mod.modSec; simp [List.getD_eq_getElem?_getD, h]

theorem secAt_modSec_other (m : Mod) (u v : Nat) (f : SecRt → SecRt) (h : v ≠ u) : (m.modSec u f).secAt v = m.secAt v := by
  unfold Mod.secAt Mod.modSec; simp [List.getD_eq_getElem?_getD, Ne.symm h]

theorem dcAt_modDc (m : Mod) (u : Nat) (f : DcRt → DcRt) (h : u < m.dc.length) : (m.modDc u f).dcAt u = f (m.dcAt u) := by
  unfold Mod.dcAt Mod.modDc; simp [List.getD_eq_getElem?_getD, h]

theorem dcAt_modDc_other (m : Mod) (u v : Nat) (f : DcRt → DcRt) (h : v ≠ u) : (m.modDc u f).dcAt v = m.dcAt v := by
  unfold Mod.dcAt Mod.modDc; simp [List.getD_eq_getElem?_getD, Ne.symm h]

theorem grpAt_modGrp (m : Mod) (u : Nat) (f : GrpRt → GrpRt) (h : u < m.grp.length) : (m.modGrp u f).grpAt u = f (m.grpAt u) := by
  unfold Mod.grpAt Mod.modGrp; simp [List.getD_eq_getElem?_getD, h]

theorem grpAt_modGrp_other (m : Mod) (u v : Nat) (f : GrpRt → GrpRt) (h : v ≠ u) : (m.modGrp u f).grpAt v = m.grpAt v := by
  unfold Mod.grpAt Mod.modGrp; simp [List.getD_eq_getElem?_getD, Ne.symm h]

theorem laneAt_modLane (m : Mod) (u : Nat) (f : LaneRt → LaneRt) (h : u < m.lanes.length) : (m.modLane u f).laneAt u = f (m.laneAt u) := by
  unfold Mod.laneAt Mod.modLane; simp [List.getD_eq_getElem?_getD, h]

/-! ### The way of a frame to its operation -/

theorem argAt_leBytes (k : Nat) (h : k < 256) : argAt (leBytes 1 k) 0 = k := by
  simp only [leBytes, argAt, List.getD_cons_zero, BitVec.toNat_ofNat]; omega

theorem taken_part {f : Frame} {m T : Mod} (hT : m.taken f = T) (p : Part) (h : p ∉ frameParts) : p.same m T := by
  rw [← hT]; exact only_taken _ _ p h

theorem taken_get {f : Frame} {m T : Mod} (hT : m.taken f = T) {k : Nat} (h : k ≠ Ob.framesOk) : T.get k = m.get k := by
  rw [← hT]; exact get_taken h

/-- The module that an accepted frame's command finds differs by the way of the frame. -/
theorem entries_taken (f : Frame) (m : Mod) : OnlyEntries [Ob.framesOk] m (m.taken f) := by
  intro k hk
  simp only [List.mem_singleton] at hk
  exact get_taken hk

/-- An ACTION whose operation answers with `(M, st, d)`. -/
theorem done_of {c : Instr} {s : State} {f : Frame} {st : Nat} {d : List Byte} {l : List Part} {ks : List Nat} {Q : Mod → Prop} {M : Mod}
    (hc : exec c s = State.frame f s) (hr : s.m.runs f = true) (hop : f.op = 4) (ha : isAction f.idx f.sub = true)
    (hu : isUnitAction f.idx = false) (h1 : f.idx ≠ 0x6421) (h2 : f.idx ≠ 0x6452) (h3 : f.idx ≠ 0x6453) (hi : f.idx < 65536)
    (hs : f.sub < 256) (hn : argBytes f.idx = none ∨ argBytes f.idx = some f.data.length)
    (hact : (s.m.taken f).actionOf s.kept f.h.snd f.h.slot f.h.seq f.idx f.sub f.data = (M, st, d))
    (hO : Only l (s.m.taken f) M) (hE : OnlyEntries ks (s.m.taken f) M)
    (hch : (M.chanOf f.h.snd).kept = ((s.m.taken f).chanOf f.h.snd).kept)
    (hQ : ∀ n, Only rspParts M n → Q n) : Done c f s st d l ks Q := by
  obtain ⟨n, hn1, hA⟩ := action_acts hr hop ha hu h1 h2 h3 hi hs hn
  rw [hact] at hA
  refine ⟨n, hc.trans hn1, hA.answer ?_, ?_, ?_, hQ n hA.rest⟩
  · show (M.chanOf f.h.snd).kept = _
    rw [hch]
    exact kept_taken (accepts_of_runs hr)
  · have hf : rspParts ⊆ l ++ frameParts := fun p hp => List.mem_append_right _ (by
      revert hp; cases p <;> decide)
    refine ((only_taken f s.m).mono ?_).trans ((hO.mono (List.subset_append_left _ _)).trans (hA.rest.mono hf))
    exact fun p hp => List.mem_append_right _ hp
  · intro k hk
    simp only [List.mem_cons, not_or] at hk
    rw [hA.rest.get (by decide), hE k hk.2]
    exact get_taken hk.1

/-- An ACTION object that is no unit action, no SESSION_OPEN, FW_ACTIVATE or FW_COMMIT, and takes `len` bytes of arguments. -/
def plainAction (idx sub len : Nat) : Bool :=
  isAction idx sub && !isUnitAction idx && idx ≠ 0x6421 && idx ≠ 0x6452 && idx ≠ 0x6453 && idx < 65536 && sub < 256
    && (argBytes idx = none || argBytes idx = some len)

/-- The same for a frame given by its fields. -/
theorem done_kept {c : Instr} {s : State} {h : Hdr} {idx sub st : Nat} {a d : List Byte} {l : List Part} {ks : List Nat} {Q : Mod → Prop} {M T : Mod}
    (len : Nat) (hp : plainAction idx sub len = true) (hl : a.length = len)
    (hc : exec c s = State.frame ⟨h, 4, idx, sub, a⟩ s) (hr : s.m.runs ⟨h, 4, idx, sub, a⟩ = true)
    (hT : s.m.taken ⟨h, 4, idx, sub, a⟩ = T) (hact : T.actionOf s.kept h.snd h.slot h.seq idx sub a = (M, st, d))
    (hO : Only l T M) (hE : OnlyEntries ks T M)
    (hch : (M.chanOf h.snd).kept = (T.chanOf h.snd).kept)
    (hQ : ∀ n, Only rspParts M n → Q n) : Done c ⟨h, 4, idx, sub, a⟩ s st d l ks Q := by
  subst hT
  simp only [plainAction, Bool.and_eq_true, Bool.not_eq_true', decide_eq_true_eq, Bool.or_eq_true] at hp
  obtain ⟨⟨⟨⟨⟨⟨⟨ha, hu⟩, h1⟩, h2⟩, h3⟩, hi⟩, hs⟩, hn⟩ := hp
  exact done_of hc hr rfl ha hu h1 h2 h3 hi hs (by rw [hl]; exact hn) hact hO hE hch hQ

/-- An operation that leaves the sender's channel. -/
theorem done_plain {c : Instr} {s : State} {h : Hdr} {idx sub st : Nat} {a d : List Byte} {l : List Part} {ks : List Nat} {Q : Mod → Prop} {M T : Mod}
    (len : Nat) (hp : plainAction idx sub len = true) (hl : a.length = len)
    (hc : exec c s = State.frame ⟨h, 4, idx, sub, a⟩ s) (hr : s.m.runs ⟨h, 4, idx, sub, a⟩ = true)
    (hT : s.m.taken ⟨h, 4, idx, sub, a⟩ = T) (hact : T.actionOf s.kept h.snd h.slot h.seq idx sub a = (M, st, d))
    (hO : Only l T M) (hE : OnlyEntries ks T M)
    (hch : (M.chanOf h.snd).kept = (T.chanOf h.snd).kept)
    (hQ : ∀ n, Only rspParts M n → Q n) : Done c ⟨h, 4, idx, sub, a⟩ s st d l ks Q :=
  done_kept len hp hl hc hr hT hact hO hE hch hQ

/-- A unit action that is taken stands staged. -/
theorem stages_of {c : Instr} {s : State} {f : Frame} (hc : exec c s = State.frame f s) (h : s.m.runs f = true) (hop : f.op = 4)
    (ha : isAction f.idx f.sub = true) (hu : isUnitAction f.idx = true) (h1 : f.idx ≠ 0x6421) (h2 : f.idx ≠ 0x6452) (h3 : f.idx ≠ 0x6453)
    (h4 : f.idx ≠ 0x6470) (h5 : f.idx ≠ 0x6471) (hi : f.idx < 65536) (hs : f.sub < 256)
    (hn : argBytes f.idx = some f.data.length) (hg : unitArgsOk f.idx (f.data.map (·.toNat)) = true) :
    Stages c f s (.unitAct f.idx (f.data.map (·.toNat))) := by
  have hl : (s.m.taken f).sdc = s.m.sdc := taken_part (f := f) rfl .sdc (by decide)
  have hlk : s.m.sdc.lockout = false := by
    simp only [Mod.runs, Bool.and_eq_true, decide_eq_true_eq, Bool.not_eq_true'] at h
    exact h.1.2
  have href : (s.m.taken f).unitRefusal f.idx f.data = none := by
    unfold Mod.unitRefusal
    rw [hl, hlk, hn, hg]; simp
  obtain ⟨n, hn1, hr⟩ := unitAction_staged h hop ha hu h1 h2 h3 h4 h5 hi hs href
  have hph : (s.m.taken f).clk = s.m.clk := taken_part (f := f) rfl .clk (by decide)
  have hst : (s.m.taken f).staged = s.m.staged := taken_part (f := f) rfl .staged (by decide)
  have hT : Only ([.staged, .order] ++ frameParts) (s.m.taken f) n := by
    refine Only.trans (b := (s.m.taken f).stage _ 0) ?_ (hr.mono (by decide))
    unfold Mod.stage
    dsimp only
    split
    · intro p hp; cases p <;> first | (exact absurd (by decide) hp) | rfl
    · intro p hp; cases p <;> first | (exact absurd (by decide) hp) | rfl
  have hx : ∃ x : Staged, n.staged = s.m.staged ++ [x] ∧ x.snd = f.h.snd ∧ x.seq = f.h.seq
      ∧ x.work = .unitAct f.idx (f.data.map (·.toNat)) ∧ x.late = decide (s.m.clk.phase = .staging) ∧ x.isGroup = false
      ∧ x.entry = none := by
    have hq := hr .staged (by decide)
    simp only [Part.same] at hq
    rw [hq, ← hst, ← hph]
    unfold Mod.stage
    dsimp only
    split
    · exact ⟨_, rfl, rfl, rfl, rfl, rfl, rfl, rfl⟩
    · exact ⟨_, rfl, rfl, rfl, rfl, rfl, rfl, rfl⟩
  refine ⟨n, hc.trans hn1, hx, ?_, ?_⟩
  · exact Only.trans (l := [.staged, .order] ++ frameParts) ((only_taken f s.m).mono (by decide)) hT
  · intro k hk
    simp only [List.mem_cons, List.not_mem_nil, or_false, not_or] at hk
    rw [hr.get (by decide), ← taken_get (f := f) (m := s.m) rfl hk.1]
    unfold Mod.stage
    dsimp only
    split
    · exact get_put_other _ hk.2
    · rfl

end Sys2Proof.Machine
end

