-- ==== Sys2Proof/Laws/Only.lean ====
section
/-!
SUPPORT. The parts and the entries that one update more leaves, update by update.
-/
namespace Sys2Proof.Machine

section
variable {l : List Part} {a b : Mod} (h : Only l a b)
include h
theorem Only.oput {k v : Nat} (hl : Part.obj ∈ l) : Only l a (b.put k v) :=
  h.trans (Only.mono (l := [.obj]) (by intro p hp; cases p <;> first | (exact absurd (by decide) hp) | rfl) (by simpa using hl))
theorem Only.oputQ {k : Nat} {v : Int} (hl : Part.obj ∈ l) : Only l a (b.putQ k v) :=
  h.trans (Only.mono (l := [.obj]) (by intro p hp; cases p <;> first | (exact absurd (by decide) hp) | rfl) (by simpa using hl))
theorem Only.oputF {k : Nat} {v : Rat} (hl : Part.obj ∈ l) : Only l a (b.putF k v) :=
  h.trans (Only.mono (l := [.obj]) (by intro p hp; cases p <;> first | (exact absurd (by decide) hp) | rfl) (by simpa using hl))
theorem Only.oputS {k : Nat} {v : Int} (hl : Part.obj ∈ l) : Only l a (b.putS k v) :=
  h.trans (Only.mono (l := [.obj]) (by intro p hp; cases p <;> first | (exact absurd (by decide) hp) | rfl) (by simpa using hl))
theorem Only.oputB {k i : Nat} {v : Bool} (hl : Part.obj ∈ l) : Only l a (b.putBit k i v) :=
  h.trans (Only.mono (l := [.obj]) (by intro p hp; cases p <;> first | (exact absurd (by decide) hp) | rfl) (by simpa using hl))
theorem Only.obump {k : Nat} (hl : Part.obj ∈ l) : Only l a (b.bump k) :=
  h.trans (Only.mono (l := [.obj]) (by intro p hp; cases p <;> first | (exact absurd (by decide) hp) | rfl) (by simpa using hl))
theorem Only.okeep {k v : Nat} (hl : Part.obj ∈ l) (h2 : Part.sto ∈ l) : Only l a (b.keep k v) :=
  h.trans (Only.mono (l := [.obj, .sto]) (by intro p hp; cases p <;> first | (exact absurd (by decide) hp) | rfl) (by intro p; simp only [List.mem_cons, List.not_mem_nil, or_false]; rintro (rfl | rfl) <;> assumption))
theorem Only.oGrp {g : Nat} {f} (hl : Part.grp ∈ l) : Only l a (b.modGrp g f) :=
  h.trans (Only.mono (l := [.grp]) (by intro p hp; cases p <;> first | (exact absurd (by decide) hp) | rfl) (by simpa using hl))
theorem Only.oSec {g : Nat} {f} (hl : Part.sec ∈ l) : Only l a (b.modSec g f) :=
  h.trans (Only.mono (l := [.sec]) (by intro p hp; cases p <;> first | (exact absurd (by decide) hp) | rfl) (by simpa using hl))
theorem Only.oDc {g : Nat} {f} (hl : Part.dc ∈ l) : Only l a (b.modDc g f) :=
  h.trans (Only.mono (l := [.dc]) (by intro p hp; cases p <;> first | (exact absurd (by decide) hp) | rfl) (by simpa using hl))
theorem Only.oPair {g : Nat} {f} (hl : Part.pairs ∈ l) : Only l a (b.modPair g f) :=
  h.trans (Only.mono (l := [.pairs]) (by intro p hp; cases p <;> first | (exact absurd (by decide) hp) | rfl) (by simpa using hl))
theorem Only.oCtx {g : Nat} {f} (hl : Part.eng ∈ l) : Only l a (b.modCtx g f) :=
  h.trans (Only.mono (l := [.eng]) (by intro p hp; cases p <;> first | (exact absurd (by decide) hp) | rfl) (by simpa using hl))
theorem Only.oVsm {g : Nat} {f} (hl : Part.eng ∈ l) : Only l a (b.modVsm g f) :=
  h.trans (Only.mono (l := [.eng]) (by intro p hp; cases p <;> first | (exact absurd (by decide) hp) | rfl) (by simpa using hl))
theorem Only.oArb {f} (hl : Part.arb ∈ l) : Only l a (b.modArb f) :=
  h.trans (Only.mono (l := [.arb]) (by intro p hp; cases p <;> first | (exact absurd (by decide) hp) | rfl) (by simpa using hl))
theorem Only.oMeas {f} (hl : Part.meas ∈ l) : Only l a (b.modMeas f) :=
  h.trans (Only.mono (l := [.meas]) (by intro p hp; cases p <;> first | (exact absurd (by decide) hp) | rfl) (by simpa using hl))
theorem Only.oPush {x} (hl : Part.prot ∈ l) : Only l a (b.push x) :=
  h.trans (Only.mono (l := [.prot]) (by intro p hp; cases p <;> first | (exact absurd (by decide) hp) | rfl) (by simpa using hl))
theorem Only.oInst {x} (hl : Part.prot ∈ l) : Only l a (b.setInst x) :=
  h.trans (Only.mono (l := [.prot]) (by intro p hp; cases p <;> first | (exact absurd (by decide) hp) | rfl) (by simpa using hl))
theorem Only.oReach {x} (hl : Part.clk ∈ l) : Only l a (b.reach x) :=
  h.trans (Only.mono (l := [.clk]) (by intro p hp; cases p <;> first | (exact absurd (by decide) hp) | rfl) (by simpa using hl))
theorem Only.oPass {x} (hl : Part.clk ∈ l) : Only l a (b.passNs x) :=
  h.trans (Only.mono (l := [.clk]) (by intro p hp; cases p <;> first | (exact absurd (by decide) hp) | rfl) (by simpa using hl))
theorem Only.oraise (ev sev fault arg : Nat) (hl : evParts ⊆ l) : Only l a (b.raise ev sev fault arg) :=
  h.raise ev sev fault arg hl
theorem Only.oinform (ev arg : Nat) (hl : evParts ⊆ l) : Only l a (b.inform ev arg) := h.raise ev sevInfo 0 arg hl
theorem Only.oeach {ks : List Nat} {F} (hF : ∀ p m, Only l m (F p m)) : Only l a (b.each ks F) :=
  h.trans (only_each ks F b hF)
theorem Only.to {k : List Part} {c : Mod} (g : Only k b c) (hs : k ⊆ l) : Only l a c := h.trans (g.mono hs)
end
section
variable {ks : List Nat} {a b : Mod} (h : OnlyEntries ks a b)
include h
theorem OnlyEntries.oput {k v : Nat} (hk : k ∈ ks) : OnlyEntries ks a (b.put k v) := onlyEntries_put h hk
theorem OnlyEntries.oputQ {k : Nat} {v : Int} (hk : k ∈ ks) : OnlyEntries ks a (b.putQ k v) := onlyEntries_put h hk
theorem OnlyEntries.oputF {k : Nat} {v : Rat} (hk : k ∈ ks) : OnlyEntries ks a (b.putF k v) := onlyEntries_put h hk
theorem OnlyEntries.oputS {k : Nat} {v : Int} (hk : k ∈ ks) : OnlyEntries ks a (b.putS k v) := onlyEntries_put h hk
theorem OnlyEntries.oputB {k i : Nat} {v : Bool} (hk : k ∈ ks) : OnlyEntries ks a (b.putBit k i v) := onlyEntries_put h hk
theorem OnlyEntries.obump {k : Nat} (hk : k ∈ ks) : OnlyEntries ks a (b.bump k) := onlyEntries_put h hk
theorem OnlyEntries.okeep {k v : Nat} (hk : k ∈ ks) : OnlyEntries ks a (b.keep k v) := onlyEntries_keep h hk
theorem OnlyEntries.oGrp {g : Nat} {f} : OnlyEntries ks a (b.modGrp g f) := onlyEntries_obj h rfl
theorem OnlyEntries.oSec {g : Nat} {f} : OnlyEntries ks a (b.modSec g f) := onlyEntries_obj h rfl
theorem OnlyEntries.oDc {g : Nat} {f} : OnlyEntries ks a (b.modDc g f) := onlyEntries_obj h rfl
theorem OnlyEntries.oPair {g : Nat} {f} : OnlyEntries ks a (b.modPair g f) := onlyEntries_obj h rfl
theorem OnlyEntries.oCtx {g : Nat} {f} : OnlyEntries ks a (b.modCtx g f) := onlyEntries_obj h rfl
theorem OnlyEntries.oVsm {g : Nat} {f} : OnlyEntries ks a (b.modVsm g f) := onlyEntries_obj h rfl
theorem OnlyEntries.oArb {f} : OnlyEntries ks a (b.modArb f) := onlyEntries_obj h rfl
theorem OnlyEntries.oMeas {f} : OnlyEntries ks a (b.modMeas f) := onlyEntries_obj h rfl
theorem OnlyEntries.oPush {x} : OnlyEntries ks a (b.push x) := onlyEntries_obj h rfl
theorem OnlyEntries.oInst {x} : OnlyEntries ks a (b.setInst x) := onlyEntries_obj h rfl
theorem OnlyEntries.oReach {x} : OnlyEntries ks a (b.reach x) := onlyEntries_obj h rfl
theorem OnlyEntries.oPass {x} : OnlyEntries ks a (b.passNs x) := onlyEntries_obj h rfl
theorem OnlyEntries.oinform (ev arg : Nat) : OnlyEntries ks a (b.inform ev arg) := OnlyEntries.raise h ev sevInfo 0 arg
theorem OnlyEntries.oeach {is : List Nat} {F} (hF : ∀ p, p ∈ is → ∀ m, OnlyEntries ks m (F p m)) : OnlyEntries ks a (b.each is F) :=
  h.trans (entries_each is F b hF)
end

/-- A bit that was set reads as it was set. -/
theorem bit_setBit (v i : Nat) (b : Bool) : bit (setBit v i b) i = b := by
  unfold bit setBit
  split
  · assumption
  · rename_i h
    cases b with
    | true =>
      rw [if_pos rfl, Nat.add_comm, Nat.testBit_two_pow_add_eq]
      simp at h; simp [h]
    | false =>
      rw [if_neg (by simp)]
      have hv : v.testBit i = true := by simpa using h
      have hle : 2 ^ i ≤ v := Nat.ge_two_pow_of_testBit hv
      have : v.testBit i = !(v - 2 ^ i).testBit i := by
        rw [← Nat.testBit_two_pow_add_eq]; congr 1; omega
      rw [hv] at this
      cases hx : (v - 2 ^ i).testBit i
      · rfl
      · rw [hx] at this; simp at this

/-- What holds of the module that a command leaves. -/
theorem does_of {c : Instr} {s : State} {Q : Mod → Prop} (M : Mod) (h : exec c s = .next { s with m := M }) (q : ∀ n, n = M → Q n) :
    Does c s Q := ⟨M, h, q M rfl⟩

/-- A value of 32 bits in two's complement reads as it was put. -/
theorem signed_ofInt (v : Int) (h1 : -2147483648 ≤ v) (h2 : v ≤ 2147483647) : Raw.signed 32 (Raw.ofInt 32 v) = v := by
  unfold Raw.signed Raw.ofInt
  have e : ((2 ^ 32 : Nat) : Int) = 4294967296 := by rfl
  have p : 2 ^ (32 - 1) = 2147483648 := by rfl
  have q : 2 ^ 32 = 4294967296 := by rfl
  dsimp only
  rw [e, p, q]
  obtain ⟨r, hr⟩ : ∃ r : Nat, v % 4294967296 = r := ⟨(v % 4294967296).toNat, by omega⟩
  rw [hr, Int.toNat_natCast]
  show (if (r % 4294967296 : Nat) < 2147483648 then ((r % 4294967296 : Nat) : Int) else ((r % 4294967296 : Nat) : Int) - 4294967296) = v
  split <;> omega

theorem getS_put (m : Mod) (k : Nat) (v : Int) (h1 : -2147483648 ≤ v) (h2 : v ≤ 2147483647) : (m.put k (Raw.ofInt 32 v)).getS k = v := by
  unfold Mod.getS
  rw [get_put_same]
  exact signed_ofInt v h1 h2

theorem sat29_range (v : Int) : -2147483648 ≤ sat29 v ∧ sat29 v ≤ 2147483647 := by
  unfold sat29 clampI min29 max29
  split
  · omega
  · split <;> omega

theorem getS_putQ (m : Mod) (k : Nat) (v : Int) : (m.putQ k v).getS k = sat29 v := getS_put m k _ (sat29_range v).1 (sat29_range v).2

theorem getS_putS (m : Mod) (k : Nat) (v : Int) : (m.putS k v).getS k = clampI (-2147483648) 2147483647 v := getS_putQ m k v

theorem getS_put_other (m : Mod) {k j v : Nat} (h : j ≠ k) : (m.put k v).getS j = m.getS j := by
  unfold Mod.getS; rw [get_put_other _ h]

theorem inform_part (b : Mod) (ev arg : Nat) (p : Part) (h : p ∉ evParts) : p.same b (b.inform ev arg) := raise_part b ev sevInfo 0 arg p h

theorem get_informed (b : Mod) (ev arg k : Nat) : (b.inform ev arg).get k = b.get k := get_raised b ev sevInfo 0 arg k

theorem OnlyEntries.getS {ks : List Nat} {a b : Mod} (h : OnlyEntries ks a b) {k : Nat} (hk : k ∉ ks) : b.getS k = a.getS k := by
  unfold Mod.getS; rw [h k hk]

end Sys2Proof.Machine
end

