-- ==== Sys2Proof/Laws/Trips.lean ====
section
/-!
SUPPORT. What a trip does (R271, R274, R284): the groups in use that it names latch, and the assertion waits for the boundary.
-/
namespace Sys2Proof.Machine

/-- The entries of a group that a trip writes. -/
def tripKeys (g : Nat) : List Nat := [Ob.forceEn g, Ob.tripSources g, Ob.outState g]

theorem only_showOut (g : Nat) (m : Mod) : Only [.obj] m (m.showOut g) := Only.oput (Only.refl _ _) (by decide)

theorem only_tripGroup (src g : Nat) (m : Mod) : Only [.obj, .grp] m (m.tripGroup src g) := by
  unfold Mod.tripGroup
  split
  · dsimp only
    exact Only.to (((Only.oGrp (Only.refl _ _) (by decide)).oput (by decide)).oput (by decide)) (only_showOut _ _) (by decide)
  · exact Only.refl _ _

theorem entries_tripGroup (src g : Nat) (m : Mod) : OnlyEntries (tripKeys g) m (m.tripGroup src g) := by
  unfold Mod.tripGroup
  split
  · dsimp only
    unfold Mod.showOut
    exact ((((onlyEntries_refl _ _).oGrp).oput (by simp [tripKeys])).oput (by simp [tripKeys])).oput (by simp [tripKeys])
  · exact onlyEntries_refl _ _

theorem layout_noTripKey : ∀ g, g < 8 → ∀ h, h < 8 → Ob.grpLayout h ∉ tripKeys g := by decide

theorem inUse_tripGroup (src g h : Nat) (m : Mod) (hg : g < 8) (hh : h < 8) : (m.tripGroup src g).inUse h = m.inUse h := by
  unfold Mod.inUse Mod.layout
  rw [entries_tripGroup src g m _ (layout_noTripKey g hg h hh)]

theorem grp_tripGroup (src g : Nat) (m : Mod) (hi : m.inUse g = true) :
    (m.tripGroup src g).grp = m.grp.modify g (fun x => { x with
      latched := true, on := false, direct := false, starting := false, stopping := false, clampOn := false
      active := List.replicate 9 none, later := [], offPs := if x.latched then x.offPs else m.now
      pins := if x.pins = .safe then .safe else if (3 ≤ m.get Ob.configClass || m.sdc.resetLow) then .hiZ else .tripping }) := by
  unfold Mod.tripGroup
  rw [if_pos hi]
  dsimp only [Mod.showOut, Mod.put, Mod.modGrp]

theorem grpAt_tripGroup (src g : Nat) (m : Mod) (hi : m.inUse g = true) (hl : g < m.grp.length) :
    ((m.tripGroup src g).grpAt g).latched = true ∧ ((m.tripGroup src g).grpAt g).on = false := by
  unfold Mod.grpAt
  rw [grp_tripGroup src g m hi]
  simp [List.getD_eq_getElem?_getD, hl]

theorem grpAt_tripGroup_other (src g h : Nat) (m : Mod) (hn : h ≠ g) : (m.tripGroup src g).grpAt h = m.grpAt h := by
  by_cases hi : m.inUse g = true
  · unfold Mod.grpAt
    rw [grp_tripGroup src g m hi]
    simp [List.getD_eq_getElem?_getD, Ne.symm hn]
  · unfold Mod.tripGroup; rw [if_neg hi]

theorem grpLen_tripGroup (src g : Nat) (m : Mod) : (m.tripGroup src g).grp.length = m.grp.length := by
  by_cases hi : m.inUse g = true
  · rw [grp_tripGroup src g m hi, List.length_modify]
  · unfold Mod.tripGroup; rw [if_neg hi]

theorem tripped_stays (src g h : Nat) (m : Mod) (hx : (m.grpAt h).latched = true ∧ (m.grpAt h).on = false) (hl : h < m.grp.length) :
    ((m.tripGroup src g).grpAt h).latched = true ∧ ((m.tripGroup src g).grpAt h).on = false := by
  by_cases hn : h = g
  · subst hn
    by_cases hi : m.inUse h = true
    · exact grpAt_tripGroup src h m hi hl
    · unfold Mod.tripGroup; rw [if_neg hi]; exact hx
  · rw [grpAt_tripGroup_other src g h m hn]; exact hx

/-- Every group of a list that is in use latches with its outputs off. -/
theorem each_trips (src : Nat) (gs : List Nat) (m : Mod) (hg : ∀ g ∈ gs, g < 8) (h : Nat) (h8 : h < 8) (hl : h < m.grp.length) :
    (h ∈ gs → m.inUse h = true → ((m.each gs (Mod.tripGroup src)).grpAt h).latched = true
        ∧ ((m.each gs (Mod.tripGroup src)).grpAt h).on = false)
    ∧ ((m.grpAt h).latched = true ∧ (m.grpAt h).on = false → ((m.each gs (Mod.tripGroup src)).grpAt h).latched = true
        ∧ ((m.each gs (Mod.tripGroup src)).grpAt h).on = false)
    ∧ (h ∉ gs → (m.each gs (Mod.tripGroup src)).grpAt h = m.grpAt h) := by
  induction gs generalizing m with
  | nil => exact ⟨fun x => absurd x (by simp), fun x => x, fun _ => rfl⟩
  | cons g gs ih =>
    have h8g := hg g (by simp)
    obtain ⟨i1, i2, i3⟩ := ih (m.tripGroup src g) (fun x hx => hg x (by simp [hx])) (by rw [grpLen_tripGroup]; exact hl)
    rw [each_cons]
    refine ⟨fun hm hi => ?_, fun hx => i2 (tripped_stays src g h m hx hl), fun hm => ?_⟩
    · rcases List.mem_cons.1 hm with rfl | hm
      · exact i2 (grpAt_tripGroup src h m hi hl)
      · exact i1 hm (by rw [inUse_tripGroup src g h m h8g h8]; exact hi)
    · simp only [List.mem_cons, not_or] at hm
      rw [i3 hm.2, grpAt_tripGroup_other src g h m hm.1]

/-- What a source that trips does: where it names a unit it asserts once, and its groups in use latch. -/
theorem assertTrip_laws (fault cls sources channels legs : Nat) (groups units : List Nat) (perTick : Bool) (one : Option Nat) (m : Mod)
    (hg : ∀ g ∈ groups, g < 8) :
    Only [.obj, .grp, .prot] m (m.assertTrip fault cls sources channels legs groups units perTick one)
    ∧ OnlyEntries ((List.range 8).flatMap tripKeys) m (m.assertTrip fault cls sources channels legs groups units perTick one)
    ∧ ((cls = 1 → ∃ g ∈ groups, m.inUse g = true) → (cls ≠ 1 → units ≠ []) →
        ∃ a : Assertion, (m.assertTrip fault cls sources channels legs groups units perTick one).prot = { m.prot with pend := m.prot.pend ++ [a] }
          ∧ a.fault = fault ∧ a.cls = cls ∧ a.sources = sources ∧ a.channels = channels ∧ a.trips = groups.filter m.inUse
          ∧ a.atPs = (if perTick then m.clk.t0Ps else m.now))
    ∧ ((cls ≠ 1 → units ≠ []) → ∀ g, g ∈ groups → m.inUse g = true → g < m.grp.length →
        ((m.assertTrip fault cls sources channels legs groups units perTick one).grpAt g).latched = true
        ∧ ((m.assertTrip fault cls sources channels legs groups units perTick one).grpAt g).on = false)
    ∧ (∀ g, g < 8 → g < m.grp.length → g ∉ groups → (m.assertTrip fault cls sources channels legs groups units perTick one).grpAt g = m.grpAt g) := by
  have hgs : ∀ g ∈ groups.filter m.inUse, g < 8 := fun g h => hg g (List.mem_filter.1 h).1
  have hO : Only [.obj, .grp] m (m.each (groups.filter m.inUse) (Mod.tripGroup sources)) := only_each _ _ _ (fun p m => only_tripGroup _ _ _)
  have hE : OnlyEntries ((List.range 8).flatMap tripKeys) m (m.each (groups.filter m.inUse) (Mod.tripGroup sources)) :=
    entries_each _ _ _ (fun p hp m => (entries_tripGroup _ _ _).mono (fun k hk => List.mem_flatMap.2 ⟨p, by simp [hgs p hp], hk⟩))
  unfold Mod.assertTrip
  dsimp only
  by_cases hu : (if cls = 1 then groups.filter m.inUse else units) = []
  · simp only [if_pos hu]
    refine ⟨Only.refl _ _, onlyEntries_refl _ _, fun h1 h2 => ?_, fun h2 g hm hi hl => ?_, fun _ _ _ _ => trivial⟩
    · by_cases hc : cls = 1
      · rw [if_pos hc] at hu
        obtain ⟨g, hm, hi⟩ := h1 hc
        exact absurd hu (List.ne_nil_of_mem (List.mem_filter.2 ⟨hm, hi⟩))
      · rw [if_neg hc] at hu; exact absurd hu (h2 hc)
    · by_cases hc : cls = 1
      · rw [if_pos hc] at hu
        exact absurd hu (List.ne_nil_of_mem (List.mem_filter.2 ⟨hm, hi⟩))
      · rw [if_neg hc] at hu; exact absurd hu (h2 hc)
  · simp only [if_neg hu]
    refine ⟨(hO.mono (by decide)).oPush (by decide), hE.oPush, fun _ _ => ?_, fun _ g hm hi hl => ?_, fun g h8 hl hm => ?_⟩
    · have hp : (m.each (groups.filter m.inUse) (Mod.tripGroup sources)).prot = m.prot := hO .prot (by decide)
      unfold Mod.push
      dsimp only
      rw [hp]
      exact ⟨_, rfl, rfl, rfl, rfl, rfl, rfl, rfl⟩
    · exact (each_trips sources _ m hgs g (hg g hm) hl).1 (List.mem_filter.2 ⟨hm, hi⟩) hi
    · exact (each_trips sources _ m hgs g h8 hl).2.2 (fun h => hm (List.mem_filter.1 h).1)

theorem groupsOf_lt (mask g : Nat) (h : g ∈ groupsOf mask) : g < 8 := by
  unfold groupsOf bitsOf at h
  simpa using (List.mem_filter.1 h).1

end Sys2Proof.Machine
end

