-- ==== Sys2Proof/Laws/Lanes.lean ====
section
/-!
SUPPORT. What it does that a lane fails (R331, R339, R340): a withdrawal, or a standby lane that is unhealthy or resynchronises.
-/
namespace Sys2Proof.Machine

/-- The entries of a lane that fails. -/
def laneKeys (b : Nat) : List Nat := [Ob.health b, Ob.unhealthyCause b, Ob.roleNow b, Ob.resync24h b, Ob.redundant]

theorem standby_le (m : Mod) : m.standby ≤ 1 := by unfold Mod.standby; omega

theorem laneKeys_apart (b : Nat) : Ob.health b ≠ Ob.redundant ∧ Ob.health b ≠ Ob.resync24h b ∧ Ob.health b ≠ Ob.roleNow b
    ∧ Ob.health b ≠ Ob.unhealthyCause b := by
  unfold Ob.health Ob.redundant Ob.resync24h Ob.roleNow Ob.unhealthyCause; omega

theorem only_modLane (m : Mod) (l : Nat) (f : LaneRt → LaneRt) : Only [.lanes] m (m.modLane l f) := by
  intro p hp; cases p <;> first | (exact absurd (by decide) hp) | rfl

theorem only_showRedundant (m : Mod) : Only [.obj] m m.showRedundant := Only.oput (Only.refl _ _) (by decide)

theorem startResync_laws (b : Nat) (m : Mod) :
    Only [.obj, .lanes, .arb] m (m.startResync b) ∧ OnlyEntries (laneKeys b) m (m.startResync b) ∧ (m.startResync b).healthOf b = 3 := by
  unfold Mod.startResync
  dsimp only
  generalize hB : Mod.modArb _ (Mod.modLane b _ m) = B
  have o : Only [.lanes, .arb] m B := by subst hB; exact ((only_modLane m b _).mono (by decide)).oArb (by decide)
  clear hB
  have d := laneKeys_apart b
  unfold Mod.showRedundant
  dsimp only
  generalize b2n _ = w
  refine ⟨((((o.mono (by decide)).oput (by decide)).oput (by decide)).oput (by decide)).oput (by decide), ?_, ?_⟩
  · refine OnlyEntries.trans (b := B) (onlyEntries_obj (onlyEntries_refl _ _) (o .obj (by decide))) ?_
    exact ((((onlyEntries_refl _ _).oput (by simp [laneKeys])).oput (by simp [laneKeys])).oput (by simp [laneKeys])).oput
      (by simp [laneKeys])
  · unfold Mod.healthOf
    rw [get_put_other _ d.1, get_put_other _ d.2.1, get_put_other _ d.2.2.1, get_put_same]

theorem autoResync_laws (b : Nat) (m : Mod) :
    Only [.obj, .lanes, .arb] m (m.autoResync b) ∧ OnlyEntries (laneKeys b) m (m.autoResync b)
    ∧ (m.healthOf b = 2 → (m.autoResync b).healthOf b = 2 ∨ (m.autoResync b).healthOf b = 3) := by
  unfold Mod.autoResync
  split
  · exact ⟨Only.refl _ _, onlyEntries_refl _ _, fun h => .inl h⟩
  · have h := startResync_laws b m
    exact ⟨h.1, h.2.1, fun _ => .inr h.2.2⟩

/-- A lane that is not active and fails is unhealthy, or already on its way back. -/
theorem standbyUnhealthy_laws (m : Mod) (cause : Nat) :
    Only ([.obj, .lanes, .arb] ++ evParts) m (m.standbyUnhealthy cause)
    ∧ OnlyEntries (laneKeys m.standby) m (m.standbyUnhealthy cause)
    ∧ (∃ l, (m.standbyUnhealthy cause).seenEv = l ++ m.seenEv)
    ∧ ((m.standbyUnhealthy cause).healthOf m.standby = 2 ∨ (m.standbyUnhealthy cause).healthOf m.standby = 3) := by
  unfold Mod.standbyUnhealthy
  generalize hb : m.standby = b
  have d := laneKeys_apart b
  dsimp only
  split
  · exact ⟨Only.refl _ _, onlyEntries_refl _ _, ⟨[], rfl⟩, .inl (by assumption)⟩
  · split
    · refine ⟨(((Only.refl _ _).oArb (by decide)).oput (by decide)).oput (by decide),
        (((onlyEntries_refl _ _).oArb).oput (by simp [laneKeys])).oput (by simp [laneKeys]), ⟨[], rfl⟩, .inl ?_⟩
      unfold Mod.healthOf; rw [get_put_other _ d.2.2.2, get_put_same]
    · generalize hA : Mod.showRedundant (((m.modArb (fun a => { a with diag := false })).put (Ob.health b) 2)) = A
      have a1 : Only [.obj, .arb] m A := by
        subst hA; exact (((Only.refl _ _).oArb (by decide)).oput (by decide)).to (only_showRedundant _) (by decide)
      have a2 : OnlyEntries (laneKeys b) m A := by
        subst hA; exact (((onlyEntries_refl _ _).oArb).oput (by simp [laneKeys])).oput (by simp [laneKeys])
      have a3 : A.healthOf b = 2 := by
        subst hA; unfold Mod.healthOf Mod.showRedundant; dsimp only
        rw [get_put_other _ d.1, get_put_same]
      have a4 : A.seenEv = m.seenEv := a1 .seenEv (by decide)
      clear hA
      have c2 : ∀ v, (A.put (Ob.unhealthyCause b) v).healthOf b = 2 := fun v => by
        unfold Mod.healthOf; rw [get_put_other _ d.2.2.2]; exact a3
      have fin : ∀ (B : Mod) (sev fault : Nat), Only [.obj, .arb] m B → OnlyEntries (laneKeys b) m B → B.healthOf b = 2 → B.seenEv = m.seenEv →
          Only ([.obj, .lanes, .arb] ++ evParts) m ((B.raise 2 sev fault b).autoResync b)
          ∧ OnlyEntries (laneKeys b) m ((B.raise 2 sev fault b).autoResync b)
          ∧ (∃ l, ((B.raise 2 sev fault b).autoResync b).seenEv = l ++ m.seenEv)
          ∧ (((B.raise 2 sev fault b).autoResync b).healthOf b = 2 ∨ ((B.raise 2 sev fault b).autoResync b).healthOf b = 3) := by
        intro B sev fault h1 h2 h3 h4
        obtain ⟨f1, f2, f3⟩ := autoResync_laws b (B.raise 2 sev fault b)
        refine ⟨((h1.mono (by decide)).oraise _ _ _ _ (by decide)).to f1 (by decide), (h2.raise _ _ _ _).trans f2, ⟨[2], ?_⟩, f3 ?_⟩
        · rw [show ((B.raise 2 sev fault b).autoResync b).seenEv = (B.raise 2 sev fault b).seenEv from f1 .seenEv (by decide), Mod.raise,
            raiseAt_seenEv, h4]
          rfl
        · unfold Mod.healthOf; rw [get_raised]; exact h3
      split
      · refine ⟨(a1.mono (by decide)).oput (by decide), a2.oput (by simp [laneKeys]), ⟨[], ?_⟩, .inl (c2 cause)⟩
        exact a4
      · split
        · exact fin _ _ _ ((a1.oArb (by decide)).oput (by decide)) (a2.oArb.oput (by simp [laneKeys])) (by
            unfold Mod.healthOf; rw [get_put_other _ d.2.2.2]; exact a3) a4
        · exact fin _ _ _ (a1.oput (by decide)) (a2.oput (by simp [laneKeys])) (c2 cause) a4

theorem only_withdraw (cause : Nat) (m : Mod) : Only [.arb] m (m.withdraw cause) := by
  unfold Mod.withdraw
  split
  · exact Only.refl _ _
  · exact (Only.refl _ _).oArb (by decide)

theorem withdraw_arb (cause : Nat) (m : Mod) (h1 : m.arb.cause = none) (h2 : m.arb.grant.isSome = true) :
    (m.withdraw cause).arb = { m.arb with
      cause := some cause, twPs := m.now, reported := false, grant := none, noneAt := m.now } := by
  unfold Mod.withdraw
  rw [if_neg (by rw [h1]; cases hg : m.arb.grant <;> simp_all)]
  rfl

/-- A lane that fails: the active lane withdraws, the other one is unhealthy. -/
theorem laneFails_laws (l cause : Nat) (m : Mod) :
    Only ([.obj, .lanes, .arb] ++ evParts) m (m.laneFails l cause)
    ∧ OnlyEntries (laneKeys m.standby) m (m.laneFails l cause)
    ∧ (∃ k, (m.laneFails l cause).seenEv = k ++ m.seenEv)
    ∧ (l = m.lane → m.arb.cause = none → m.arb.grant.isSome = true → (m.laneFails l cause).arb.cause = some cause
        ∧ (m.laneFails l cause).arb.grant = none ∧ (m.laneFails l cause).arb.twPs = m.now)
    ∧ (l ≠ m.lane → (m.laneFails l cause).healthOf m.standby = 2 ∨ (m.laneFails l cause).healthOf m.standby = 3) := by
  unfold Mod.laneFails
  by_cases h : l = m.lane
  · rw [if_pos h]
    have o := only_withdraw cause m
    refine ⟨o.mono (by decide), onlyEntries_obj (onlyEntries_refl _ _) (o .obj (by decide)), ⟨[], o .seenEv (by decide)⟩, fun _ h1 h2 => ?_,
      fun hx => absurd h hx⟩
    rw [withdraw_arb cause m h1 h2]
    exact ⟨rfl, rfl, rfl⟩
  · rw [if_neg h]
    obtain ⟨a, b, c, d⟩ := standbyUnhealthy_laws m cause
    exact ⟨a, b, c, fun hx => absurd hx h, fun _ => d⟩

end Sys2Proof.Machine
end

