-- ==== Sys2Proof/Laws/Units.lean ====
section
/-!
SUPPORT. What the changes of state of a unit do: one lemma for each shared operation of the sections and the DC channels.
-/
namespace Sys2Proof.Machine

/-- The parts that a change of state of a section or a channel may touch beside its own record. -/
def unitParts : List Part := [.obj, .grp, .eng] ++ evParts

theorem secAt_eq {a b : Mod} (h : b.sec = a.sec) (u : Nat) : b.secAt u = a.secAt u := by unfold Mod.secAt; rw [h]
theorem dcAt_eq {a b : Mod} (h : b.dc = a.dc) (u : Nat) : b.dcAt u = a.dcAt u := by unfold Mod.dcAt; rw [h]
theorem grpAt_eq {a b : Mod} (h : b.grp = a.grp) (u : Nat) : b.grpAt u = a.grpAt u := by unfold Mod.grpAt; rw [h]
theorem secLen_modSec (m : Mod) (u : Nat) (f : SecRt → SecRt) : (m.modSec u f).sec.length = m.sec.length := by
  unfold Mod.modSec; simp
theorem dcLen_modDc (m : Mod) (u : Nat) (f : DcRt → DcRt) : (m.modDc u f).dc.length = m.dc.length := by unfold Mod.modDc; simp

/-- The events seen grow at their head alone. -/
def SeenGrows (a b : Mod) : Prop := ∃ l, b.seenEv = l ++ a.seenEv

theorem SeenGrows.refl (m : Mod) : SeenGrows m m := ⟨[], rfl⟩
theorem SeenGrows.trans {a b c : Mod} (h : SeenGrows a b) (g : SeenGrows b c) : SeenGrows a c := by
  obtain ⟨l, h⟩ := h; obtain ⟨k, g⟩ := g
  exact ⟨k ++ l, by rw [g, h, List.append_assoc]⟩
theorem SeenGrows.of_eq {a b : Mod} (h : b.seenEv = a.seenEv) : SeenGrows a b := ⟨[], h⟩
theorem SeenGrows.raise (m : Mod) (ev sev fault arg : Nat) : SeenGrows m (m.raise ev sev fault arg) :=
  ⟨[ev], by rw [Mod.raise, raiseAt_seenEv]; rfl⟩
theorem SeenGrows.later {a b c : Mod} (h : b.seenEv = a.seenEv) (g : SeenGrows b c) : SeenGrows a c := (SeenGrows.of_eq h).trans g
theorem SeenGrows.mem {a b : Mod} (h : SeenGrows a b) {ev : Nat} (he : ev ∈ a.seenEv) : ev ∈ b.seenEv := by
  obtain ⟨l, h⟩ := h; rw [h]; exact List.mem_append_right _ he
theorem seen_raised (m : Mod) (ev sev fault arg : Nat) : ev ∈ (m.raise ev sev fault arg).seenEv := by
  rw [Mod.raise, raiseAt_seenEv]; exact List.mem_cons_self

/-- A section enters a state: GF_STATE alone, with EV064. -/
theorem gfTo_laws (s new : Nat) (m : Mod) :
    Only (.obj :: evParts) m (m.gfTo s new) ∧ OnlyEntries [Ob.gfState s] m (m.gfTo s new) ∧ (m.gfTo s new).gf s = new
    ∧ SeenGrows m (m.gfTo s new) := by
  unfold Mod.gfTo
  dsimp only
  split
  · exact ⟨Only.refl _ _, onlyEntries_refl _ _, by assumption, SeenGrows.refl _⟩
  · refine ⟨((Only.refl _ _).oput (by decide)).oinform _ _ (by decide), ((onlyEntries_refl _ _).oput (by simp)).oinform _ _, ?_, ?_⟩
    · unfold Mod.gf; rw [get_informed]; exact get_put_same _
    · exact SeenGrows.later (put_seenEv m _ _) (SeenGrows.raise _ _ _ _ _)

theorem rtTo_laws (s new : Nat) (m : Mod) :
    Only (.obj :: evParts) m (m.rtTo s new) ∧ OnlyEntries [Ob.rtState s] m (m.rtTo s new) ∧ (m.rtTo s new).get (Ob.rtState s) = new
    ∧ SeenGrows m (m.rtTo s new) := by
  unfold Mod.rtTo
  dsimp only
  split
  · exact ⟨Only.refl _ _, onlyEntries_refl _ _, by assumption, SeenGrows.refl _⟩
  · refine ⟨((Only.refl _ _).oput (by decide)).oinform _ _ (by decide), ((onlyEntries_refl _ _).oput (by simp)).oinform _ _, ?_, ?_⟩
    · rw [get_informed]; exact get_put_same _
    · exact SeenGrows.later (put_seenEv m _ _) (SeenGrows.raise _ _ _ _ _)

theorem dcTo_laws (c new sev fault : Nat) (m : Mod) :
    Only (.obj :: evParts) m (m.dcTo c new sev fault) ∧ OnlyEntries [Ob.dcState c] m (m.dcTo c new sev fault)
    ∧ (m.dcTo c new sev fault).dcs c = new ∧ SeenGrows m (m.dcTo c new sev fault) := by
  unfold Mod.dcTo
  dsimp only
  split
  · exact ⟨Only.refl _ _, onlyEntries_refl _ _, by assumption, SeenGrows.refl _⟩
  · refine ⟨((Only.refl _ _).oput (by decide)).oraise _ _ _ _ (by decide), ((onlyEntries_refl _ _).oput (by simp)).raise _ _ _ _, ?_, ?_⟩
    · unfold Mod.dcs; rw [get_raised]; exact get_put_same _
    · exact SeenGrows.later (put_seenEv m _ _) (SeenGrows.raise _ _ _ _ _)

/-- The start under way is over. -/
theorem gfStartEnd_laws (s : Nat) (failed : Bool) (fault : Nat) (m : Mod) :
    Only (.sec :: evParts) m (m.gfStartEnd s failed fault) ∧ OnlyEntries [] m (m.gfStartEnd s failed fault)
    ∧ (s < m.sec.length → (m.gfStartEnd s failed fault).secAt s = { m.secAt s with start := none })
    ∧ SeenGrows m (m.gfStartEnd s failed fault)
    ∧ (∀ q, (m.secAt s).start = some q → 65 ∈ (m.gfStartEnd s failed fault).seenEv) := by
  unfold Mod.gfStartEnd
  split
  · rename_i h
    refine ⟨Only.refl _ _, onlyEntries_refl _ _, fun _ => ?_, SeenGrows.refl _, fun q hq => by rw [hq] at h; exact absurd h (by simp)⟩
    rw [← h]
  · refine ⟨((Only.refl _ _).oSec (by decide)).oraise _ _ _ _ (by decide), ((onlyEntries_refl _ _).oSec).raise _ _ _ _, fun hl => ?_, ?_, fun _ _ => seen_raised _ _ _ _ _⟩
    · rw [secAt_eq (raise_part _ _ _ _ _ .sec (by decide)), secAt_modSec _ _ _ hl]
    · exact SeenGrows.later rfl (SeenGrows.raise _ _ _ _ _)

theorem only_stopCtx (g : Nat) (m : Mod) : Only [.eng] m (m.stopCtx g) := by
  unfold Mod.stopCtx
  exact only_each _ _ _ (fun _ _ => (Only.refl _ _).oCtx (by decide))

/-- PWM of a group off. -/
theorem pwmOff_laws (g : Nat) (m : Mod) :
    Only [.obj, .grp] m (m.pwmOff g) ∧ OnlyEntries [Ob.outState g] m (m.pwmOff g)
    ∧ (g < m.grp.length → ((m.pwmOff g).grpAt g).on = false ∧ ((m.pwmOff g).grpAt g).starting = false) := by
  unfold Mod.pwmOff
  refine ⟨((Only.refl _ _).oGrp (by decide)).to (only_showOut _ _) (by decide), ?_, fun hl => ?_⟩
  · unfold Mod.showOut
    exact ((onlyEntries_refl _ _).oGrp).oput (by simp)
  · rw [grpAt_eq (only_showOut _ _ .grp (by decide)), grpAt_modGrp _ _ _ hl]
    exact ⟨rfl, rfl⟩

/-- An ID_RUN that ends for good: its number goes, with EV069. -/
theorem endIdRun_laws (s : Nat) (m : Mod) :
    Only (.sec :: evParts) m (m.endIdRun s) ∧ OnlyEntries [] m (m.endIdRun s) ∧ SeenGrows m (m.endIdRun s)
    ∧ ((m.endIdRun s).sec.length = m.sec.length)
    ∧ (s < m.sec.length → (m.endIdRun s).secAt s = { m.secAt s with idRun := none }) := by
  unfold Mod.endIdRun
  split
  · rename_i h
    refine ⟨Only.refl _ _, onlyEntries_refl _ _, SeenGrows.refl _, rfl, fun _ => ?_⟩
    rw [← h]
  · refine ⟨((Only.refl _ _).oSec (by decide)).oinform _ _ (by decide), ((onlyEntries_refl _ _).oSec).oinform _ _, ?_, ?_, fun hl => ?_⟩
    · exact SeenGrows.later rfl (SeenGrows.raise _ _ _ _ _)
    · unfold Mod.inform
      rw [show (Mod.raise _ _ _ _ _).sec = _ from raise_part _ _ _ _ _ .sec (by decide)]
      exact secLen_modSec _ _ _
    · unfold Mod.inform
      rw [secAt_eq (raise_part _ _ _ _ _ .sec (by decide)), secAt_modSec _ _ _ hl]

/-- A section reaches REST: no request, no start, no timer, PWM off. -/
theorem gfToRest_laws (s fault : Nat) (m : Mod) (hl : s < m.sec.length) :
    Only (.sec :: unitParts) m (m.gfToRest s fault)
    ∧ OnlyEntries [Ob.gfState s, Ob.rtState s, Ob.outState s] m (m.gfToRest s fault)
    ∧ (m.gfToRest s fault).gf s = gfRest ∧ ((m.gfToRest s fault).secAt s).ask = false ∧ ((m.gfToRest s fault).secAt s).start = none
    ∧ SeenGrows m (m.gfToRest s fault)
    ∧ (s < m.grp.length → ((m.gfToRest s fault).grpAt s).on = false) := by
  unfold Mod.gfToRest
  generalize hA : Mod.modSec s _ m = A
  have i1 : Only [.sec] m A := by subst hA; exact (Only.refl _ _).oSec (by decide)
  have i2 : (A.secAt s).ask = false := by subst hA; rw [secAt_modSec _ _ _ hl]
  have i3 : A.sec.length = m.sec.length := by subst hA; exact secLen_modSec _ _ _
  clear hA
  obtain ⟨j1, j2, j3, j4, j5⟩ := endIdRun_laws s A
  generalize A.endIdRun s = A' at j1 j2 j3 j4 j5
  have a1 : Only (.sec :: evParts) m A' := (i1.mono (by decide)).trans j1
  have a2 : (A'.secAt s).ask = false := by rw [j5 (by rw [i3]; exact hl)]; exact i2
  have a3 : A'.sec.length = m.sec.length := j4.trans i3
  have a4 : SeenGrows m A' := (SeenGrows.of_eq (i1 .seenEv (by decide))).trans j3
  have a5 : OnlyEntries [] m A' := (onlyEntries_obj (onlyEntries_refl _ _) (i1 .obj (by decide))).trans j2
  clear i1 i2 i3 j1 j2 j3 j4 j5
  generalize A' = A at a1 a2 a3 a4 a5
  obtain ⟨b1, b2, -, b4⟩ := rtTo_laws s 0 A
  generalize A.rtTo s 0 = B at b1 b2 b4
  have c1 := only_stopCtx s B
  generalize B.stopCtx s = C at c1
  obtain ⟨d1, d2, d3⟩ := pwmOff_laws s C
  generalize C.pwmOff s = D at d1 d2 d3
  obtain ⟨e1, e2, e3, e4⟩ := gfTo_laws s gfRest D
  generalize D.gfTo s gfRest = E at e1 e2 e3 e4
  have hsec : E.sec = A.sec := by
    rw [show E.sec = D.sec from e1 .sec (by decide), show D.sec = C.sec from d1 .sec (by decide), show C.sec = B.sec from c1 .sec (by decide),
      show B.sec = A.sec from b1 .sec (by decide)]
  generalize (if fault = 0 then (m.secAt s).failCode else fault) = v
  obtain ⟨f1, f2, f3, f4, -⟩ := gfStartEnd_laws s true v E
  have hlE : s < E.sec.length := by rw [hsec, a3]; exact hl
  refine ⟨?_, ?_, ?_, ?_, ?_, ?_, ?_⟩
  · exact (((((a1.mono (by decide)).to b1 (by decide)).to c1 (by decide)).to d1 (by decide)).to e1 (by decide)).to f1 (by decide)
  · have o : OnlyEntries [Ob.gfState s, Ob.rtState s, Ob.outState s] m A := a5.mono (by simp)
    have o2 := o.trans (b2.mono (by simp))
    have o3 := onlyEntries_obj o2 (c1 .obj (by decide))
    exact ((o3.trans (d2.mono (by simp))).trans (e2.mono (by simp))).trans (f2.mono (by simp))
  · unfold Mod.gf; rw [f2 _ (by simp)]; exact e3
  · rw [f3 hlE, secAt_eq hsec]; exact a2
  · rw [f3 hlE]
  · refine ((a4.trans b4).trans ?_).trans f4
    refine SeenGrows.trans ?_ e4
    exact SeenGrows.of_eq (by rw [show D.seenEv = C.seenEv from d1 .seenEv (by decide), show C.seenEv = B.seenEv from c1 .seenEv (by decide)])
  · intro hg
    have hC : C.grp = m.grp := by
      rw [show C.grp = B.grp from c1 .grp (by decide), show B.grp = A.grp from b1 .grp (by decide), show A.grp = m.grp from a1 .grp (by decide)]
    rw [grpAt_eq (f1 .grp (by decide)), grpAt_eq (e1 .grp (by decide))]
    exact (d3 (by rw [hC]; exact hg)).1

/-- A stop begins. -/
theorem gfStopNow_laws (s : Nat) (noRamps : Bool) (m : Mod) (hl : s < m.sec.length) :
    Only (.sec :: .obj :: evParts) m (m.gfStopNow s noRamps)
    ∧ OnlyEntries [Ob.gfState s, Ob.rtState s, Ob.islState s] m (m.gfStopNow s noRamps)
    ∧ (m.gfStopNow s noRamps).gf s = gfStopping ∧ ((m.gfStopNow s noRamps).secAt s).noRamps = noRamps
    ∧ ((m.gfStopNow s noRamps).secAt s).stopEndPs = (if (m.grpAt s).on then some (m.now + sPs 10) else none)
    ∧ ((m.gfStopNow s noRamps).secAt s).ask = ((m.grpAt s).on && (m.secAt s).ask)
    ∧ SeenGrows m (m.gfStopNow s noRamps) := by
  unfold Mod.gfStopNow
  dsimp only
  generalize hA : Mod.modSec s _ m = A
  have a1 : Only [.sec] m A := by subst hA; exact (Only.refl _ _).oSec (by decide)
  have a2 : (A.secAt s).noRamps = noRamps ∧ (A.secAt s).stopEndPs = (if (m.grpAt s).on then some (m.now + sPs 10) else none)
      ∧ (A.secAt s).ask = ((m.grpAt s).on && (m.secAt s).ask) := by
    subst hA; rw [secAt_modSec _ _ _ hl]
    cases (m.grpAt s).on <;> simp
  have a3 : A.sec.length = m.sec.length := by subst hA; exact secLen_modSec _ _ _
  clear hA
  have hlA : s < A.sec.length := by rw [a3]; exact hl
  obtain ⟨j1, j2, j3, -, j5⟩ := endIdRun_laws s A
  generalize A.endIdRun s = A' at j1 j2 j3 j5
  have a4 : Only (.sec :: evParts) m A' := (a1.mono (by decide)).trans j1
  have a5 : (A'.secAt s).noRamps = noRamps ∧ (A'.secAt s).stopEndPs = (if (m.grpAt s).on then some (m.now + sPs 10) else none)
      ∧ (A'.secAt s).ask = ((m.grpAt s).on && (m.secAt s).ask) := by rw [j5 hlA]; exact a2
  have a6 : SeenGrows m A' := (SeenGrows.of_eq (a1 .seenEv (by decide))).trans j3
  have a7 : OnlyEntries [] m A' := (onlyEntries_obj (onlyEntries_refl _ _) (a1 .obj (by decide))).trans j2
  clear a1 a2 a3 j1 j2 j3 j5 hlA
  generalize A' = A at a4 a5 a6 a7
  have b1 : Only (.sec :: .obj :: evParts) m (A.put (Ob.islState s) 0) := (a4.mono (by decide)).oput (by decide)
  have b2 : (A.put (Ob.islState s) 0).secAt s = A.secAt s := rfl
  have b3 : OnlyEntries [Ob.gfState s, Ob.rtState s, Ob.islState s] m (A.put (Ob.islState s) 0) :=
    (a7.mono (by simp)).oput (by simp)
  have b4 : SeenGrows m (A.put (Ob.islState s) 0) := a6.trans (SeenGrows.of_eq rfl)
  generalize A.put (Ob.islState s) 0 = B at b1 b2 b3 b4
  obtain ⟨c1, c2, -, c4⟩ := rtTo_laws s 0 B
  generalize B.rtTo s 0 = C at c1 c2 c4
  obtain ⟨e1, e2, e3, e4⟩ := gfTo_laws s gfStopping C
  refine ⟨((b1.mono (by decide)).to c1 (by decide)).to e1 (by decide), (b3.trans (c2.mono (by simp))).trans (e2.mono (by simp)), e3, ?_, ?_, ?_, ?_⟩
  · rw [secAt_eq (e1 .sec (by decide)), secAt_eq (c1 .sec (by decide)), b2]; exact a5.1
  · rw [secAt_eq (e1 .sec (by decide)), secAt_eq (c1 .sec (by decide)), b2]; exact a5.2.1
  · rw [secAt_eq (e1 .sec (by decide)), secAt_eq (c1 .sec (by decide)), b2]; exact a5.2.2
  · exact (b4.trans c4).trans e4

/-- A section enters DELAY. -/
theorem toDelay_laws (s : Nat) (m : Mod) (hl : s < m.sec.length) :
    Only (.sec :: .obj :: evParts) m (m.toDelay s) ∧ OnlyEntries [Ob.gfState s] m (m.toDelay s) ∧ (m.toDelay s).gf s = gfDelay
    ∧ ((m.toDelay s).secAt s).delayPs = (if m.gridNormal s then some m.now else none)
    ∧ ((m.toDelay s).secAt s).joining = (m.secAt s).joining ∧ ((m.toDelay s).secAt s).ask = (m.secAt s).ask
    ∧ SeenGrows m (m.toDelay s) := by
  unfold Mod.toDelay
  generalize hA : Mod.modSec s _ m = A
  have a1 : Only [.sec] m A := by subst hA; exact (Only.refl _ _).oSec (by decide)
  have a2 : (A.secAt s).delayPs = (if m.gridNormal s then some m.now else none) ∧ (A.secAt s).joining = (m.secAt s).joining
      ∧ (A.secAt s).ask = (m.secAt s).ask := by
    subst hA; rw [secAt_modSec _ _ _ hl]; exact ⟨rfl, rfl, rfl⟩
  clear hA
  obtain ⟨e1, e2, e3, e4⟩ := gfTo_laws s gfDelay A
  refine ⟨(a1.mono (by decide)).to e1 (by decide), OnlyEntries.trans (onlyEntries_obj (onlyEntries_refl _ _) (a1 .obj (by decide))) e2, e3, ?_, ?_, ?_, ?_⟩
  · rw [secAt_eq (e1 .sec (by decide))]; exact a2.1
  · rw [secAt_eq (e1 .sec (by decide))]; exact a2.2.1
  · rw [secAt_eq (e1 .sec (by decide))]; exact a2.2.2
  · exact (SeenGrows.of_eq (a1 .seenEv (by decide))).trans e4

/-- A section requests connection. -/
theorem request_laws (s new : Nat) (m : Mod) (hl : s < m.sec.length) :
    Only (.sec :: .obj :: evParts) m (m.request s new) ∧ OnlyEntries [Ob.gfState s] m (m.request s new) ∧ (m.request s new).gf s = new
    ∧ ((m.request s new).secAt s).ask = true ∧ ((m.request s new).secAt s).closePs = some m.now := by
  unfold Mod.request
  generalize hA : Mod.modSec s _ m = A
  have a1 : Only [.sec] m A := by subst hA; exact (Only.refl _ _).oSec (by decide)
  have a2 : (A.secAt s).ask = true ∧ (A.secAt s).closePs = some m.now := by
    subst hA; rw [secAt_modSec _ _ _ hl]; exact ⟨rfl, rfl⟩
  clear hA
  obtain ⟨e1, e2, e3, e4⟩ := gfTo_laws s new A
  refine ⟨(a1.mono (by decide)).to e1 (by decide), OnlyEntries.trans (onlyEntries_obj (onlyEntries_refl _ _) (a1 .obj (by decide))) e2, e3, ?_, ?_⟩
  · rw [secAt_eq (e1 .sec (by decide))]; exact a2.1
  · rw [secAt_eq (e1 .sec (by decide))]; exact a2.2

/-- A section joins a live bus: no request, marked joining, in DELAY with EV066. -/
theorem joins_laws (s outcome : Nat) (m : Mod) (hl : s < m.sec.length) (h4 : s < 4) :
    Only (.sec :: .obj :: evParts) m (m.joins s outcome) ∧ OnlyEntries [Ob.gfState s, Ob.bsOutcome s] m (m.joins s outcome)
    ∧ (m.joins s outcome).gf s = gfDelay ∧ (m.joins s outcome).get (Ob.bsOutcome s) = outcome
    ∧ ((m.joins s outcome).secAt s).joining = true ∧ ((m.joins s outcome).secAt s).ask = false ∧ 66 ∈ (m.joins s outcome).seenEv := by
  have apart : ∀ s, s < 4 → Ob.bsOutcome s ≠ Ob.gfState s := by decide
  unfold Mod.joins Mod.bsOutcome
  generalize hA : Mod.modSec s _ (m.unask s) = A
  have a1 : Only [.sec] m A := by subst hA; unfold Mod.unask; exact ((Only.refl _ _).oSec (by decide)).oSec (by decide)
  have a2 : (A.secAt s).ask = false ∧ (A.secAt s).joining = true ∧ A.sec.length = m.sec.length := by
    subst hA
    unfold Mod.unask
    rw [secAt_modSec _ _ _ (by rw [secLen_modSec]; exact hl), secAt_modSec _ _ _ hl, secLen_modSec, secLen_modSec]
    exact ⟨rfl, rfl, rfl⟩
  clear hA
  have b1 : Only (.sec :: .obj :: evParts) m ((A.put (Ob.bsOutcome s) outcome).inform 66 (outcome + 65536 * s)) :=
    ((a1.mono (by decide)).oput (by decide)).oinform _ _ (by decide)
  have b2 : ((A.put (Ob.bsOutcome s) outcome).inform 66 (outcome + 65536 * s)).sec = A.sec := inform_part _ _ _ .sec (by decide)
  have b3 : ((A.put (Ob.bsOutcome s) outcome).inform 66 (outcome + 65536 * s)).get (Ob.bsOutcome s) = outcome := by
    rw [get_informed]; exact get_put_same _
  have b4 : 66 ∈ ((A.put (Ob.bsOutcome s) outcome).inform 66 (outcome + 65536 * s)).seenEv := seen_raised _ _ _ _ _
  have b5 : OnlyEntries [Ob.gfState s, Ob.bsOutcome s] m ((A.put (Ob.bsOutcome s) outcome).inform 66 (outcome + 65536 * s)) :=
    ((onlyEntries_obj (onlyEntries_refl _ _) (a1 .obj (by decide))).oput (by simp)).oinform _ _
  generalize (A.put (Ob.bsOutcome s) outcome).inform 66 (outcome + 65536 * s) = B at b1 b2 b3 b4 b5
  obtain ⟨d1, d2, d3, d4, d5, d6, d7⟩ := toDelay_laws s B (by rw [b2, a2.2.2]; exact hl)
  refine ⟨b1.to d1 (by decide), b5.trans (d2.mono (by simp)), d3, ?_, ?_, ?_, d7.mem b4⟩
  · rw [d2 _ (by simpa using apart s h4)]; exact b3
  · rw [d5, secAt_eq b2]; exact a2.2.1
  · rw [d6, secAt_eq b2]; exact a2.1

/-- A sequence fails with EV067. -/
theorem seqFailed_laws (s code : Nat) (m : Mod) :
    Only (.sec :: evParts) m (m.seqFailed s code) ∧ OnlyEntries [] m (m.seqFailed s code) ∧ (m.seqFailed s code).sec.length = m.sec.length
    ∧ 67 ∈ (m.seqFailed s code).seenEv := by
  unfold Mod.seqFailed
  refine ⟨((Only.refl _ _).oSec (by decide)).oraise _ _ _ _ (by decide), ((onlyEntries_refl _ _).oSec).raise _ _ _ _, ?_, seen_raised _ _ _ _ _⟩
  rw [show _ = _ from raise_part _ _ _ _ _ .sec (by decide)]
  exact secLen_modSec _ _ _

/-- The contexts of a channel stop and it enters REST. -/
theorem dcRested_laws (c sev fault : Nat) (m : Mod) (hl : c < m.dc.length) :
    Only (.dc :: .eng :: .obj :: evParts) m (m.dcRested c sev fault) ∧ OnlyEntries [Ob.dcState c] m (m.dcRested c sev fault)
    ∧ (m.dcRested c sev fault).dcs c = dcRest ∧ ((m.dcRested c sev fault).dcAt c).start = none := by
  unfold Mod.dcRested
  have a := only_stopCtx (4 + c) m
  generalize m.stopCtx (4 + c) = A at a
  obtain ⟨d1, d2, d3, -⟩ := dcTo_laws c dcRest sev fault A
  generalize A.dcTo c dcRest sev fault = D at d1 d2 d3
  have hD : D.dc = m.dc := by rw [show D.dc = A.dc from d1 .dc (by decide), show A.dc = m.dc from a .dc (by decide)]
  refine ⟨((a.mono (by decide)).to d1 (by decide)).oDc (by decide), ?_, d3, ?_⟩
  · exact ((onlyEntries_obj (onlyEntries_refl _ _) (a .obj (by decide))).trans (d2.mono (by simp))).oDc
  · rw [dcAt_modDc _ _ _ (by rw [hD]; exact hl)]

/-- A channel reaches REST with its PWM off. -/
theorem dcToRest_laws (c sev fault : Nat) (m : Mod) (hl : c < m.dc.length) :
    Only (.dc :: unitParts) m (m.dcToRest c sev fault) ∧ OnlyEntries [Ob.dcState c, Ob.outState (4 + c)] m (m.dcToRest c sev fault)
    ∧ (m.dcToRest c sev fault).dcs c = dcRest ∧ ((m.dcToRest c sev fault).dcAt c).start = none
    ∧ (4 + c < m.grp.length → ((m.dcToRest c sev fault).grpAt (4 + c)).on = false) := by
  unfold Mod.dcToRest
  obtain ⟨b1, b2, b3⟩ := pwmOff_laws (4 + c) m
  generalize m.pwmOff (4 + c) = B at b1 b2 b3
  obtain ⟨d1, d2, d3, d4⟩ := dcRested_laws c sev fault B (by rw [show B.dc = m.dc from b1 .dc (by decide)]; exact hl)
  refine ⟨(b1.mono (by decide)).trans (d1.mono (by decide)), (b2.mono (by simp)).trans (d2.mono (by simp)), d3, d4, fun hg => ?_⟩
  rw [grpAt_eq (d1 .grp (by decide))]
  exact (b3 hg).1

/-! ### Events of a section or a channel -/

/-- Undone by no overrun: only what the engines would restore is changed with it. -/
theorem alsoSaved_laws (f : Mod → Mod) (m : Mod) : Only [.saved] (f m) (m.alsoSaved f) := by
  unfold Mod.alsoSaved
  dsimp only
  split
  · intro p hp; cases p <;> first | (exact absurd (by decide) hp) | rfl
  · exact Only.refl _ _

theorem does_section {c : Instr} {s : State} {u : Nat} {f : Mod → Mod} {Q : Mod → Prop} (hc : exec c s = secStep u f s) (hu : u < 4)
    (q : ∀ n, Only [.saved] (f s.m) n → Q n) : Does c s Q := by
  refine ⟨s.m.alsoSaved f, ?_, q _ (alsoSaved_laws f s.m)⟩
  rw [hc]
  exact if_pos (by unfold secOk; simpa using hu)

theorem does_channel {c : Instr} {s : State} {u : Nat} {f : Mod → Mod} {Q : Mod → Prop} (hc : exec c s = dcStep u f s) (hu : u < 4)
    (q : ∀ n, Only [.saved] (f s.m) n → Q n) : Does c s Q := by
  refine ⟨s.m.alsoSaved f, ?_, q _ (alsoSaved_laws f s.m)⟩
  rw [hc]
  exact if_pos (by unfold dcOk; simpa using hu)

end Sys2Proof.Machine
end

