-- ==== Sys2Proof/Tests/Slice0.lean ====
section
/-!
SUPPORT. Tests: ill-formed commands that the checks refuse, one step on small states with results taken from the rules, and
for every obligation with hypotheses a state and operands that meet them, clause by clause.
-/
namespace Sys2Proof.Tests
open Sys2Proof Sys2Proof.Machine

-- One theorem after the other: each test that the kernel evaluates would else hold a thread until all before it are checked.
set_option Elab.async false

/-- A module that serves its host: lane A holds the grant, the link is ready, mailbox 0 has the service role. -/
def up : Mod := { link := { ready := true }, arb := { armed := true, grant := some 0 }, obj := [(Ob.serialRole, 3)] }
/-- The header of a command of mailbox 0. -/
def hd : Hdr := ⟨.mbx 0, 1, 0, 0, true, true, true⟩
/-- The state of a module. -/
def mst (m : Mod) : State := { m := m }
/-- The serving module with entries put in force. -/
def upO (l : List (Nat × Nat)) : Mod := { up with obj := l ++ up.obj }
/-- A module with entries in force and nothing else. -/
def ob (l : List (Nat × Nat)) : Mod := { obj := l }
/-- What section `u` needs to start: its layout and its channels. -/
def sect (u : Nat) : List (Nat × Nat) :=
  (Ob.grpLayout u, 1) :: (List.range 10).flatMap (fun n =>
    [(Ob.role n, n / 3 + 1), (Ob.ownerMask n, 2 ^ u), (Ob.phase n, n % 3), (Ob.focEn n, 0), (Ob.chState n, 0)])
/-- What DC channel `u` needs to start: a battery channel that regulates its link. -/
def chan (u : Nat) : List (Nat × Nat) :=
  [(Ob.grpLayout (4 + u), 1), (Ob.dcMode u, 2), (Ob.batCtrl u, 1)] ++ (List.range 3).flatMap (fun n =>
    [(Ob.role n, [7, 8, 4].getD n 0), (Ob.ownerMask n, 2 ^ (4 + u)), (Ob.focEn n, 0), (Ob.chState n, 0)])
/-- The frame of an action. -/
def act (idx : Nat) (args : List Byte) : Frame := ⟨hd, 4, idx, 0, args⟩
/-- A fault not yet settled, with the trip sources `src`; `a`: it awaits its clearing. -/
def rcv (a : Bool) (src : Nat) : Recovery :=
  { record := ⟨0, 0, 0, 0, src, 0, 0, 0, 0, 0, 0, 0⟩, endPs := 0, retryPs := 0, checkPs := 0, awaiting := a, trips := [], running := [] }
/-- The serving module with such a fault of a counter instance. -/
def fltd (cls unit : Nat) (r : Recovery) : Mod :=
  { up with prot := { insts := [{ cls := cls, unit := unit, recov := some r }] } }
/-- A leg map of Serac for a group of one leg. -/
def lmap : LegMap :=
  { layout := 1, firstPair := 30, safePattern := 0, safeDt := 0, dts := [(0, 0)], cls := 0, flts := [] }
/-- A good image of a target, with its version, counter and security version. -/
def im (v t c sv : Nat) : ImageInfo := ⟨v, t, c, sv, false, true, true, false, true, true⟩
/-- The serving module with both lanes in one state. -/
def laned (x : LaneRt) : Mod := { up with lanes := List.replicate 2 x }
/-- A lane that may claim. -/
def ready : LaneRt :=
  { released := true, locked := true, boot := true, image := true, floe := true, rime := true, tested := true }
/-- Before the first claim. -/
def early (x : LaneRt) : Mod := { laned x with arb := {} , link := {} }
/-- The serving module whose SDC stands in a state, with entries besides. -/
def sdcIn (st : Nat) (x : SdcRt) : Mod := { upO [(Ob.sdcState, st)] with sdc := x }
/-- All inputs high, and all low. -/
def hiIn : SdcInputs := ⟨true, true, true, true, true, true⟩
/-- A PTP message of port 1. -/
def ptp (k : PtpKind) (dom : Nat) : PtpMsg :=
  { kind := k, port := 1, domain := dom, sequenceId := 4, twoStep := true, rx := 100, origin := 500, correction := 8
    parentId := 9, gmId := 11, stepsRemoved := 2, better := true, utcOffset := 37, utcValid := true, leap61 := false, leap59 := false }
/-- A peer whose certificate grants the service role. -/
def peer : TlsPeer := ⟨5, true, some 0, some (3, false), 77, 0, 4294967295⟩
/-- A DNP3 request of the serial link's master. -/
def dreq : DnpReq := { serial := true, master := up.get Ob.dnpMaster, reads := [], ops := [], timeSync := false, confirm := 0, order := 1 }
/-- The serving module with one Modbus map entry: set-point 0 at register 40. -/
def mapped (fl : Nat) : Mod :=
  upO [(Ob.rs485Protocol, 1), (Ob.rtuAddress, 3), (Ob.mbObj 7, Ob.setpoint 0 / 256), (Ob.mbSub 7, Ob.setpoint 0 % 256), (Ob.mbReg 7, 40)
    , (Ob.mbFlags 7, fl), (Ob.mbWriteEn, fl % 2)]
/-- A quiet housekeeping round of a converter. -/
def rnd (c : Nat) : HkRound :=
  ⟨c, List.replicate 8 10000, List.replicate 8 2500, List.replicate 32 0, List.replicate 13 0, 0, 1250000, 0⟩
/-- The windows of detectors that stand at 0. -/
def still : List Nat := List.replicate 24 0
/-- A tick's samples with no bits and every estimate at 0. -/
def quiet : Samples :=
  ⟨List.replicate 24 (0, 0), List.replicate 4 ⟨⟨0, 0⟩, ⟨0, 0⟩, ⟨0, 0⟩, ⟨0, 0⟩, ⟨0, 0⟩, ⟨0, 0⟩, [0, 0, 0], [0, 0, 0]⟩⟩
/-- Whether a command answers a next state whose module passes `p`. -/
def ran (c : Instr) (s : State) (p : Mod → Bool) : Bool := match exec c s with | .next t => p t.m | _ => false

/-! ### Well-formedness: an ill-formed term for each check -/

/-- Numbers that do not fit the field that carries them. -/
theorem test_wf_widths : [Instr.linkRead 0x10000 1, .mbxDoorbell 256, .quadEnWrite 0x100000000, .timeSet hd 0x10000000000000000
    , .lockWindow 0 32768 0, .lockWindow 0 (-32769) 0, .lockWindow 0 0 2147483648, .lockWindow 0 0 (-2147483649)
    , .takeoverInstant 0x100000000 []].all (fun c => !c.wf) = true := by decide

/-- Numbers of units that do not exist. -/
theorem test_wf_units : [Instr.cirqueMacFail 2, .busLive 4, .pvLowPower 4, .safeDtExpiry 8, .comfbMissing 32 [], .channelSettled 24
    , .outputThermal 32, .fsupLost 4 [], .fsupLost 0 [(0x10000, 0)], .offsetTrackUpdate 24, .mclkLost 0 0 4, .mclkLost 0 16 0
    , .eventFrameRelease 8, .trigPulse 4, .fltTrip 0 (List.replicate 17 { fell := none })
    , .scheduledEntry 64, .certExpiring 5 0, .hallEdge 8, .mirrorDiagnosis 3, .selfTestDone 128 false, .sessionClose 8
    , .freqTripStage 0 4, .plausibility 4 0, .fieldLoadWarning true 4 true, .fieldLoadWarning false 32 true, .linkState 2 0].all
    (fun c => !c.wf) = true := by decide

/-- Senders and headers: only mailboxes and sessions send frames. -/
theorem test_wf_senders : [Instr.read { hd with snd := .mbx 4 } 0 0, .read { hd with snd := .session 8 } 0 0
    , .read { hd with snd := .modbus 0 } 0 0, .read { hd with snd := .localSafety } 0 0, .read { hd with seq := 65536 } 0 0
    , .read { hd with slot := 256 } 0 0, .read { hd with counter := 0x10000000000000000 } 0 0, .commandWindowWrite 4 0 []
    , .commandWindowWrite 0 0x400 [], .groupDiscarded (.dnp3 0), .authBlockEnd none (.modbus 0)
    , .authBlockEnd (some 0x100000000) (.mbx 0), .groupCommit hd (some 0x10000000000000000)].all (fun c => !c.wf) = true := by decide

/-- Readings of the wrong shape: channels, sections, windows, maps, rounds, estimates, seals and recoveries. -/
theorem test_wf_readings : [Instr.samplesReady { quiet with bits := [] }, .samplesReady { quiet with sec := [] }
    , .samplesReady { quiet with bits := List.replicate 24 (2, 4) }, .focTrip 0 0 [], .focTrip 0 4 still, .focAlert 0 (2 ^ 34 :: still.drop 1)
    , .meterBlockEnd ⟨8, [], 0⟩, .meterBlockEnd ⟨0, [(24, [])], 0⟩
    , .commitDeadline ⟨0, 0, 0, 0, some (256, 0), 0⟩, .commitDeadline ⟨0, 0, 0, 0, some (0, 2), 0⟩
    , .legMapReport 0 { lmap with layout := 5 }, .legMapReport 0 { lmap with firstPair := 32 }, .legMapReport 0 { lmap with flts := [(256, 0)] }
    , .fieldSample 0 ⟨List.replicate 7 0, List.replicate 8 0, List.replicate 8 false, List.replicate 8 false⟩
    , .hkRound { rnd 0 with dies := [] }, .hkRound (rnd 2), .estimateBlock (.thermal 8 0 0 0 0), .estimateBlock (.linkCap 24 0 0 0)
    , .estimateBlock (.flashWear 2 0 0), .powerOn true (List.replicate 9 0), .safetyDieRunning true (List.replicate 10 256)
    , .clearRecheck 4 0, .clearRecheck 1 8, .clearRecheck 2 24, .clearRecheck 3 32
    , .modbusReadInput ⟨true, 256, 0⟩ 0 1].all (fun c => !c.wf) = true := by decide

/-! ### Numbers and codes -/

/-- R46: the CRC-16 over the bytes "123456789" is 29B1h. -/
theorem test_crc_check_value : crc16 [0x31, 0x32, 0x33, 0x34, 0x35, 0x36, 0x37, 0x38, 0x39] = 0x29B1 := by decide +kernel
/-- R4: the least significant byte comes first. -/
theorem test_little_endian : leBytes 4 0x12345678 = [0x78, 0x56, 0x34, 0x12] := by decide
/-- R5: 1 pu is 2^29, and the form ends just below 4 pu. -/
theorem test_q29 : q29Of 1 = 536870912 ∧ q29Of 5 = 2147483647 ∧ q29Of (-5) = -2147483648 := by decide +kernel
/-- R5: 3FC00000h is 1.5 in binary32; an infinity is no number. -/
theorem test_f32 : f32Val 0x3FC00000 = some (3 / 2) ∧ f32Val 0x7F800000 = none := by decide +kernel
/-- R227: the boundary between the points (100 ms, 10) and (200 ms, 20), and past the last. -/
theorem test_curve : curveAt false 150 [(0, 0), (100, 10), (200, 20)] = 10 ∧ curveAt true 150 [(0, 0), (100, 10), (200, 20)] = 15 ∧
    curveAt true 900 [(0, 0), (100, 10), (200, 20)] = 20 := by decide +kernel

/-! ### One step each -/

/-- R43: a doorbell of a busy mailbox only sets DOORBELL_LOST. -/
theorem test_doorbell_lost : ran (.mbxDoorbell 1) (mst { up with mbx := List.replicate 4 { busy := true } })
    (fun n => n.link.doorbellLost && n.mbx == List.replicate 4 { busy := true }) = true := by decide +kernel
/-- R433: GRACE_TIME reads 30 s in a module that nobody has configured. -/
theorem test_default_read : (up.get (Ob.graceTime)) = 30 := by decide +kernel
/-- R471: POWER_ON gives power and releases nothing by itself. -/
theorem test_power_on : ran (.powerOn true (List.replicate 10 0)) {} (fun n => n.power.power && !n.link.ready) = true := by decide +kernel
/-- R458: the counter takes the SEC_VERSION of the running image, and the others stay. -/
theorem test_counter_commit :
    (match exec .commitDelayExpiry (mst { upO [(Ob.redundant, 1)] with secu := { running := [some (im 1 1 2 7), none] } }) with
     | .next t => t.kept.rollback == [0, 0, 7] ++ List.replicate 61 0
     | _ => false) = true := by decide +kernel
/-- R270: a fault input trips the groups of its FLT_TARGET and no other. -/
theorem test_flt_target : ran (.fltTrip 0 (List.replicate 2 { fell := none } ++ [{ fell := some 100000 }])) (mst (upO [(Ob.fltTarget 2, 0x81), (Ob.grpLayout 0, 1), (Ob.grpLayout 1, 1), (Ob.grpLayout 7, 1)]))
    (fun n => (n.grpAt 0).latched && !(n.grpAt 1).latched && (n.grpAt 7).latched) = true := by decide +kernel
/-- R354: a request for connection starts the weld test with K1. -/
theorem test_weld_test_starts : ran (.connectionRequest true) (mst { sdcIn sdcOpen {} with sec := List.replicate 4 { ask := true } })
    (fun n => n.sdcSt == sdcTestK1 && n.sdc.k1 && !n.sdc.k2) = true := by decide +kernel
/-- R349: a low demand input opens both relays. -/
theorem test_demand_opens : ran (.sdcSample ⟨false, true, false, false, false, false⟩ ⟨true, true, false, false, false, false⟩)
    (mst (sdcIn sdcClosed { k1 := true, k2 := true }))
    (fun n => n.sdcSt == sdcSafe && !n.sdc.k1 && !n.sdc.k2) = true := by decide +kernel
/-- R390: two registers read the two halves of set-point 0, the high half first. -/
theorem test_modbus_read : ran (.modbusReadHolding ⟨true, 3, 1⟩ 40 2)
    (mst { mapped 0 with obj := (Ob.setpoint 0, 0x00010002) :: (mapped 0).obj })
    (fun n => n.net.mbReply == some (0, [1, 2])) = true := by decide +kernel
/-- R428: a stall latches 5812h and turns all switches off. -/
theorem test_stall_latches : ran (.cdFault 0x5812) (mst { up with cd := { enable := true, busGood := true, phases := some (0, 1), dutyPs := some 5 } })
    (fun n => n.get Ob.cdFault == 0x5812 && n.cd.phases == none) = true := by decide +kernel
/-- R441: a TCXO that is lost moves both references to the crystals. -/
theorem test_tcxo_lost : ran .tcxoLost (mst up) (fun n => n.get (Ob.refSource 0) == 1 && n.get (Ob.refSource 1) == 1) = true := by
  decide +kernel
/-- R321: with both lanes ready, lane A takes the grant and the module answers. -/
theorem test_lane_a_claims : ran (.laneClaim true true) (mst (early ready)) (fun n => n.arb.grant == some 0 && n.link.ready) = true := by
  decide +kernel
/-- The table gives no row any bits: no word spells a command. -/
theorem test_no_word : decodeTableWord 16 0x1234 = none := rfl
/-- R379: a pulse of a programme with a period follows one period after the last. -/
theorem test_trigger_period : ran (.trigPulse 3)
    (mst { upO [(Ob.trigMode 3, 2), (Ob.trigPeriod 3, 50)] with time := { trig := List.replicate 4 { next := some 30 } } })
    (fun n => (n.trigAt 3).next == some 80) = true := by decide +kernel
/-- R411: the third frame missing in a row is counted as the third. -/
theorem test_rime_missing : ran (.rimeFrame { lane := 1, good := false, toField := false, absent := true }) (mst { up with rime := List.replicate 2 { missIn := 2 } })
    (fun n => (n.rimeAt 1).missIn == 3 && (n.rimeAt 0).missIn == 2) = true := by decide +kernel
/-- A front command is taken off the queue before it runs. -/
theorem test_queue_front : (match step { pending := [.tcxoLost, .tcxoRestored], m := up } with
    | .next t => t.pending == [.tcxoRestored] && t.m.get (Ob.refSource 0) == 1
    | _ => false) = true := by decide +kernel

/-! ### Witnesses: the hypotheses of each clause can be met together -/

theorem witness_WellFormedCommandsComplete :
    (∃ (c : Instr), (c.wf = true)) :=
  ⟨.evtNPulse, by decide +kernel⟩

theorem witness_LinkRegisterWritesTakeEffect :
    (∃ (s : State) (d : List Byte), (d.length = 4) ∧ (s.m.linkUp = true)) ∧
    (∃ (s : State), (s.m.linkUp = true)) ∧
    (∃ (s : State) (n : Nat) (off : Nat) (d : List Byte), (n < 4) ∧ (off < 1024) ∧ (d ≠ []) ∧ (s.m.linkUp = true)) ∧
    (∃ (s : State), (s.m.linkUp = false)) ∧
    (∃ (d : List Byte), (0 < d.length) ∧ (d.length < 4)) :=
  ⟨⟨mst up, [1, 0, 0, 0], by decide +kernel⟩,
   ⟨mst up, by decide +kernel⟩,
   ⟨mst up, 3, 1023, [7, 8], by decide +kernel⟩,
   ⟨{}, by decide +kernel⟩,
   ⟨[1, 0, 0], by decide +kernel⟩⟩

theorem witness_LinkReadsShiftTheirBytesOut :
    (∃ (s : State), (s.m.linkUp = true)) ∧
    (∃ (k : Nat), (k < 4)) :=
  ⟨⟨mst up, by decide +kernel⟩,
   ⟨3, by decide +kernel⟩⟩

theorem witness_BusyMailboxLosesDoorbells :
    (∃ (s : State) (k : Nat), (k < 4) ∧ ((s.m.mbx.getD k { }).gen ≠ 3) ∧ (s.m.linkUp = true) ∧ (s.m.link.ready = true) ∧
      (((s.m.mbx.getD k { }).busy || (s.m.mbx.getD k { }).rspReady) = true)) ∧
    (∃ (s : State) (k : Nat) (off : Nat), (k < 4) ∧ ((s.m.mbx.getD k { }).gen ≠ 3) ∧ (s.m.linkUp = true) ∧ (s.m.link.ready
      = true) ∧ ((s.m.mbx.getD k { }).busy = true) ∧ (off < 1024)) :=
  ⟨⟨mst {up with mbx := List.replicate 4 {rspReady := true}}, 3, by decide +kernel⟩,
   ⟨mst {up with mbx := List.replicate 4 {busy := true}}, 3, 1023, by decide +kernel⟩⟩

theorem witness_NothingIsTakenBeforeReady :
    (∃ (s : State), (s.m.link.ready = false)) ∧
    (∃ (s : State) (k : Nat) (off : Nat), (s.m.link.ready = false) ∧ (k < 4) ∧ (off < 1024) ∧ ((s.m.mbx.getD k { }).gen =
      3)) ∧
    (∃ (s : State) (h : Hdr) (k : Nat), (s.m.link.ready = false) ∧ (h.snd = Sender.mbx k) ∧ (k < 4)) :=
  ⟨⟨{}, by decide +kernel⟩,
   ⟨mst {mbx := List.replicate 4 {gen := 3}}, 3, 1023, by decide +kernel⟩,
   ⟨{}, hd, 0, by decide +kernel⟩⟩

theorem witness_WindowsAndDoorbellsCarryFrames :
    (∃ (s : State) (k : Nat) (off : Nat) (d : List Byte), (k < 4) ∧ (s.m.linkUp = true) ∧ (s.m.mbx.length = 4) ∧ (off +
      d.length ≤ 1024) ∧ ((s.m.mbx.getD k { }).gen ≠ 3) ∧ ((s.m.mbx.getD k { }).busy = false) ∧ (off < 1024)) ∧
    (∃ (s : State) (k : Nat) (off : Nat), (k < 4) ∧ (s.m.linkUp = true) ∧ (s.m.mbx.length = 4) ∧ (off < 1024) ∧
      ((s.m.mbx.getD k { }).gen = 3) ∧ (s.m.link.ready = true) ∧ (s.m.link.quadEn = false)) ∧
    (∃ (s : State) (k : Nat) (len : Nat) (seq : Nat) (i : Nat) (j : Nat), (k < 4) ∧ (s.m.linkUp = true) ∧ (s.m.mbx.length
      = 4) ∧ ((s.m.mbx.getD k { }).gen = 2) ∧ (s.m.link.ready = true) ∧ ((s.m.mbx.getD k { }).busy = false) ∧
      ((s.m.mbx.getD k { }).rspReady = false) ∧ ((s.m.chanOf (Sender.mbx k)).blocked = none) ∧ (fieldAt (s.m.mbx.getD k
      { }).window 4 2 = len) ∧ (12 ≤ len) ∧ (len ≤ 1024) ∧ (fieldAt (s.m.mbx.getD k { }).window 0 1 = 2) ∧ (fieldAt
      (s.m.mbx.getD k { }).window 2 2 = seq) ∧ (fieldAt (s.m.mbx.getD k { }).window 6 2 = i) ∧ (fieldAt (s.m.mbx.getD k
      { }).window 8 1 = j) ∧ (crcHolds ((s.m.mbx.getD k { }).window ++ List.replicate 1024 0) len = true) ∧ (len = 12) ∧
      (fieldAt (s.m.mbx.getD k { }).window 1 1 = 1)) ∧
    (∃ (s : State) (k : Nat) (len : Nat) (seq : Nat) (i : Nat) (j : Nat), (k < 4) ∧ (s.m.linkUp = true) ∧ (s.m.mbx.length
      = 4) ∧ ((s.m.mbx.getD k { }).gen = 2) ∧ (s.m.link.ready = true) ∧ ((s.m.mbx.getD k { }).busy = false) ∧
      ((s.m.mbx.getD k { }).rspReady = false) ∧ ((s.m.chanOf (Sender.mbx k)).blocked = none) ∧ (fieldAt (s.m.mbx.getD k
      { }).window 4 2 = len) ∧ (12 ≤ len) ∧ (len ≤ 1024) ∧ (fieldAt (s.m.mbx.getD k { }).window 0 1 = 2) ∧ (fieldAt
      (s.m.mbx.getD k { }).window 2 2 = seq) ∧ (fieldAt (s.m.mbx.getD k { }).window 6 2 = i) ∧ (fieldAt (s.m.mbx.getD k
      { }).window 8 1 = j) ∧ (crcHolds ((s.m.mbx.getD k { }).window ++ List.replicate 1024 0) len = false)) :=
  ⟨⟨mst up, 3, 1022, [1, 2], by decide +kernel⟩,
   ⟨mst {up with mbx := List.replicate 4 {gen := 3}}, 3, 1023, by decide +kernel⟩,
   ⟨mst
      {up with mbx := List.replicate 4 {window := [2, 1, 7, 0, 12, 0, 0, 0x10, 1, 0] ++ leBytes 2 (crc16 [2, 1, 7, 0, 12, 0, 0, 0x10, 1, 0])}},
      3, 12, 7, 0x1000, 1, by decide +kernel⟩,
   ⟨mst {up with mbx := List.replicate 4 {window := [2, 1, 7, 0, 12, 0, 0, 0x10, 1, 0, 0, 0]}}, 3, 12, 7, 0x1000, 1,
      by decide +kernel⟩⟩

theorem witness_CertifiedModeReplacesOldMailboxes :
    (∃ (s : State) (l : Nat) (ia : ImageInfo) (ib : ImageInfo), (l < 2) ∧ (s.m.starts l = true) ∧ ((s.m.laneAt l).boot =
      true) ∧ (s.m.cirqueUp l = true) ∧ (imageOk s.kept s.m 1 ia = true ∧ ¬(l, 0) ∈ s.m.secu.badImg ∨ imageOk s.kept s.m 1
      ib = true ∧ ¬(l, 1) ∈ s.m.secu.badImg)) :=
  ⟨mst
    {upO [(Ob.certifiedMode, 1), (Ob.mbxGen 3, 1)] with lanes := List.replicate 2 {released := true, locked := true, boot := true}},
    1, ⟨2, 1, 1, 1, false, true, true, false, true, true⟩, ⟨2, 1, 1, 1, false, true, true, false, true, true⟩,
    by decide +kernel⟩

theorem witness_WritesAreStagedOrHeld :
    (∃ (s : State) (h : Hdr) (i : Nat) (j : Nat) (d : List Byte) (op : Nat), (i < 65536) ∧ (j < 256) ∧ (op = 2 ∨ op = 3) ∧
      (s.m.accepts { h := h, op := op, idx := i, sub := j, data := d } = true) ∧ ((s.m.chanOf h.snd).group = none) ∧
      ((Mod.taken { h := h, op := op, idx := i, sub := j, data := d } s.m).checkWrite h.snd (s.m.roleOf h.snd) false false
      false s.m.stagedWrites (i * 256 + j, d) = none)) ∧
    (∃ (s : State) (h : Hdr) (i : Nat) (j : Nat) (d : List Byte) (g : Group), (i < 65536) ∧ (j < 256) ∧ (s.m.accepts
      { h := h, op := 2, idx := i, sub := j, data := d } = true) ∧ ((s.m.chanOf h.snd).group = some g) ∧ ((Mod.taken
      { h := h, op := 2, idx := i, sub := j, data := d } s.m).checkWrite h.snd (s.m.roleOf h.snd) true (g.full d.length)
      false (s.m.stagedWrites ++ g.writes) (i * 256 + j, d) = none)) ∧
    (∃ (s : State) (h : Hdr) (i : Nat) (j : Nat) (d : List Byte) (g : Group), (i < 65536) ∧ (j < 256) ∧ (s.m.accepts
      { h := h, op := 3, idx := i, sub := j, data := d } = true) ∧ ((s.m.chanOf h.snd).group = some g) ∧ ((Mod.taken
      { h := h, op := 3, idx := i, sub := j, data := d } s.m).checkWrite h.snd (s.m.roleOf h.snd) true (g.full d.length)
      false (s.m.stagedWrites ++ g.writes) (i * 256 + j, d) = none)) :=
  ⟨⟨mst up, hd, 0x6000, 1, [1], 2, by decide +kernel⟩,
   ⟨mst {up with mbx := List.replicate 4 {chan := {group := some ⟨9, 0, []⟩}}}, hd, 0x6000, 1, [1], ⟨9, 0, []⟩,
      by decide +kernel⟩,
   ⟨mst {up with mbx := List.replicate 4 {chan := {group := some ⟨9, 0, []⟩}}}, hd, 0x6000, 1, [1], ⟨9, 0, []⟩,
      by decide +kernel⟩⟩

theorem witness_GroupsOpenAndCommit :
    (∃ (s : State) (h : Hdr), (s.m.accepts { h := h, op := 5, idx := 0, sub := 0, data := [] } = true) ∧ ((s.m.chanOf
      h.snd).group = none)) ∧
    (∃ (s : State) (h : Hdr), (s.m.accepts { h := h, op := 5, idx := 0, sub := 0, data := [] } = true) ∧ ((s.m.chanOf
      h.snd).group.isSome = true)) ∧
    (∃ (s : State) (h : Hdr) (g : Group), (s.m.accepts { h := h, op := 6, idx := 0, sub := 0, data := [] } = true) ∧
      ((s.m.chanOf h.snd).group = some g)) ∧
    (∃ (s : State) (h : Hdr) (g : Group) (t : Nat), (s.m.accepts
      { h := h, op := 6, idx := 0, sub := 0, data := leBytes 8 t } = true) ∧ ((s.m.chanOf h.snd).group = some g) ∧
      ((Mod.taken { h := h, op := 6, idx := 0, sub := 0, data := leBytes 8 t } s.m).schedRefusal (Raw.signed 64 (leNat
      (leBytes 8 t))) = none) ∧ (∃ e, e < 64 ∧ ∀ (x : Sched), x ∈ s.m.sched → x.entry ≠ e)) ∧
    (∃ (s : State) (h : Hdr), (s.m.accepts { h := h, op := 6, idx := 0, sub := 0, data := [] } = true) ∧ ((s.m.chanOf
      h.snd).group = none)) :=
  ⟨⟨mst up, hd, by decide +kernel⟩,
   ⟨mst {up with mbx := List.replicate 4 {chan := {group := some ⟨9, 0, []⟩}}}, hd, by decide +kernel⟩,
   ⟨mst {up with mbx := List.replicate 4 {chan := {group := some ⟨9, 0, []⟩}}}, hd, ⟨9, 0, []⟩, by decide +kernel⟩,
   ⟨mst {up with mbx := List.replicate 4 {chan := {group := some ⟨9, 0, []⟩}}, time := {stepped := true}}, hd, ⟨9, 0,
      []⟩, 5000000000, by decide +kernel⟩,
   ⟨mst up, hd, by decide +kernel⟩⟩

theorem witness_EventAckRemovesUpToTheNumber :
    (∃ (s : State) (h : Hdr) (q : Nat) (gone : List EvEntry) (e : EvEntry) (rest : List EvEntry), (q < 65536) ∧
      (s.m.accepts { h := h, op := 10, idx := 0, sub := 0, data := leBytes 2 q } = true) ∧ ((s.m.queueOf h.snd).entries =
      gone ++ e :: rest) ∧ (e.qseq = q) ∧ (∀ (x : EvEntry), x ∈ gone → x.qseq ≠ q) ∧ ((s.m.queueOf h.snd).lostNew = 0)) ∧
    (∃ (s : State) (h : Hdr) (q : Nat), (q < 65536) ∧ (s.m.accepts
      { h := h, op := 10, idx := 0, sub := 0, data := leBytes 2 q } = true) ∧ (∀ (x : EvEntry), x ∈ (s.m.queueOf
      h.snd).entries → x.qseq ≠ q)) :=
  ⟨⟨mst {up with hostQ := {entries := [⟨0, 1, 0, 0, 4, 1, 0⟩, ⟨0, 2, 0, 0, 5, 1, 0⟩, ⟨0, 3, 0, 0, 6, 1, 0⟩]}}, hd, 5,
      [⟨0, 1, 0, 0, 4, 1, 0⟩], ⟨0, 2, 0, 0, 5, 1, 0⟩, [⟨0, 3, 0, 0, 6, 1, 0⟩], by decide +kernel⟩,
   ⟨mst {up with hostQ := {entries := [⟨0, 1, 0, 0, 4, 1, 0⟩]}}, hd, 5, by decide +kernel⟩⟩

theorem witness_StreamChannelsOpenAndClose :
    (∃ (s : State) (h : Hdr) (i : Nat) (c : Nat) (d : List Byte), (c < 8) ∧ (i < 65536) ∧ (s.m.accepts
      { h := h, op := 8, idx := i, sub := c, data := d } = true) ∧ (isSourceObject i = true) ∧ (s.m.genOf h.snd ≠ 1) ∧
      ((s.m.chanOf h.snd).group = none) ∧ (s.m.streamOpen c = false) ∧ (s.m.sourceReady i = true) ∧ (d.length = sourceArgs
      i)) ∧
    (∃ (s : State) (h : Hdr) (i : Nat) (c : Nat) (d : List Byte), (c < 8) ∧ (i < 65536) ∧ (s.m.accepts
      { h := h, op := 8, idx := i, sub := c, data := d } = true) ∧ (isSourceObject i = true) ∧ (s.m.genOf h.snd = 1 ∨
      s.m.streamOpen c = true)) ∧
    (∃ (s : State) (h : Hdr) (i : Nat) (c : Nat), (c < 8) ∧ (i < 65536) ∧ (s.m.accepts
      { h := h, op := 9, idx := 0, sub := c, data := [] } = true) ∧ ((s.m.chanOf h.snd).group = none) ∧ (s.m.streamOpen c
      = true)) ∧
    (∃ (s : State) (h : Hdr) (i : Nat) (c : Nat), (c < 8) ∧ (i < 65536) ∧ (s.m.accepts
      { h := h, op := 9, idx := 0, sub := c, data := [] } = true) ∧ (s.m.streamOpen c = false)) :=
  ⟨⟨mst up, hd, 0x6003, 7, [0, 0, 0, 0, 255, 255, 255, 255], by decide +kernel⟩,
   ⟨mst {up with streams := [(7, {idx := 0x6003, sub := 0, snd := .mbx 0, gen := 2, args := []})]}, hd, 0x6003, 7, [  ],
      by decide +kernel⟩,
   ⟨mst {up with streams := [(7, {idx := 0x6003, sub := 0, snd := .mbx 0, gen := 2, args := []})]}, hd, 0, 7,
      by decide +kernel⟩,
   ⟨mst up, hd, 0, 7, by decide +kernel⟩⟩

theorem witness_TickAndCalibrationActions :
    (∃ (s : State) (h : Hdr) (ch : Nat), (ch < 24) ∧ (s.m.runs { h := h, op := 4, idx := 4613, sub := 0, data := [] } =
      true)) ∧
    (∃ (s : State) (h : Hdr) (ch : Nat) (blocks : Nat), (ch < 24) ∧ (10 ≤ blocks) ∧ (blocks ≤ 1000) ∧ (s.m.runs
      { h := h, op := 4, idx := 8448, sub := 0, data := leBytes 1 ch ++ leBytes 1 0 ++ leBytes 4 0 ++ leBytes 2 blocks } =
      true) ∧ ((Mod.taken
      { h := h, op := 4, idx := 8448, sub := 0, data := leBytes 1 ch ++ leBytes 1 0 ++ leBytes 4 0 ++ leBytes 2 blocks }
      s.m).calRefused ch false = false)) ∧
    (∃ (s : State) (h : Hdr) (ch : Nat) (ref : Nat) (blocks : Nat), (ch < 24) ∧ (10 ≤ blocks) ∧ (blocks ≤ 1000) ∧ (ref <
      4294967296) ∧ ((f32Val ref).isSome = true) ∧ (s.m.runs
      { h := h, op := 4, idx := 8448, sub := 0, data := leBytes 1 ch ++ leBytes 1 1 ++ leBytes 4 ref ++ leBytes 2 blocks }
      = true) ∧ ((Mod.taken
      { h := h, op := 4, idx := 8448, sub := 0, data := leBytes 1 ch ++ leBytes 1 1 ++ leBytes 4 ref ++ leBytes 2 blocks }
      s.m).calRefused ch false = false)) ∧
    (∃ (s : State) (h : Hdr) (ch : Nat) (ref : Nat) (blocks : Nat), (ch < 24) ∧ (10 ≤ blocks) ∧ (blocks ≤ 1000) ∧ (ref <
      4294967296) ∧ ((f32Val ref).isSome = true) ∧ (s.m.runs
      { h := h, op := 4, idx := 8448, sub := 0, data := leBytes 1 ch ++ leBytes 1 2 ++ leBytes 4 ref ++ leBytes 2 blocks }
      = true) ∧ ((Mod.taken
      { h := h, op := 4, idx := 8448, sub := 0, data := leBytes 1 ch ++ leBytes 1 2 ++ leBytes 4 ref ++ leBytes 2 blocks }
      s.m).calRefused ch false = false)) ∧
    (∃ (s : State) (h : Hdr) (ch : Nat) (g : Rat), (ch < 24) ∧ (s.m.runs
      { h := h, op := 4, idx := 8448, sub := 0, data := leBytes 1 ch ++ leBytes 1 3 ++ leBytes 6 0 } = true) ∧ ((Mod.taken
      { h := h, op := 4, idx := 8448, sub := 0, data := leBytes 1 ch ++ leBytes 1 3 ++ leBytes 6 0 } s.m).calRefused ch
      false = false) ∧ (s.m.meas.cal.chan = ch) ∧ (s.m.meas.cal.zero = true) ∧ (s.m.meas.cal.span ≠ 0) ∧ ((Mod.taken
      { h := h, op := 4, idx := 8448, sub := 0, data := leBytes 1 ch ++ leBytes 1 3 ++ leBytes 6 0 } s.m).newGainOf = some
      g) ∧ (9 / 10 ≤ g) ∧ (g ≤ 11 / 10) ∧ (absR (pu (s.m.getS Ob.dZero)) ≤ 5 / 100)) ∧
    (∃ (s : State) (h : Hdr) (ch : Nat), (ch < 24) ∧ (s.m.runs
      { h := h, op := 4, idx := 8448, sub := 0, data := leBytes 1 ch ++ leBytes 1 4 ++ leBytes 6 0 } = true) ∧ ((Mod.taken
      { h := h, op := 4, idx := 8448, sub := 0, data := leBytes 1 ch ++ leBytes 1 4 ++ leBytes 6 0 } s.m).calRefused ch
      true = false)) :=
  ⟨⟨mst (upO [(Ob.eng0Peak, 9)]), hd, 0, by decide +kernel⟩,
   ⟨mst (upO [(Ob.chState 23, 0)]), hd, 23, 10, by decide +kernel⟩,
   ⟨mst (upO [(Ob.chState 23, 0)]), hd, 23, 0x3F800000, 1000, by decide +kernel⟩,
   ⟨mst (upO [(Ob.chState 23, 0)]), hd, 23, 0x3F800000, 1000, by decide +kernel⟩,
   ⟨mst
      {upO [(Ob.chState 23, 0), (Ob.dSpan, 536870912), (Ob.dZero, 0), (Ob.fsPhys 23, 0x3F800000)] with meas := {cal := {chan := 23, zero := true, span := 1, ref := 0x3F800000}}},
      hd, 23, 1, by decide +kernel⟩,
   ⟨mst {upO [(Ob.chState 23, 0)] with meas := {cal := {chan := 23, run := some 1, zero := true}}}, hd, 23,
      by decide +kernel⟩⟩

theorem witness_EngineActions :
    (∃ (s : State) (h : Hdr) (k : Nat), (k < 160) ∧ (s.m.runs
      { h := h, op := 4, idx := 9985, sub := 0, data := leBytes 1 k } = true) ∧ ((Mod.taken
      { h := h, op := 4, idx := 9985, sub := 0, data := leBytes 1 k } s.m).inCascade k = false) ∧ (((Mod.taken
      { h := h, op := 4, idx := 9985, sub := 0, data := leBytes 1 k } s.m).isAdditional k && (Mod.taken
      { h := h, op := 4, idx := 9985, sub := 0, data := leBytes 1 k } s.m).ctxBusy k) = false)) ∧
    (∃ (s : State) (h : Hdr), (s.m.runs { h := h, op := 4, idx := 28678, sub := 0, data := [] } = true)) ∧
    (∃ (s : State) (h : Hdr), (s.m.runs { h := h, op := 4, idx := 28676, sub := 0, data := [] } = true) ∧ (s.m.traceSt =
      traceIdle ∨ s.m.traceSt = traceDoneState)) ∧
    (∃ (s : State) (h : Hdr), (s.m.runs { h := h, op := 4, idx := 28677, sub := 0, data := [] } = true) ∧ (s.m.traceSt ≠
      traceIdle)) ∧
    (∃ (s : State) (h : Hdr), (s.m.runs { h := h, op := 4, idx := 10001, sub := 0, data := [0] } = true) ∧ ((Mod.taken
      { h := h, op := 4, idx := 10001, sub := 0, data := [0] } s.m).injRefusal = none)) ∧
    (∃ (s : State) (h : Hdr), (s.m.runs { h := h, op := 4, idx := 10001, sub := 0, data := [1] } = true) ∧ (s.m.inj.run =
      true)) :=
  ⟨⟨mst up, hd, 159, by decide +kernel⟩,
   ⟨mst up, hd, by decide +kernel⟩,
   ⟨mst up, hd, by decide +kernel⟩,
   ⟨mst (upO [(Ob.traceState, 2)]), hd, by decide +kernel⟩,
   ⟨mst {up with eng := {ctx := List.replicate 160 {on := true}}}, hd, by decide +kernel⟩,
   ⟨mst {up with inj := {run := true, seq := 4}}, hd, by decide +kernel⟩⟩

theorem witness_UnitLaneAndSafetyActions :
    (∃ (s : State) (h : Hdr) (u : Nat), (u < 4) ∧ (s.m.runs { h := h, op := 4, idx := 12376 + u, sub := 0, data := [] } =
      true) ∧ ((Mod.taken { h := h, op := 4, idx := 12376 + u, sub := 0, data := [] } s.m).joined u = true) ∧ (s.m.get
      (Ob.idValid u) ≠ 3) ∧ (s.m.sec.length = 4)) ∧
    (∃ (s : State) (h : Hdr) (u : Nat), (u < 4) ∧ (s.m.runs { h := h, op := 4, idx := 13612 + u, sub := 0, data := [] } =
      true) ∧ (s.m.dcs u = dcRunning) ∧ (s.m.get (Ob.dcMode u) = 1) ∧ ((Mod.taken
      { h := h, op := 4, idx := 13612 + u, sub := 0, data := [] } s.m).scanBlocked u = false) ∧ ((s.m.dcAt u).scan =
      false) ∧ (s.m.dc.length = 4)) ∧
    (∃ (s : State) (h : Hdr) (u : Nat), (u < 4) ∧ (s.m.runs { h := h, op := 4, idx := 17968, sub := 0, data := [] } =
      true)) ∧
    (∃ (s : State) (h : Hdr) (u : Nat), (u < 4) ∧ (s.m.runs { h := h, op := 4, idx := 18433, sub := 0, data := [] } =
      true) ∧ (s.m.isRedundant = true) ∧ (s.m.arb.cause = none)) ∧
    (∃ (s : State) (h : Hdr) (u : Nat), (u < 4) ∧ (s.m.runs { h := h, op := 4, idx := 18434, sub := 0, data := [] } =
      true) ∧ (s.m.healthOf s.m.standby = 2) ∧ (s.m.arb.armed = true) ∧ (s.m.arb.cause = none)) ∧
    (∃ (s : State) (h : Hdr) (u : Nat) (c : Nat), (u < 4) ∧ (s.m.runs
      { h := h, op := 4, idx := 18976, sub := 0, data := [] } = true) ∧ (s.m.sdc.relayFault = some c) ∧ (s.m.sdc.a =
      { sdrA := true, sdrB := true, k1a := true, k1b := true, k2a := true, k2b := true }) ∧ (s.m.sdc.b =
      { sdrA := true, sdrB := true, k1a := true, k1b := true, k2a := true, k2b := true })) :=
  ⟨⟨mst (upO [(Ob.gfState 3, gfForming)]), hd, 3, by decide +kernel⟩,
   ⟨mst (upO [(Ob.dcState 3, dcRunning), (Ob.dcMode 3, 1)]), hd, 3, by decide +kernel⟩,
   ⟨mst (upO [(Ob.crcFail, 3)]), hd, 0, by decide +kernel⟩,
   ⟨mst (upO [(Ob.redundant, 1), (Ob.roleNow 1, 1)]), hd, 0, by decide +kernel⟩,
   ⟨mst (upO [(Ob.health 1, 2)]), hd, 0, by decide +kernel⟩,
   ⟨mst {up with sdc := {relayFault := some 0x4A02}}, hd, 0, 0x4A02, by decide +kernel⟩⟩

theorem witness_TimeAndCoolingActions :
    (∃ (s : State) (h : Hdr) (t : Nat), (t < 2 ^ 64) ∧ (s.m.runs
      { h := h, op := 4, idx := 20483, sub := 0, data := leBytes 8 t } = true) ∧ (s.m.get Ob.timeSource = 1) ∧ (s.m.get
      Ob.stepAllowed = 1)) ∧
    (∃ (s : State) (h : Hdr), (s.m.runs { h := h, op := 4, idx := 20484, sub := 0, data := [] } = true)) ∧
    (∃ (s : State) (h : Hdr) (e : Nat) (x : Sched), (e < 64) ∧ (s.m.runs
      { h := h, op := 4, idx := 20545, sub := 0, data := leBytes 1 e } = true) ∧ (List.find? (fun y => decide (y.entry =
      e)) s.m.sched = some x) ∧ (x.snd = h.snd) ∧ (s.m.entryStaged e = false)) ∧
    (∃ (s : State) (h : Hdr) (x : Nat), (x < 16) ∧ (s.m.runs
      { h := h, op := 4, idx := 22584, sub := 0, data := leBytes 1 x } = true) ∧ (1 ≤ s.m.sensorSt x) ∧ (s.m.sensorSt x ≤
      3) ∧ (s.m.therm.restore.length = 16)) ∧
    (∃ (s : State) (h : Hdr), (s.m.runs { h := h, op := 4, idx := 22616, sub := 0, data := [] } = true)) ∧
    (∃ (s : State) (h : Hdr) (i : Nat), (i < 32) ∧ (s.m.runs
      { h := h, op := 4, idx := 24000, sub := 0, data := leBytes 1 i } = true) ∧ (s.m.hk.urgentIn.getD s.m.lane false =
      false)) :=
  ⟨⟨mst (upO [(Ob.timeSource, 1), (Ob.stepAllowed, 1)]), hd, 7, by decide +kernel⟩,
   ⟨mst {up with sched := [⟨63, 5, .mbx 0, 1, [], false, 0⟩]}, hd, by decide +kernel⟩,
   ⟨mst {up with sched := [⟨63, 5, .mbx 0, 1, [], false, 0⟩]}, hd, 63, ⟨63, 5, .mbx 0, 1, [], false, 0⟩,
      by decide +kernel⟩,
   ⟨mst (upO [(Ob.sensorState 15, 1)]), hd, 15, by decide +kernel⟩,
   ⟨mst {upO [(Ob.cdFault, 0x5810)] with cd := {waiting := true}}, hd, by decide +kernel⟩,
   ⟨mst up, hd, 31, by decide +kernel⟩⟩

theorem witness_AgeingActions :
    (∃ (s : State) (h : Hdr), (s.m.runs { h := h, op := 4, idx := 24578, sub := 0, data := [] } = true) ∧ ((Mod.taken
      { h := h, op := 4, idx := 24578, sub := 0, data := [] } s.m).differs (Mod.taken
      { h := h, op := 4, idx := 24578, sub := 0, data := [] } s.m).planTargets s.m.age.target = false)) ∧
    (∃ (s : State) (h : Hdr), (s.m.runs { h := h, op := 4, idx := 24578, sub := 0, data := [] } = true) ∧ ((Mod.taken
      { h := h, op := 4, idx := 24578, sub := 0, data := [] } s.m).differs (Mod.taken
      { h := h, op := 4, idx := 24578, sub := 0, data := [] } s.m).planTargets s.m.age.target = true) ∧ (s.m.get
      Ob.planFreeze = 1)) ∧
    (∃ (s : State) (h : Hdr), (s.m.runs { h := h, op := 4, idx := 24578, sub := 0, data := [] } = true) ∧ ((Mod.taken
      { h := h, op := 4, idx := 24578, sub := 0, data := [] } s.m).differs (Mod.taken
      { h := h, op := 4, idx := 24578, sub := 0, data := [] } s.m).planTargets s.m.age.target = true) ∧ (s.m.get
      Ob.planFreeze ≠ 1) ∧ (s.m.age.frozen = none)) ∧
    (∃ (s : State) (h : Hdr) (kind : Nat) (unit : Nat), (kind < 256) ∧ (unit < 256) ∧ (s.m.runs
      { h := h, op := 4, idx := 24580, sub := 0, data := leBytes 1 kind ++ leBytes 1 unit } = true) ∧ ((Mod.taken
      { h := h, op := 4, idx := 24580, sub := 0, data := leBytes 1 kind ++ leBytes 1 unit } s.m).rebaseRefusal kind unit =
      none)) :=
  ⟨⟨mst up, hd, by decide +kernel⟩,
   ⟨mst {upO [(Ob.dieHours 2, 2000), (Ob.planFreeze, 1)] with age := {}}, hd, by decide +kernel⟩,
   ⟨mst {upO [(Ob.dieHours 2, 2000), (Ob.planFreeze, 0)] with age := {}}, hd, by decide +kernel⟩,
   ⟨mst up, hd, 0, 23, by decide +kernel⟩⟩

theorem witness_CertificatesAndKeysAreInstalled :
    (∃ (s : State) (h : Hdr) (der : List Byte), (s.m.runs { h := h, op := 4, idx := 25603, sub := 0, data := der } = true)
      ∧ (s.m.cirqueOk = true) ∧ (der ≠ []) ∧ (der.length ≤ 974)) ∧
    (∃ (s : State) (h : Hdr) (k : Nat) (der : List Byte), (k < 4) ∧ (s.m.secu.anchors.length = 4) ∧ (s.m.runs
      { h := h, op := 4, idx := 25604, sub := k + 1, data := der } = true) ∧ (der = [] ∨ s.m.cirqueOk = true)) ∧
    (∃ (s : State) (h : Hdr) (off : Nat) (chunk : List Byte), (s.m.runs
      { h := h, op := 4, idx := 25605, sub := 0, data := leBytes 4 off ++ chunk } = true) ∧ (s.m.cirqueOk = true) ∧ (off =
      0 ∨ off = s.m.secu.crl.length) ∧ (chunk.length ≤ 252) ∧ (off + chunk.length ≤ 65536) ∧ (∀ (p : Nat × Session), p ∈
      s.m.sess → p.snd.isOpen = true → (Config.crlSerials ((if off = 0 then [] else s.m.secu.crl) ++ chunk)).contains
      p.snd.serial = false)) ∧
    (∃ (s : State) (h : Hdr) (data : List Byte) (slot : Byte) (role : Byte), (s.m.runs
      { h := h, op := 4, idx := 25632, sub := 0, data := data } = true) ∧ (s.m.cirqueOk = true) ∧ (data.length = 159) ∧
      (data[0]? = some slot) ∧ (data[1]? = some role) ∧ (BitVec.toNat slot < 16) ∧ (1 ≤ BitVec.toNat role) ∧ (BitVec.toNat
      role ≤ 3) ∧ (s.m.secu.keys.length = 16)) :=
  ⟨⟨mst up, hd, [1], by decide +kernel⟩,
   ⟨mst up, hd, 3, [1], by decide +kernel⟩,
   ⟨mst {up with secu := {crl := [1, 2]}}, hd, 2, [3], by decide +kernel⟩,
   ⟨mst up, hd, [15, 3] ++ List.replicate 157 0, 15, 3, by decide +kernel⟩⟩

theorem witness_UpdateAndModeActions :
    (∃ (m : Machine.Mod) (off : Nat) (chunk : List Byte), (off < 4294967296) ∧ (off = 0 ∨ off = m.secu.upload.length) ∧
      (chunk.length ≤ 252) ∧ (off + chunk.length ≤ 6291456)) ∧
    (∃ (s : State) (h : Hdr) (off : Nat) (chunk : List Byte), (s.m.accepts
      { h := h, op := 2, idx := 25680, sub := 0, data := leBytes 4 off ++ chunk } = true) ∧ ((s.m.chanOf h.snd).group =
      none) ∧ ((Mod.taken { h := h, op := 2, idx := 25680, sub := 0, data := leBytes 4 off ++ chunk } s.m).checkWrite
      h.snd (s.m.roleOf h.snd) false false false s.m.stagedWrites (Ob.fwUpload, leBytes 4 off ++ chunk) = none)) ∧
    (∃ (s : State) (h : Hdr), (s.m.runs { h := h, op := 4, idx := 25681, sub := 0, data := [] } = true) ∧
      (s.m.secu.staging = none) ∧ (s.m.secu.upload ≠ []) ∧ (s.m.cirqueOk = true)) ∧
    (∃ (s : State) (h : Hdr), (s.m.runs { h := h, op := 4, idx := 25684, sub := 0, data := [1] } = true)) ∧
    (∃ (s : State) (h : Hdr), (s.m.runs { h := h, op := 4, idx := 25684, sub := 0, data := [0] } = true)) ∧
    (∃ (s : State) (h : Hdr), (s.m.runs { h := h, op := 4, idx := 25712, sub := 0, data := [] } = true) ∧ (s.m.isRedundant
      = true)) ∧
    (∃ (s : State) (h : Hdr) (sig : List Byte) (t : Nat) (c : List Byte), (s.m.runs
      { h := h, op := 4, idx := 25713, sub := 0, data := sig } = true) ∧ (s.m.isRedundant = true) ∧ (s.m.secu.debug = some
      (t, c)) ∧ (s.m.now ≤ t + sPs 60) ∧ (sig.length = 96) ∧ (s.m.healthOf s.m.standby = 0) ∧ (s.m.arb.incoming = none)) :=
  ⟨⟨{up with secu := {upload := [1]}}, 1, [2], by decide +kernel⟩,
   ⟨mst up, hd, 0, [1], by decide +kernel⟩,
   ⟨mst {up with secu := {upload := [1]}}, hd, by decide +kernel⟩,
   ⟨mst up, hd, by decide +kernel⟩,
   ⟨mst up, hd, by decide +kernel⟩,
   ⟨mst (upO [(Ob.redundant, 1), (Ob.roleNow 1, 1)]), hd, by decide +kernel⟩,
   ⟨mst {upO [(Ob.redundant, 1), (Ob.roleNow 1, 1)] with secu := {debug := some (0, [1])}}, hd, List.replicate 96 0, 0,
      [1], by decide +kernel⟩⟩

theorem witness_SessionOpenStartsASession :
    (∃ (s : State) (h : Hdr) (nonce : List Byte), (∃ k, h.snd = Sender.mbx k) ∧ (s.m.genOf h.snd = 3) ∧ (s.m.accepts
      { h := h, op := 4, idx := 25633, sub := 0, data := nonce } = true) ∧ (nonce.length = 16) ∧ (s.m.cirqueOk = true) ∧
      (s.m.sdc.lockout = false) ∧ ((s.m.chanOf h.snd).group = none)) :=
  ⟨mst
    {up with link := {ready := true, quadEn := true}, mbx := List.replicate 4 {gen := 3}, secu := {keys := List.replicate 16 [1]}},
    hd, List.replicate 16 7, ⟨0, rfl⟩, by decide +kernel⟩

theorem witness_FwActivateResetsTheModule :
    (∃ (s : State) (h : Hdr) (a : ImageInfo) (b : ImageInfo), (s.m.runs
      { h := h, op := 4, idx := 25682, sub := 0, data := [] } = true) ∧ ((Mod.taken
      { h := h, op := 4, idx := 25682, sub := 0, data := [] } s.m).allAtRest = true) ∧ (s.m.bothOpen = true) ∧
      (s.m.secu.staged = some (a, b))) :=
  ⟨mst
    {up with secu := {staged := some (⟨2, 2, 2, 1, false, true, true, false, true, true⟩, ⟨2, 2, 2, 1, false, true, true, false, true, true⟩)}},
    hd, ⟨2, 2, 2, 1, false, true, true, false, true, true⟩, ⟨2, 2, 2, 1, false, true, true, false, true, true⟩,
    by decide +kernel⟩

theorem witness_FwCommitRaisesTheCounter :
    (∃ (s : State) (h : Hdr) (a : ImageInfo), (s.m.runs { h := h, op := 4, idx := 25683, sub := 0, data := [] } = true) ∧
      ((Mod.taken { h := h, op := 4, idx := 25683, sub := 0, data := [] } s.m).laneFailing = false) ∧ (s.m.cirqueOk =
      true) ∧ (s.m.secu.running.getD s.m.lane none = some a) ∧ (a.counter < 64) ∧ (a.secVersion ≤ 1023) ∧
      (s.kept.rollback.length = 64)) :=
  ⟨mst {up with secu := {running := [some ⟨2, 1, 63, 1023, false, true, true, false, true, true⟩, none]}}, hd, ⟨2, 1, 63,
    1023, false, true, true, false, true, true⟩, by decide +kernel⟩

theorem witness_UnitActionsAreStaged :
    (∃ (s : State) (h : Hdr) (u : Nat) (g : Nat) (k : Nat) (x : Nat) (y : Nat), (u < 4) ∧ (g < 8) ∧ (k < 256) ∧ (x ≤ 2) ∧
      (y < if x = 0 then 8 else if x = 1 then 24 else 32) ∧ (s.m.runs
      { h := h, op := 4, idx := 12292 + u, sub := 0, data := [0] } = true)) ∧
    (∃ (s : State) (h : Hdr) (u : Nat) (g : Nat) (k : Nat) (x : Nat) (y : Nat), (u < 4) ∧ (g < 8) ∧ (k < 256) ∧ (x ≤ 2) ∧
      (y < if x = 0 then 8 else if x = 1 then 24 else 32) ∧ (s.m.runs
      { h := h, op := 4, idx := 12292 + u, sub := 0, data := [1] } = true)) ∧
    (∃ (s : State) (h : Hdr) (u : Nat) (g : Nat) (k : Nat) (x : Nat) (y : Nat), (u < 4) ∧ (g < 8) ∧ (k < 256) ∧ (x ≤ 2) ∧
      (y < if x = 0 then 8 else if x = 1 then 24 else 32) ∧ (s.m.runs
      { h := h, op := 4, idx := 13572 + u, sub := 0, data := [0] } = true)) ∧
    (∃ (s : State) (h : Hdr) (u : Nat) (g : Nat) (k : Nat) (x : Nat) (y : Nat), (u < 4) ∧ (g < 8) ∧ (k < 256) ∧ (x ≤ 2) ∧
      (y < if x = 0 then 8 else if x = 1 then 24 else 32) ∧ (s.m.runs
      { h := h, op := 4, idx := 13572 + u, sub := 0, data := [1] } = true)) ∧
    (∃ (s : State) (h : Hdr) (u : Nat) (g : Nat) (k : Nat) (x : Nat) (y : Nat), (u < 4) ∧ (g < 8) ∧ (k < 256) ∧ (x ≤ 2) ∧
      (y < if x = 0 then 8 else if x = 1 then 24 else 32) ∧ (s.m.runs
      { h := h, op := 4, idx := 16624, sub := 0, data := leBytes 1 k } = true)) ∧
    (∃ (s : State) (h : Hdr) (u : Nat) (g : Nat) (k : Nat) (x : Nat) (y : Nat), (u < 4) ∧ (g < 8) ∧ (k < 256) ∧ (x ≤ 2) ∧
      (y < if x = 0 then 8 else if x = 1 then 24 else 32) ∧ (s.m.runs
      { h := h, op := 4, idx := 16625, sub := 0, data := leBytes 1 g ++ [0] } = true)) ∧
    (∃ (s : State) (h : Hdr) (u : Nat) (g : Nat) (k : Nat) (x : Nat) (y : Nat), (u < 4) ∧ (g < 8) ∧ (k < 256) ∧ (x ≤ 2) ∧
      (y < if x = 0 then 8 else if x = 1 then 24 else 32) ∧ (s.m.runs
      { h := h, op := 4, idx := 16625, sub := 0, data := leBytes 1 g ++ [1] } = true)) ∧
    (∃ (s : State) (h : Hdr) (u : Nat) (g : Nat) (k : Nat) (x : Nat) (y : Nat), (u < 4) ∧ (g < 8) ∧ (k < 256) ∧ (x ≤ 2) ∧
      (y < if x = 0 then 8 else if x = 1 then 24 else 32) ∧ (s.m.runs
      { h := h, op := 4, idx := 17584, sub := 0, data := leBytes 1 0 ++ leBytes 1 x ++ leBytes 1 y } = true)) ∧
    (∃ (s : State) (h : Hdr) (u : Nat) (g : Nat) (k : Nat) (x : Nat) (y : Nat), (u < 4) ∧ (g < 8) ∧ (k < 256) ∧ (x ≤ 2) ∧
      (y < if x = 0 then 8 else if x = 1 then 24 else 32) ∧ (s.m.runs
      { h := h, op := 4, idx := 17584, sub := 0, data := leBytes 1 1 ++ leBytes 1 x ++ leBytes 1 y } = true)) :=
  ⟨⟨mst up, hd, 3, 0, 0, 0, 0, by decide +kernel⟩,
   ⟨mst up, hd, 3, 0, 0, 0, 0, by decide +kernel⟩,
   ⟨mst up, hd, 3, 0, 0, 0, 0, by decide +kernel⟩,
   ⟨mst up, hd, 3, 0, 0, 0, 0, by decide +kernel⟩,
   ⟨mst up, hd, 0, 0, 255, 0, 0, by decide +kernel⟩,
   ⟨mst up, hd, 0, 7, 0, 0, 0, by decide +kernel⟩,
   ⟨mst up, hd, 0, 7, 0, 0, 0, by decide +kernel⟩,
   ⟨mst up, hd, 0, 0, 0, 2, 31, by decide +kernel⟩,
   ⟨mst up, hd, 0, 0, 0, 2, 31, by decide +kernel⟩⟩

theorem witness_SectionAndChannelCommandsBegin :
    (∃ (m : Machine.Mod) (u : Nat), (u < 4) ∧ (m.sdc.lockout = false) ∧ (m.sec.length = 4) ∧ (m.dc.length = 4) ∧ (m.gf u =
      gfRest) ∧ (m.startBlocked u = false) ∧ (m.sectionChannels u = true) ∧ (m.profileAdmits u = true) ∧ (m.busDead u =
      true → m.get (Ob.opMode u) ≠ 2 ∧ m.get (Ob.startKind u) ≠ 0)) ∧
    (∃ (m : Machine.Mod) (u : Nat), (u < 4) ∧ (m.sdc.lockout = false) ∧ (m.sec.length = 4) ∧ (m.dc.length = 4) ∧ (m.gf u ≠
      gfRest ∨ m.startBlocked u = true ∨ m.sectionChannels u = false ∨ m.profileAdmits u = false)) ∧
    (∃ (m : Machine.Mod) (u : Nat), (u < 4) ∧ (m.sdc.lockout = false) ∧ (m.sec.length = 4) ∧ (m.dc.length = 4) ∧ (m.gf u =
      gfRest ∨ m.gf u = gfStopping)) ∧
    (∃ (m : Machine.Mod) (u : Nat), (u < 4) ∧ (m.sdc.lockout = false) ∧ (m.sec.length = 4) ∧ (m.dc.length = 4) ∧ (m.gf u ≠
      gfRest) ∧ (m.gf u ≠ gfStopping)) ∧
    (∃ (m : Machine.Mod) (u : Nat), (u < 4) ∧ (m.sdc.lockout = false) ∧ (m.sec.length = 4) ∧ (m.dc.length = 4) ∧ (m.dcs u
      = dcRest) ∧ (m.startBlocked (4 + u) = false) ∧ (m.assigned (4 + u) 7 ≠ []) ∧ (m.assigned (4 + u) 8 ≠ []) ∧
      (m.assigned (4 + u) 4 ≠ [] ∨ m.hasHalves (4 + u) = true) ∧ (m.get (Ob.dcMode u) ≠ 0)) ∧
    (∃ (m : Machine.Mod) (u : Nat), (u < 4) ∧ (m.sdc.lockout = false) ∧ (m.sec.length = 4) ∧ (m.dc.length = 4) ∧ (m.dcs u
      ≠ dcRest ∨ m.startBlocked (4 + u) = true ∨ m.get (Ob.dcMode u) = 0)) ∧
    (∃ (m : Machine.Mod) (u : Nat), (u < 4) ∧ (m.sdc.lockout = false) ∧ (m.sec.length = 4) ∧ (m.dc.length = 4) ∧ (m.dcs u
      = dcWait ∨ m.dcs u = dcHold)) ∧
    (∃ (m : Machine.Mod) (u : Nat), (u < 4) ∧ (m.sdc.lockout = false) ∧ (m.sec.length = 4) ∧ (m.dc.length = 4) ∧ (m.dcs u
      = dcRunning)) :=
  ⟨⟨ob (sect 3), 3, by decide +kernel⟩,
   ⟨ob [], 3, by decide +kernel⟩,
   ⟨ob [(Ob.gfState 3, gfStopping)], 3, by decide +kernel⟩,
   ⟨ob [(Ob.gfState 3, gfForming)], 3, by decide +kernel⟩,
   ⟨ob (chan 3), 3, by decide +kernel⟩,
   ⟨ob [(Ob.dcMode 3, 0)], 3, by decide +kernel⟩,
   ⟨ob [(Ob.dcState 3, dcHold)], 3, by decide +kernel⟩,
   ⟨ob [(Ob.dcState 3, dcRunning)], 3, by decide +kernel⟩⟩

theorem witness_TickRunsThroughItsPhases :
    (∃ (s : State), (s.m.clk.running = false)) ∧
    (∃ (s : State), (s.m.clk.running = true) ∧ (s.m.clk.phase = Phase.boundary)) ∧
    (∃ (s : State), (s.m.clk.running = true) ∧ (s.m.clk.phase = Phase.compute)) ∧
    (∃ (s : State), (s.m.clk.running = true)) :=
  ⟨⟨(    {  }  :  Sys2Proof.Machine.State  ), by decide +kernel⟩,
   ⟨mst {up with clk := {running := true}}, by decide +kernel⟩,
   ⟨mst {up with clk := {running := true, phase := .compute}}, by decide +kernel⟩,
   ⟨mst {up with clk := {running := true, phase := .staging}}, by decide +kernel⟩⟩

theorem witness_OverrunKeepsTheDuties :
    (∃ (s : State) (rep : TickReport), (s.m.clk.running = true) ∧ (s.m.clk.phase = Phase.compute) ∧ (windowCycles
      s.m.tickPs < rep.act0 ∨ windowCycles s.m.tickPs < rep.act1)) ∧
    (∃ (s : State) (rep : TickReport), (s.m.clk.running = true) ∧ (s.m.clk.phase = Phase.compute) ∧ (rep.act0 ≤
      windowCycles s.m.tickPs) ∧ (rep.act1 ≤ windowCycles s.m.tickPs) ∧ (s.m.standbyServes = false) ∧ (rep.mirror = none)
      ∧ (s.m.arb.cause = none) ∧ (s.m.grp.length = 8)) :=
  ⟨⟨mst {up with clk := {running := true, phase := .compute}}, ⟨1000000, 0, 0, 0, none, 0⟩, by decide +kernel⟩,
   ⟨mst {up with clk := {running := true, phase := .compute}, eng := {duty := List.replicate 8 [1, 2, 3]}}, ⟨0, 0, 0, 0,
      none, 0⟩, by decide +kernel⟩⟩

theorem witness_LostChannelsAreShown :
    (∃ (s : State) (c : Nat) (l : Nat) (u : Nat) (kind : Nat) (lanes : Nat), (c < 24) ∧ (l < 2) ∧ (if kind = 0 ∨ kind = 2
      then u < 4 else u < 24) ∧ (s.m.get (Ob.chState c) = 0 ∨ s.m.get (Ob.chState c) = 4) ∧ (s.m.oneLane lanes = none ∨
      s.m.oneLane lanes = some s.m.lane)) ∧
    (∃ (s : State) (c : Nat) (l : Nat) (u : Nat) (kind : Nat) (lanes : Nat), (c < 24) ∧ (l < 2) ∧ (if kind = 0 ∨ kind = 2
      then u < 4 else u < 24) ∧ (s.m.get (Ob.chState c) = 0 ∨ s.m.get (Ob.chState c) = 4) ∧ (s.m.oneLane lanes = some l) ∧
      (l ≠ s.m.lane)) ∧
    (∃ (s : State) (c : Nat) (l : Nat) (u : Nat) (kind : Nat) (mask : Nat) (lanes : Nat), (c < 24) ∧ (l < 2) ∧ (if kind =
      0 ∨ kind = 2 then u < 4 else u < 24) ∧ (∃ k, k ∈ s.m.mclksOn mask ∧ s.m.get (Ob.mclkState k) ≠ 2) ∧ (s.m.oneLane
      lanes = none ∨ s.m.oneLane lanes = some s.m.lane)) ∧
    (∃ (s : State) (c : Nat) (l : Nat) (u : Nat) (kind : Nat) (mask : Nat), (c < 24) ∧ (l < 2) ∧ (if kind = 0 ∨ kind = 2
      then u < 4 else u < 24) ∧ (∀ (k : Nat), k ∈ s.m.mclksOn mask → s.m.get (Ob.mclkState k) = 2)) ∧
    (∃ (s : State) (c : Nat) (l : Nat) (u : Nat) (kind : Nat) (mask : Nat), (c < 24) ∧ (l < 2) ∧ (if kind = 0 ∨ kind = 2
      then u < 4 else u < 24) ∧ (s.m.mclksOn mask ≠ [])) ∧
    (∃ (s : State) (c : Nat) (l : Nat) (u : Nat) (kind : Nat), (c < 24) ∧ (l < 2) ∧ (if kind = 0 ∨ kind = 2 then u < 4
      else u < 24) ∧ (kind ≤ 3) ∧ (c ∈ s.m.checkChans kind u) ∧ ((s.m.meas.checks.getD (checkIx kind u) { }).failed =
      false) ∧ (s.m.checkTicks kind u ≤ (s.m.meas.checks.getD (checkIx kind u) { }).run) ∧ (s.m.get (Ob.chState c) = 0 ∨
      s.m.get (Ob.chState c) = 4)) ∧
    (∃ (s : State) (c : Nat) (l : Nat) (u : Nat) (kind : Nat), (c < 24) ∧ (l < 2) ∧ (if kind = 0 ∨ kind = 2 then u < 4
      else u < 24) ∧ (1 ≤ s.m.get (Ob.chState c)) ∧ (s.m.get (Ob.chState c) ≤ 5) ∧ (s.m.get (Ob.mclkFreq (s.m.get
      (Ob.mclkSrc c))) ≠ 255) ∧ (3 * s.m.get (Ob.osr c) + 31 ≤ (s.m.chAt c).good.getD 0) ∧ (c < s.m.meas.ch.length)) ∧
    (∃ (s : State) (c : Nat) (l : Nat) (u : Nat) (kind : Nat), (c < 24) ∧ (l < 2) ∧ (if kind = 0 ∨ kind = 2 then u < 4
      else u < 24) ∧ ((s.m.chAt c).settled = true)) :=
  ⟨⟨mst (upO (sect 0)), 9, 0, 0, 0, 3, by decide +kernel⟩,
   ⟨mst (upO ((Ob.redundant, 1) :: sect 0)), 9, 1, 0, 0, 2, by decide +kernel⟩,
   ⟨mst (upO (sect 0)), 0, 0, 0, 0, 1, 3, by decide +kernel⟩,
   ⟨mst (upO ((Ob.mclkState 0, 2) :: sect 0)), 0, 0, 0, 0, 1, by decide +kernel⟩,
   ⟨mst (upO (sect 0)), 0, 1, 0, 0, 1, by decide +kernel⟩,
   ⟨mst {upO ((Ob.sumCheckEn 3, 1) :: sect 3) with meas := {checks := List.replicate 56 {run := 1000}}}, 0, 0, 3, 0,
      by decide +kernel⟩,
   ⟨mst
      {upO [(Ob.chState 23, 4), (Ob.role 23, 9), (Ob.mclkFreq 0, 0), (Ob.mclkSrc 23, 0)] with meas := {ch := List.replicate 24 {good := some 65535}}},
      23, 0, 0, 0, by decide +kernel⟩,
   ⟨mst {upO [(Ob.chState 23, 4)] with meas := {ch := List.replicate 24 {settled := true}}}, 23, 0, 0, 0,
      by decide +kernel⟩⟩

theorem witness_MeasurementResultsAreShown :
    (∃ (s : State) (b : MeterBlock) (u : Nat) (c : Nat) (e : Nat) (m : Machine.Mod), (u < 4) ∧ (c < 24) ∧ (m =
      Mod.meterChans b.unit b (Mod.reach e s.m)) ∧ (s.m.meas.cal.run = none) ∧ (b.unit = u) ∧ (s.m.blockEndPs u = some e)
      ∧ (m.inUse u = true) ∧ (m.meterVolts u ≠ []) ∧ (m.meterAmps u ≠ []) ∧ (∀ (n : Nat), n ∈ m.meterVolts u ++
      m.meterAmps u → m.validSince n (s.m.meterAt u).startPs = true)) ∧
    (∃ (s : State) (b : MeterBlock) (u : Nat) (c : Nat) (e : Nat) (m : Machine.Mod), (u < 4) ∧ (c < 24) ∧ (m =
      Mod.meterChans b.unit b (Mod.reach e s.m)) ∧ (s.m.meas.cal.run = none) ∧ (b.unit = 4 + u) ∧ (s.m.blockEndPs (4 + u)
      = some e) ∧ (m.inUse (4 + u) = true) ∧ (m.meterVolts (4 + u) ≠ []) ∧ (m.meterAmps (4 + u) ≠ []) ∧ (∀ (n : Nat), n ∈
      m.meterVolts (4 + u) ++ m.meterAmps (4 + u) → m.validSince n (s.m.meterAt (4 + u)).startPs = true)) ∧
    (∃ (s : State) (b : MeterBlock) (u : Nat) (c : Nat) (e : Nat) (m : Machine.Mod), (u < 4) ∧ (c < 24) ∧ (m =
      Mod.meterChans b.unit b (Mod.reach e s.m)) ∧ (s.m.meas.cal.run = none) ∧ (b.unit = u) ∧ (∃ n, n ∈ s.m.meterAmps u ∧
      s.m.chValid n = false)) ∧
    (∃ (s : State) (b : MeterBlock) (u : Nat) (c : Nat) (e : Nat) (m : Machine.Mod) (t : State) (pt : Nat), (u < 4) ∧ (c <
      24) ∧ (m = Mod.meterChans b.unit b (Mod.reach e s.m)) ∧ (s.m.meas.cal.run = none) ∧ (t.m.meas.cal.run = some pt) ∧
      (t.m.meas.cal.blocks ≤ t.m.meas.cal.vals.length)) ∧
    (∃ (s : State) (b : MeterBlock) (u : Nat) (c : Nat) (e : Nat) (m : Machine.Mod) (t : Nat) (mean : Rat), (u < 4) ∧ (c <
      24) ∧ (m = Mod.meterChans b.unit b (Mod.reach e s.m)) ∧ (s.m.meas.cal.run = none) ∧ (s.m.get (Ob.trackEn c) = 1) ∧
      (s.m.get (Ob.role c) = 1 ∨ s.m.get (Ob.role c) = 7) ∧ (s.m.usersRest c = true) ∧ (s.m.bothOpen = true) ∧ ((s.m.chAt
      c).restPs = some t) ∧ (t + 1000000000000 ≤ (s.m.chAt c).trkPs + 200000000000) ∧ ((s.m.chAt c).trkN ≠ 0) ∧ (mean =
      ↑(s.m.chAt c).trkSum / ↑(s.m.chAt c).trkN)) ∧
    (∃ (s : State) (b : MeterBlock) (u : Nat) (c : Nat) (e : Nat) (m : Machine.Mod) (a : Nat × Int) (z : Nat × Int) (l :
      List (Nat × Int)), (u < 4) ∧ (c < 24) ∧ (m = Mod.meterChans b.unit b (Mod.reach e s.m)) ∧ (s.m.meas.cal.run = none)
      ∧ ((s.m.secAt u).phases = a :: l) ∧ (List.find? (fun p => decide (p.fst + 20000000000 ≤ s.m.now)) (a :: l) = some z)
      ∧ (a.fst ≠ z.fst)) :=
  ⟨⟨mst {upO (sect 0) with meas := {ch := List.replicate 24 {prod := 1}}}, ⟨0, [(0, [0, 0]), (3, [0, 0])], 8⟩, 0, 0,
      20000000000, Mod.meterChans 0 ⟨0, [(0, [0, 0]), (3, [0, 0])], 8⟩ (Mod.reach 20000000000
      {upO (sect 0) with meas := {ch := List.replicate 24 {prod := 1}}}), by decide, by decide, rfl, by decide +kernel⟩,
   ⟨mst {upO (chan 0) with meas := {ch := List.replicate 24 {prod := 1}}}, ⟨4, [(0, [0, 0]), (1, [0, 0])], 8⟩, 0, 0,
      20000000000, Mod.meterChans 4 ⟨4, [(0, [0, 0]), (1, [0, 0])], 8⟩ (Mod.reach 20000000000
      {upO (chan 0) with meas := {ch := List.replicate 24 {prod := 1}}}), by decide, by decide, rfl, by decide +kernel⟩,
   ⟨mst {upO ((Ob.chState 0, 2) :: sect 0) with meas := {ch := List.replicate 24 {prod := 1}}}, ⟨0, [(0, [5, -5]), (3,
      [7, 9])], 8⟩, 0, 0, 0, Mod.meterChans 0 ⟨0, [(0, [5, -5]), (3, [7, 9])], 8⟩ (Mod.reach 0
      {upO ((Ob.chState 0, 2) :: sect 0) with meas := {ch := List.replicate 24 {prod := 1}}}), by decide, by decide, rfl,
      by decide +kernel⟩,
   ⟨(    {  }  :  Sys2Proof.Machine.State  ), ⟨0, [], 0⟩, 0, 0, 0, Mod.meterChans 0 ⟨0, [], 0⟩ (Mod.reach 0 {}), mst
      {up with meas := {cal := {run := some 2, blocks := 2, vals := [-100, -103]}}}, 2, by decide +kernel⟩,
   ⟨mst
      {upO [(Ob.trackEn 23, 1), (Ob.role 23, 7)] with clk := {upPs := 1000000000000}, meas := {ch := List.replicate 24 {restPs := some 0, trkPs := 800000000000, trkSum := -300, trkN := 2}}},
      ⟨0, [], 0⟩, 0, 23, 0, Mod.meterChans 0 ⟨0, [], 0⟩ (Mod.reach 0
      {upO [(Ob.trackEn 23, 1), (Ob.role 23, 7)] with clk := {upPs := 1000000000000}, meas := {ch := List.replicate 24 {restPs := some 0, trkPs := 800000000000, trkSum := -300, trkN := 2}}}),
      0, -150, by decide +kernel⟩,
   ⟨mst {up with clk := {upPs := 20000000000}, sec := List.replicate 4 {phases := [(20000000000, 4294967296), (0, 0)]}},
      ⟨0, [], 0⟩, 3, 0, 0, Mod.meterChans 0 ⟨0, [], 0⟩ (Mod.reach 0
      {up with clk := {upPs := 20000000000}, sec := List.replicate 4 {phases := [(20000000000, 4294967296), (0, 0)]}}),
      (20000000000, 4294967296), (0, 0), [(0, 0)], by decide +kernel⟩⟩

theorem witness_EngineEventsTakeEffect :
    (∃ (s : State) (c : Nat) (k : Nat), (c < 160) ∧ (k < 4) ∧ (s.m.eng.ctx.length = 160) ∧ (s.m.get (Ob.notchTrack c) = k
      + 1) ∧ ((s.m.ctxAt c).on = true) ∧ (s.m.get (Ob.angleValid k) = 1)) ∧
    (∃ (s : State) (c : Nat) (k : Nat), (c < 160) ∧ (k < 4) ∧ (s.m.eng.ctx.length = 160) ∧ (s.m.traceSt = 1) ∧ (s.m.preNow
      ≤ s.m.trace.recs.length)) ∧
    (∃ (s : State) (c : Nat) (k : Nat), (c < 160) ∧ (k < 4) ∧ (s.m.eng.ctx.length = 160) ∧ (s.m.traceSt = 3) ∧
      (s.m.depthNow - s.m.preNow ≤ s.m.trace.since)) ∧
    (∃ (s : State) (c : Nat) (k : Nat), (c < 160) ∧ (k < 4) ∧ (s.m.eng.ctx.length = 160) ∧ (s.m.inj.run = true) ∧ (s.m.get
      Ob.injState = 1) ∧ (s.m.get Ob.injSettle * 4294967296 ≤ s.m.inj.ticks * s.m.inj.step)) ∧
    (∃ (s : State) (c : Nat) (k : Nat), (c < 160) ∧ (k < 4) ∧ (s.m.eng.ctx.length = 160) ∧ (s.m.inj.run = true) ∧ (s.m.get
      Ob.injState = 2) ∧ (s.m.inj.point + 1 < s.m.get Ob.injPoints) ∧ (s.m.sweepTicks ≤ s.m.inj.ticks) ∧ (s.m.inj.point <
      64)) ∧
    (∃ (s : State) (c : Nat) (k : Nat), (c < 160) ∧ (k < 4) ∧ (s.m.eng.ctx.length = 160) ∧ (s.m.inj.run = true) ∧
      (s.m.injFinished = true)) :=
  ⟨⟨mst {upO [(Ob.notchTrack 159, 4), (Ob.angleValid 3, 1)] with eng := {ctx := List.replicate 160 {on := true}}}, 159,
      3, by decide +kernel⟩,
   ⟨mst (upO [(Ob.traceState, 1), (Ob.tracePre, 0)]), 0, 0, by decide +kernel⟩,
   ⟨mst {upO [(Ob.traceState, 3), (Ob.traceDepth, 5), (Ob.tracePre, 1)] with trace := {since := 4}}, 0, 0,
      by decide +kernel⟩,
   ⟨mst {upO [(Ob.injState, 1), (Ob.injSettle, 2)] with inj := {run := true, ticks := 2, step := 4294967296}}, 0, 0,
      by decide +kernel⟩,
   ⟨mst
      {upO [(Ob.injState, 2), (Ob.injPoints, 64), (Ob.injMeas, 1)] with inj := {run := true, ticks := 1000, step := 4294967295, point := 62}},
      0, 0, by decide +kernel⟩,
   ⟨mst
      {upO [(Ob.injState, 2), (Ob.injPoints, 1), (Ob.injMeas, 1)] with inj := {run := true, ticks := 1000, step := 4294967295, point := 1}},
      0, 0, by decide +kernel⟩⟩

theorem witness_StartSequenceGoesOn :
    (∃ (s : State) (u : Nat) (t : Nat), (u < 4) ∧ (s.m.sec.length = 4) ∧ (s.m.grp.length = 8) ∧ (s.m.gf u = gfDeadWait) ∧
      ((s.m.secAt u).confirmPs = some t)) ∧
    (∃ (s : State) (u : Nat), (u < 4) ∧ (s.m.sec.length = 4) ∧ (s.m.grp.length = 8) ∧ (s.m.gf u = gfBackoff) ∧
      (s.m.busDead u = true)) ∧
    (∃ (s : State) (u : Nat) (t : Nat), (u < 4) ∧ (s.m.sec.length = 4) ∧ (s.m.grp.length = 8) ∧ (s.m.gf u = gfDeadWait ∨
      s.m.gf u = gfBackoff) ∧ ((s.m.secAt u).livePs = some t)) ∧
    (∃ (s : State) (u : Nat) (t : Nat), (u < 4) ∧ (s.m.sec.length = 4) ∧ (s.m.grp.length = 8) ∧ (s.m.gf u = gfClosingDead)
      ∧ ((s.m.secAt u).livePs = some t) ∧ (s.m.sdcSt ≠ sdcClosed)) ∧
    (∃ (s : State) (u : Nat) (t : Nat), (u < 4) ∧ (s.m.sec.length = 4) ∧ (s.m.grp.length = 8) ∧ (s.m.gf u = gfDelay) ∧
      ((s.m.secAt u).delayPs = some t) ∧ (s.m.gridNormal u = true)) ∧
    (∃ (s : State) (u : Nat) (t : Nat), (u < 4) ∧ (s.m.sec.length = 4) ∧ (s.m.grp.length = 8) ∧ (s.m.gf u = gfPresync) ∧
      ((s.m.secAt u).holdPs = some t)) ∧
    (∃ (s : State) (u : Nat), (u < 4) ∧ (s.m.sec.length = 4) ∧ (s.m.grp.length = 8) ∧ (s.m.gf u = gfRamp) ∧ ((s.m.ctxAt
      (24 * u + 2)).r = s.m.eng.signal u 25)) :=
  ⟨⟨mst
      {upO [(Ob.gfState 3, gfDeadWait), (Ob.bsSlots 3, 4), (Ob.bsSlot 3, 100), (Ob.bsJitter 3, 7)] with sec := List.replicate 4 {confirmPs := some 0, fleet := 6}},
      3, 0, by decide +kernel⟩,
   ⟨mst
      {upO ([(Ob.gfState 0, gfBackoff), (Ob.deadLevel 0, 100), (Ob.angleValid 0, 1)] ++ sect 0) with eng := {valid := List.replicate 24 true}},
      0, by decide +kernel⟩,
   ⟨mst {upO [(Ob.gfState 3, gfBackoff)] with sec := List.replicate 4 {livePs := some 0}}, 3, 0, by decide +kernel⟩,
   ⟨mst {upO [(Ob.gfState 3, gfClosingDead)] with sec := List.replicate 4 {livePs := some 0}}, 3, 0, by decide +kernel⟩,
   ⟨mst
      {upO [(Ob.gfState 3, gfDelay), (Ob.angleValid 3, 1), (Ob.normVLow 3, 0), (Ob.vPhLow 3, 0), (Ob.vPhHigh 3, 0), (Ob.normVHigh 3, 0), (Ob.normFLow 3, 0), (Ob.gridFreq 3, 0), (Ob.normFHigh 3, 0)] with sec := List.replicate 4 {delayPs := some 0}},
      3, 0, by decide +kernel⟩,
   ⟨mst {upO [(Ob.gfState 3, gfPresync)] with sec := List.replicate 4 {holdPs := some 0}}, 3, 0, by decide +kernel⟩,
   ⟨mst {upO [(Ob.gfState 3, gfRamp)] with sec := List.replicate 4 {start := some 7, fromDead := true}}, 3,
      by decide +kernel⟩⟩

theorem witness_FailedSequencesAndStopsEnd :
    (∃ (s : State) (u : Nat), (u < 4) ∧ (s.m.sec.length = 4) ∧ (s.m.grp.length = 8) ∧ (s.m.gf u = gfClosingDead ∨ s.m.gf u
      = gfClosingLive)) ∧
    (∃ (s : State) (u : Nat), (u < 4) ∧ (s.m.sec.length = 4) ∧ (s.m.grp.length = 8) ∧ (s.m.gf u = gfPresync)) ∧
    (∃ (s : State) (u : Nat), (u < 4) ∧ (s.m.sec.length = 4) ∧ (s.m.grp.length = 8) ∧ (s.m.gf u = gfRamp)) ∧
    (∃ (s : State) (u : Nat) (t : Nat), (u < 4) ∧ (s.m.sec.length = 4) ∧ (s.m.grp.length = 8) ∧ (s.m.gf u = gfStopping) ∧
      ((s.m.secAt u).stopEndPs = some t)) ∧
    (∃ (s : State) (u : Nat), (u < 4) ∧ (s.m.sec.length = 4) ∧ (s.m.grp.length = 8) ∧ (s.m.gf u = gfStopping) ∧
      ((s.m.secAt u).stopEndPs = none) ∧ (s.m.bothOpen = true)) :=
  ⟨⟨mst {upO [(Ob.gfState 3, gfClosingLive)] with sec := List.replicate 4 {ask := true, start := some 3}}, 3,
      by decide +kernel⟩,
   ⟨mst {upO [(Ob.gfState 3, gfPresync)] with sec := List.replicate 4 {start := some 3}}, 3, by decide +kernel⟩,
   ⟨mst {upO [(Ob.gfState 3, gfRamp)] with sec := List.replicate 4 {ask := true, start := some 3}}, 3, by decide +kernel⟩,
   ⟨mst {upO [(Ob.gfState 3, gfStopping)] with sec := List.replicate 4 {ask := true, stopEndPs := some 3}}, 3, 3,
      by decide +kernel⟩,
   ⟨mst {upO [(Ob.gfState 3, gfStopping)] with sec := List.replicate 4 {toDelay := true}}, 3, by decide +kernel⟩⟩

theorem witness_IdentificationAndIslanding :
    (∃ (s : State) (u : Nat), (u < 4) ∧ (s.m.sec.length = 4) ∧ (s.m.get (Ob.idEn u) = 1 ∨ (s.m.secAt u).idRun.isSome =
      true) ∧ (s.m.get (Ob.idOrder u) ≠ 0) ∧ (s.m.slotSkipped u = false)) ∧
    (∃ (s : State) (u : Nat), (u < 4) ∧ (s.m.sec.length = 4) ∧ ((s.m.secAt u).idOn = true) ∧ (s.m.idPeriod u ≤ (s.m.secAt
      u).idTicks)) ∧
    (∃ (s : State) (u : Nat) (bins : List IdBin), (u < 4) ∧ (s.m.sec.length = 4) ∧ ((s.m.secAt u).idDone = true) ∧
      (meanCoherence (s.m.fitBins u bins) < 8 / 10)) ∧
    (∃ (s : State) (u : Nat) (bins : List IdBin), (u < 4) ∧ (s.m.sec.length = 4) ∧ ((s.m.secAt u).idDone = true) ∧ (8 / 10
      ≤ meanCoherence (s.m.fitBins u bins)) ∧ (s.m.get (Ob.idAvg u) ≤ 1)) ∧
    (∃ (s : State) (u : Nat) (t : Nat), (u < 4) ∧ (s.m.sec.length = 4) ∧ (s.m.joined u = true) ∧ ((s.m.secAt u).isl =
      false) ∧ (s.m.get (Ob.rtState u) = 0) ∧ (bit (s.m.get (Ob.islPassiveMask u)) 0 = true) ∧ (s.m.getS (Ob.vPos u) <
      s.m.getS (Ob.islVLow u)) ∧ ((s.m.secAt u).islWinPs = some t) ∧ (t + msPs (s.m.get (Ob.islWinTime u)) ≤ s.m.now)) :=
  ⟨⟨mst
      {ob [(Ob.idOrder 0, 15), (Ob.gfState 0, gfFollowing)] with sec := List.replicate 4 {idRun := some 3, fleet := 40000}},
      0, by decide +kernel⟩,
   ⟨mst {upO [(Ob.idOrder 3, 7)] with sec := List.replicate 4 {idOn := true, idTicks := 127}}, 3, by decide +kernel⟩,
   ⟨mst {upO [(Ob.idOrder 3, 9), (Ob.fRated 3, 0x42700000)] with sec := List.replicate 4 {idDone := true}}, 3, [⟨7, 7, 0,
      10, 10⟩], by decide +kernel⟩,
   ⟨mst
      {upO [(Ob.idOrder 3, 9), (Ob.idAvg 3, 1), (Ob.fRated 3, 0x42700000)] with sec := List.replicate 4 {idDone := true}},
      3, [⟨7, 6, 8, 10, 10⟩, ⟨10, 10, 0, 10, 10⟩], by decide +kernel⟩,
   ⟨mst
      {up with obj := [(Ob.gfState 3, gfForming), (Ob.islPassiveMask 3, 1), (Ob.islVLow 3, 5), (Ob.islWinTime 3, 0)] ++ up.obj, sec := List.replicate 4 {islWinPs := some 0}},
      3, 0, by decide +kernel⟩⟩

theorem witness_ChannelStatesAndLimits :
    (∃ (s : State) (c : Nat) (t : Nat), (c < 4) ∧ (s.m.dc.length = 4) ∧ (s.m.grp.length = 8) ∧ (s.m.dcs c = dcWait) ∧
      ((s.m.dcAt c).entryPs = some t)) ∧
    (∃ (s : State) (c : Nat) (t : Nat), (c < 4) ∧ (s.m.dc.length = 4) ∧ (s.m.grp.length = 8) ∧ (s.m.dcs c = dcRunning) ∧
      (s.m.get (Ob.dcMode c) = 1) ∧ ((s.m.dcAt c).pLowPs = some t)) ∧
    (∃ (s : State) (c : Nat) (t : Nat), (c < 4) ∧ (s.m.dc.length = 4) ∧ (s.m.grp.length = 8) ∧ (s.m.dcs c = dcRunning) ∧
      (s.m.get (Ob.dcMode c) = 2) ∧ ((s.m.dcAt c).outPs = some t)) ∧
    (∃ (s : State) (c : Nat), (c < 4) ∧ (s.m.dc.length = 4) ∧ (s.m.grp.length = 8) ∧ (s.m.dcs c = dcStopping)) ∧
    (∃ (s : State) (c : Nat) (t : Nat), (c < 4) ∧ (s.m.dc.length = 4) ∧ (s.m.grp.length = 8) ∧ (s.m.dcs c ≠ dcRest) ∧
      ((s.m.dcAt c).limitPs = some t)) ∧
    (∃ (s : State) (c : Nat), (c < 4) ∧ (s.m.dc.length = 4) ∧ (s.m.grp.length = 8) ∧ ((s.m.dcAt c).expDue = true)) :=
  ⟨⟨mst {upO ([(Ob.dcState 0, dcWait)] ++ chan 0) with dc := List.replicate 4 {entryPs := some 3}}, 0, 3,
      by decide +kernel⟩,
   ⟨mst {upO [(Ob.dcState 3, dcRunning), (Ob.dcMode 3, 1)] with dc := List.replicate 4 {pLowPs := some 7}}, 3, 7,
      by decide +kernel⟩,
   ⟨mst {upO [(Ob.dcState 3, dcRunning), (Ob.dcMode 3, 2)] with dc := List.replicate 4 {outPs := some 7}}, 3, 7,
      by decide +kernel⟩,
   ⟨mst {upO [(Ob.dcState 3, dcStopping)] with dc := List.replicate 4 {toWait := true}}, 3, by decide +kernel⟩,
   ⟨mst {upO [(Ob.dcState 3, dcRunning)] with dc := List.replicate 4 {limitPs := some 3}}, 3, 3, by decide +kernel⟩,
   ⟨mst {upO [(Ob.dcState 3, dcRunning)] with dc := List.replicate 4 {expDue := true}}, 3, by decide +kernel⟩⟩

theorem witness_TrackingAndScan :
    (∃ (s : State) (c : Nat) (p : Int), (c < 4) ∧ (s.m.dc.length = 4) ∧ (s.m.dcs c = dcRunning) ∧ (s.m.get (Ob.dcMode c) =
      1) ∧ ((s.m.dcAt c).scan = false) ∧ (s.m.capped c = true) ∧ ((s.m.dcAt c).partN ≠ 0) ∧ (p = meanOver (s.m.dcAt
      c).partP (s.m.dcAt c).partN)) ∧
    (∃ (s : State) (c : Nat) (v : Int) (p : Int) (vp : Int), (c < 4) ∧ (s.m.dc.length = 4) ∧ (s.m.dcs c = dcRunning) ∧
      (s.m.get (Ob.dcMode c) = 1) ∧ ((s.m.dcAt c).scan = false) ∧ (s.m.capped c = false) ∧ ((s.m.dcAt c).waits = false) ∧
      ((s.m.dcAt c).vPrev = some vp) ∧ ((s.m.dcAt c).partN ≠ 0) ∧ (v = meanOver (s.m.dcAt c).partV (s.m.dcAt c).partN) ∧
      (p = meanOver (s.m.dcAt c).partP (s.m.dcAt c).partN) ∧ (p ≤ s.m.getS (Ob.pvPLimit c)) ∧ (s.m.get (Ob.mpptMethod c) =
      0) ∧ (absI (p - (s.m.dcAt c).pPrev) ≤ s.m.getS (Ob.pDeadband c))) ∧
    (∃ (s : State) (c : Nat), (c < 4) ∧ (s.m.dc.length = 4) ∧ (s.m.dcs c = dcRunning) ∧ (s.m.get (Ob.dcMode c) = 1) ∧
      (s.m.get (Ob.scanPeriod c) ≠ 0) ∧ ((s.m.dcAt c).scan = false) ∧ (s.m.scanBlocked c = false)) ∧
    (∃ (s : State) (c : Nat), (c < 4) ∧ (s.m.dc.length = 4) ∧ (s.m.dcs c = dcRunning) ∧ (s.m.get (Ob.dcMode c) = 1) ∧
      (s.m.get (Ob.scanPeriod c) ≠ 0) ∧ ((s.m.dcAt c).scan = false) ∧ (s.m.scanBlocked c = true)) ∧
    (∃ (s : State) (c : Nat) (p : Int), (c < 4) ∧ (s.m.dc.length = 4) ∧ (s.m.dcs c = dcRunning) ∧ (s.m.get (Ob.dcMode c) =
      1) ∧ ((s.m.dcAt c).scan = true) ∧ (s.m.scanBlocked c = false) ∧ ((s.m.dcAt c).point + 1 < s.m.get (Ob.scanPoints c))
      ∧ ((s.m.dcAt c).partN ≠ 0) ∧ (p = meanOver (s.m.dcAt c).partP (s.m.dcAt c).partN)) ∧
    (∃ (s : State) (c : Nat) (p : Int), (c < 4) ∧ (s.m.dc.length = 4) ∧ (s.m.dcs c = dcRunning) ∧ (s.m.get (Ob.dcMode c) =
      1) ∧ ((s.m.dcAt c).scan = true) ∧ (s.m.scanBlocked c = false) ∧ (s.m.get (Ob.scanPoints c) ≤ (s.m.dcAt c).point) ∧
      ((s.m.dcAt c).perN ≠ 0) ∧ (p = meanOver (s.m.dcAt c).perP (s.m.dcAt c).perN)) :=
  ⟨⟨mst
      {upO [(Ob.dcState 3, dcRunning), (Ob.dcMode 3, 1), (Ob.limitFlags 3, 1)] with dc := List.replicate 4 {partN := 2, partP := 10, perN := 2, perP := 10}},
      3, 5, by decide +kernel⟩,
   ⟨mst
      {upO [(Ob.dcState 3, dcRunning), (Ob.dcMode 3, 1), (Ob.pvPLimit 3, 100)] with dc := List.replicate 4 {vPrev := some 9, pPrev := 7, partN := 2, partV := 200, partP := 14}},
      3, 100, 7, 9, by decide +kernel⟩,
   ⟨mst (upO [(Ob.dcState 3, dcRunning), (Ob.dcMode 3, 1), (Ob.scanPeriod 3, 10)]), 3, by decide +kernel⟩,
   ⟨mst (upO [(Ob.dcState 3, dcRunning), (Ob.dcMode 3, 1), (Ob.scanPeriod 3, 10), (Ob.limitFlags 3, 16)]), 3,
      by decide +kernel⟩,
   ⟨mst
      {upO [(Ob.dcState 3, dcRunning), (Ob.dcMode 3, 1), (Ob.scanPoints 3, 8)] with dc := List.replicate 4 {scan := true, point := 6, partN := 1, partV := 9, partP := 77}},
      3, 77, by decide +kernel⟩,
   ⟨mst
      {upO [(Ob.dcState 3, dcRunning), (Ob.dcMode 3, 1), (Ob.scanPoints 3, 8)] with dc := List.replicate 4 {scan := true, point := 8, perN := 1, perP := 77}},
      3, 77, by decide +kernel⟩⟩

theorem witness_RideThroughGoesOn :
    (∃ (s : State) (u : Nat), (u < 4) ∧ (s.m.sec.length = 4) ∧ (s.m.eng.vsm.length = 4) ∧ (s.m.detects u = true) ∧ (s.m.rt
      u = rtLvrt) ∧ ((s.m.secAt u).mags ≠ []) ∧ (s.m.curveNow u false ≤ meanLsb (List.map (fun x => x.snd.fst) (s.m.secAt
      u).mags)) ∧ (meanLsb (List.map (fun x => x.snd.snd) (s.m.secAt u).mags) ≤ s.m.curveNow u true)) ∧
    (∃ (s : State) (u : Nat), (u < 4) ∧ (s.m.sec.length = 4) ∧ (s.m.eng.vsm.length = 4) ∧ (s.m.detects u = true) ∧ (s.m.rt
      u = rtLvrt) ∧ ((s.m.grpAt u).latched = false) ∧ ((s.m.secAt u).mags ≠ []) ∧ (meanLsb (List.map (fun x => x.snd.fst)
      (s.m.secAt u).mags) < s.m.curveNow u false)) ∧
    (∃ (s : State) (u : Nat) (stage : Nat) (t : Nat), (u < 4) ∧ (s.m.sec.length = 4) ∧ (s.m.eng.vsm.length = 4) ∧ (stage <
      4) ∧ (s.m.detects u = true) ∧ ((s.m.grpAt u).latched = false) ∧ ((s.m.secAt u).stagePs.getD stage none = some t)) ∧
    (∃ (s : State) (u : Nat), (u < 4) ∧ (s.m.sec.length = 4) ∧ (s.m.eng.vsm.length = 4) ∧ (s.m.detects u = true) ∧
      ((s.m.grpAt u).latched = false) ∧ (∃ p, p ∈ (s.m.secAt u).stops ∧ p.fst ≠ 6)) ∧
    (∃ (s : State) (u : Nat) (t : Nat), (u < 4) ∧ (s.m.sec.length = 4) ∧ (s.m.eng.vsm.length = 4) ∧ (s.m.detects u = true)
      ∧ (s.m.rt u = rtLvrt ∨ s.m.rt u = rtHvrt ∨ s.m.rt u = rtCeased) ∧ ((s.m.secAt u).recovPs = some t)) ∧
    (∃ (s : State) (u : Nat), (u < 4) ∧ (s.m.sec.length = 4) ∧ (s.m.eng.vsm.length = 4) ∧ (s.m.rt u = rtRecovery) ∧
      (s.m.rideOver u = true)) ∧
    (∃ (s : State) (u : Nat) (t : Nat), (u < 4) ∧ (s.m.sec.length = 4) ∧ (s.m.eng.vsm.length = 4) ∧ (s.m.joined u = true)
      ∧ (s.m.rt u ≠ rtLos) ∧ (s.m.losAt u = some t) ∧ ((Mod.reach t s.m).losEvents u + 1 ≤ s.m.get (Ob.losN u))) ∧
    (∃ (s : State) (u : Nat) (t : Nat), (u < 4) ∧ (s.m.sec.length = 4) ∧ (s.m.eng.vsm.length = 4) ∧ (s.m.rt u = rtLos) ∧
      ((s.m.secAt u).blankPs = some t)) ∧
    (∃ (s : State) (u : Nat), (u < 4) ∧ (s.m.sec.length = 4) ∧ (s.m.eng.vsm.length = 4) ∧ ((s.m.secAt u).follow = false)) ∧
    (∃ (s : State) (u : Nat) (t : Nat), (u < 4) ∧ (s.m.sec.length = 4) ∧ (s.m.eng.vsm.length = 4) ∧ ((s.m.vsmAt u).limited
      = true) ∧ ((s.m.secAt u).follow = false) ∧ ((s.m.vsmAt u).calmPs = some t)) :=
  ⟨⟨mst
      {upO [(Ob.gfState 3, gfForming), (Ob.rtState 3, rtLvrt)] with sec := List.replicate 4 {mags := [(5, 536870912, 536870912)]}},
      3, by decide +kernel⟩,
   ⟨mst {upO [(Ob.gfState 3, gfForming), (Ob.rtState 3, rtLvrt)] with sec := List.replicate 4 {mags := [(5, -5, 0)]}}, 3,
      by decide +kernel⟩,
   ⟨mst {upO [(Ob.gfState 3, gfHold)] with sec := List.replicate 4 {stagePs := [none, none, none, some 5]}}, 3, 3, 5,
      by decide +kernel⟩,
   ⟨mst {upO [(Ob.gfState 3, gfForming)] with sec := List.replicate 4 {stops := [(4, 0x3703), (2, 0x3701)]}}, 3,
      by decide +kernel⟩,
   ⟨mst {upO [(Ob.gfState 3, gfForming), (Ob.rtState 3, rtCeased)] with sec := List.replicate 4 {recovPs := some 5}}, 3,
      5, by decide +kernel⟩,
   ⟨mst
      {upO [(Ob.rtState 3, rtRecovery), (Ob.pSet 3, 9)] with sec := List.replicate 4 {tauPs := some 4}, eng := {vsm := List.replicate 4 {pRef := 9}}},
      3, by decide +kernel⟩,
   ⟨mst {upO [(Ob.gfState 3, gfForming), (Ob.losN 3, 3)] with sec := List.replicate 4 {losPs := some 5}}, 3, 20000000005,
      by decide +kernel⟩,
   ⟨mst {upO [(Ob.gfState 3, gfForming), (Ob.rtState 3, rtLos)] with sec := List.replicate 4 {blankPs := some 5}}, 3, 5,
      by decide +kernel⟩,
   ⟨mst (upO [(Ob.gfState 3, gfForming), (Ob.rtState 3, rtLos), (Ob.gridPhase 3, 77)]), 3, by decide +kernel⟩,
   ⟨mst {up with eng := {vsm := List.replicate 4 {limited := true, calmPs := some 5}}}, 3, 5, by decide +kernel⟩⟩

theorem witness_TripSourcesActAtOnce :
    (∃ (s : State) (f : Nat) (l : Nat) (g : Nat), (f < 16) ∧ (l < 2) ∧ (g < 8) ∧ (s.m.grp.length = 8)) ∧
    (∃ (s : State) (f : Nat) (l : Nat) (g : Nat), (f < 16) ∧ (l < 2) ∧ (g < 8) ∧ (s.m.grp.length = 8) ∧
      (s.m.prot.laneReq.getD l 0 = 0)) ∧
    (∃ (s : State) (f : Nat) (l : Nat) (pair : Nat) (g : Nat), (f < 16) ∧ (l < 2) ∧ (g < 8) ∧ (s.m.grp.length = 8) ∧ (pair
      < 32) ∧ (s.m.groupOfPair pair = some g) ∧ (s.m.inUse g = true)) ∧
    (∃ (s : State) (f : Nat) (l : Nat) (g : Nat), (f < 16) ∧ (l < 2) ∧ (g < 8) ∧ (s.m.grp.length = 8) ∧ ((s.m.grpAt
      g).pins = Pins.tripping)) :=
  ⟨⟨mst (upO [(Ob.fltTarget 15, 128), (Ob.grpLayout 7, 1), (Ob.grpLayout 0, 1)]), 15, 1, 7, by decide +kernel⟩,
   ⟨mst (upO [(Ob.grpLayout 7, 1), (Ob.grpLayout 0, 1)]), 15, 1, 7, by decide +kernel⟩,
   ⟨mst (upO [(Ob.grpLayout 7, 1), (Ob.firstPair 7, 31)]), 15, 1, 31, 7, by decide +kernel⟩,
   ⟨mst {up with grp := List.replicate 8 {pins := .tripping, latched := true}}, 0, 1, 7, by decide +kernel⟩⟩

theorem witness_LegMapsAndTrims :
    (∃ (s : State) (g : Nat) (p : Nat) (rep : LegMap) (b : Bool) (gap : Int) (toff : Int) (es : List Transition), (g < 8)
      ∧ (p < 32) ∧ (s.m.grp.length = 8) ∧ (s.m.pairs.length = 32) ∧ (gap = meanPs gapOf (s.m.naturals p b es)) ∧ (toff =
      meanPs toffOf (s.m.naturals p b es)) ∧ ((s.m.naturals p b es).length = s.m.get (Ob.trimAvg p)) ∧ ((s.m.grpAt
      g).map.isSome = true) ∧ (s.m.inUse g = true) ∧ (rep = s.m.ownMap g)) ∧
    (∃ (s : State) (g : Nat) (p : Nat) (rep : LegMap) (b : Bool) (gap : Int) (toff : Int) (es : List Transition), (g < 8)
      ∧ (p < 32) ∧ (s.m.grp.length = 8) ∧ (s.m.pairs.length = 32) ∧ (gap = meanPs gapOf (s.m.naturals p b es)) ∧ (toff =
      meanPs toffOf (s.m.naturals p b es)) ∧ ((s.m.naturals p b es).length = s.m.get (Ob.trimAvg p)) ∧ ((s.m.grpAt
      g).map.isSome = true) ∧ (s.m.inUse g = true) ∧ (rep ≠ s.m.ownMap g)) ∧
    (∃ (s : State) (g : Nat) (p : Nat) (b : Bool) (gap : Int) (toff : Int) (es : List Transition), (g < 8) ∧ (p < 32) ∧
      (s.m.grp.length = 8) ∧ (s.m.pairs.length = 32) ∧ (gap = meanPs gapOf (s.m.naturals p b es)) ∧ (toff = meanPs toffOf
      (s.m.naturals p b es)) ∧ ((s.m.naturals p b es).length = s.m.get (Ob.trimAvg p)) ∧ (b = false) ∧ (s.m.get (Ob.trimEn
      p) = 1) ∧ ((s.m.pairAt p).paused = false) ∧ (s.m.get (Ob.dtMin p) ≤ s.m.get (Ob.dtOnAEff p)) ∧ (s.m.get (Ob.dtOnAEff
      p) ≤ s.m.get (Ob.dtOnA p)) ∧ (gap = ↑(s.m.get (Ob.trimTarget p)))) ∧
    (∃ (s : State) (g : Nat) (p : Nat) (b : Bool) (gap : Int) (toff : Int) (es : List Transition), (g < 8) ∧ (p < 32) ∧
      (s.m.grp.length = 8) ∧ (s.m.pairs.length = 32) ∧ (gap = meanPs gapOf (s.m.naturals p b es)) ∧ (toff = meanPs toffOf
      (s.m.naturals p b es)) ∧ ((s.m.naturals p b es).length = s.m.get (Ob.trimAvg p)) ∧ (b = true) ∧ (s.m.get (Ob.trimEn
      p) = 1) ∧ ((s.m.pairAt p).paused = false) ∧ (s.m.get (Ob.dtMin p) + 1250 ≤ s.m.get (Ob.dtOnBEff p)) ∧ (s.m.get
      (Ob.dtOnBEff p) ≤ s.m.get (Ob.dtOnB p)) ∧ (↑(s.m.get (Ob.trimTarget p)) + 1250 ≤ gap)) ∧
    (∃ (s : State) (g : Nat) (p : Nat) (b : Bool) (gap : Int) (toff : Int) (es : List Transition), (g < 8) ∧ (p < 32) ∧
      (s.m.grp.length = 8) ∧ (s.m.pairs.length = 32) ∧ (gap = meanPs gapOf (s.m.naturals p b es)) ∧ (toff = meanPs toffOf
      (s.m.naturals p b es)) ∧ ((s.m.naturals p b es).length = s.m.get (Ob.trimAvg p)) ∧ ((s.m.pairAt p).paused = true)) ∧
    (∃ (s : State) (g : Nat) (p : Nat) (b : Bool) (gap : Int) (toff : Int) (es : List Transition), (g < 8) ∧ (p < 32) ∧
      (s.m.grp.length = 8) ∧ (s.m.pairs.length = 32) ∧ (gap = meanPs gapOf (s.m.naturals p b es)) ∧ (toff = meanPs toffOf
      (s.m.naturals p b es)) ∧ ((s.m.naturals p b es).length = s.m.get (Ob.trimAvg p)) ∧ ((s.m.pairAt p).paused = false) ∧
      (s.m.lastMissing p es = true)) ∧
    (∃ (s : State) (g : Nat) (p : Nat) (b : Bool) (gap : Int) (toff : Int) (es : List Transition), (g < 8) ∧ (p < 32) ∧
      (s.m.grp.length = 8) ∧ (s.m.pairs.length = 32) ∧ (gap = meanPs gapOf (s.m.naturals p b es)) ∧ (toff = meanPs toffOf
      (s.m.naturals p b es)) ∧ ((s.m.naturals p b es).length = s.m.get (Ob.trimAvg p)) ∧ ((s.m.pairAt p).paused = true) ∧
      (s.m.lastPresent p es = true)) :=
  ⟨⟨mst
      {upO [(Ob.grpLayout 7, 1), (Ob.firstPair 7, 31)] with grp := List.replicate 8 {map := some lmap, mapBad := true}},
      7, 31, (upO [(Ob.grpLayout 7, 1), (Ob.firstPair 7, 31)]).ownMap 7, false, 9993, 7, (List.replicate (up.get
      (Ob.trimAvg 31)) ⟨false, 0, 10000, some 7⟩), by decide +kernel⟩,
   ⟨mst {upO [(Ob.grpLayout 7, 1), (Ob.firstPair 7, 31)] with grp := List.replicate 8 {on := true, map := some lmap}}, 7,
      31, lmap, false, 9993, 7, (List.replicate (up.get (Ob.trimAvg 31)) ⟨false, 0, 10000, some 7⟩), by decide +kernel⟩,
   ⟨mst (upO [(Ob.trimEn 31, 1), (Ob.dtMin 31, 100), (Ob.dtOnAEff 31, 200), (Ob.dtOnA 31, 300), (Ob.trimTarget 31, 50)]),
      0, 31, false, 50, 150, (List.replicate (up.get (Ob.trimAvg 31)) ⟨false, 0, 200, some 150⟩), by decide +kernel⟩,
   ⟨mst (upO [(Ob.trimEn 31, 1), (Ob.dtMin 31, 100), (Ob.dtOnBEff 31, 2000), (Ob.dtOnB 31, 3000), (Ob.trimTarget 31,
      50)]), 0, 31, true, 1300, 700, (List.replicate (up.get (Ob.trimAvg 31)) ⟨true, 0, 2000, some 700⟩),
      by decide +kernel⟩,
   ⟨mst {up with pairs := List.replicate 32 {paused := true}}, 0, 31, true, 1300, 700, (List.replicate (up.get
      (Ob.trimAvg 31)) ⟨true, 0, 2000, some 700⟩), by decide +kernel⟩,
   ⟨mst (upO [(Ob.dtOnA 31, 300)]), 0, 31, false, 9993, 7, (List.replicate (up.get (Ob.trimAvg 31)) ⟨false, 0, 10000,
      some 7⟩) ++ List.replicate 64 ⟨true, 0, 10000, none⟩, by decide +kernel⟩,
   ⟨mst {upO [(Ob.trimEn 31, 1)] with pairs := List.replicate 32 {paused := true}}, 0, 31, false, 9993, 7,
      (List.replicate (up.get (Ob.trimAvg 31)) ⟨false, 0, 10000, some 7⟩) ++ List.replicate 64 ⟨true, 0, 10000, some 7⟩,
      by decide +kernel⟩⟩

theorem witness_FaultsRecoverOrBecomePermanent :
    (∃ (s : State) (c : Nat), (c < 24) ∧ (s.m.prot.links.length = 24) ∧ (s.m.grp.length = 8) ∧ (s.m.sec.length = 4) ∧
      (s.m.dc.length = 4) ∧ ((s.m.prot.links.getD c { }).overOn = false) ∧ (s.m.get (Ob.dclTime c) ≤ (s.m.prot.links.getD
      c { }).overTicks)) ∧
    (∃ (s : State) (c : Nat), (c < 24) ∧ (s.m.prot.links.length = 24) ∧ (s.m.grp.length = 8) ∧ (s.m.sec.length = 4) ∧
      (s.m.dc.length = 4) ∧ ((s.m.prot.links.getD c { }).armed = true) ∧ (s.m.get (Ob.dclTime c) ≤ (s.m.prot.links.getD c
      { }).warn)) ∧
    (∃ (s : State) (c : Nat) (cls : Nat) (unit : Nat) (r : Recovery), (c < 24) ∧ (s.m.prot.links.length = 24) ∧
      (s.m.grp.length = 8) ∧ (s.m.sec.length = 4) ∧ (s.m.dc.length = 4) ∧ ((s.m.inst cls unit).recov = some r) ∧
      (r.awaiting = false) ∧ (s.m.sourceActive cls unit r = false)) ∧
    (∃ (s : State) (c : Nat) (cls : Nat) (unit : Nat) (r : Recovery), (c < 24) ∧ (s.m.prot.links.length = 24) ∧
      (s.m.grp.length = 8) ∧ (s.m.sec.length = 4) ∧ (s.m.dc.length = 4) ∧ ((s.m.inst cls unit).recov = some r) ∧
      (r.awaiting = false) ∧ (s.m.sourceActive cls unit r = true)) ∧
    (∃ (s : State) (c : Nat) (cls : Nat) (unit : Nat) (r : Recovery), (c < 24) ∧ (s.m.prot.links.length = 24) ∧
      (s.m.grp.length = 8) ∧ (s.m.sec.length = 4) ∧ (s.m.dc.length = 4) ∧ ((s.m.inst cls unit).recov = some r) ∧
      (r.awaiting = true) ∧ (s.m.sourceActive cls unit r = false) ∧ (r.checkPs < r.retryPs)) ∧
    (∃ (s : State) (c : Nat) (cls : Nat) (unit : Nat) (r : Recovery), (c < 24) ∧ (s.m.prot.links.length = 24) ∧
      (s.m.grp.length = 8) ∧ (s.m.sec.length = 4) ∧ (s.m.dc.length = 4) ∧ ((s.m.inst cls unit).recov = some r) ∧
      (r.awaiting = true) ∧ (s.m.sourceActive cls unit r = false)) ∧
    (∃ (s : State) (c : Nat) (cls : Nat) (unit : Nat) (r : Recovery), (c < 24) ∧ (s.m.prot.links.length = 24) ∧
      (s.m.grp.length = 8) ∧ (s.m.sec.length = 4) ∧ (s.m.dc.length = 4) ∧ ((s.m.inst cls unit).recov = some r) ∧
      (r.awaiting = true) ∧ (s.m.sourceActive cls unit r = true) ∧ (r.checkPs < r.retryPs)) ∧
    (∃ (s : State) (c : Nat) (cls : Nat) (unit : Nat) (r : Recovery), (c < 24) ∧ (s.m.prot.links.length = 24) ∧
      (s.m.grp.length = 8) ∧ (s.m.sec.length = 4) ∧ (s.m.dc.length = 4) ∧ ((s.m.inst cls unit).recov = some r) ∧
      (r.awaiting = true) ∧ (s.m.sourceActive cls unit r = true) ∧ (cls = 1) ∧ (unit < 8)) ∧
    (∃ (s : State) (c : Nat), (c < 24) ∧ (s.m.prot.links.length = 24) ∧ (s.m.grp.length = 8) ∧ (s.m.sec.length = 4) ∧
      (s.m.dc.length = 4) ∧ (s.m.get Ob.holdState = 1) ∧ (s.m.prot.maxMet = false) ∧ (s.m.get Ob.holdMax ≠ 0)) :=
  ⟨⟨mst
      {upO [(Ob.ownerMask 23, 129), (Ob.grpLayout 7, 1), (Ob.grpLayout 0, 1)] with prot := {links := List.replicate 24 {overTicks := 255}}},
      23, by decide +kernel⟩,
   ⟨mst {up with prot := {links := List.replicate 24 {warn := 255}}}, 23, by decide +kernel⟩,
   ⟨mst (fltd 1 7 (rcv false 0)), 0, 1, 7, rcv false 0, by decide +kernel⟩,
   ⟨mst (fltd 2 7 (rcv false 0)), 0, 2, 7, rcv false 0, by decide +kernel⟩,
   ⟨mst (fltd 1 7 ({rcv true 0 with retryPs := 5})), 0, 1, 7, ({rcv true 0 with retryPs := 5}), by decide +kernel⟩,
   ⟨mst (fltd 1 0 (rcv true 0)), 0, 1, 0, rcv true 0, by decide +kernel⟩,
   ⟨mst
      {fltd 1 7 ({rcv true 65536 with retryPs := 5}) with prot := {laneReq := [128, 0], insts := [{cls := 1, unit := 7, recov := some ({rcv true 65536 with retryPs := 5})}]}},
      0, 1, 7, ({rcv true 65536 with retryPs := 5}), by decide +kernel⟩,
   ⟨mst
      {fltd 1 7 (rcv true 65536) with prot := {laneReq := [128, 0], insts := [{cls := 1, unit := 7, recov := some (rcv true 65536)}]}},
      0, 1, 7, rcv true 65536, by decide +kernel⟩,
   ⟨mst (upO [(Ob.holdState, 1), (Ob.holdMax, 5)]), 0, by decide +kernel⟩⟩

theorem witness_IntegrityFailuresActAndCount :
    (∃ (s : State) (l : Nat) (seq : Nat), (l < 2) ∧ (s.m.lanes.length = 2) ∧ (seq < 65535)) ∧
    (∃ (s : State) (l : Nat) (seq : Nat), (l < 2) ∧ (s.m.lanes.length = 2) ∧ (seq < 65535) ∧ (s.m.traceSt = 0 ∨
      s.m.traceSt = 4)) ∧
    (∃ (s : State) (l : Nat) (seq : Nat), (l < 2) ∧ (s.m.lanes.length = 2) ∧ (seq < 65535) ∧ (s.m.traceSt ≠ 0) ∧
      (s.m.traceSt ≠ 4)) ∧
    (∃ (s : State) (l : Nat) (seq : Nat), (l < 2) ∧ (s.m.lanes.length = 2) ∧ (seq < 65535) ∧ ((s.m.laneAt
      s.m.standby).floeSeq = some seq) ∧ (s.m.arb.adopt = false)) ∧
    (∃ (s : State) (l : Nat) (seq : Nat), (l < 2) ∧ (s.m.lanes.length = 2) ∧ (seq < 65535) ∧ ((s.m.laneAt
      s.m.standby).missing = 0) ∧ (s.m.healthOf s.m.standby ≠ 2) ∧ (s.m.arb.floeEv = 0) ∧ ((s.m.laneAt
      s.m.standby).goodTick + 3 ≤ s.m.clk.tick)) ∧
    (∃ (s : State) (l : Nat) (seq : Nat), (l < 2) ∧ (s.m.lanes.length = 2) ∧ (seq < 65535) ∧ ((s.m.laneAt l).macFails =
      2)) ∧
    (∃ (s : State) (l : Nat) (k : Nat) (seq : Nat), (l < 2) ∧ (s.m.lanes.length = 2) ∧ (seq < 65535) ∧ ((s.m.sessAt
      k).isSome = true)) :=
  ⟨⟨mst {up with clk := {upPs := 600000000000000}}, 1, 0, by decide +kernel⟩,
   ⟨mst {upO [(Ob.traceState, 4)] with clk := {upPs := 600000000000000}}, 1, 0, by decide +kernel⟩,
   ⟨mst {upO [(Ob.traceState, 2)] with clk := {upPs := 600000000000000}}, 1, 0, by decide +kernel⟩,
   ⟨mst {up with lanes := List.replicate 2 {floeSeq := some 65534}}, 1, 65534, by decide +kernel⟩,
   ⟨mst {up with clk := {tick := 7}, lanes := List.replicate 2 {goodTick := 4}}, 1, 0, by decide +kernel⟩,
   ⟨mst {up with lanes := List.replicate 2 {macFails := 2}}, 1, 0, by decide +kernel⟩,
   ⟨mst {up with sess := [(3, {kind := .ghp3, addr := 4})]}, 1, 3, 0, by decide +kernel⟩⟩

theorem witness_LanesClaimAndTakeOver :
    (∃ (s : State) (l : Nat), (l < 2) ∧ (s.m.lanes.length = 2) ∧ (s.m.lane ≤ 1) ∧ (s.m.mayClaim 0 = true) ∧ (s.m.arb.armed
      = false) ∧ (s.m.arb.grant = none) ∧ (s.m.arb.incoming = none) ∧ (s.m.sdc.resetLow = false)) ∧
    (∃ (s : State) (l : Nat), (l < 2) ∧ (s.m.lanes.length = 2) ∧ (s.m.lane ≤ 1) ∧ (s.m.mayClaim 1 = true) ∧ (s.m.arb.armed
      = false) ∧ (s.m.arb.grant = none) ∧ (s.m.arb.incoming = none) ∧ (s.m.sdc.resetLow = false)) ∧
    (∃ (s : State) (l : Nat), (l < 2) ∧ (s.m.lanes.length = 2) ∧ (s.m.lane ≤ 1) ∧ (s.m.power.released.isSome = true) ∧
      (s.m.arb.grant = none) ∧ (s.m.arb.armed = false)) ∧
    (∃ (s : State) (l : Nat), (l < 2) ∧ (s.m.lanes.length = 2) ∧ (s.m.lane ≤ 1) ∧ (s.m.arb.armed = true) ∧ (s.m.get
      (Ob.roleNow s.m.standby) = 2) ∧ (s.m.healthOf s.m.standby = 0) ∧ (s.m.arb.cause = none) ∧ ((s.m.laneAt
      s.m.standby).floe = true) ∧ ((s.m.laneAt s.m.standby).tested = true)) ∧
    (∃ (s : State) (l : Nat) (cause : Nat), (l < 2) ∧ (s.m.lanes.length = 2) ∧ (s.m.lane ≤ 1) ∧ (s.m.arb.cause = some
      cause) ∧ (s.m.arb.reported = false) ∧ (s.m.get (Ob.roleNow s.m.standby) = 1) ∧ (s.m.healthOf s.m.standby = 0)) ∧
    (∃ (s : State) (l : Nat) (cause : Nat), (l < 2) ∧ (s.m.lanes.length = 2) ∧ (s.m.lane ≤ 1) ∧ (s.m.arb.cause = some
      cause) ∧ (s.m.arb.incoming = some s.m.standby)) ∧
    (∃ (s : State) (l : Nat), (l < 2) ∧ (s.m.lanes.length = 2) ∧ (s.m.lane ≤ 1) ∧ (s.m.arb.grant.isSome = true) ∧
      (s.m.arb.armed = true)) ∧
    (∃ (s : State) (l : Nat), (l < 2) ∧ (s.m.lanes.length = 2) ∧ (s.m.lane ≤ 1) ∧ (s.m.arb.cause = none) ∧
      (s.m.arb.grant.isSome = true)) ∧
    (∃ (s : State) (l : Nat), (l < 2) ∧ (s.m.lanes.length = 2) ∧ (s.m.lane ≤ 1) ∧ (s.m.arb.incoming = some s.m.standby) ∧
      (s.m.healthOf s.m.standby ≠ 2)) ∧
    (∃ (s : State) (l : Nat), (l < 2) ∧ (s.m.lanes.length = 2) ∧ (s.m.lane ≤ 1) ∧ (s.m.arb.incoming = none)) ∧
    (∃ (s : State) (l : Nat), (l < 2) ∧ (s.m.lanes.length = 2) ∧ (s.m.lane ≤ 1) ∧ (s.m.arb.armed = true) ∧ (s.m.arb.grant
      = none) ∧ (s.m.prot.safeStop = false) ∧ (s.m.grp.length = 8)) :=
  ⟨⟨mst (early ready), 1, by decide +kernel⟩,
   ⟨mst (early ready), 1, by decide +kernel⟩,
   ⟨mst {up with arb := {}, power := {released := some 0}}, 1, by decide +kernel⟩,
   ⟨mst {laned ready with obj := [(Ob.roleNow 1, 2)]}, 1, by decide +kernel⟩,
   ⟨mst {upO [(Ob.roleNow 1, 1)] with arb := {armed := true, cause := some 0x4801}}, 0, 0x4801, by decide +kernel⟩,
   ⟨mst {upO [(Ob.roleNow 1, 1)] with arb := {armed := true, cause := some 0x4801, incoming := some 1}}, 0, 0x4801,
      by decide +kernel⟩,
   ⟨mst up, 0, by decide +kernel⟩,
   ⟨mst up, 0, by decide +kernel⟩,
   ⟨mst {upO [(Ob.roleNow 1, 1)] with arb := {armed := true, cause := some 0x4801, incoming := some 1, grant := some 1}},
      0, by decide +kernel⟩,
   ⟨mst up, 0, by decide +kernel⟩,
   ⟨mst {up with arb := {armed := true}}, 0, by decide +kernel⟩⟩

theorem witness_LaneDiagnosisActs :
    (∃ (s : State) (l : Nat), (l < 2) ∧ (s.m.lanes.length = 2) ∧ (s.m.lane ≤ 1) ∧ (s.m.lane = l) ∧ (s.m.arb.cause = none)
      ∧ (s.m.arb.grant.isSome = true)) ∧
    (∃ (s : State) (l : Nat), (l < 2) ∧ (s.m.lanes.length = 2) ∧ (s.m.lane ≤ 1) ∧ (s.m.lane ≠ l)) ∧
    (∃ (s : State) (l : Nat), (l < 2) ∧ (s.m.lanes.length = 2) ∧ (s.m.lane ≤ 1)) ∧
    (∃ (s : State) (l : Nat), (l < 2) ∧ (s.m.lanes.length = 2) ∧ (s.m.lane ≤ 1) ∧ (s.m.arb.diag = true)) ∧
    (∃ (s : State) (l : Nat), (l < 2) ∧ (s.m.lanes.length = 2) ∧ (s.m.lane ≤ 1) ∧ (s.m.arb.diag = true) ∧
      (s.m.arb.unexpl.length + 1 < s.m.get Ob.mcUnexplainedN)) ∧
    (∃ (s : State) (l : Nat) (ps : List Int) (d : Int), (l < 2) ∧ (s.m.lanes.length = 2) ∧ (s.m.lane ≤ 1) ∧ (ps.getLast? =
      some d) ∧ (-2500 ≤ d) ∧ (d ≤ 2500)) ∧
    (∃ (s : State) (l : Nat) (ps : List Int), (l < 2) ∧ (s.m.lanes.length = 2) ∧ (s.m.lane ≤ 1) ∧ (8 ≤ ps.length) ∧ (∀ (x
      : Int), x ∈ List.take 8 ps.reverse → x < -2500 ∨ 2500 < x) ∧ (s.m.isRedundant = true)) ∧
    (∃ (s : State) (l : Nat), (l < 2) ∧ (s.m.lanes.length = 2) ∧ (s.m.lane ≤ 1) ∧ (s.m.get (Ob.roleNow s.m.standby) = 1) ∧
      (s.m.healthOf s.m.standby = 0)) ∧
    (∃ (s : State) (l : Nat), (l < 2) ∧ (s.m.lanes.length = 2) ∧ (s.m.lane ≤ 1) ∧ (s.m.healthOf s.m.standby = 3) ∧
      (s.m.compared = true)) ∧
    (∃ (s : State) (l : Nat), (l < 2) ∧ (s.m.lanes.length = 2) ∧ (s.m.lane ≤ 1) ∧ (s.m.healthOf s.m.standby = 1)) ∧
    (∃ (s : State) (l : Nat) (failed : Nat), (l < 2) ∧ (s.m.lanes.length = 2) ∧ (s.m.lane ≤ 1) ∧ (s.m.healthOf s.m.standby
      = 1) ∧ (failed % 128 ≠ 0)) ∧
    (∃ (s : State) (l : Nat), (l < 2) ∧ (s.m.lanes.length = 2) ∧ (s.m.lane ≤ 1) ∧ (s.m.healthOf s.m.standby = 3) ∧
      (s.m.get (Ob.roleNow s.m.standby) = 1) ∧ (s.m.compared = true) ∧ (s.m.arb.synced = true)) :=
  ⟨⟨mst up, 0, by decide +kernel⟩,
   ⟨mst up, 1, by decide +kernel⟩,
   ⟨mst up, 1, by decide +kernel⟩,
   ⟨mst {up with arb := {up.arb with diag := true}}, 0, by decide +kernel⟩,
   ⟨mst {upO [(Ob.mcUnexplainedN, 3)] with arb := {up.arb with diag := true}}, 0, by decide +kernel⟩,
   ⟨mst up, 0, [7, -2500], -2500, by decide +kernel⟩,
   ⟨mst (upO [(Ob.redundant, 1)]), 0, [2501, -2501, 2501, 2501, 2501, 2501, 2501, 2501], by decide +kernel⟩,
   ⟨mst (upO [(Ob.roleNow 1, 1)]), 0, by decide +kernel⟩,
   ⟨mst {upO [(Ob.health 1, 3)] with clk := {tick := 10005}, arb := {up.arb with syncTick := some 5}}, 0,
      by decide +kernel⟩,
   ⟨mst (upO [(Ob.health 1, 1)]), 0, by decide +kernel⟩,
   ⟨mst (upO [(Ob.health 1, 1)]), 0, 64, by decide +kernel⟩,
   ⟨mst
      {upO [(Ob.health 1, 3), (Ob.roleNow 1, 1)] with clk := {tick := 10005}, arb := {up.arb with syncTick := some 5, synced := true}},
      0, by decide +kernel⟩⟩

theorem witness_CausesBringTheSafeState :
    (∃ (s : State) (a : SdcInputs), (s.m.grp.length = 8) ∧ (s.m.sec.length = 4) ∧ (s.m.sdcSt ≠ sdcSafe) ∧ (s.m.sdcSt ≠
      sdcFault) ∧ (s.m.sdcSt ≠ sdcLockout) ∧ (a.sdrA = false ∨ a.sdrB = false) ∧ (s.m.sdc.resetLow = false) ∧
      (s.m.sdc.lockout = false)) ∧
    (∃ (s : State), (s.m.grp.length = 8) ∧ (s.m.sec.length = 4) ∧ (s.m.sdcSt ≠ sdcSafe) ∧ (s.m.sdcSt ≠ sdcFault) ∧
      (s.m.sdcSt ≠ sdcLockout) ∧ (s.m.sdc.lostA = 2) ∧ (s.m.sdc.resetLow = false)) ∧
    (∃ (s : State), (s.m.grp.length = 8) ∧ (s.m.sec.length = 4) ∧ (s.m.sdcSt ≠ sdcSafe) ∧ (s.m.sdcSt ≠ sdcFault) ∧
      (s.m.sdcSt ≠ sdcLockout) ∧ ((Mod.modSdc (fun x =>
      { a := x.a, b := x.b, k1 := x.k1, k2 := x.k2, k1Edge := x.k1Edge, k2Edge := x.k2Edge, request := x.request, ignored := x.ignored, discRun := x.discRun, contacts := x.contacts, pins := x.pins, relayFault := x.relayFault, discFault := x.discFault, bothSeen := x.bothSeen, laneDemand := x.laneDemand, oscDemand := x.oscDemand, overdue := x.overdue, second := x.second, passedAt := x.passedAt, sealDiff := x.sealDiff, lockout := x.lockout, resetLow := x.resetLow, samplePs := x.samplePs, sealPs := x.sealPs, resetPs := x.resetPs, readyPs := x.readyPs })
      s.m).safeCauses = 0)) ∧
    (∃ (s : State), (s.m.grp.length = 8) ∧ (s.m.sec.length = 4) ∧ (s.m.sdcSt ≠ sdcSafe) ∧ (s.m.sdcSt ≠ sdcFault) ∧
      (s.m.sdcSt ≠ sdcLockout) ∧ (s.m.sdc.resetLow = false)) ∧
    (∃ (s : State), (s.m.grp.length = 8) ∧ (s.m.sec.length = 4) ∧ (s.m.sdcSt ≠ sdcSafe) ∧ (s.m.sdcSt ≠ sdcFault) ∧
      (s.m.sdcSt ≠ sdcLockout) ∧ (s.m.sdc.oscDemand = false)) ∧
    (∃ (s : State), (s.m.grp.length = 8) ∧ (s.m.sec.length = 4) ∧ (s.m.sdcSt ≠ sdcSafe) ∧ (s.m.sdcSt ≠ sdcFault) ∧
      (s.m.sdcSt ≠ sdcLockout) ∧ (s.m.sdc.b.sdrA ≠ s.m.sdc.b.sdrB) ∧ (s.m.sdc.discFault = false) ∧ (s.m.sdc.relayFault =
      none) ∧ (s.m.get Ob.discTime ≤ s.m.sdc.discRun)) ∧
    (∃ (s : State), (s.m.grp.length = 8) ∧ (s.m.sec.length = 4) ∧ (s.m.sdcSt ≠ sdcSafe) ∧ (s.m.sdcSt ≠ sdcFault) ∧
      (s.m.sdcSt ≠ sdcLockout) ∧ (s.m.sdcSt = sdcTestK1) ∧ (s.m.readsClosed false = false) ∧ (s.m.sdc.relayFault = none)) :=
  ⟨⟨mst (sdcIn 6 {k1 := true, k2 := true}), ⟨false, true, true, true, true, true⟩, by decide +kernel⟩,
   ⟨mst (sdcIn 6 {k1 := true, k2 := true, lostA := 2}), by decide +kernel⟩,
   ⟨mst (sdcIn 6 {k1 := true, k2 := true, lostA := 2}), by decide +kernel⟩,
   ⟨mst (sdcIn 7 {k1 := true, k2 := true}), by decide +kernel⟩,
   ⟨mst (sdcIn 0 {}), by decide +kernel⟩,
   ⟨mst
      {upO [(Ob.sdcState, 6), (Ob.discTime, 20)] with sdc := {b := ⟨true, false, true, true, true, true⟩, discRun := 20}},
      by decide +kernel⟩,
   ⟨mst (sdcIn 1 {k1 := true}), by decide +kernel⟩⟩

theorem witness_ConnectionIsSequenced :
    (∃ (s : State), (s.m.grp.length = 8) ∧ (s.m.sec.length = 4) ∧ (s.m.sdcSt = sdcOpen) ∧ (s.m.sdc.request = false) ∧
      (s.m.safeCauses = 0) ∧ (s.m.sdc.resetLow = false) ∧ (s.m.asks = true) ∧ (s.m.sdc.ignored = false)) ∧
    (∃ (s : State) (t : Nat), (s.m.grp.length = 8) ∧ (s.m.sec.length = 4) ∧ (s.m.sdc.readyPs = some t) ∧ (s.m.asks = true)
      ∧ (s.m.sdcSt = sdcTestK1) ∧ (s.m.readsClosed false = true) ∧ (s.m.readsOpen true = true)) ∧
    (∃ (s : State) (t : Nat), (s.m.grp.length = 8) ∧ (s.m.sec.length = 4) ∧ (s.m.sdc.readyPs = some t) ∧ (s.m.asks = true)
      ∧ (s.m.sdcSt = sdcTestK1Off) ∧ (s.m.readsOpen false = true)) ∧
    (∃ (s : State) (t : Nat), (s.m.grp.length = 8) ∧ (s.m.sec.length = 4) ∧ (s.m.sdc.readyPs = some t) ∧ (s.m.asks = true)
      ∧ (s.m.sdcSt = sdcTestK2) ∧ (s.m.readsClosed true = true) ∧ (s.m.readsOpen false = true)) ∧
    (∃ (s : State) (t : Nat), (s.m.grp.length = 8) ∧ (s.m.sec.length = 4) ∧ (s.m.sdc.readyPs = some t) ∧ (s.m.asks = true)
      ∧ (s.m.sdcSt = sdcTestK2Off) ∧ (s.m.readsOpen true = true)) ∧
    (∃ (s : State) (t : Nat), (s.m.grp.length = 8) ∧ (s.m.sec.length = 4) ∧ (s.m.sdc.readyPs = some t) ∧ (s.m.asks = true)
      ∧ (s.m.sdcSt = sdcClosing) ∧ (s.m.sdc.second = false) ∧ (s.m.readsClosed false = true)) ∧
    (∃ (s : State) (t : Nat), (s.m.grp.length = 8) ∧ (s.m.sec.length = 4) ∧ (s.m.sdc.readyPs = some t) ∧ (s.m.asks = true)
      ∧ (s.m.sdcSt = sdcClosing) ∧ (s.m.sdc.second = true) ∧ (s.m.readsClosed false = true) ∧ (s.m.readsClosed true =
      true)) ∧
    (∃ (s : State), (s.m.grp.length = 8) ∧ (s.m.sec.length = 4) ∧ (testing s.m.sdcSt = true) ∧ (s.m.asks = false)) ∧
    (∃ (s : State), (s.m.grp.length = 8) ∧ (s.m.sec.length = 4) ∧ (s.m.sdcSt = sdcClosed) ∧ (s.m.sdc.overdue = false)) ∧
    (∃ (s : State), (s.m.grp.length = 8) ∧ (s.m.sec.length = 4) ∧ (testing s.m.sdcSt = true)) ∧
    (∃ (s : State), (s.m.grp.length = 8) ∧ (s.m.sec.length = 4) ∧ (s.m.sdcSt = sdcClosed) ∧ (s.m.get Ob.testDue = 0) ∧
      (s.m.sdc.passedAt.isSome = true)) ∧
    (∃ (s : State), (s.m.grp.length = 8) ∧ (s.m.sec.length = 4) ∧ (s.m.sdcSt = sdcClosed) ∧ (s.m.get Ob.testDue = 1) ∧
      (s.m.sdc.overdue = false)) ∧
    (∃ (s : State) (a : Nat) (b : Nat), (s.m.grp.length = 8) ∧ (s.m.sec.length = 4) ∧ (a ≠ s.kept.sealA ∨ b ≠
      s.kept.sealB) ∧ (s.m.sdc.sealDiff = 2) ∧ (s.m.get Ob.sealPending = 0)) ∧
    (∃ (s : State) (a : Nat) (b : Nat), (s.m.grp.length = 8) ∧ (s.m.sec.length = 4) ∧ (a = s.kept.sealA) ∧ (b =
      s.kept.sealB)) ∧
    (∃ (s : State) (ns : Nat), (s.m.grp.length = 8) ∧ (s.m.sec.length = 4) ∧ (s.m.sdc.resetLow = false) ∧ (s.m.power.power
      = true) ∧ (10000 ≤ ns)) ∧
    (∃ (s : State) (ns : Nat), (s.m.grp.length = 8) ∧ (s.m.sec.length = 4) ∧ (ns < 1000)) ∧
    (∃ (s : State) (seconds : Nat), (s.m.grp.length = 8) ∧ (s.m.sec.length = 4) ∧ (s.m.sdc.resetLow = true) ∧ (10 ≤
      seconds)) ∧
    (∃ (s : State), (s.m.grp.length = 8) ∧ (s.m.sec.length = 4) ∧ (s.m.sdc.resetLow = true)) :=
  ⟨⟨mst {sdcIn 0 {} with sec := List.replicate 4 {ask := true}}, by decide +kernel⟩,
   ⟨mst
      {sdcIn 1 {a := ⟨true, true, false, false, true, true⟩, b := hiIn, k1 := true, readyPs := some 5} with sec := List.replicate 4 {ask := true}},
      5, by decide +kernel⟩,
   ⟨mst {sdcIn 2 {readyPs := some 5} with sec := List.replicate 4 {ask := true}}, 5, by decide +kernel⟩,
   ⟨mst
      {sdcIn 3 {a := ⟨true, true, true, true, false, false⟩, b := hiIn, k2 := true, readyPs := some 5} with sec := List.replicate 4 {ask := true}},
      5, by decide +kernel⟩,
   ⟨mst {sdcIn 4 {readyPs := some 5} with sec := List.replicate 4 {ask := true}}, 5, by decide +kernel⟩,
   ⟨mst
      {sdcIn 5 {a := ⟨true, true, false, false, true, true⟩, b := hiIn, k1 := true, readyPs := some 5} with sec := List.replicate 4 {ask := true}},
      5, by decide +kernel⟩,
   ⟨mst
      {sdcIn 5 {a := ⟨true, true, false, false, false, false⟩, b := hiIn, k1 := true, k2 := true, second := true, readyPs := some 5} with sec := List.replicate 4 {ask := true}},
      5, by decide +kernel⟩,
   ⟨mst (sdcIn 3 {k2 := true, request := true}), by decide +kernel⟩,
   ⟨mst (sdcIn 6 {k1 := true, k2 := true}), by decide +kernel⟩,
   ⟨mst (sdcIn 5 {k1 := true, k2 := true}), by decide +kernel⟩,
   ⟨mst (sdcIn 6 {k1 := true, k2 := true, passedAt := some 0}), by decide +kernel⟩,
   ⟨mst {upO [(Ob.sdcState, 6), (Ob.testDue, 1), (Ob.gfState 3, gfForming)] with sdc := {k1 := true}}, by decide +kernel⟩,
   ⟨mst {up with sdc := {sealDiff := 2}}, 5, 6, by decide +kernel⟩,
   ⟨mst {up with sdc := {sealDiff := 2}}, 0, 0, by decide +kernel⟩,
   ⟨mst {up with power := {power := true}}, 10000, by decide +kernel⟩,
   ⟨mst {up with power := {power := true}}, 999, by decide +kernel⟩,
   ⟨mst {up with sdc := {resetLow := true}}, 70000, by decide +kernel⟩,
   ⟨mst {up with sdc := {resetLow := true}}, by decide +kernel⟩⟩

theorem witness_TimeIsDisciplined :
    (∃ (s : State) (a : PtpMsg) (k : Nat) (e : Nat), (k < 4) ∧ (e < 64) ∧ (s.m.time.trig.length = 4) ∧ (a.kind =
      PtpKind.announce) ∧ (a.domain = s.m.domainNow) ∧ (s.m.get Ob.slavePort = 255)) ∧
    (∃ (s : State) (a : PtpMsg) (k : Nat) (e : Nat), (k < 4) ∧ (e < 64) ∧ (s.m.time.trig.length = 4) ∧ (a.kind =
      PtpKind.sync) ∧ (a.domain = s.m.domainNow) ∧ (s.m.fromParent a = true) ∧ (a.twoStep = true) ∧ (s.m.syncAccepted
      a.logInterval = true)) ∧
    (∃ (s : State) (a : PtpMsg) (k : Nat) (e : Nat) (t3 : Int) (d : Int), (k < 4) ∧ (e < 64) ∧ (s.m.time.trig.length = 4)
      ∧ (a.kind = PtpKind.delayResp) ∧ (a.domain = s.m.domainNow) ∧ (s.m.fromParent a = true) ∧ (s.m.peerDelay = false) ∧
      (s.m.time.request = some (a.sequenceId, t3)) ∧ (s.m.time.masterTo = some d)) ∧
    (∃ (s : State) (a : PtpMsg) (k : Nat) (e : Nat), (k < 4) ∧ (e < 64) ∧ (s.m.time.trig.length = 4) ∧ (a.domain ≠
      s.m.domainNow ∨ a.kind = PtpKind.sync ∧ s.m.syncAccepted a.logInterval = false ∨ a.kind = PtpKind.management)) ∧
    (∃ (s : State) (k : Nat) (e : Nat), (k < 4) ∧ (e < 64) ∧ (s.m.time.trig.length = 4)) ∧
    (∃ (s : State) (k : Nat) (e : Nat), (k < 4) ∧ (e < 64) ∧ (s.m.time.trig.length = 4) ∧ (s.m.timeSt = timeLocked ∨
      s.m.timeSt = timeAcquiring)) ∧
    (∃ (s : State) (k : Nat) (e : Nat), (k < 4) ∧ (e < 64) ∧ (s.m.time.trig.length = 4) ∧ (s.m.timeSt = timeHoldover)) ∧
    (∃ (s : State) (k : Nat) (e : Nat), (k < 4) ∧ (e < 64) ∧ (s.m.time.trig.length = 4) ∧ (s.m.get Ob.timeSource ≠ 1)) ∧
    (∃ (s : State) (k : Nat) (e : Nat), (k < 4) ∧ (e < 64) ∧ (s.m.time.trig.length = 4) ∧ (s.m.get Ob.ppsOutMode = 1) ∧
      (s.m.timeSt = timeLocked)) ∧
    (∃ (s : State) (k : Nat) (e : Nat), (k < 4) ∧ (e < 64) ∧ (s.m.time.trig.length = 4) ∧ (s.m.get Ob.ppsOutMode = 0)) ∧
    (∃ (s : State) (k : Nat) (e : Nat) (t : Int), (k < 4) ∧ (e < 64) ∧ (s.m.time.trig.length = 4) ∧ ((s.m.trigAt k).next =
      some t) ∧ ((s.m.trigAt k).suspended = false) ∧ ((s.m.trigAt k).left = none) ∧ (s.m.get (Ob.trigMode k) = 2)) ∧
    (∃ (s : State) (k : Nat) (e : Nat) (x : Sched), (k < 4) ∧ (e < 64) ∧ (s.m.time.trig.length = 4) ∧ (List.find? (fun y
      => decide (y.entry = e)) s.m.sched = some x) ∧ (x.suspended = false) ∧ (s.m.entryStaged e = false) ∧ (x.applyAt ≤
      s.m.clk.taiBase + ↑((s.m.clk.t0Ps + s.m.tickPs) / 1000))) :=
  ⟨⟨mst (upO [(Ob.slavePort, 255)]), ptp .announce ((upO []).get Ob.ptpDomain), 3, 63, by decide +kernel⟩,
   ⟨mst (upO [(Ob.slavePort, 1), (Ob.parentId, 9)]), ptp .sync ((upO []).get Ob.ptpDomain), 3, 63, by decide +kernel⟩,
   ⟨mst
      {upO [(Ob.slavePort, 1), (Ob.parentId, 9), (Ob.ptpProfile, 0)] with time := {request := some (4, 300), masterTo := some 44}},
      ptp .delayResp ((upO []).get Ob.ptpDomain), 3, 63, 300, 44, by decide +kernel⟩,
   ⟨mst up, ptp .sync (1 + (upO []).get Ob.ptpDomain), 3, 63, by decide +kernel⟩,
   ⟨mst up, 3, 63, by decide +kernel⟩,
   ⟨mst (upO [(Ob.timeState, timeLocked)]), 3, 63, by decide +kernel⟩,
   ⟨mst (upO [(Ob.timeState, timeHoldover)]), 3, 63, by decide +kernel⟩,
   ⟨mst (upO [(Ob.timeSource, 0)]), 3, 63, by decide +kernel⟩,
   ⟨mst (upO [(Ob.timeState, timeLocked), (Ob.ppsOutMode, 1)]), 3, 63, by decide +kernel⟩,
   ⟨mst (upO [(Ob.ppsOutMode, 0)]), 3, 63, by decide +kernel⟩,
   ⟨mst {upO [(Ob.trigMode 3, 2), (Ob.trigPeriod 3, 50)] with time := {trig := List.replicate 4 {next := some 30}}}, 3,
      63, 30, by decide +kernel⟩,
   ⟨mst {up with sched := [{entry := 63, applyAt := 5, snd := .mbx 1, seq := 8, writes := [], order := 4}]}, 3, 63,
      {entry := 63, applyAt := 5, snd := .mbx 1, seq := 8, writes := [], order := 4}, by decide +kernel⟩⟩

theorem witness_NetworkServicesAnswer :
    (∃ (s : State) (addr : Nat) (j : Nat), (s.m.link.ready = true) ∧ ((s.m.net.banned.all fun x => decide (x.fst ≠ addr))
      = true) ∧ (s.m.freeKey 0 8 = some j)) ∧
    (∃ (s : State) (addr : Nat), (s.m.link.ready = true) ∧ ((s.m.net.banned.all fun x => decide (x.fst ≠ addr)) = true) ∧
      (s.m.freeKey 0 8 = none)) ∧
    (∃ (s : State) (k : Nat) (p : TlsPeer) (x : Session) (role : Nat) (head : Bool), (s.m.link.ready = true) ∧ (List.find?
      (fun x => decide (x.snd.kind = SessKind.ghp3) && !x.snd.tls && decide (x.snd.addr = p.addr)) s.m.sess = some (k, x))
      ∧ ((s.m.sessAt k).isSome = true) ∧ (s.m.peerGrant p = some (role, head))) ∧
    (∃ (s : State) (k : Nat) (p : TlsPeer) (x : Session), (s.m.link.ready = true) ∧ (List.find? (fun x => decide
      (x.snd.kind = SessKind.ghp3) && !x.snd.tls && decide (x.snd.addr = p.addr)) s.m.sess = some (k, x)) ∧ ((s.m.sessAt
      k).isSome = true) ∧ (s.m.peerGrant p = none)) ∧
    (∃ (s : State) (k : Nat) (x : Session), (s.m.link.ready = true) ∧ (s.m.sessAt k = some x) ∧ (x.kind = SessKind.ghp3)) ∧
    (∃ (s : State) (port : Nat) (status : Nat), (s.m.link.ready = true) ∧ (port < 2) ∧ (status < 256) ∧ (s.m.get
      (Ob.portLink port) ≠ status)) ∧
    (∃ (s : State) (start : Nat) (count : Nat) (rq : MbReq) (l : List (Nat × Nat × Nat)) (vs : List Nat), (s.m.link.ready
      = true) ∧ (s.m.mbServed rq false = true) ∧ (0 < count) ∧ (count ≤ 125) ∧ (s.m.mbCover false 257 start count = some
      l) ∧ (Mod.mbValues s.kept (Sender.modbus rq.order) l s.m = Except.ok vs)) ∧
    (∃ (s : State) (start : Nat) (count : Nat) (rq : MbReq), (s.m.link.ready = true) ∧ (s.m.mbServed rq false = true) ∧ (0
      < count) ∧ (count ≤ 125) ∧ (s.m.mbCover false 257 start count = none)) ∧
    (∃ (s : State) (start : Nat) (count : Nat) (rq : MbReq) (l : List (Nat × Nat × Nat)) (vs : List Nat), (s.m.link.ready
      = true) ∧ (s.m.mbServed rq false = true) ∧ (0 < count) ∧ (count ≤ 125) ∧ (s.m.mbCover true 257 start count = some l)
      ∧ (Mod.mbValues s.kept (Sender.modbus rq.order) l s.m = Except.ok vs)) ∧
    (∃ (s : State) (start : Nat) (count : Nat) (rq : MbReq), (s.m.link.ready = true) ∧ (s.m.mbServed rq false = true) ∧ (0
      < count) ∧ (count ≤ 125) ∧ (s.m.mbCover true 257 start count = none)) ∧
    (∃ (s : State) (rq : MbReq) (values : List Nat), (s.m.link.ready = true) ∧ (s.m.mbServed rq true = true) ∧ ((rq.rtu &&
      decide (rq.address = 0)) = false) ∧ (values ≠ []) ∧ (values.length ≤ 123) ∧ (s.m.get Ob.mbWriteEn ≠ 1)) ∧
    (∃ (s : State) (start : Nat) (rq : MbReq) (values : List Nat) (l : List (Nat × Nat × Nat)) (ws : List (Nat × List
      Byte)), (s.m.link.ready = true) ∧ (s.m.mbServed rq true = true) ∧ ((rq.rtu && decide (rq.address = 0)) = false) ∧
      (values ≠ []) ∧ (values.length ≤ 123) ∧ (s.m.get Ob.mbWriteEn = 1) ∧ (s.m.mbCover false 257 start values.length =
      some l) ∧ ((l.all fun x => bit (s.m.get (Ob.mbFlags x.fst)) 0) = true) ∧ (mbWrites l values = some ws) ∧
      (s.m.firstRefused (Sender.modbus rq.order) s.m.stagedWrites ws = none)) ∧
    (∃ (s : State) (reg : Nat) (value : Nat) (rq : MbReq) (values : List Nat) (l : List (Nat × Nat × Nat)) (ws : List (Nat
      × List Byte)), (s.m.link.ready = true) ∧ (s.m.mbServed rq true = true) ∧ ((rq.rtu && decide (rq.address = 0)) =
      false) ∧ (values ≠ []) ∧ (values.length ≤ 123) ∧ (s.m.get Ob.mbWriteEn = 1) ∧ (s.m.mbCover false 257 reg 1 = some l)
      ∧ ((l.all fun x => bit (s.m.get (Ob.mbFlags x.fst)) 0) = true) ∧ (mbWrites l [value] = some ws) ∧ (s.m.firstRefused
      (Sender.modbus rq.order) s.m.stagedWrites ws = none)) ∧
    (∃ (s : State) (dq : DnpReq), (s.m.link.ready = true) ∧ (dq.serial = true) ∧ (s.m.get Ob.rs485Protocol = 2) ∧
      (dq.master = s.m.get Ob.dnpMaster) ∧ (dq.dest = s.m.get Ob.dnpAddr) ∧ (dq.ops = []) ∧ (dq.confirm = 0)) ∧
    (∃ (s : State) (dq : DnpReq), (s.m.link.ready = true) ∧ (dq.serial = true) ∧ (s.m.get Ob.rs485Protocol = 2) ∧
      (dq.master ≠ s.m.get Ob.dnpMaster ∨ dq.dest ≠ s.m.get Ob.dnpAddr)) :=
  ⟨⟨mst up, 5, 0, by decide +kernel⟩,
   ⟨mst {up with sess := (List.range 8).map fun k => (k, {kind := .ghp3, addr := 4})}, 5, by decide +kernel⟩,
   ⟨mst
      {up with sess := [(3, {kind := .ghp3, addr := 5})], obj := [(Ob.utcOffset, 0)] ++ up.obj, secu := {anchors := [[1], [], [], []]}, time := {stepped := true}},
      3, peer, {kind := .ghp3, addr := 5}, 3, false, by decide +kernel⟩,
   ⟨mst {up with sess := [(3, {kind := .ghp3, addr := 5})]}, 3, peer, {kind := .ghp3, addr := 5}, by decide +kernel⟩,
   ⟨mst {up with sess := [(3, {kind := .ghp3, addr := 5})]}, 3, {kind := .ghp3, addr := 5}, by decide +kernel⟩,
   ⟨mst up, 1, 255, by decide +kernel⟩,
   ⟨mst (mapped 0), 40, 2, ⟨true, 3, 1⟩, [(7, Ob.setpoint 0, 2)], [0, 0], by decide +kernel, by decide +kernel, by
      decide, by decide, by decide +kernel, rfl⟩,
   ⟨mst (mapped 0), 40, 1, ⟨true, 3, 1⟩, by decide +kernel⟩,
   ⟨mst (mapped 2), 40, 2, ⟨true, 3, 1⟩, [(7, Ob.setpoint 0, 2)], [0, 0], by decide +kernel, by decide +kernel, by
      decide, by decide, by decide +kernel, rfl⟩,
   ⟨mst (mapped 0), 40, 2, ⟨true, 3, 1⟩, by decide +kernel⟩,
   ⟨mst (mapped 0), ⟨true, 3, 1⟩, [2], by decide +kernel⟩,
   ⟨mst (mapped 1), 40, ⟨true, 3, 1⟩, [1, 2], [(7, Ob.setpoint 0, 2)], [(Ob.setpoint 0, [2, 0, 1, 0])],
      by decide +kernel⟩,
   ⟨mst {mapped 1 with obj := [(Ob.mbObj 7, Ob.injPoint / 256), (Ob.mbSub 7, Ob.injPoint % 256)] ++ (mapped 1).obj}, 40,
      1, ⟨true, 3, 1⟩, [1], [(7, Ob.injPoint, 1)], [(Ob.injPoint, [1])], by decide +kernel⟩,
   ⟨mst (upO [(Ob.rs485Protocol, 2)]), dreq, by decide +kernel⟩,
   ⟨mst (upO [(Ob.rs485Protocol, 2)]), {dreq with dest := 11}, by decide +kernel⟩⟩

theorem witness_FieldChannelsAct :
    (∃ (s : State) (n : Nat) (g : Nat) (l : Nat) (k : Nat), (n < 32) ∧ (g < 4) ∧ (l < 2) ∧ (k < 8) ∧ (s.m.fld.length = 32)
      ∧ (s.m.fgrp.length = 4) ∧ (s.m.rime.length = 2) ∧ ((s.m.rimeAt l).missIn < 4)) ∧
    (∃ (s : State) (n : Nat) (g : Nat) (l : Nat) (k : Nat), (n < 32) ∧ (g < 4) ∧ (l < 2) ∧ (k < 8) ∧ (s.m.fld.length = 32)
      ∧ (s.m.fgrp.length = 4) ∧ (s.m.rime.length = 2) ∧ ((s.m.rimeAt l).missIn < 3)) ∧
    (∃ (s : State) (n : Nat) (g : Nat) (l : Nat) (k : Nat), (n < 32) ∧ (g < 4) ∧ (l < 2) ∧ (k < 8) ∧ (s.m.fld.length = 32)
      ∧ (s.m.fgrp.length = 4) ∧ (s.m.rime.length = 2) ∧ (s.m.lane = l) ∧ ((s.m.rimeAt l).lost = false)) ∧
    (∃ (s : State) (n : Nat) (g : Nat) (l : Nat) (k : Nat) (rd : FieldReading), (n < 32) ∧ (g < 4) ∧ (l < 2) ∧ (k < 8) ∧
      (s.m.fld.length = 32) ∧ (s.m.fgrp.length = 4) ∧ (s.m.rime.length = 2) ∧ (n = 8 * g + k) ∧ (s.m.get (Ob.fioMode n) =
      1) ∧ (s.m.inputLive n = true) ∧ (15000 ≤ rd.volts.getD k 0)) ∧
    (∃ (s : State) (n : Nat) (g : Nat) (l : Nat) (k : Nat) (t : Nat), (n < 32) ∧ (g < 4) ∧ (l < 2) ∧ (k < 8) ∧
      (s.m.fld.length = 32) ∧ (s.m.fgrp.length = 4) ∧ (s.m.rime.length = 2) ∧ (s.m.get (Ob.maxActive n) ≠ 0) ∧ (bit
      (s.m.get Ob.fieldIn) n = true) ∧ ((s.m.fldAt n).maxDone = false) ∧ ((s.m.fldAt n).onePs = some t)) ∧
    (∃ (s : State) (n : Nat) (g : Nat) (l : Nat) (k : Nat), (n < 32) ∧ (g < 4) ∧ (l < 2) ∧ (k < 8) ∧ (s.m.fld.length = 32)
      ∧ (s.m.fgrp.length = 4) ∧ (s.m.rime.length = 2) ∧ (∀ (j : Nat), j < 32 → (s.m.fldAt j).changes ≤ s.m.get
      Ob.chatterLimit)) ∧
    (∃ (s : State) (n : Nat) (g : Nat) (l : Nat) (k : Nat) (t : Nat), (n < 32) ∧ (g < 4) ∧ (l < 2) ∧ (k < 8) ∧
      (s.m.fld.length = 32) ∧ (s.m.fgrp.length = 4) ∧ (s.m.rime.length = 2) ∧ (s.m.get (Ob.fioMode n) = 2) ∧
      (s.m.fldRetired n = false) ∧ (s.m.get (Ob.groupState (n / 8)) ≠ 1) ∧ ((s.m.fldAt n).on = true) ∧ ((s.m.fldAt
      n).limitPs = some t)) ∧
    (∃ (s : State) (n : Nat) (g : Nat) (l : Nat) (k : Nat), (n < 32) ∧ (g < 4) ∧ (l < 2) ∧ (k < 8) ∧ (s.m.fld.length = 32)
      ∧ (s.m.fgrp.length = 4) ∧ (s.m.rime.length = 2) ∧ (s.m.get (Ob.fioMode n) = 2) ∧ (s.m.fldRetired n = false) ∧
      (s.m.get (Ob.groupState (n / 8)) ≠ 1) ∧ ((s.m.fldAt n).hot = false)) ∧
    (∃ (s : State) (n : Nat) (g : Nat) (l : Nat) (k : Nat) (t : Nat), (n < 32) ∧ (g < 4) ∧ (l < 2) ∧ (k < 8) ∧
      (s.m.fld.length = 32) ∧ (s.m.fgrp.length = 4) ∧ (s.m.rime.length = 2) ∧ ((s.m.fgrp.getD g { }).overDone = false) ∧
      ((s.m.fgrp.getD g { }).overPs = some t)) ∧
    (∃ (s : State) (n : Nat) (g : Nat) (l : Nat) (k : Nat) (t : Nat), (n < 32) ∧ (g < 4) ∧ (l < 2) ∧ (k < 8) ∧
      (s.m.fld.length = 32) ∧ (s.m.fgrp.length = 4) ∧ (s.m.rime.length = 2) ∧ ((s.m.fgrp.getD g { }).calmPs = some t)) ∧
    (∃ (s : State) (n : Nat) (g : Nat) (l : Nat) (k : Nat) (t : Nat), (n < 32) ∧ (g < 4) ∧ (l < 2) ∧ (k < 8) ∧
      (s.m.fld.length = 32) ∧ (s.m.fgrp.length = 4) ∧ (s.m.rime.length = 2) ∧ ((s.m.fldAt n).openDone = false) ∧ (s.m.get
      (Ob.openLoadEn n) = 1) ∧ ((s.m.fldAt n).on = true) ∧ ((s.m.fldAt n).openPs = some t)) ∧
    (∃ (s : State) (n : Nat) (g : Nat) (l : Nat) (k : Nat) (volts : List (Nat × Nat)), (n < 32) ∧ (g < 4) ∧ (l < 2) ∧ (k <
      8) ∧ (s.m.fld.length = 32) ∧ (s.m.fgrp.length = 4) ∧ (s.m.rime.length = 2) ∧ (200 ≤ lastRun (fun v => !(decide (1920
      ≤ v) && decide (v ≤ 3000))) volts) ∧ ((s.m.fgrp.getD g { }).armed = true)) ∧
    (∃ (s : State) (n : Nat) (g : Nat) (l : Nat) (k : Nat) (volts : List (Nat × Nat)), (n < 32) ∧ (g < 4) ∧ (l < 2) ∧ (k <
      8) ∧ (s.m.fld.length = 32) ∧ (s.m.fgrp.length = 4) ∧ (s.m.rime.length = 2) ∧ (s.m.get (Ob.groupState g) ≠ 1) ∧ (2 ≤
      lastRun (fun v => decide (v < 1600)) volts)) ∧
    (∃ (s : State) (n : Nat) (g : Nat) (l : Nat) (k : Nat) (volts : List (Nat × Nat)), (n < 32) ∧ (g < 4) ∧ (l < 2) ∧ (k <
      8) ∧ (s.m.fld.length = 32) ∧ (s.m.fgrp.length = 4) ∧ (s.m.rime.length = 2) ∧ (lastRun (fun v => decide (v < 1600))
      volts < 2)) ∧
    (∃ (s : State) (n : Nat) (g : Nat) (l : Nat) (k : Nat) (volts : List (Nat × Nat)), (n < 32) ∧ (g < 4) ∧ (l < 2) ∧ (k <
      8) ∧ (s.m.fld.length = 32) ∧ (s.m.fgrp.length = 4) ∧ (s.m.rime.length = 2) ∧ (s.m.get (Ob.groupState g) = 1) ∧ (400
      ≤ lastRun (fun v => decide (1800 < v)) volts)) :=
  ⟨⟨mst {up with rime := List.replicate 2 {missIn := 3}}, 31, 3, 1, 7, by decide +kernel⟩,
   ⟨mst {up with rime := List.replicate 2 {missIn := 2}}, 31, 3, 1, 7, by decide +kernel⟩,
   ⟨mst (upO [(Ob.activeLane, 1)]), 31, 3, 1, 7, by decide +kernel⟩,
   ⟨mst (upO [(Ob.fioMode 31, 1)]), 31, 3, 1, 7, ⟨List.replicate 8 15000, List.replicate 8 0, List.replicate 8 false,
      List.replicate 8 false⟩, by decide +kernel⟩,
   ⟨mst
      {upO [(Ob.fioMode 31, 1), (Ob.maxActive 31, 5), (Ob.fieldIn, 2 ^ 31)] with fld := List.replicate 32 {onePs := some 5}},
      31, 3, 1, 7, 5, by decide +kernel⟩,
   ⟨mst {up with fld := List.replicate 32 {changes := 1}}, 31, 3, 1, 7, by decide +kernel⟩,
   ⟨mst {upO [(Ob.fioMode 31, 2)] with fld := List.replicate 32 {on := true, limitPs := some 5}}, 31, 3, 1, 7, 5,
      by decide +kernel⟩,
   ⟨mst {upO [(Ob.fioMode 31, 2)] with fld := List.replicate 32 {on := true}}, 31, 3, 1, 7, by decide +kernel⟩,
   ⟨mst {up with fgrp := List.replicate 4 {overPs := some 5}}, 31, 3, 1, 7, 5, by decide +kernel⟩,
   ⟨mst {up with fgrp := List.replicate 4 {overDone := true, calmPs := some 5}}, 31, 3, 1, 7, 5, by decide +kernel⟩,
   ⟨mst {upO [(Ob.fioMode 31, 2), (Ob.openLoadEn 31, 1)] with fld := List.replicate 32 {on := true, openPs := some 5}},
      31, 3, 1, 7, 5, by decide +kernel⟩,
   ⟨mst up, 31, 3, 1, 7, [(2400, 5), (3001, 200)], by decide +kernel⟩,
   ⟨mst up, 31, 3, 1, 7, [(1599, 2)], by decide +kernel⟩,
   ⟨mst up, 31, 3, 1, 7, [(1599, 2), (1600, 1)], by decide +kernel⟩,
   ⟨mst (upO [(Ob.groupState 3, 1)]), 31, 3, 1, 7, [(1801, 400)], by decide +kernel⟩⟩

theorem witness_ThermalAndCoolingAct :
    (∃ (s : State) (p : Nat), (s.m.levelOn 0 = true) ∧ (s.m.get Ob.throttleStep < 3) ∧ (s.m.therm.throtPs = some p)) ∧
    (∃ (s : State) (p : Nat), (s.m.levelOn 0 = false) ∧ (1 < s.m.get Ob.throttleStep) ∧ (s.m.therm.throtPs = some p)) ∧
    (∃ (s : State) (p : Nat), (s.m.get Ob.thermalState = 2) ∧ (s.m.derateOn = true) ∧ (s.m.therm.gracePs = some p)) ∧
    (∃ (s : State) (code : Nat) (p : Nat), (s.m.get Ob.cdFault = 0) ∧ (Mod.cdFaultDue code s.m = some p)) ∧
    (∃ (s : State) (code : Nat), (Mod.cdFaultDue code s.m = none)) ∧
    (∃ (s : State) (p : Nat), (s.m.cd.heldPs = some p)) ∧
    (∃ (ns : Nat), (10000 ≤ ns)) ∧
    (∃ (ns : Nat), (8000 ≤ ns) ∧ (ns < 10000)) ∧
    (∃ (ns : Nat), (ns < 8000)) ∧
    (∃ (s : State), (s.m.cd.waiting = true)) ∧
    (∃ (rpm : Nat) (ma : Nat) (cv : Nat), (rpm ≤ 65535) ∧ (ma ≤ 65535) ∧ (cv ≤ 65535)) ∧
    (∃ (s : State) (h : Nat) (hi : Nat) (lo : Nat), (s.m.cdRuns = true) ∧ ((h, hi, lo) ∈ [(4, 0, 1), (6, 0, 2), (2, 1, 2),
      (3, 1, 0), (1, 2, 0), (5, 2, 1)])) ∧
    (∃ (h : Nat), (h = 0 ∨ h = 7)) :=
  ⟨⟨mst {upO [(Ob.throttleStep, 2)] with therm := {levels := List.replicate 19 {on := true}, throtPs := some 5}}, 5,
      by decide +kernel⟩,
   ⟨mst {upO [(Ob.throttleStep, 2)] with therm := {throtPs := some 5}}, 5, by decide +kernel⟩,
   ⟨mst {upO [(Ob.thermalState, 2)] with therm := {levels := List.replicate 19 {on := true}, gracePs := some 5}}, 5,
      by decide +kernel⟩,
   ⟨mst {up with cd := {enable := true, busGood := true, dutyPs := some 5}}, 0x5812, 500000000005, by decide +kernel⟩,
   ⟨mst {up with cd := {enable := true, busGood := true}}, 0x5812, by decide +kernel⟩,
   ⟨mst {up with cd := {enable := true, busGood := true, phases := some (0, 1), duty := 100, heldPs := some 5}}, 5,
      by decide +kernel⟩,
   ⟨10000, by decide +kernel⟩,
   ⟨8000, by decide +kernel⟩,
   ⟨7999, by decide +kernel⟩,
   ⟨mst {upO [(Ob.cdFault, 0x5810)] with cd := {enable := true, waiting := true}}, by decide +kernel⟩,
   ⟨65535, 65535, 65535, by decide +kernel⟩,
   ⟨mst {up with cd := {enable := true, busGood := true}}, 5, 2, 1, by decide +kernel⟩,
   ⟨7, by decide +kernel⟩⟩

theorem witness_ClocksAndHousekeepingAct :
    (∃ (s : State) (l : Nat) (i : Nat) (dev : Int) (r : HkRound), (l < 2) ∧ (i < 19) ∧ (s.m.lanes.length = 2) ∧
      (s.m.hk.refMoved.length = 2) ∧ (s.m.hk.margins.length = 2) ∧ (s.m.hk.groundBad.length = 2) ∧ (r.conv = l) ∧
      (s.m.hk.moving = 0) ∧ (s.m.hk.refMoved.getD l false = false) ∧ (dev.natAbs ≤ 1000) ∧ ((s.m.laneAt l).good = 7) ∧
      (s.m.get (Ob.adpllState l) = 0)) ∧
    (∃ (s : State) (l : Nat) (i : Nat) (dev : Int) (r : HkRound), (l < 2) ∧ (i < 19) ∧ (s.m.lanes.length = 2) ∧
      (s.m.hk.refMoved.length = 2) ∧ (s.m.hk.margins.length = 2) ∧ (s.m.hk.groundBad.length = 2) ∧ (r.conv = l) ∧
      (s.m.hk.moving = 0) ∧ (s.m.hk.refMoved.getD l false = false) ∧ (10000 < dev.natAbs) ∧ (1 ≤ (s.m.laneAt l).bad) ∧
      (s.m.get (Ob.adpllState l) = 1)) ∧
    (∃ (s : State) (l : Nat) (i : Nat) (r : HkRound), (l < 2) ∧ (i < 19) ∧ (s.m.lanes.length = 2) ∧
      (s.m.hk.refMoved.length = 2) ∧ (s.m.hk.margins.length = 2) ∧ (s.m.hk.groundBad.length = 2) ∧ (r.conv = l) ∧
      (s.m.hk.moving ≠ 0)) ∧
    (∃ (s : State) (l : Nat) (i : Nat) (r : HkRound), (l < 2) ∧ (i < 19) ∧ (s.m.lanes.length = 2) ∧
      (s.m.hk.refMoved.length = 2) ∧ (s.m.hk.margins.length = 2) ∧ (s.m.hk.groundBad.length = 2) ∧ (r.conv = l) ∧
      (s.m.hk.tcxoLost = false) ∧ (s.m.get (Ob.refSource 0) = 0) ∧ (s.m.get (Ob.refSource 1) = 0)) ∧
    (∃ (s : State) (l : Nat) (i : Nat) (r : HkRound), (l < 2) ∧ (i < 19) ∧ (s.m.lanes.length = 2) ∧
      (s.m.hk.refMoved.length = 2) ∧ (s.m.hk.margins.length = 2) ∧ (s.m.hk.groundBad.length = 2) ∧ (r.conv = l) ∧
      (s.m.hk.tcxoLost = true) ∧ (s.m.get (Ob.refSource 0) = 1) ∧ (s.m.get (Ob.refSource 1) = 1)) ∧
    (∃ (s : State) (l : Nat) (i : Nat) (r : HkRound), (l < 2) ∧ (i < 19) ∧ (s.m.lanes.length = 2) ∧
      (s.m.hk.refMoved.length = 2) ∧ (s.m.hk.margins.length = 2) ∧ (s.m.hk.groundBad.length = 2) ∧ (r.conv = l) ∧ (s.m.get
      (Ob.hkState l) = 0) ∧ (1248750 ≤ r.refUv) ∧ (r.refUv ≤ 1251250) ∧ (r.groundUv.natAbs ≤ 100)) ∧
    (∃ (s : State) (l : Nat) (i : Nat) (r : HkRound), (l < 2) ∧ (i < 19) ∧ (s.m.lanes.length = 2) ∧
      (s.m.hk.refMoved.length = 2) ∧ (s.m.hk.margins.length = 2) ∧ (s.m.hk.groundBad.length = 2) ∧ (r.conv = l) ∧ (s.m.get
      (Ob.hkState l) = 0) ∧ (s.m.hk.groundBad.getD l 0 = 2) ∧ (100 < r.groundUv.natAbs)) ∧
    (∃ (s : State) (l : Nat) (i : Nat) (sq : Nat) (r : HkRound), (l < 2) ∧ (i < 19) ∧ (s.m.lanes.length = 2) ∧
      (s.m.hk.refMoved.length = 2) ∧ (s.m.hk.margins.length = 2) ∧ (s.m.hk.groundBad.length = 2) ∧ (r.conv = l) ∧
      (s.m.hk.urgent = some (sq, i, l))) :=
  ⟨⟨mst {up with lanes := List.replicate 2 {good := 7}}, 1, 18, -1000, rnd 1, by decide +kernel⟩,
   ⟨mst {upO [(Ob.adpllState 1, 1)] with lanes := List.replicate 2 {bad := 1}}, 1, 18, -10001, rnd 1, by decide +kernel⟩,
   ⟨mst {up with hk := {moving := 3}}, 1, 18, rnd 1, by decide +kernel⟩,
   ⟨mst up, 1, 18, rnd 1, by decide +kernel⟩,
   ⟨mst {upO [(Ob.refSource 0, 1), (Ob.refSource 1, 1)] with hk := {tcxoLost := true}}, 1, 18, rnd 1, by decide +kernel⟩,
   ⟨mst up, 1, 18, rnd 1, by decide +kernel⟩,
   ⟨mst {up with hk := {groundBad := [0, 2]}}, 1, 18, {rnd 1 with groundUv := -101}, by decide +kernel⟩,
   ⟨mst {up with hk := {urgent := some (3, 18, 1)}}, 1, 18, 3, rnd 1, by decide +kernel⟩⟩

theorem witness_SecurityGoesOn :
    (∃ (s : State) (a : Nat) (n : Nat) (w : Nat) (sq : Nat) (p : Nat) (q : Nat), (n < 4) ∧ (w < 5) ∧ (sq < 65536) ∧
      (s.m.mbx.length = 4) ∧ (s.kept.rollback.length = 64) ∧ (s.m.secu.running.length = 2) ∧ (s.m.lane < 2) ∧ (List.find?
      (fun x => decide (x.fst = a)) s.m.net.banned = some (q, p))) ∧
    (∃ (s : State) (n : Nat) (w : Nat) (sq : Nat) (p : Nat), (n < 4) ∧ (w < 5) ∧ (sq < 65536) ∧ (s.m.mbx.length = 4) ∧
      (s.kept.rollback.length = 64) ∧ (s.m.secu.running.length = 2) ∧ (s.m.lane < 2) ∧ ((s.m.chanOf (Sender.mbx
      n)).blocked = some p)) ∧
    (∃ (s : State) (n : Nat) (w : Nat) (sq : Nat), (n < 4) ∧ (w < 5) ∧ (sq < 65536) ∧ (s.m.mbx.length = 4) ∧
      (s.kept.rollback.length = 64) ∧ (s.m.secu.running.length = 2) ∧ (s.m.lane < 2) ∧ ((s.m.chanOf (Sender.mbx
      n)).blocked = none)) ∧
    (∃ (s : State) (n : Nat) (w : Nat) (d : Nat) (sq : Nat), (n < 4) ∧ (w < 5) ∧ (sq < 65536) ∧ (s.m.mbx.length = 4) ∧
      (s.kept.rollback.length = 64) ∧ (s.m.secu.running.length = 2) ∧ (s.m.lane < 2) ∧ (w = 0 → s.m.secu.opCert ≠ []) ∧ (w
      ≠ 0 → s.m.secu.anchors.getD (w - 1) [] ≠ []) ∧ (d ≤ 30) ∧ (¬w ∈ s.m.secu.told)) ∧
    (∃ (s : State) (n : Nat) (w : Nat) (sq : Nat) (ia : ImageInfo) (ib : ImageInfo), (n < 4) ∧ (w < 5) ∧ (sq < 65536) ∧
      (s.m.mbx.length = 4) ∧ (s.kept.rollback.length = 64) ∧ (s.m.secu.running.length = 2) ∧ (s.m.lane < 2) ∧
      (s.m.secu.staging = some sq) ∧ (ia.target = 0 ∨ ia.target = 1 ∨ ia.target = 2) ∧ (ib.target = ia.target) ∧ (∀ (x :
      ImageInfo), x ∈ [ia, ib] → x.magicOk = true ∧ x.digestOk = true ∧ s.kept.rollback.getD x.counter 0 ≤ x.secVersion ∧
      x.dev = false ∧ x.hashFused = true ∧ x.revoked = false ∧ x.sigOk = true)) ∧
    (∃ (s : State) (n : Nat) (w : Nat) (sq : Nat) (ia : ImageInfo) (ib : ImageInfo), (n < 4) ∧ (w < 5) ∧ (sq < 65536) ∧
      (s.m.mbx.length = 4) ∧ (s.kept.rollback.length = 64) ∧ (s.m.secu.running.length = 2) ∧ (s.m.lane < 2) ∧
      (s.m.secu.staging = some sq) ∧ (ia.secVersion < s.kept.rollback.getD ia.counter 0 ∨ ia.digestOk = false ∨
      ib.digestOk = false)) ∧
    (∃ (s : State) (n : Nat) (w : Nat) (sq : Nat) (c : Nat) (v : Nat) (img : ImageInfo), (n < 4) ∧ (w < 5) ∧ (sq < 65536)
      ∧ (s.m.mbx.length = 4) ∧ (s.kept.rollback.length = 64) ∧ (s.m.secu.running.length = 2) ∧ (s.m.lane < 2) ∧
      (s.m.secu.running.getD s.m.lane none = some img) ∧ (img.counter = c) ∧ (c < 64) ∧ (img.secVersion = v) ∧ (v ≤ 1023)
      ∧ (s.kept.rollback.getD c 0 < v) ∧ (s.m.cirqueOk = true) ∧ (s.m.isRedundant = true) ∧ (s.m.laneFailing = false)) ∧
    (∃ (s : State) (n : Nat) (w : Nat) (sq : Nat) (c : Nat) (v : Nat) (img : ImageInfo), (n < 4) ∧ (w < 5) ∧ (sq < 65536)
      ∧ (s.m.mbx.length = 4) ∧ (s.kept.rollback.length = 64) ∧ (s.m.secu.running.length = 2) ∧ (s.m.lane < 2) ∧
      (s.m.secu.running.getD s.m.lane none = some img) ∧ (img.counter = c) ∧ (c < 64) ∧ (img.secVersion = v) ∧ (v ≤ 1023)
      ∧ (s.kept.rollback.getD c 0 < v) ∧ (s.m.cirqueOk = true) ∧ (s.m.isRedundant = true) ∧ (s.m.laneFailing = true)) ∧
    (∃ (s : State) (n : Nat) (w : Nat) (sq : Nat), (n < 4) ∧ (w < 5) ∧ (sq < 65536) ∧ (s.m.mbx.length = 4) ∧
      (s.kept.rollback.length = 64) ∧ (s.m.secu.running.length = 2) ∧ (s.m.lane < 2) ∧ (s.m.isRedundant = false)) :=
  ⟨⟨mst {up with net := {banned := [(5, 9), (6, 0)]}}, 5, 3, 4, 0, 9, 5, by decide +kernel⟩,
   ⟨mst {up with mbx := List.replicate 4 {chan := {blocked := some 5}}}, 3, 4, 0, 5, by decide +kernel⟩,
   ⟨mst up, 3, 4, 0, by decide +kernel⟩,
   ⟨mst {up with secu := {anchors := [[1], [], [], [1]]}}, 3, 4, 30, 0, by decide +kernel⟩,
   ⟨mst {up with secu := {staging := some 65535}}, 3, 4, 65535, im 1 2 0 0, im 2 2 1 3, by decide +kernel⟩,
   ⟨mst {up with secu := {staging := some 65535}}, 3, 4, 65535, im 1 2 0 0, {im 2 2 1 3 with digestOk := false},
      by decide +kernel⟩,
   ⟨mst {upO [(Ob.redundant, 1)] with secu := {running := [some (im 1 1 63 1023), none]}}, 3, 4, 0, 63, 1023, im 1 1 63
      1023, by decide +kernel⟩,
   ⟨mst
      {upO [(Ob.redundant, 1)] with secu := {running := [some (im 1 1 63 1023), none]}, arb := {up.arb with due := [(0, 0x4801)]}},
      3, 4, 0, 63, 1023, im 1 1 63 1023, by decide +kernel⟩,
   ⟨mst up, 3, 4, 0, by decide +kernel⟩⟩

theorem witness_StartUpGoesOn :
    (∃ (s : State) (l : Nat) (b : Nat) (sb : List Nat), (l < 2) ∧ (s.m.lanes.length = 2) ∧ (s.m.power.power = false) ∧ (sb
      = List.replicate 10 b) ∧ (b < 256)) ∧
    (∃ (s : State) (l : Nat), (l < 2) ∧ (s.m.lanes.length = 2) ∧ (s.m.power.power = true)) ∧
    (∃ (s : State) (l : Nat), (l < 2) ∧ (s.m.lanes.length = 2) ∧ (s.m.secu.certNext = none)) ∧
    (∃ (s : State) (l : Nat), (l < 2) ∧ (s.m.lanes.length = 2) ∧ (s.m.power.power = true) ∧ (s.m.sdc.resetLow = false) ∧
      (s.m.power.released = none)) ∧
    (∃ (s : State) (l : Nat), (l < 2) ∧ (s.m.lanes.length = 2) ∧ (s.m.power.power = true) ∧ (s.m.sdc.resetLow = false) ∧
      (s.m.power.released = none) ∧ ((s.m.laneAt 0).failCode = 0) ∧ (s.m.arb.armed = false)) ∧
    (∃ (s : State) (l : Nat) (ia : ImageInfo), (l < 2) ∧ (s.m.lanes.length = 2) ∧ (s.m.starts l = true) ∧ ((s.m.laneAt
      l).locked = true) ∧ ((s.m.laneAt l).macFails < 3) ∧ (imageOk s.kept s.m 0 ia = true)) ∧
    (∃ (s : State) (l : Nat) (ia : ImageInfo), (l < 2) ∧ (s.m.lanes.length = 2) ∧ (s.m.starts l = true) ∧ ((s.m.laneAt
      l).locked = true) ∧ ((s.m.laneAt l).macFails < 3) ∧ (imageOk s.kept s.m 0 ia = false) ∧ ((s.m.laneAt l).failCode =
      0) ∧ (s.m.arb.armed = false)) ∧
    (∃ (s : State) (l : Nat) (b : Nat) (rel : Nat) (sa : List Nat), (l < 2) ∧ (s.m.lanes.length = 2) ∧ (s.m.power.released
      = some rel) ∧ (s.m.power.safetyUp = false) ∧ (s.m.power.sealDone = false) ∧ (s.m.power.sealBBad = false) ∧ (sa =
      List.replicate 10 b) ∧ (b < 256) ∧ (b % 16 < 9) ∧ (s.kept.sealB = b)) ∧
    (∃ (s : State) (l : Nat) (b : Nat) (rel : Nat) (sa : List Nat), (l < 2) ∧ (s.m.lanes.length = 2) ∧ (s.m.power.released
      = some rel) ∧ (s.m.power.safetyUp = false) ∧ (s.m.power.sealDone = false) ∧ (s.m.power.sealBBad = false) ∧ (sa =
      List.replicate 10 b) ∧ (b < 256) ∧ (s.kept.sealB ≠ b)) ∧
    (∃ (s : State) (l : Nat) (ia : ImageInfo) (ib : ImageInfo), (l < 2) ∧ (s.m.lanes.length = 2) ∧ (s.m.starts l = true) ∧
      ((s.m.laneAt l).boot = true) ∧ ((s.m.laneAt l).macFails < 3) ∧ (s.m.get Ob.certifiedMode ≠ 1) ∧
      ((s.m.secu.badImg.all fun x => decide (x.fst ≠ l)) = true) ∧ (imageOk s.kept s.m 1 ia = true) ∧ (imageOk s.kept s.m
      1 ib = true) ∧ (ia.version < ib.version)) ∧
    (∃ (s : State) (l : Nat) (ia : ImageInfo) (ib : ImageInfo), (l < 2) ∧ (s.m.lanes.length = 2) ∧ (s.m.starts l = true) ∧
      ((s.m.laneAt l).boot = true) ∧ ((s.m.laneAt l).macFails < 3) ∧ (s.m.get Ob.certifiedMode ≠ 1) ∧
      ((s.m.secu.badImg.all fun x => decide (x.fst ≠ l)) = true) ∧ (imageOk s.kept s.m 1 ia = true) ∧ (imageOk s.kept s.m
      1 ib = true) ∧ (ib.version ≤ ia.version)) ∧
    (∃ (s : State) (l : Nat), (l < 2) ∧ (s.m.lanes.length = 2) ∧ (∀ (k : Nat), k < 2 → s.m.starts k = true ∧ (s.m.laneAt
      k).image = true) ∧ ((s.m.laneAt 0).version = (s.m.laneAt 1).version)) ∧
    (∃ (s : State) (l : Nat), (l < 2) ∧ (s.m.lanes.length = 2) ∧ (s.m.starts l = true)) ∧
    (∃ (s : State) (l : Nat), (l < 2) ∧ (s.m.lanes.length = 2) ∧ (s.m.starts l = true) ∧ ((s.m.laneAt (1 - l)).rimeFailed
      = true)) ∧
    (∃ (s : State) (l : Nat), (l < 2) ∧ (s.m.lanes.length = 2) ∧ (s.m.starts l = true) ∧ ((s.m.laneAt l).image = true)) ∧
    (∃ (s : State) (l : Nat), (l < 2) ∧ (s.m.lanes.length = 2) ∧ (s.m.starts l = true) ∧ ((s.m.laneAt l).image = true) ∧
      ((s.m.laneAt l).failCode = 0) ∧ (s.m.arb.armed = false)) :=
  ⟨⟨{}, 1, 255, List.replicate 10 255, by decide +kernel⟩,
   ⟨mst {up with power := {power := true}}, 1, by decide +kernel⟩,
   ⟨mst {up with power := {power := true}}, 1, by decide +kernel⟩,
   ⟨mst {power := {power := true, relPs := 77}}, 1, by decide +kernel⟩,
   ⟨mst {power := {power := true}}, 1, by decide +kernel⟩,
   ⟨mst (early ready), 1, im 1 0 0 0, by decide +kernel⟩,
   ⟨mst (early ready), 1, im 1 1 0 0, by decide +kernel⟩,
   ⟨{mst {up with power := {released := some 5}} with kept := {sealB := 0xF8}}, 1, 0xF8, 5, List.replicate 10 0xF8,
      by decide +kernel⟩,
   ⟨{mst {up with power := {released := some 5}} with kept := {sealB := 0xF9}}, 1, 0xF8, 5, List.replicate 10 0xF8,
      by decide +kernel⟩,
   ⟨mst (early ready), 1, im 1 1 0 0, im 2 1 0 0, by decide +kernel⟩,
   ⟨mst (early ready), 1, im 2 1 0 0, im 2 1 0 0, by decide +kernel⟩,
   ⟨mst (early ready), 1, by decide +kernel⟩,
   ⟨mst (early ready), 1, by decide +kernel⟩,
   ⟨mst (early {ready with rimeFailed := true}), 1, by decide +kernel⟩,
   ⟨mst {early ready with gens := [4294967295, 3]}, 1, by decide +kernel⟩,
   ⟨mst (early ready), 1, by decide +kernel⟩⟩

theorem witness_AgeingGoesOn :
    (∃ (s : State) (n : Nat) (c : Nat) (e : Nat) (l : Nat) (r : Nat) (load : Int), (n < 24) ∧ (l < 2) ∧ (c < 4294967296) ∧
      (e < 4294967296) ∧ (r < 4) ∧ (s.m.age.blocks.length = 24) ∧ (s.m.age.erases.length = 8) ∧ (load < 161061274)) ∧
    (∃ (s : State) (n : Nat) (c : Nat) (e : Nat) (l : Nat) (r : Nat) (load : Int), (n < 24) ∧ (l < 2) ∧ (c < 4294967296) ∧
      (e < 4294967296) ∧ (r < 4) ∧ (s.m.age.blocks.length = 24) ∧ (s.m.age.erases.length = 8) ∧ (161061274 ≤ load) ∧
      (s.m.estimates (s.m.linkGroups n) = true) ∧ (s.m.retired 2 n = false) ∧ ((s.m.age.blocks.getD n []).length < 99)) ∧
    (∃ (s : State) (n : Nat) (c : Nat) (e : Nat) (l : Nat) (r : Nat) (load : Int), (n < 24) ∧ (l < 2) ∧ (c < 4294967296) ∧
      (e < 4294967296) ∧ (r < 4) ∧ (s.m.age.blocks.length = 24) ∧ (s.m.age.erases.length = 8) ∧ (161061274 ≤ load) ∧
      (s.m.estimates (s.m.linkGroups n) = true) ∧ (s.m.retired 2 n = false) ∧ (99 ≤ (s.m.age.blocks.getD n []).length)) ∧
    (∃ (s : State) (n : Nat) (c : Nat) (e : Nat) (l : Nat) (r : Nat), (n < 24) ∧ (l < 2) ∧ (c < 4294967296) ∧ (e <
      4294967296) ∧ (r < 4) ∧ (s.m.age.blocks.length = 24) ∧ (s.m.age.erases.length = 8) ∧ (8500 ≤ s.m.getS16 Ob.dieTemp)
      ∧ (s.m.getS16 Ob.dieTemp < 10500)) ∧
    (∃ (s : State) (n : Nat) (c : Nat) (e : Nat) (l : Nat) (k : Nat) (r : Nat), (n < 24) ∧ (l < 2) ∧ (c < 4294967296) ∧ (e
      < 4294967296) ∧ (r < 4) ∧ (s.m.age.blocks.length = 24) ∧ (s.m.age.erases.length = 8) ∧ (80000 ≤ k) ∧ (∀ (j : Nat), j
      < 4 → s.m.age.erases.getD (4 * l + j) 0 ≤ k) ∧ (∀ (x : Nat), x ∈ s.m.age.warned → x ≠ 2 * 24580 + l)) ∧
    (∃ (s : State) (n : Nat) (c : Nat) (e : Nat) (l : Nat) (r : Nat), (n < 24) ∧ (l < 2) ∧ (c < 4294967296) ∧ (e <
      4294967296) ∧ (r < 4) ∧ (s.m.age.blocks.length = 24) ∧ (s.m.age.erases.length = 8)) ∧
    (∃ (s : State) (n : Nat) (c : Nat) (e : Nat) (l : Nat) (r : Nat), (n < 24) ∧ (l < 2) ∧ (c < 4294967296) ∧ (e <
      4294967296) ∧ (r < 4) ∧ (s.m.age.blocks.length = 24) ∧ (s.m.age.erases.length = 8) ∧ (s.m.differs s.m.planTargets
      s.m.age.target = false)) ∧
    (∃ (s : State) (n : Nat) (c : Nat) (e : Nat) (l : Nat) (r : Nat), (n < 24) ∧ (l < 2) ∧ (c < 4294967296) ∧ (e <
      4294967296) ∧ (r < 4) ∧ (s.m.age.blocks.length = 24) ∧ (s.m.age.erases.length = 8) ∧ (s.m.differs s.m.planTargets
      s.m.age.target = true) ∧ (s.m.get Ob.planFreeze = 1)) ∧
    (∃ (s : State) (n : Nat) (c : Nat) (e : Nat) (l : Nat) (r : Nat), (n < 24) ∧ (l < 2) ∧ (c < 4294967296) ∧ (e <
      4294967296) ∧ (r < 4) ∧ (s.m.age.blocks.length = 24) ∧ (s.m.age.erases.length = 8) ∧ (s.m.differs s.m.planTargets
      s.m.age.target = true) ∧ (s.m.get Ob.planFreeze = 0) ∧ (s.m.age.frozen = none)) ∧
    (∃ (s : State) (n : Nat) (c : Nat) (e : Nat) (l : Nat) (r : Nat), (n < 24) ∧ (l < 2) ∧ (c < 4294967296) ∧ (e <
      4294967296) ∧ (r < 4) ∧ (s.m.age.blocks.length = 24) ∧ (s.m.age.erases.length = 8) ∧ (s.m.get Ob.planFreeze = 1)) ∧
    (∃ (s : State) (n : Nat) (c : Nat) (e : Nat) (l : Nat) (r : Nat), (n < 24) ∧ (l < 2) ∧ (c < 4294967296) ∧ (e <
      4294967296) ∧ (r < 4) ∧ (s.m.age.blocks.length = 24) ∧ (s.m.age.erases.length = 8) ∧ (s.m.get Ob.planFreeze = 0) ∧
      (s.m.age.moving = true) ∧ (s.m.stepped.done = true)) ∧
    (∃ (s : State) (n : Nat) (c : Nat) (e : Nat) (l : Nat) (r : Nat), (n < 24) ∧ (l < 2) ∧ (c < 4294967296) ∧ (e <
      4294967296) ∧ (r < 4) ∧ (s.m.age.blocks.length = 24) ∧ (s.m.age.erases.length = 8) ∧ (s.m.get Ob.planFreeze = 0) ∧
      (s.m.allAtRest = true)) :=
  ⟨⟨mst (upO [(Ob.grpLayout 3, 1), (Ob.role 23, 4), (Ob.ownerMask 23, 8), (Ob.gfState 3, gfForming)]), 23, 4294967295, 3,
      1, 3, 161061273, by decide +kernel⟩,
   ⟨mst (upO [(Ob.grpLayout 3, 1), (Ob.role 23, 4), (Ob.ownerMask 23, 8), (Ob.gfState 3, gfForming)]), 23, 4294967295, 3,
      1, 3, 161061274, by decide +kernel⟩,
   ⟨mst
      {upO [(Ob.grpLayout 3, 1), (Ob.role 23, 4), (Ob.ownerMask 23, 8), (Ob.gfState 3, gfForming)] with age := {blocks := List.replicate 24 (List.replicate 100 (0x3F800000, 0x3F000000))}},
      23, 0x3F800000, 0x3F000000, 1, 3, 161061274, by decide +kernel⟩,
   ⟨mst (upO [(Ob.dieTemp, 10499)]), 23, 0, 0, 1, 3, by decide +kernel⟩,
   ⟨mst {up with age := {erases := [1, 2, 3, 4, 80000, 70000, 0, 0]}}, 23, 0, 0, 1, 80000, 3, by decide +kernel⟩,
   ⟨mst {up with age := {valid := [(0, 23)], opHours := 4294967295}}, 23, 0, 0, 1, 3, by decide +kernel⟩,
   ⟨mst up, 23, 0, 0, 1, 3, by decide +kernel⟩,
   ⟨mst {upO [(Ob.planFreeze, 1)] with age := {target := {derate := 500}}}, 23, 0, 0, 1, 3, by decide +kernel⟩,
   ⟨mst {up with age := {target := {derate := 500}}}, 23, 0, 0, 1, 3, by decide +kernel⟩,
   ⟨mst (upO [(Ob.planFreeze, 1)]), 23, 0, 0, 1, 3, by decide +kernel⟩,
   ⟨mst {up with age := {moving := true}}, 23, 0, 0, 1, 3, by decide +kernel⟩,
   ⟨mst {up with age := {moving := true, target := {derate := 500}}}, 23, 0, 0, 1, 3, by decide +kernel⟩⟩

theorem witness_ReadAnswersTheEntry :
    (∃ (s : State) (h : Hdr) (i : Nat) (j : Nat) (r : ObjRow), (s.m.accepts
      { h := h, op := 1, idx := i, sub := j, data := [] } = true) ∧ (i < 65536) ∧ (j < 256) ∧ (rowOf i j = some r)) ∧
    (∃ (s : State) (h : Hdr) (i : Nat) (j : Nat), (s.m.accepts { h := h, op := 1, idx := i, sub := j, data := [] } = true)
      ∧ (i < 65536) ∧ (j < 256) ∧ (rowOf i j = none)) :=
  ⟨⟨mst up, hd, 0x2000, 1, (rowOf 0x2000 1).getD ⟨0, 0, 0, 0, .u8, .ro, false, 0, .any, .none, false, false⟩,
      by decide +kernel⟩,
   ⟨mst up, hd, 0x2FFF, 1, by decide +kernel⟩⟩

theorem witness_RefusedWriteStagesNothing :
    (∃ (s : State) (h : Hdr) (i : Nat) (j : Nat) (d : List Byte) (st : Nat), (i < 65536) ∧ (j < 256) ∧ (s.m.accepts
      { h := h, op := 2, idx := i, sub := j, data := d } = true) ∧ ((s.m.chanOf h.snd).group = none) ∧ ((Mod.taken
      { h := h, op := 2, idx := i, sub := j, data := d } s.m).checkWrite h.snd (s.m.roleOf h.snd) false false false
      s.m.stagedWrites (i * 256 + j, d) = some st)) :=
  ⟨mst up, hd, 0x2000, 0, [1], 0x10, by decide +kernel⟩

theorem witness_SequenceNumbersDecide :
    (∃ (s : State) (c : Instr) (f : Frame) (p : Nat) (r : Rsp), (∀ (t : State), exec c t = State.frame f t) ∧ (f.h.seq <
      65536) ∧ (f.op < 256) ∧ (f.idx < 65536) ∧ (f.sub < 256) ∧ (f.opensSession = false) ∧ (s.m.wayOpen f.h.snd
      f.data.length = true) ∧ ((s.m.chanOf f.h.snd).blocked = none) ∧ (s.m.genOf f.h.snd ≠ 3 ∨ s.m.authentic f = true) ∧
      ((s.m.chanOf f.h.snd).kept = some p) ∧ ((f.h.seq + 65536 - p) % 65536 = 0) ∧ ((s.m.chanOf f.h.snd).stored = some r)
      ∧ (Mod.roomFor f.h.snd r s.m = true)) ∧
    (∃ (s : State) (c : Instr) (f : Frame) (p : Nat), (∀ (t : State), exec c t = State.frame f t) ∧ (f.h.seq < 65536) ∧
      (f.op < 256) ∧ (f.idx < 65536) ∧ (f.sub < 256) ∧ (f.opensSession = false) ∧ (s.m.wayOpen f.h.snd f.data.length =
      true) ∧ ((s.m.chanOf f.h.snd).blocked = none) ∧ (s.m.genOf f.h.snd ≠ 3 ∨ s.m.authentic f = true) ∧ ((s.m.chanOf
      f.h.snd).kept = some p) ∧ (32768 ≤ (f.h.seq + 65536 - p) % 65536) ∧ (Mod.roomFor f.h.snd (f.rsp (49, [])) s.m =
      true)) ∧
    (∃ (s : State) (c : Instr) (f : Frame), (∀ (t : State), exec c t = State.frame f t) ∧ (f.h.seq < 65536) ∧ (f.op < 256)
      ∧ (f.idx < 65536) ∧ (f.sub < 256) ∧ (f.opensSession = false) ∧ (s.m.wayOpen f.h.snd f.data.length = true) ∧
      ((s.m.chanOf f.h.snd).blocked = none) ∧ (s.m.genOf f.h.snd ≠ 3 ∨ s.m.authentic f = true) ∧ ((s.m.chanOf
      f.h.snd).out.length < 8) ∧ ((s.m.chanOf f.h.snd).kept = none ∨ ∃ p, (s.m.chanOf f.h.snd).kept = some p ∧ 1 ≤
      (f.h.seq + 65536 - p) % 65536 ∧ (f.h.seq + 65536 - p) % 65536 ≤ 32767)) ∧
    (∃ (s : State) (c : Instr) (f : Frame), (∀ (t : State), exec c t = State.frame f t) ∧ (f.h.seq < 65536) ∧ (f.op < 256)
      ∧ (f.idx < 65536) ∧ (f.sub < 256) ∧ (f.opensSession = false) ∧ (s.m.wayOpen f.h.snd f.data.length = true) ∧
      ((s.m.chanOf f.h.snd).blocked = none) ∧ (s.m.genOf f.h.snd ≠ 3 ∨ s.m.authentic f = true) ∧ ((s.m.chanOf
      f.h.snd).out.length < 8) ∧ ((s.m.chanOf f.h.snd).kept = none ∨ ∃ p, (s.m.chanOf f.h.snd).kept = some p ∧ 1 ≤
      (f.h.seq + 65536 - p) % 65536 ∧ (f.h.seq + 65536 - p) % 65536 ≤ 32767) ∧ (f.op ≠ 4)) ∧
    (∃ (s : State), (s.m.power.power = false)) ∧
    (∃ (s : State) (addr : Nat) (j : Nat), (s.m.link.ready = true) ∧ ((s.m.net.banned.all fun x => decide (x.fst ≠ addr))
      = true) ∧ (s.m.freeKey 0 8 = some j)) ∧
    (∃ (s : State) (h : Hdr) (nonce : List Byte) (k : Nat), (h.snd = Sender.mbx k) ∧ (s.m.genOf h.snd = 3) ∧ (s.m.accepts
      { h := h, op := 4, idx := 25633, sub := 0, data := nonce } = true) ∧ (nonce.length = 16) ∧ (s.m.cirqueOk = true) ∧
      (s.m.sdc.lockout = false) ∧ ((s.m.chanOf h.snd).group = none)) :=
  ⟨⟨mst
      {up with sess := [(3, {kind := .ghp3, addr := 5, tls := true, bound := some 0, chan := {kept := some 1, stored := some ⟨1, 5, 6, 1, 0, [7], 0, 0⟩}})]},
      .read {hd with snd := .session 3, counter := 5, slot := 255} 0x2000 1,
      ⟨{hd with snd := .session 3, counter := 5, slot := 255}, 1, 0x2000, 1, []⟩, 1, ⟨1, 5, 6, 1, 0, [7], 0, 0⟩, fun _ =>
      rfl, by decide +kernel⟩,
   ⟨mst {up with mbx := List.replicate 4 {chan := {kept := some 2, stored := some ⟨1, 5, 6, 1, 0, [7], 0, 0⟩}}}, .read hd
      0x2000 1, ⟨hd, 1, 0x2000, 1, []⟩, 2, fun _ => rfl, by decide +kernel⟩,
   ⟨mst {up with mbx := List.replicate 4 {chan := {kept := some 65530, stored := some ⟨1, 5, 6, 1, 0, [7], 0, 0⟩}}},
      .read hd 0x2000 1, ⟨hd, 1, 0x2000, 1, []⟩, fun _ => rfl, by decide +kernel⟩,
   ⟨mst up, .write hd 0x2000 1 [5], ⟨hd, 2, 0x2000, 1, [5]⟩, fun _ => rfl, by decide +kernel⟩,
   ⟨{}, by decide +kernel⟩,
   ⟨mst up, 5, 0, by decide +kernel⟩,
   ⟨mst
      {up with link := {ready := true, quadEn := true}, mbx := List.replicate 4 {gen := 3, chan := {kept := some 7}}, secu := {keys := List.replicate 16 [1]}},
      {hd with seq := 9}, List.replicate 16 7, 0, by decide +kernel⟩⟩

theorem witness_CountersNeverFall :
    (∃ (s t : State), s.kept.rollback.length = 64 ∧ (∀ v ∈ s.kept.rollback, v ≤ 1023) ∧ step s = .next t) ∧
    (∃ (s t : State) (v : Nat), s.kept.rollback.length = 64 ∧ (∀ v ∈ s.kept.rollback, v ≤ 1023) ∧ step s = .next t ∧
      v ∈ t.kept.rollback) :=
  ⟨⟨{ pending := [.commitDelayExpiry] }, { }, by decide, by decide, rfl⟩,
   ⟨{ pending := [.commitDelayExpiry] }, { }, 0, by decide, by decide, rfl, by decide⟩⟩

theorem witness_SealsHoldUntilPowerUp :
    (∃ (s t : State), step s = .next t ∧ (∀ (tcxo : Bool) (r : List Nat), s.pending.head? ≠ some (Instr.powerOn tcxo r)) ∧
      (∀ (st : Bool) (r : List Nat), s.pending.head? ≠ some (Instr.safetyDieRunning st r))) ∧
    (∃ (s t : State), step s = .next t ∧ s.m.power.sealDone = true) ∧
    (∃ (s t : State), step s = .next t ∧ s.m.power.power = true) :=
  ⟨⟨{ pending := [.commitDelayExpiry] }, { }, rfl, by simp, by simp⟩,
   ⟨{ m := { power := { sealDone := true } } }, { m := { power := { sealDone := true } } }, rfl, rfl⟩,
   ⟨{ m := { power := { power := true } } }, { m := { power := { power := true } } }, rfl, rfl⟩⟩

end Sys2Proof.Tests
end

section
/-!
PROOFS. Power-up to service (R361, R452 to R454, R471 to R479): what each operation of start-up does, and the statement that
start-up goes on (O56).
-/
namespace Sys2Proof.Machine

/-! ### Updates of the lanes, of power-up, of Cirque's store and of housekeeping -/

theorem laneAt_eq {a b : Mod} (h : b.lanes = a.lanes) (k : Nat) : b.laneAt k = a.laneAt k := by unfold Mod.laneAt; rw [h]

theorem laneAt_modLane_other (m : Mod) (l k : Nat) (f : LaneRt → LaneRt) (h : k ≠ l) : (m.modLane l f).laneAt k = m.laneAt k := by
  unfold Mod.laneAt Mod.modLane; simp [List.getD_eq_getElem?_getD, Ne.symm h]

theorem lanesLen_modLane (m : Mod) (l : Nat) (f : LaneRt → LaneRt) : (m.modLane l f).lanes.length = m.lanes.length := by
  unfold Mod.modLane; simp

theorem only_modPower (m : Mod) (f : BootRt → BootRt) : Only [.power] m (m.modPower f) := by
  intro p hp; cases p <;> first | (exact absurd (by decide) hp) | rfl

theorem only_modSecu (m : Mod) (f : SecuRt → SecuRt) : Only [.secu] m (m.modSecu f) := by
  intro p hp; cases p <;> first | (exact absurd (by decide) hp) | rfl

theorem only_modHk (m : Mod) (f : HkRt → HkRt) : Only [.hk] m (m.modHk f) := by
  intro p hp; cases p <;> first | (exact absurd (by decide) hp) | rfl

theorem only_modSdc (m : Mod) (f : SdcRt → SdcRt) : Only [.sdc] m (m.modSdc f) := by
  intro p hp; cases p <;> first | (exact absurd (by decide) hp) | rfl

/-- An event whose operation on the module is known. -/
theorem does_onMod {c : Instr} {s : State} {M N : Mod} {Q : Mod → Prop} (hc : exec c s = onMod s M) (hM : M = N) (q : Q N) :
    Does c s Q := ⟨N, by rw [hc, hM]; rfl, q⟩

/-- The same for an event that names a lane. -/
theorem does_lane {c : Instr} {s : State} {l : Nat} {M N : Mod} {Q : Mod → Prop} (hc : exec c s = onUnit (laneOk l) s M) (hl : l < 2)
    (hM : M = N) (q : Q N) : Does c s Q := by
  refine ⟨N, ?_, q⟩
  rw [hc, hM]
  exact if_pos (by unfold laneOk; simpa using hl)

/-! ### A power cycle (R12, R466, R468, R471) -/

/-- The entries that CERT_MODE_SET changes at the power cycle. -/
def certCycleKeys : List Nat := Ob.certifiedMode :: (List.range 16).map Ob.slotRole

theorem certCycle_none (m : Mod) (h : m.secu.certNext = none) : m.certCycle = m := by
  unfold Mod.certCycle; rw [h]

/-- CERT_MODE_SET touches Cirque's store, the mode and the roles of the key slots alone. -/
theorem certCycle_laws (m : Mod) : Only [.obj, .sto, .secu] m m.certCycle ∧ OnlyEntries certCycleKeys m m.certCycle := by
  cases hv : m.secu.certNext with
  | none =>
    rw [certCycle_none m hv]
    exact ⟨Only.refl _ _, onlyEntries_refl _ _⟩
  | some v =>
    unfold Mod.certCycle
    rw [hv]
    dsimp only
    generalize hA : Mod.keep Ob.certifiedMode v _ = A
    have a1 : Only [.obj, .sto, .secu] m A := by
      subst hA; exact ((only_modSecu m _).mono (by decide)).okeep (by decide) (by decide)
    have a2 : OnlyEntries certCycleKeys m A := by
      subst hA; exact (onlyEntries_obj (onlyEntries_refl _ _) rfl).okeep (by simp [certCycleKeys])
    have secu : ∀ f, Only [.obj, .sto, .secu] m (A.modSecu f) ∧ OnlyEntries certCycleKeys m (A.modSecu f) :=
      fun f => ⟨a1.to (only_modSecu A f) (by decide), onlyEntries_obj a2 rfl⟩
    split
    · refine ⟨(secu _).1.oeach (fun _ _ => (Only.refl _ _).okeep (by decide) (by decide)), (secu _).2.oeach (fun k hk _ => ?_)⟩
      exact (onlyEntries_refl _ _).okeep (List.mem_cons_of_mem _ (List.mem_map_of_mem hk))
    · split
      · exact secu _
      · exact ⟨a1, a2⟩

/-! ### POWER_ON (R361, R471, R474) -/

/-- Serac alive, with the readings of its poles. -/
def Mod.seracUp (sealB : List Nat) (m : Mod) : Mod :=
  ((m.dark.certCycle.modPower (fun x =>
    { x with power := true, sealBBad := sealB.any (· % 256 ≠ sealB.headD 0 % 256) })).put Ob.sealB (sealB.headD 0 % 256)).put Ob.sealState 0

theorem powerOn_of_on {tcxo : Bool} {sb : List Nat} {s : State} (h : s.m.power.power = true) : powerOn tcxo sb s = s := if_pos h

theorem powerOn_of_off {sb : List Nat} {s : State} (tcxo : Bool) (h : s.m.power.power = false) :
    powerOn tcxo sb s = { s with
      m := if tcxo then s.m.seracUp sb else (s.m.seracUp sb).tcxoLost, kept := { s.kept with sealB := sb.headD 0 % 256 } } :=
  if_neg (by simp [h])

/-- Beside the module in reset, Serac alive shows its readings and that the supply stands. -/
theorem seracUp_laws (sb : List Nat) (m : Mod) :
    Only [.obj, .sto, .secu, .power] m.dark (m.seracUp sb)
    ∧ OnlyEntries (Ob.sealB :: Ob.sealState :: certCycleKeys) m.dark (m.seracUp sb)
    ∧ (m.seracUp sb).power = { power := true, sealBBad := sb.any (· % 256 ≠ sb.headD 0 % 256) }
    ∧ (m.seracUp sb).get Ob.sealB = sb.headD 0 % 256 := by
  obtain ⟨c1, c2⟩ := certCycle_laws m.dark
  have hp : m.dark.certCycle.power = m.dark.power := c1 .power (by decide)
  unfold Mod.seracUp
  refine ⟨(((c1.mono (by decide)).to (only_modPower _ _) (by decide)).oput (by decide)).oput (by decide), ?_, ?_, ?_⟩
  · exact ((onlyEntries_obj (c2.mono (fun k hk => by simp [hk])) rfl).oput (by simp)).oput (by simp)
  · rw [put_power, put_power, modPower_power, hp]
    rfl
  · rw [get_put_other _ (by decide), get_put_same]

/-- Ten equal readings of a byte are that byte, and stable. -/
theorem readings_replicate {b : Nat} (h : b < 256) :
    (List.replicate 10 b).headD 0 % 256 = b ∧ (List.replicate 10 b).any (· % 256 ≠ b) = false := by
  have hb : b % 256 = b := Nat.mod_eq_of_lt h
  simp [List.replicate, hb]

/-! ### The reference of a lane (R31, R441) -/

/-- REF of one lane goes to a source, with EV026 where that is a change. -/
def Mod.laneRefTo (src l : Nat) (m : Mod) : Mod :=
  if m.get (Ob.refSource l) = src then m
  else (m.put (Ob.refSource l) src).raise 26 (if src = 1 then sevWarn else sevInfo) (if src = 1 then 0x5C01 else 0) (l + 2 * src)

theorem refTo_eq (src : Nat) (m : Mod) :
    m.refTo src = ((m.modHk (fun h => { h with tcxoLost := src = 1, refMoved := [true, true] })).laneRefTo src 0).laneRefTo src 1 := rfl

theorem laneRefTo_laws (src l : Nat) (m : Mod) :
    Only (.obj :: evParts) m (m.laneRefTo src l) ∧ OnlyEntries [Ob.refSource l] m (m.laneRefTo src l)
    ∧ (m.laneRefTo src l).get (Ob.refSource l) = src ∧ SeenGrows m (m.laneRefTo src l)
    ∧ (m.get (Ob.refSource l) ≠ src → 26 ∈ (m.laneRefTo src l).seenEv) := by
  unfold Mod.laneRefTo
  split
  · rename_i h
    exact ⟨Only.refl _ _, onlyEntries_refl _ _, h, SeenGrows.refl _, fun hn => absurd h hn⟩
  · refine ⟨((Only.refl _ _).oput (by decide)).oraise _ _ _ _ (by decide), ((onlyEntries_refl _ _).oput (by simp)).raise _ _ _ _, ?_,
      SeenGrows.later (put_seenEv m _ _) (SeenGrows.raise _ _ _ _ _), fun _ => seen_raised _ _ _ _ _⟩
    rw [get_raised, get_put_same]

/-- REF of both lanes goes to a source. -/
theorem refTo_laws (src : Nat) (m : Mod) :
    Only ([.hk, .obj] ++ evParts) m (m.refTo src) ∧ OnlyEntries [Ob.refSource 0, Ob.refSource 1] m (m.refTo src)
    ∧ (m.refTo src).get (Ob.refSource 0) = src ∧ (m.refTo src).get (Ob.refSource 1) = src
    ∧ (m.get (Ob.refSource 0) ≠ src → 26 ∈ (m.refTo src).seenEv) := by
  rw [refTo_eq]
  generalize hA : Mod.modHk _ m = A
  have a1 : Only [.hk] m A := by subst hA; exact only_modHk m _
  have a2 : ∀ k, A.get k = m.get k := a1.get (by decide)
  clear hA
  obtain ⟨b1, b2, b3, -, b5⟩ := laneRefTo_laws src 0 A
  generalize A.laneRefTo src 0 = B at b1 b2 b3 b5
  obtain ⟨c1, c2, c3, c4, -⟩ := laneRefTo_laws src 1 B
  refine ⟨((a1.mono (by decide)).to b1 (by decide)).to c1 (by decide), ?_, ?_, c3, fun h => c4.mem (b5 (by rwa [a2]))⟩
  · exact ((onlyEntries_obj (onlyEntries_refl _ _) (a1 .obj (by decide))).trans (b2.mono (by simp))).trans (c2.mono (by simp))
  · rw [c2 _ (by decide)]; exact b3

/-- The TCXO counts as lost: both lanes run on their crystals. -/
theorem tcxoLost_laws (m : Mod) (h : m.hk.tcxoLost = false) :
    Only ([.hk, .obj] ++ evParts) m m.tcxoLost ∧ m.tcxoLost.get (Ob.refSource 0) = 1 ∧ m.tcxoLost.get (Ob.refSource 1) = 1
    ∧ (m.get (Ob.refSource 0) ≠ 1 → 26 ∈ m.tcxoLost.seenEv) := by
  unfold Mod.tcxoLost
  rw [if_neg (by simp [h])]
  obtain ⟨r1, -, r3, r4, r5⟩ := refTo_laws 1 m
  generalize m.refTo 1 = R at r1 r3 r4 r5
  exact ⟨r1.to (only_modHk _ _) (by decide), r3, r4, r5⟩

/-! ### LANES_RELEASED (R438, R474, R478, R479) -/

/-- Serac releases both lanes, and the timebase counts from 0. -/
def Mod.releaseLanes (m : Mod) : Mod :=
  let m0 := m.reach m.power.relPs
  Mod.modPower (fun x => { x with released := some m0.now })
    { m0 with clk := { m0.clk with taiBase := -((m0.now / 1000 : Nat) : Int) }
              lanes := m.lanes.map (fun x => { x with released := true }) }

/-- What becomes of one released lane, with its ADPLL locked or not. -/
def Mod.lockLane (l : Nat) (ok : Bool) (m : Mod) : Mod :=
  if ok then (m.modLane l (fun x => { x with locked := true })).put (Ob.adpllState l) 1
  else (m.put (Ob.adpllState l) 0).stepFails l 2 0x1003

theorem lanesReleased_first (okA okB : Bool) (m : Mod) (hp : m.power.power = true) (hr : m.sdc.resetLow = false)
    (hn : m.power.released = none) : m.lanesReleased okA okB = (m.releaseLanes.lockLane 0 okA).lockLane 1 okB := by
  unfold Mod.lanesReleased
  simp only [hp, hr, hn]
  rfl

theorem releaseLanes_laws (m : Mod) :
    Only [.clk, .lanes, .power] m m.releaseLanes ∧ m.releaseLanes.power.released = some (max m.now m.power.relPs)
    ∧ m.releaseLanes.tai = 0 ∧ m.releaseLanes.lanes.length = m.lanes.length
    ∧ (∀ k, k < m.lanes.length → m.releaseLanes.laneAt k = { m.laneAt k with released := true }) := by
  refine ⟨?_, rfl, ?_, ?_, fun k hk => ?_⟩
  · intro p hp; cases p <;> first | (exact absurd (by decide) hp) | rfl
  · exact Int.add_left_neg _
  · simp [Mod.releaseLanes, Mod.modPower]
  · simp [Mod.releaseLanes, Mod.modPower, Mod.laneAt, List.getD_eq_getElem?_getD, hk]

/-- The first failed step names its code before any claim, and nothing else follows from it. -/
theorem stepFails_first (l step code : Nat) (m : Mod) (h0 : (m.laneAt l).failCode = 0) (ha : m.arb.armed = false) :
    m.stepFails l step code = m.modLane l (fun x => { x with failCode := code, failStep := step }) := by
  unfold Mod.stepFails
  rw [if_pos h0]
  exact if_neg (by rw [modLane_arb, ha]; simp)

/-- A lane whose ADPLL locks. -/
theorem lockLane_locked (l : Nat) (m : Mod) :
    Only [.lanes, .obj] m (m.lockLane l true) ∧ OnlyEntries [Ob.adpllState l] m (m.lockLane l true)
    ∧ (m.lockLane l true).get (Ob.adpllState l) = 1 ∧ (m.lockLane l true).lanes.length = m.lanes.length
    ∧ (l < m.lanes.length → (m.lockLane l true).laneAt l = { m.laneAt l with locked := true })
    ∧ (∀ k, k ≠ l → (m.lockLane l true).laneAt k = m.laneAt k) := by
  unfold Mod.lockLane
  rw [if_pos rfl]
  refine ⟨((only_modLane m l _).mono (by decide)).oput (by decide), (onlyEntries_obj (onlyEntries_refl _ _) rfl).oput (by simp),
    get_put_same _, ?_, fun hl => ?_, fun k hk => ?_⟩
  · rw [put_lanes, lanesLen_modLane]
  · rw [laneAt_eq (put_lanes _ _ _), laneAt_modLane _ _ _ hl]
  · rw [laneAt_eq (put_lanes _ _ _), laneAt_modLane_other _ _ _ _ hk]

/-- A lane whose ADPLL does not lock fails step 2 with 1003h. -/
theorem lockLane_unlocked (l : Nat) (m : Mod) (h0 : (m.laneAt l).failCode = 0) (ha : m.arb.armed = false) :
    Only [.lanes, .obj] m (m.lockLane l false) ∧ (m.lockLane l false).get (Ob.adpllState l) = 0
    ∧ (m.lockLane l false).lanes.length = m.lanes.length
    ∧ (l < m.lanes.length → (m.lockLane l false).laneAt l = { m.laneAt l with failCode := 0x1003, failStep := 2 }) := by
  unfold Mod.lockLane
  rw [if_neg (by simp), stepFails_first l _ _ (m.put (Ob.adpllState l) 0) h0 ha]
  refine ⟨((Only.refl _ _).oput (by decide)).to (only_modLane _ _ _) (by decide), ?_, ?_, fun hl => ?_⟩
  · rw [get_modLane, get_put_same]
  · rw [lanesLen_modLane, put_lanes]
  · exact laneAt_modLane (m.put (Ob.adpllState l) 0) l _ hl

/-! ### BOOT_LOADER_VERIFIED and FIRMWARE_IMAGE_VERIFIED (R452 to R455) -/

theorem bootLoader_accepted {kp : Kept} {l : Nat} {a : ImageInfo} {m : Mod} (hs : m.starts l = true) (hl : (m.laneAt l).locked = true)
    (hm : (m.laneAt l).macFails < 3) (ha : imageOk kp m 0 a = true) :
    m.bootLoader kp l a = m.modLane l (fun x => { x with boot := true }) := by
  simp [Mod.bootLoader, Mod.cirqueUp, hs, hl, hm, ha]

theorem bootLoader_refused {kp : Kept} {l : Nat} {a : ImageInfo} {m : Mod} (hs : m.starts l = true) (hl : (m.laneAt l).locked = true)
    (ha : imageOk kp m 0 a = false) : m.bootLoader kp l a = m.stepFails l 3 0x1001 := by
  simp [Mod.bootLoader, hs, hl, ha]

/-- Of two accepted images the higher version is chosen, image A on equal ones. -/
theorem chooseImage_good {kp : Kept} {m : Mod} {a b : ImageInfo} (ha : imageOk kp m 1 a = true) (hb : imageOk kp m 1 b = true) :
    chooseImage kp m a b = some (decide (a.version < b.version), if a.version = b.version then 2 else 0) := by
  unfold chooseImage
  by_cases h : a.version < b.version <;> simp [h, ha, hb]

/-- Outside certified mode a lane boots the chosen image. -/
theorem firmware_boots {kp : Kept} {l : Nat} {a b : ImageInfo} {m : Mod} {useB : Bool} {reason : Nat} (hs : m.starts l = true)
    (hb : (m.laneAt l).boot = true) (hm : (m.laneAt l).macFails < 3) (hc : m.get Ob.certifiedMode ≠ 1)
    (hi : m.secu.badImg.all (fun x => x.1 ≠ l) = true) (hx : chooseImage kp m a b = some (useB, reason)) :
    m.firmware kp l a b = (m.modLane l (fun x =>
        { x with image := true, imageB := useB, version := (if useB then b else a).version, reason := reason })).modSecu
      (fun x => { x with running := x.running.set l (some (if useB then b else a)) }) := by
  have readable : ∀ w, (l, w) ∉ m.secu.badImg := by
    intro w hw
    simpa using List.all_eq_true.1 hi _ hw
  simp [Mod.firmware, Mod.cirqueUp, Mod.replaceGhp1, hs, hb, hm, hc, hx, readable]

/-! ### The seals and the safety die (R243, R351, R357, R361) -/

/-- A profile loads entries below its own. -/
theorem profileKeys_below : ∀ k ∈ profileKeys, k < Ob.profileActive := by decide +kernel

/-- What a profile does with one entry. -/
def Mod.loadEntry (p k : Nat) (m : Mod) : Mod :=
  match profileLoads p k with
  | none   => m
  | some v => if listed k m.sto && !profileFixed p k && Sys2Proof.Machine.profileAdmits p k (tyOf k) (m.get k) then m else m.put k v

/-- The profile in force, with its version and its rated frequency. -/
def Mod.showProfile (p : Nat) (m : Mod) : Mod :=
  ((m.put Ob.profileActive p).put Ob.profileVersion (Config.profileVersion p % 4294967296)).put Ob.profileFRated (profileHz p)

theorem loadProfile_eq (p : Nat) (m : Mod) :
    m.loadProfile p = if p = 0 then m.showProfile p else (m.showProfile p).each profileKeys (Mod.loadEntry p) := rfl

theorem loadEntry_laws (p k : Nat) (m : Mod) : Only [.obj] m (m.loadEntry p k) ∧ OnlyEntries [k] m (m.loadEntry p k) := by
  unfold Mod.loadEntry
  split
  · exact ⟨Only.refl _ _, onlyEntries_refl _ _⟩
  · split
    · exact ⟨Only.refl _ _, onlyEntries_refl _ _⟩
    · exact ⟨(Only.refl _ _).oput (by decide), (onlyEntries_refl _ _).oput (by simp)⟩

/-- The entries that the loading of a profile writes. -/
def loadedKeys : List Nat := Ob.profileActive :: Ob.profileVersion :: Ob.profileFRated :: profileKeys

theorem loadProfile_laws (p : Nat) (m : Mod) :
    Only [.obj] m (m.loadProfile p) ∧ OnlyEntries loadedKeys m (m.loadProfile p) ∧ (m.loadProfile p).get Ob.profileActive = p := by
  have a1 : Only [.obj] m (m.showProfile p) := (((Only.refl _ _).oput (by decide)).oput (by decide)).oput (by decide)
  have a2 : OnlyEntries loadedKeys m (m.showProfile p) :=
    (((onlyEntries_refl _ _).oput (by simp [loadedKeys])).oput (by simp [loadedKeys])).oput (by simp [loadedKeys])
  have a3 : (m.showProfile p).get Ob.profileActive = p := by
    unfold Mod.showProfile
    rw [get_put_other _ (by decide), get_put_other _ (by decide), get_put_same]
  rw [loadProfile_eq]
  split
  · exact ⟨a1, a2, a3⟩
  · have e : OnlyEntries profileKeys (m.showProfile p) ((m.showProfile p).each profileKeys (Mod.loadEntry p)) :=
      entries_each _ _ _ (fun k hk x => (loadEntry_laws p k x).2.mono (by simpa using hk))
    refine ⟨a1.oeach (fun k x => (loadEntry_laws p k x).1), a2.trans (e.mono (fun k hk => by simp [loadedKeys, hk])), ?_⟩
    rw [e _ (fun h => absurd (profileKeys_below _ h) (Nat.lt_irrefl _))]
    exact a3

/-- An entry above those of the profiles is none that a profile writes. -/
theorem not_loaded {k : Nat} (h : Ob.profileActive + 2 < k) : k ∉ loadedKeys := by
  have e : Ob.profileVersion = Ob.profileActive + 1 ∧ Ob.profileFRated = Ob.profileActive + 2 := by decide
  intro hk
  simp only [loadedKeys, List.mem_cons] at hk
  rcases hk with rfl | rfl | rfl | hk
  · omega
  · omega
  · omega
  · have := profileKeys_below k hk; omega

/-- The agreed switches give the profile, D and the test interval. -/
theorem sealsApply_laws (a : Nat) (m : Mod) :
    Only [.obj] m (m.sealsApply a) ∧ OnlyEntries (Ob.discTime :: Ob.testInterval :: loadedKeys) m (m.sealsApply a)
    ∧ (m.sealsApply a).get Ob.profileActive = a % 16 ∧ (m.sealsApply a).get Ob.discTime = discTimeOf (a / 16 % 4)
    ∧ (m.sealsApply a).get Ob.testInterval = testHoursOf (a / 64 % 4) := by
  unfold Mod.sealsApply
  generalize hA : (m.put Ob.discTime (discTimeOf (a / 16 % 4))).put Ob.testInterval (testHoursOf (a / 64 % 4)) = A
  have a1 : Only [.obj] m A := by subst hA; exact ((Only.refl _ _).oput (by decide)).oput (by decide)
  have a2 : OnlyEntries [Ob.discTime, Ob.testInterval] m A := by
    subst hA; exact ((onlyEntries_refl _ _).oput (by simp)).oput (by simp)
  have a3 : A.get Ob.discTime = discTimeOf (a / 16 % 4) ∧ A.get Ob.testInterval = testHoursOf (a / 64 % 4) := by
    subst hA; exact ⟨by rw [get_put_other _ (by decide), get_put_same], get_put_same _⟩
  clear hA
  obtain ⟨b1, b2, b3⟩ := loadProfile_laws (a % 16) A
  refine ⟨a1.to b1 (by decide), (a2.mono (by simp)).trans (b2.mono (fun k hk => by simp [hk])), b3, ?_, ?_⟩
  · rw [b2 _ (not_loaded (by decide))]; exact a3.1
  · rw [b2 _ (not_loaded (by decide))]; exact a3.2

theorem discTimeOf_eq {c : Nat} (h : c < 4) : discTimeOf c = [20, 50, 100, 200].getD c 0 := by
  revert h; revert c; decide

theorem testHoursOf_eq {c : Nat} (h : c < 4) : testHoursOf c = [24, 12, 72, 168].getD c 0 := by
  revert h; revert c; decide

/-- SDC_STATE changes with EV080, and nothing of Serac's but the timer of its step. -/
theorem sdcTo_laws (new : Nat) (m : Mod) :
    Only ([.sdc, .obj] ++ evParts) m (m.sdcTo new) ∧ OnlyEntries [Ob.sdcState] m (m.sdcTo new) ∧ (m.sdcTo new).sdcSt = new
    ∧ (m.sdcTo new).sdc.lockout = m.sdc.lockout := by
  unfold Mod.sdcTo
  dsimp only
  split
  · rename_i h
    exact ⟨Only.refl _ _, onlyEntries_refl _ _, h, rfl⟩
  · refine ⟨(((only_modSdc m _).mono (by decide)).oput (by decide)).oinform _ _ (by decide),
      ((onlyEntries_obj (onlyEntries_refl _ _) rfl).oput (by simp)).oinform _ _, ?_, ?_⟩
    · unfold Mod.sdcSt; rw [get_informed, get_put_same]
    · rw [inform_eq, raiseAt_sdc]; rfl

/-- Channel A runs, and shows the readings and the verdict. -/
def Mod.sealsRead (a b st : Nat) (m : Mod) : Mod :=
  (((m.modPower (fun x => { x with safetyUp := true, sealDone := true })).put Ob.sealA a).put Ob.sealB b).put Ob.sealState st

theorem sealsRead_laws (a b st : Nat) (m : Mod) :
    (m.sealsRead a b st).get Ob.sealA = a ∧ (m.sealsRead a b st).get Ob.sealState = st
    ∧ (m.sealsRead a b st).power.safetyUp = true := by
  refine ⟨?_, get_put_same _, rfl⟩
  unfold Mod.sealsRead
  rw [get_put_other _ (by decide), get_put_other _ (by decide), get_put_same]

/-- The first run of the safety die since power-up decides the seals. -/
theorem safetyDie_decides {s : State} {rel : Nat} {sa : List Nat} {a : Nat} (hr : s.m.power.released = some rel)
    (hu : s.m.power.safetyUp = false) (hd : s.m.power.sealDone = false) (hB : s.m.power.sealBBad = false)
    (ha : sa.headD 0 % 256 = a) (hs : sa.any (· % 256 ≠ a) = false) :
    safetyDieRunning true sa s = { s with
      m := if sealVerdict a s.kept.sealB false = 0 then (s.m.sealsRead a s.kept.sealB (sealVerdict a s.kept.sealB false)).sealsApply a
        else ((s.m.sealsRead a s.kept.sealB (sealVerdict a s.kept.sealB false)).modSdc (fun x => { x with lockout := true })).sdcTo sdcLockout
      kept := { s.kept with sealA := a, sealState := sealVerdict a s.kept.sealB false } } := by
  subst ha
  simp only [safetyDieRunning, hr, hu, hd, hB, hs, Option.isNone_some, Bool.or_false, Bool.not_true, Bool.false_eq_true,
    if_false]
  rfl

theorem sealVerdict_agree {a : Nat} (h : a % 16 < 9) : sealVerdict a a false = 0 := by
  simp [sealVerdict, Nat.not_le.2 h]

theorem sealVerdict_differ {a b : Nat} (h : a ≠ b) : sealVerdict a b false = 1 := if_pos h

/-! ### Training and self-test (R475, R476, R479) -/

/-- A change of the lanes leaves whether a lane starts, where it leaves that lane. -/
theorem starts_of_laneAt {a b : Mod} {k : Nat} (h : Only [.lanes] a b) (hk : b.laneAt k = a.laneAt k) : b.starts k = a.starts k := by
  have ha : b.arb = a.arb := h .arb (by decide)
  unfold Mod.starts Mod.lane
  rw [hk, ha, h.get (by decide)]

/-- What an attempt at training Floe does with one lane: `ok` where the lanes pass it together, `alone` where the lane passes its loopback. -/
def Mod.floeLane (ok : Bool) (l : Nat) (alone : Bool) (m : Mod) : Mod :=
  if m.starts l && (m.laneAt l).image && !(m.laneAt l).floe then
    if ok || (2 ≤ (m.laneAt l).tries && alone) then m.modLane l (fun x => { x with floe := true, floeSeq := none, tries := 0 })
    else if (m.laneAt l).tries < 2 then m.modLane l (fun x => { x with tries := x.tries + 1 })
    else (m.modLane l (fun x => { x with tries := 3 })).stepFails l 6 0x1004
  else m

theorem floeTraining_eq (crcOk skewOk loopA loopB : Bool) (m : Mod) {ok : Bool}
    (h : (crcOk && skewOk && (m.laneAt 0).image && (m.laneAt 1).image && (m.laneAt 0).version = (m.laneAt 1).version) = ok) :
    m.floeTraining crcOk skewOk loopA loopB = (m.floeLane ok 0 loopA).floeLane ok 1 (!loopA && loopB) := by
  subst h
  rfl

/-- A lane that starts with its image is trained by an attempt that both pass. -/
theorem floeLane_trained (l : Nat) (alone : Bool) (m : Mod) (hl : l < m.lanes.length) (hs : m.starts l = true)
    (hi : (m.laneAt l).image = true) :
    Only [.lanes] m (m.floeLane true l alone) ∧ ((m.floeLane true l alone).laneAt l).floe = true
    ∧ (m.floeLane true l alone).lanes.length = m.lanes.length ∧ (∀ k, k ≠ l → (m.floeLane true l alone).laneAt k = m.laneAt k) := by
  unfold Mod.floeLane
  cases hf : (m.laneAt l).floe with
  | true =>
    rw [if_neg (by simp)]
    exact ⟨Only.refl _ _, hf, rfl, fun _ _ => rfl⟩
  | false =>
    rw [if_pos (by simp [hs, hi]), if_pos (by simp)]
    refine ⟨only_modLane m l _, ?_, lanesLen_modLane _ _ _, fun k hk => laneAt_modLane_other _ _ _ _ hk⟩
    rw [laneAt_modLane _ _ _ hl]

/-- Two lanes that start with images of one version are trained by a good attempt. -/
theorem floeTraining_trains (loopA loopB : Bool) (m : Mod) (hl : m.lanes.length = 2)
    (hs : ∀ k, k < 2 → m.starts k = true ∧ (m.laneAt k).image = true) (hv : (m.laneAt 0).version = (m.laneAt 1).version) :
    Only [.lanes] m (m.floeTraining true true loopA loopB)
    ∧ (∀ k, k < 2 → ((m.floeTraining true true loopA loopB).laneAt k).floe = true) := by
  obtain ⟨s0, i0⟩ := hs 0 (by decide)
  obtain ⟨s1, i1⟩ := hs 1 (by decide)
  rw [floeTraining_eq _ _ _ _ m (ok := true) (by simp [i0, i1, hv])]
  obtain ⟨a1, a2, a3, a4⟩ := floeLane_trained 0 loopA m (by omega) s0 i0
  generalize m.floeLane true 0 loopA = A at a1 a2 a3 a4
  have e1 : A.laneAt 1 = m.laneAt 1 := a4 1 (by decide)
  obtain ⟨b1, b2, -, b4⟩ := floeLane_trained 1 (!loopA && loopB) A (by omega) ((starts_of_laneAt a1 e1).trans s1) (by rw [e1]; exact i1)
  refine ⟨a1.trans b1, fun k hk => ?_⟩
  match k, hk with
  | 0, _ => rw [b4 0 (by decide)]; exact a2
  | 1, _ => exact b2

theorem rimeTraining_good {l : Nat} {m : Mod} (hs : m.starts l = true) :
    m.rimeTraining l true = m.modLane l (fun x => { x with rime := true, rimeFailed := false }) := by
  simp [Mod.rimeTraining, hs]

/-- A Rime link that fails after the other one has failed. -/
theorem rimeTraining_bothFail {l : Nat} {m : Mod} (hl : l < 2) (hs : m.starts l = true) (ho : (m.laneAt (1 - l)).rimeFailed = true) :
    m.rimeTraining l false = (m.modLane l (fun x => { x with rimeFailed := true })).modPower (fun x => { x with fieldBad := true }) := by
  have e : ∀ f, (m.modLane l f).laneAt (1 - l) = m.laneAt (1 - l) := fun f => laneAt_modLane_other _ _ _ _ (by omega)
  simp [Mod.rimeTraining, hs, e, ho]

/-- Of two regions with different numbers the later one is copied. -/
theorem regionCheck_laws (m : Mod) :
    Only [.sto, .power] m m.regionCheck ∧ m.regionCheck.sto = m.sto
    ∧ (m.gens.getD 0 0 = m.gens.getD 1 0 → m.regionCheck = m)
    ∧ (m.arb.armed = false → m.gens.getD 0 0 ≠ m.gens.getD 1 0 → m.regionCheck.gens =
        List.replicate 2 (if genAfter (m.gens.getD 1 0) (m.gens.getD 0 0) then m.gens.getD 1 0 else m.gens.getD 0 0)) := by
  unfold Mod.regionCheck
  dsimp only
  split
  · rename_i h
    simp only [Bool.or_eq_true, decide_eq_true_eq] at h
    exact ⟨Only.refl _ _, rfl, fun _ => rfl, fun ha hn => absurd h (by simp only [ha, hn]; decide)⟩
  · rename_i h
    refine ⟨?_, rfl, fun he => absurd (by simp only [he, decide_true, Bool.or_true]) h, fun _ _ => rfl⟩
    intro p hp; cases p <;> first | (exact absurd (by decide) hp) | rfl

theorem carrierStarts_laws (m : Mod) : Only [.clk] m m.carrierStarts ∧ m.carrierStarts.clk.running = true := by
  unfold Mod.carrierStarts
  split
  · exact ⟨Only.refl _ _, by assumption⟩
  · refine ⟨?_, rfl⟩
    intro p hp; cases p <;> first | (exact absurd (by decide) hp) | rfl

theorem selfTest_passes {l : Nat} {m : Mod} (hs : m.starts l = true) (hi : (m.laneAt l).image = true) :
    m.selfTest l true = (m.regionCheck.modLane l (fun x => { x with tested := true })).carrierStarts := by
  simp [Mod.selfTest, hs, hi]

/-- A lane that passes its self-test: the regions agree, and the carrier runs. -/
theorem selfTest_passed (l : Nat) (m : Mod) (hl : l < m.lanes.length) (hs : m.starts l = true) (hi : (m.laneAt l).image = true) :
    Only [.clk, .sto, .lanes, .power] m (m.selfTest l true) ∧ (m.selfTest l true).sto = m.sto
    ∧ ((m.selfTest l true).laneAt l).tested = true ∧ (m.selfTest l true).clk.running = true
    ∧ (m.arb.armed = false → m.gens.getD 0 0 ≠ m.gens.getD 1 0 → (m.selfTest l true).gens =
        List.replicate 2 (if genAfter (m.gens.getD 1 0) (m.gens.getD 0 0) then m.gens.getD 1 0 else m.gens.getD 0 0))
    ∧ (m.gens.getD 0 0 = m.gens.getD 1 0 → Only [.clk, .lanes] m (m.selfTest l true)) := by
  rw [selfTest_passes hs hi]
  obtain ⟨r1, r2, r3, r4⟩ := regionCheck_laws m
  generalize m.regionCheck = R at r1 r2 r3 r4
  have hR : R.lanes = m.lanes := r1 .lanes (by decide)
  have t1 := only_modLane R l (fun x => { x with tested := true })
  have t2 : (R.modLane l (fun x => { x with tested := true })).laneAt l = { R.laneAt l with tested := true } :=
    laneAt_modLane _ _ _ (by rw [hR]; exact hl)
  generalize R.modLane l (fun x => { x with tested := true }) = T at t1 t2
  obtain ⟨c1, c2⟩ := carrierStarts_laws T
  have later : Only [.clk, .lanes] R T.carrierStarts := (t1.mono (by decide)).to c1 (by decide)
  obtain ⟨s1, s2⟩ := Prod.mk.inj (later .sto (by decide))
  refine ⟨(r1.mono (by decide)).to later (by decide), s1.trans r2, ?_, c2, fun ha hn => s2.trans (r4 ha hn), fun he => ?_⟩
  · rw [laneAt_eq (c1 .lanes (by decide)), t2]
  · rwa [r3 he] at later

theorem selfTest_fails {l : Nat} {m : Mod} (hs : m.starts l = true) (hi : (m.laneAt l).image = true) :
    m.selfTest l false = m.stepFails l 8 0x1006 := by
  simp [Mod.selfTest, hs, hi]

/-! ### The commands of start-up -/

theorem powerOn_does (s : State) (sb : List Nat) (b : Nat) (h0 : s.m.power.power = false) (hb : sb = List.replicate 10 b) (h8 : b < 256) :
    Completes (.powerOn true sb) s (fun t => t.m.power.power = true ∧ t.kept.sealB = b ∧ t.m.get Ob.sealB = b
      ∧ t.kept.rollback = s.kept.rollback ∧ t.kept.sealA = s.kept.sealA ∧ t.m.power.sealBBad = false ∧ t.m.hk.tcxoLost = false
      ∧ t.m.prot.log = s.m.prot.log) := by
  obtain ⟨u1, -, u3, u4⟩ := seracUp_laws sb s.m
  obtain ⟨v1, v2⟩ := readings_replicate h8
  have hd : sb.headD 0 % 256 = b := by rw [hb]; exact v1
  refine ⟨_, congrArg Host.Outcome.next (powerOn_of_off true h0), rfl, ?_⟩
  rw [if_pos rfl]
  dsimp only
  rw [u3, u4, show (s.m.seracUp sb).hk = s.m.dark.hk from u1 .hk (by decide),
    show (s.m.seracUp sb).prot = s.m.dark.prot from u1 .prot (by decide), hd]
  exact ⟨rfl, rfl, rfl, rfl, rfl, by rw [hb]; exact v2, rfl, rfl⟩

theorem powerOn_noTcxo_does (s : State) (sb : List Nat) (h0 : s.m.power.power = false) :
    Completes (.powerOn false sb) s (fun t => t.m.power.power = true ∧ t.m.get (Ob.refSource 0) = 1 ∧ t.m.get (Ob.refSource 1) = 1
      ∧ (cellGet dfltOf (Ob.refSource 0) s.m.sto = 0 → 26 ∈ t.m.seenEv)) := by
  obtain ⟨u1, u2, u3, -⟩ := seracUp_laws sb s.m
  have hk : (s.m.seracUp sb).hk = s.m.dark.hk := u1 .hk (by decide)
  have href : (s.m.seracUp sb).get (Ob.refSource 0) = s.m.dark.get (Ob.refSource 0) := u2 _ (by decide)
  obtain ⟨l1, l2, l3, l4⟩ := tcxoLost_laws (s.m.seracUp sb) (by rw [hk]; rfl)
  refine ⟨_, congrArg Host.Outcome.next (powerOn_of_off false h0), rfl, ?_⟩
  rw [if_neg (by decide)]
  dsimp only
  refine ⟨?_, l2, l3, fun h => l4 ?_⟩
  · rw [show (s.m.seracUp sb).tcxoLost.power = (s.m.seracUp sb).power from l1 .power (by decide), u3]
  · rw [href, show s.m.dark.get (Ob.refSource 0) = cellGet dfltOf (Ob.refSource 0) s.m.sto from rfl, h]
    decide

theorem powerDip_does (s : State) (h : s.m.secu.certNext = none) :
    Does .powerDip s (fun m => m.power.power = false ∧ m.link.ready = false ∧ m.sess = [] ∧ m.prot.log = s.m.prot.log
      ∧ m.obj = s.m.sto ∧ m.sto = s.m.sto) :=
  does_onMod rfl (certCycle_none s.m.dark h) ⟨rfl, rfl, rfl, rfl, rfl, rfl⟩

theorem lanesReleased_does (s : State) (hl : s.m.lanes.length = 2) (hp : s.m.power.power = true) (hr : s.m.sdc.resetLow = false)
    (hn : s.m.power.released = none) :
    Does (.lanesReleased true true) s (fun m => (∀ k, k < 2 → (m.laneAt k).released = true ∧ (m.laneAt k).locked = true
      ∧ m.get (Ob.adpllState k) = 1) ∧ m.power.released = some (max s.m.now s.m.power.relPs) ∧ m.tai = 0
      ∧ Only [.clk, .lanes, .obj, .power] s.m m ∧ OnlyEntries [Ob.adpllState 0, Ob.adpllState 1] s.m m) := by
  refine does_onMod rfl (lanesReleased_first true true s.m hp hr hn) ?_
  obtain ⟨r1, r2, r3, r4, r5⟩ := releaseLanes_laws s.m
  generalize s.m.releaseLanes = R at r1 r2 r3 r4 r5
  obtain ⟨a1, a2, a3, a4, a5, a6⟩ := lockLane_locked 0 R
  generalize R.lockLane 0 true = A at a1 a2 a3 a4 a5 a6
  obtain ⟨b1, b2, b3, -, b5, b6⟩ := lockLane_locked 1 A
  generalize A.lockLane 1 true = B at b1 b2 b3 b5 b6
  have rB : Only [.lanes, .obj] R B := a1.trans b1
  have clk : B.clk = R.clk := rB .clk (by decide)
  refine ⟨fun k hk => ?_, ?_, ?_, (r1.mono (by decide)).to rB (by decide), ?_⟩
  · match k, hk with
    | 0, _ =>
      rw [b6 0 (by decide), a5 (by omega), r5 0 (by omega), b2 _ (by decide)]
      exact ⟨rfl, rfl, a3⟩
    | 1, _ =>
      rw [b5 (by omega), a6 1 (by decide), r5 1 (by omega)]
      exact ⟨rfl, rfl, b3⟩
  · rw [show B.power = R.power from rB .power (by decide)]; exact r2
  · unfold Mod.tai at r3 ⊢; rw [clk]; exact r3
  · exact ((onlyEntries_obj (onlyEntries_refl _ _) (r1 .obj (by decide))).trans (a2.mono (by simp))).trans (b2.mono (by simp))

theorem lanesReleased_unlocked_does (s : State) (hl : s.m.lanes.length = 2) (hp : s.m.power.power = true) (hr : s.m.sdc.resetLow = false)
    (hn : s.m.power.released = none) (h0 : (s.m.laneAt 0).failCode = 0) (ha : s.m.arb.armed = false) :
    Does (.lanesReleased false true) s (fun m => (m.laneAt 0).failCode = 0x1003 ∧ (m.laneAt 0).failStep = 2
      ∧ m.get (Ob.adpllState 0) = 0 ∧ (m.laneAt 1).locked = true ∧ Only [.clk, .lanes, .obj, .power] s.m m) := by
  refine does_onMod rfl (lanesReleased_first false true s.m hp hr hn) ?_
  obtain ⟨r1, -, -, r4, r5⟩ := releaseLanes_laws s.m
  generalize s.m.releaseLanes = R at r1 r4 r5
  have hR : R.arb = s.m.arb := r1 .arb (by decide)
  obtain ⟨a1, a2, a3, a4⟩ := lockLane_unlocked 0 R (by rw [r5 0 (by omega)]; exact h0) (by rw [hR]; exact ha)
  generalize R.lockLane 0 false = A at a1 a2 a3 a4
  obtain ⟨b1, b2, -, -, b5, b6⟩ := lockLane_locked 1 A
  rw [b6 0 (by decide), a4 (by omega), b5 (by omega), b2 _ (by decide)]
  exact ⟨rfl, rfl, a2, rfl, ((r1.mono (by decide)).to a1 (by decide)).to b1 (by decide)⟩

/-- Before any claim a lane that fails its first step names it, and nothing else changes. -/
theorem failsStep_does {c : Instr} {s : State} {l step code : Nat} {Q : Mod → Prop}
    (hc : exec c s = onUnit (laneOk l) s (s.m.stepFails l step code)) (hl : l < 2) (hn : s.m.lanes.length = 2)
    (h0 : (s.m.laneAt l).failCode = 0) (ha : s.m.arb.armed = false)
    (q : ∀ n, n.laneAt l = { s.m.laneAt l with failCode := code, failStep := step } → Only [.lanes] s.m n → Q n) : Does c s Q :=
  does_lane hc hl (stepFails_first l step code s.m h0 ha) (q _ (laneAt_modLane _ _ _ (by omega)) (only_modLane _ _ _))

theorem safetyDie_agrees_does (s : State) (rel b : Nat) (sa : List Nat) (hr : s.m.power.released = some rel)
    (hu : s.m.power.safetyUp = false) (hd : s.m.power.sealDone = false) (hB : s.m.power.sealBBad = false)
    (hs : sa = List.replicate 10 b) (h8 : b < 256) (hp : b % 16 < 9) (hb : s.kept.sealB = b) :
    Completes (.safetyDieRunning true sa) s (fun t => t.kept.sealA = b ∧ t.kept.sealB = b ∧ t.kept.sealState = 0
      ∧ t.kept.rollback = s.kept.rollback
      ∧ t.m.get Ob.sealA = b ∧ t.m.get Ob.sealState = 0 ∧ t.m.power.safetyUp = true ∧ t.m.get Ob.profileActive = b % 16
      ∧ t.m.get Ob.discTime = [20, 50, 100, 200].getD (b / 16 % 4) 0
      ∧ t.m.get Ob.testInterval = [24, 12, 72, 168].getD (b / 64 % 4) 0) := by
  obtain ⟨v1, v2⟩ := readings_replicate h8
  refine ⟨_, congrArg Host.Outcome.next (safetyDie_decides hr hu hd hB (hs ▸ v1) (hs ▸ v2)), rfl, ?_⟩
  rw [hb, sealVerdict_agree hp, if_pos rfl]
  obtain ⟨r1, r2, r3⟩ := sealsRead_laws b b 0 s.m
  generalize s.m.sealsRead b b 0 = R at r1 r2 r3
  obtain ⟨a1, a2, a3, a4, a5⟩ := sealsApply_laws b R
  have kept : ∀ k, Ob.profileActive + 2 < k → k ≠ Ob.discTime → k ≠ Ob.testInterval → (R.sealsApply b).get k = R.get k :=
    fun k h1 h2 h3 => a2 k (by simp [h2, h3, not_loaded h1])
  refine ⟨rfl, hb, rfl, rfl, ?_, ?_, ?_, a3, ?_, ?_⟩
  · rw [kept _ (by decide) (by decide) (by decide)]; exact r1
  · rw [kept _ (by decide) (by decide) (by decide)]; exact r2
  · rw [show (R.sealsApply b).power = R.power from a1 .power (by decide)]; exact r3
  · rw [a4]; exact discTimeOf_eq (Nat.mod_lt _ (by decide))
  · rw [a5]; exact testHoursOf_eq (Nat.mod_lt _ (by decide))

theorem safetyDie_differs_does (s : State) (rel b : Nat) (sa : List Nat) (hr : s.m.power.released = some rel)
    (hu : s.m.power.safetyUp = false) (hd : s.m.power.sealDone = false) (hB : s.m.power.sealBBad = false)
    (hs : sa = List.replicate 10 b) (h8 : b < 256) (hb : s.kept.sealB ≠ b) :
    Completes (.safetyDieRunning true sa) s (fun t => t.kept.sealA = b ∧ t.kept.sealState = 1 ∧ t.m.sdc.lockout = true
      ∧ t.m.get Ob.sealState = 1) := by
  obtain ⟨v1, v2⟩ := readings_replicate h8
  refine ⟨_, congrArg Host.Outcome.next (safetyDie_decides hr hu hd hB (hs ▸ v1) (hs ▸ v2)), rfl, ?_⟩
  rw [sealVerdict_differ hb.symm, if_neg (by decide)]
  obtain ⟨-, r2, -⟩ := sealsRead_laws b s.kept.sealB 1 s.m
  generalize s.m.sealsRead b s.kept.sealB 1 = R at r2
  obtain ⟨-, d2, -, d4⟩ := sdcTo_laws sdcLockout (R.modSdc (fun x => { x with lockout := true }))
  refine ⟨rfl, rfl, d4, ?_⟩
  rw [d2 _ (by decide)]
  exact r2

/-- What the lane shows of the image that it boots. -/
theorem firmware_does (s : State) (l : Nat) (ia ib : ImageInfo) {useB : Bool} {reason : Nat} (hl : l < 2) (hn : s.m.lanes.length = 2)
    (hs : s.m.starts l = true) (hb : (s.m.laneAt l).boot = true) (hm : (s.m.laneAt l).macFails < 3) (hc : s.m.get Ob.certifiedMode ≠ 1)
    (hi : s.m.secu.badImg.all (fun x => x.1 ≠ l) = true) (hx : chooseImage s.kept s.m ia ib = some (useB, reason)) :
    Does (.firmwareImageVerified l ia ib) s (fun m => (m.laneAt l).image = true ∧ (m.laneAt l).imageB = useB
      ∧ (m.laneAt l).version = (if useB then ib else ia).version ∧ (m.laneAt l).reason = reason ∧ Only [.lanes, .secu] s.m m) := by
  refine does_lane rfl hl (firmware_boots hs hb hm hc hi hx) ?_
  rw [laneAt_eq (modSecu_lanes _ _), laneAt_modLane _ _ _ (by omega)]
  exact ⟨rfl, rfl, rfl, rfl, ((only_modLane _ _ _).mono (by decide)).to (only_modSecu _ _) (by decide)⟩

/-- Settles O56: each command of start-up by the law of its operation. -/
theorem startUpGoesOn : Obligations.StartUpGoesOn := by
  unfold Obligations.StartUpGoesOn
  intro s l b rel sb sa ia ib hl hn
  refine ⟨fun h0 hb h8 => ⟨powerOn_does s sb b h0 hb h8, powerOn_noTcxo_does s sb h0⟩,
    fun h => congrArg Host.Outcome.next (powerOn_of_on h), powerDip_does s,
    fun hp hr hf => ⟨lanesReleased_does s hn hp hr hf, lanesReleased_unlocked_does s hn hp hr hf⟩,
    fun hs hk hm => ⟨fun hx => ?_, fun hx h0 ha => ?_⟩,
    fun hr hu hd hB hsa h8 => ⟨safetyDie_agrees_does s rel b sa hr hu hd hB hsa h8, safetyDie_differs_does s rel b sa hr hu hd hB hsa h8⟩,
    fun hs hb hm hc hi hA hB => ⟨fun hv => ?_, fun hv => ?_⟩, fun hs hv => ?_,
    fun hs => ⟨?_, fun ho => ?_⟩, fun hs hi => ⟨?_, fun h0 ha => ?_⟩⟩
  · refine does_lane rfl hl (bootLoader_accepted hs hk hm hx) ⟨?_, only_modLane _ _ _⟩
    rw [laneAt_modLane _ _ _ (by omega)]
  · refine failsStep_does (congrArg (onUnit _ s) (bootLoader_refused hs hk hx)) hl hn h0 ha (fun n e o => ?_)
    rw [e]
    exact ⟨rfl, rfl, rfl, o⟩
  · have hx := chooseImage_good hA hB
    rw [decide_eq_true hv, if_neg (Nat.ne_of_lt hv)] at hx
    exact firmware_does s l ia ib hl hn hs hb hm hc hi hx
  · have hx := chooseImage_good hA hB
    rw [decide_eq_false (Nat.not_lt.2 hv)] at hx
    exact firmware_does s l ia ib hl hn hs hb hm hc hi hx
  · obtain ⟨f1, f2⟩ := floeTraining_trains false false s.m hn hs hv
    exact does_onMod rfl rfl ⟨f2, f1⟩
  · refine does_lane rfl hl (rimeTraining_good hs) ?_
    rw [laneAt_modLane _ _ _ (by omega)]
    exact ⟨rfl, rfl, only_modLane _ _ _⟩
  · exact does_lane rfl hl (rimeTraining_bothFail hl hs ho)
      ⟨rfl, ((only_modLane _ _ _).mono (by decide)).to (only_modPower _ _) (by decide)⟩
  · obtain ⟨t1, t2, t3, t4, t5, t6⟩ := selfTest_passed l s.m (by omega) hs hi
    exact does_lane rfl hl rfl ⟨t3, t4, t5, t6, t1, t2⟩
  · refine failsStep_does (congrArg (onUnit _ s) (selfTest_fails hs hi)) hl hn h0 ha (fun n e o => ?_)
    rw [e]
    exact ⟨rfl, rfl, o⟩

end Sys2Proof.Machine
end

section
/-!
PROOFS. Fast overcurrent (R95, R97, R284, R309): what a detector's report does, and the statement that it trips its units (O32).
-/
namespace Sys2Proof.Machine

/-! ### A function applied along a list -/

/-- What holds before, and what every application keeps, holds after. -/
theorem each_invariant {I : Mod → Prop} {F : Nat → Mod → Mod} {l : List Nat} {m : Mod} (h0 : I m) (hF : ∀ n ∈ l, ∀ x, I x → I (F n x)) :
    I (m.each l F) := by
  induction l generalizing m with
  | nil => exact h0
  | cons n l ih => exact ih (hF n List.mem_cons_self m h0) (fun k hk => hF k (List.mem_cons_of_mem _ hk))

/-- What the application to one number brings about and the others keep holds after, beside an invariant. -/
theorem each_establishes {I P : Mod → Prop} {F : Nat → Mod → Mod} {l : List Nat} {m : Mod} {c : Nat} (hc : c ∈ l) (h0 : I m)
    (hF : ∀ n ∈ l, ∀ x, I x → I (F n x)) (hP : ∀ n ∈ l, ∀ x, I x → P x → P (F n x)) (hN : ∀ x, I x → P (F c x)) : P (m.each l F) := by
  induction l generalizing m with
  | nil => cases hc
  | cons n l ih =>
    have hn := hF n List.mem_cons_self m h0
    have tl : ∀ {k}, k ∈ l → k ∈ n :: l := List.mem_cons_of_mem n
    rw [each_cons]
    by_cases hcl : c ∈ l
    · exact ih hcl hn (fun k hk => hF k (tl hk)) (fun k hk => hP k (tl hk))
    · obtain rfl : c = n := (List.mem_cons.1 hc).resolve_right hcl
      exact (each_invariant (I := fun x => I x ∧ P x) ⟨hn, hN m h0⟩
        (fun k hk x hx => ⟨hF k (tl hk) x hx.1, hP k (tl hk) x hx.1 hx.2⟩)).2

/-! ### Masks of numbers -/

theorem bit_foldl_or (l : List Nat) (a i : Nat) : (l.foldl (fun a k => a ||| 2 ^ k) a).testBit i = (a.testBit i || decide (i ∈ l)) := by
  induction l generalizing a with
  | nil => simp
  | cons k l ih =>
    rw [List.foldl_cons, ih, Nat.testBit_or, Nat.testBit_two_pow, Bool.or_assoc]
    congr 1
    by_cases h : k = i
    · simp [h]
    · simp [h, Ne.symm h]

theorem bit_maskOf (l : List Nat) (i : Nat) : bit (maskOf l) i = decide (i ∈ l) := by
  simp [bit, maskOf, bit_foldl_or]

theorem maskOf_ne_zero {l : List Nat} {i : Nat} (h : i ∈ l) : maskOf l ≠ 0 := by
  intro h0
  have hb := bit_maskOf l i
  rw [h0] at hb
  simp [bit, h] at hb

/-- The numbers of a mask of some of the first `n`, in order. -/
theorem bitsOf_maskOf (n : Nat) (p : Nat → Bool) : bitsOf n (maskOf ((List.range n).filter p)) = (List.range n).filter p := by
  unfold bitsOf
  refine List.filter_congr (fun i hi => ?_)
  have hb := bit_maskOf ((List.range n).filter p) i
  unfold bit at hb
  simpa [List.mem_range.1 hi] using hb

/-! ### What a trip leaves -/

theorem grpLen_assertTrip (fault cls sources channels legs : Nat) (groups units : List Nat) (perTick : Bool) (one : Option Nat) (m : Mod) :
    (m.assertTrip fault cls sources channels legs groups units perTick one).grp.length = m.grp.length := by
  unfold Mod.assertTrip
  dsimp only
  generalize hU : (if cls = 1 then groups.filter m.inUse else units) = us
  by_cases hu : us = []
  · rw [if_pos hu]
  · rw [if_neg hu]
    exact each_keeps m (fun x => x.grp.length) (fun g x => grpLen_tripGroup sources g x) _

/-- A group in use that has tripped stays so whatever trips next. -/
theorem tripped_assertTrip {fault cls sources channels legs : Nat} {groups units : List Nat} {perTick : Bool} {one : Option Nat} {m : Mod}
    (hg : ∀ g ∈ groups, g < 8) (hu : cls ≠ 1 → units ≠ []) {g : Nat} (h8 : g < 8) (hl : g < m.grp.length) (hi : m.inUse g = true)
    (h : (m.grpAt g).latched = true ∧ (m.grpAt g).on = false) :
    ((m.assertTrip fault cls sources channels legs groups units perTick one).grpAt g).latched = true
    ∧ ((m.assertTrip fault cls sources channels legs groups units perTick one).grpAt g).on = false := by
  obtain ⟨-, -, -, trips, stays⟩ := assertTrip_laws fault cls sources channels legs groups units perTick one m hg
  by_cases hm : g ∈ groups
  · exact trips hu g hm hi hl
  · rw [stays g h8 hl hm]; exact h

/-- The entries that trips write. -/
def allTripKeys : List Nat := (List.range 8).flatMap tripKeys

/-- An entry whose key is below those of the groups is none that a trip writes. -/
theorem notTripKey {k : Nat} (h : k < 0x409001) : k ∉ allTripKeys := by
  have hall : ∀ j ∈ allTripKeys, 0x409001 ≤ j := by decide
  exact fun hk => absurd (hall k hk) (by omega)

theorem layout_notTripKey {g : Nat} (h : g < 8) : Ob.grpLayout g ∉ allTripKeys := notTripKey (by unfold Ob.grpLayout; omega)

/-! ### One channel that newly crosses its level (R95, R284, R309) -/

/-- The lanes of a mask that had not found a channel beyond its level. -/
def Mod.newLanes (m : Mod) (lanes n : Nat) : Nat := maskOf ((List.range 2).filter (fun l => bit lanes l && !bit (m.prot.focLane.getD l 0) n))

/-- What FOC_TRIP, evaluated by `lanes` in the module `m`, does for a channel: a trip, or a share in the other lane's. -/
def Mod.focReport (m : Mod) (lanes n : Nat) (x : Mod) : Mod :=
  if bit (m.prot.focLane.getD 0 0 ||| m.prot.focLane.getD 1 0) n then
    { x with prot := { x.prot with pend := x.prot.pend.map (joinTrip (m.newLanes lanes n) n) } }
  else x.assertTrip (focFault (x.get (Ob.role n))) 1 (laneBits (m.newLanes lanes n)) (2 ^ n) (x.legsOfChan n) (groupsOf (x.owners n)) [] false
    (x.oneLane (m.newLanes lanes n))

/-- FOC_TRIP notes what the lanes have found, and reports channel by channel. -/
theorem focTrip_eq (lanes : Nat) (wins : List Nat) (m : Mod) : ∃ p : ProtRt,
    m.focTrip lanes wins = Mod.each ((m.focCrossed Ob.focTrip wins).filter (fun n => m.newLanes lanes n ≠ 0)) (m.focReport lanes)
      { m with prot := p } := ⟨_, rfl⟩

/-- Whether a trip of a channel's detector waits for the boundary, with its fault code and the instant of the crossing. -/
def FocWaits (fault n ps : Nat) (m : Mod) : Prop := ∃ a ∈ m.prot.pend, a.fault = fault ∧ a.cls = 1 ∧ a.channels = 2 ^ n ∧ a.atPs = ps

theorem joinTrip_keeps (by_ n : Nat) (a : Assertion) : (joinTrip by_ n a).fault = a.fault ∧ (joinTrip by_ n a).cls = a.cls
    ∧ (joinTrip by_ n a).channels = a.channels ∧ (joinTrip by_ n a).atPs = a.atPs := by
  unfold joinTrip
  split <;> exact ⟨rfl, rfl, rfl, rfl⟩

theorem only_joined (x : Mod) (f : Assertion → Assertion) : Only [.prot] x { x with prot := { x.prot with pend := x.prot.pend.map f } } := by
  intro p hp; cases p <;> first | (exact absurd (by decide) hp) | rfl

/-- A trip of the power path waits behind those that wait already. -/
theorem focWaits_assertTrip {fault n ps : Nat} {x : Mod} (h : FocWaits fault n ps x) (f sources channels legs : Nat) {groups : List Nat}
    (hg : ∀ g ∈ groups, g < 8) (one : Option Nat) : FocWaits fault n ps (x.assertTrip f 1 sources channels legs groups [] false one) := by
  obtain ⟨-, -, waits, -, -⟩ := assertTrip_laws f 1 sources channels legs groups [] false one x hg
  by_cases hu : ∃ g ∈ groups, x.inUse g = true
  · obtain ⟨a, hp, -⟩ := waits (fun _ => hu) (fun h1 => absurd rfl h1)
    obtain ⟨b, hb, e⟩ := h
    exact ⟨b, by rw [hp]; exact List.mem_append_left _ hb, e⟩
  · have hn : groups.filter x.inUse = [] := List.filter_eq_nil_iff.2 (fun g hm hi => hu ⟨g, hm, hi⟩)
    unfold Mod.assertTrip
    dsimp only
    rw [hn, if_pos (by rw [if_pos rfl])]
    exact h

/-- What a channel's report leaves, and that nothing tripped before is undone by it. -/
theorem focReport_laws (m : Mod) (lanes n : Nat) (x : Mod) :
    Only [.obj, .grp, .prot] x (m.focReport lanes n x) ∧ OnlyEntries allTripKeys x (m.focReport lanes n x)
    ∧ (m.focReport lanes n x).grp.length = x.grp.length
    ∧ (∀ g, g < 8 → g < x.grp.length → g ∉ groupsOf (x.owners n) → (m.focReport lanes n x).grpAt g = x.grpAt g)
    ∧ (∀ g, g < 8 → g < x.grp.length → x.inUse g = true → (x.grpAt g).latched = true ∧ (x.grpAt g).on = false →
        ((m.focReport lanes n x).grpAt g).latched = true ∧ ((m.focReport lanes n x).grpAt g).on = false)
    ∧ (∀ fault k ps, FocWaits fault k ps x → FocWaits fault k ps (m.focReport lanes n x)) := by
  have hg := groupsOf_lt (x.owners n)
  unfold Mod.focReport
  split
  · refine ⟨(only_joined x _).mono (by decide), onlyEntries_obj (onlyEntries_refl _ _) rfl, rfl, fun _ _ _ _ => rfl, fun _ _ _ _ h => h, ?_⟩
    rintro fault k ps ⟨a, ha, h1, h2, h3, h4⟩
    obtain ⟨e1, e2, e3, e4⟩ := joinTrip_keeps (m.newLanes lanes n) n a
    exact ⟨_, List.mem_map_of_mem ha, e1.trans h1, e2.trans h2, e3.trans h3, e4.trans h4⟩
  · obtain ⟨parts, entries, -, -, stays⟩ := assertTrip_laws (focFault (x.get (Ob.role n))) 1 (laneBits (m.newLanes lanes n)) (2 ^ n)
      (x.legsOfChan n) (groupsOf (x.owners n)) [] false (x.oneLane (m.newLanes lanes n)) x hg
    exact ⟨parts, entries, grpLen_assertTrip .., stays, fun g h8 hl hi => tripped_assertTrip hg (fun h => absurd rfl h) h8 hl hi,
      fun _ _ _ h => focWaits_assertTrip h _ _ _ _ hg _⟩

/-- A channel that no lane had found: the groups in use that own it trip, and the fault waits. -/
theorem focReport_trips {m : Mod} {lanes n : Nat} (x : Mod) (hn : ∀ l, l < 2 → bit (m.prot.focLane.getD l 0) n = false) :
    (∀ g ∈ groupsOf (x.owners n), x.inUse g = true → g < x.grp.length →
      ((m.focReport lanes n x).grpAt g).latched = true ∧ ((m.focReport lanes n x).grpAt g).on = false)
    ∧ ((∃ g ∈ groupsOf (x.owners n), x.inUse g = true) → FocWaits (focFault (x.get (Ob.role n))) n x.now (m.focReport lanes n x)) := by
  have hb : bit (m.prot.focLane.getD 0 0 ||| m.prot.focLane.getD 1 0) n = false := by
    have h0 := hn 0 (by decide)
    have h1 := hn 1 (by decide)
    unfold bit at *
    rw [Nat.testBit_or, h0, h1]; rfl
  unfold Mod.focReport
  rw [hb, if_neg (by decide)]
  obtain ⟨-, -, waits, trips, -⟩ := assertTrip_laws (focFault (x.get (Ob.role n))) 1 (laneBits (m.newLanes lanes n)) (2 ^ n)
    (x.legsOfChan n) (groupsOf (x.owners n)) [] false (x.oneLane (m.newLanes lanes n)) x (groupsOf_lt _)
  refine ⟨trips (fun h => absurd rfl h), fun hu => ?_⟩
  obtain ⟨a, hp, e1, e2, -, e4, -, e6⟩ := waits (fun _ => hu) (fun h => absurd rfl h)
  exact ⟨a, by rw [hp]; simp, e1, e2, e4, e6⟩

/-- A lane that evaluates a channel that it had not found finds it. -/
theorem newLanes_ne_zero {m : Mod} {lanes n l : Nat} (h2 : l < 2) (hl : bit lanes l = true) (hn : bit (m.prot.focLane.getD l 0) n = false) :
    m.newLanes lanes n ≠ 0 :=
  maskOf_ne_zero (i := l) (by rw [List.mem_filter, hl, hn]; exact ⟨List.mem_range.2 h2, rfl⟩)

/-! ### FOC_TRIP -/

/-- What the reports of the channels leave of the module: the owners, the roles and the groups in use among it. -/
def FocFrame (a x : Mod) : Prop := Only [.obj, .grp, .prot] a x ∧ OnlyEntries allTripKeys a x ∧ x.grp.length = a.grp.length

namespace FocFrame
variable {a x : Mod} (h : FocFrame a x)
include h

theorem report (m : Mod) (lanes n : Nat) : FocFrame a (m.focReport lanes n x) := by
  obtain ⟨parts, entries, len⟩ := h
  obtain ⟨p, e, l, -⟩ := focReport_laws m lanes n x
  exact ⟨parts.trans p, entries.trans e, l.trans len⟩

theorem owners {n : Nat} (hn : n < 24) : x.owners n = a.owners n := h.2.1 _ (notTripKey (by unfold Ob.ownerMask; omega))
theorem role {n : Nat} (hn : n < 24) : x.get (Ob.role n) = a.get (Ob.role n) := h.2.1 _ (notTripKey (by unfold Ob.role; omega))
theorem inUse {g : Nat} (hg : g < 8) : x.inUse g = a.inUse g := by
  unfold Mod.inUse Mod.layout; rw [h.2.1 _ (layout_notTripKey hg)]
theorem now : x.now = a.now := by unfold Mod.now; rw [show x.clk = a.clk from h.1 .clk (by decide)]

end FocFrame

theorem focCrossed_lt {m : Mod} {ob : Nat → Nat} {wins : List Nat} {n : Nat} (h : n ∈ m.focCrossed ob wins) : n < 24 :=
  List.mem_range.1 (List.mem_filter.1 h).1

/-- FOC_TRIP: what it leaves, the trips of the channels newly found, and the groups that it does not touch. -/
theorem focTrip_laws (lanes : Nat) (wins : List Nat) (m : Mod) :
    Only [.obj, .grp, .prot] m (m.focTrip lanes wins) ∧ OnlyEntries allTripKeys m (m.focTrip lanes wins)
    ∧ (∀ c ∈ m.focCrossed Ob.focTrip wins, (∃ l, l < 2 ∧ bit lanes l = true) → (∀ l, l < 2 → bit (m.prot.focLane.getD l 0) c = false) →
        (∀ g ∈ groupsOf (m.owners c), m.inUse g = true → g < m.grp.length →
          ((m.focTrip lanes wins).grpAt g).latched = true ∧ ((m.focTrip lanes wins).grpAt g).on = false)
        ∧ ((∃ g ∈ groupsOf (m.owners c), m.inUse g = true) → FocWaits (focFault (m.get (Ob.role c))) c m.now (m.focTrip lanes wins)))
    ∧ (∀ g, g < 8 → g < m.grp.length → (∀ c ∈ m.focCrossed Ob.focTrip wins, g ∉ groupsOf (m.owners c)) →
        (m.focTrip lanes wins).grpAt g = m.grpAt g) := by
  obtain ⟨p, heq⟩ := focTrip_eq lanes wins m
  have start : FocFrame m { m with prot := p } := by
    refine ⟨?_, fun _ _ => rfl, rfl⟩
    intro q hq; cases q <;> first | (exact absurd (by decide) hq) | rfl
  have step : ∀ n, n ∈ (m.focCrossed Ob.focTrip wins).filter (fun n => m.newLanes lanes n ≠ 0) → ∀ x, FocFrame m x →
      FocFrame m (m.focReport lanes n x) := fun n _ x h => h.report m lanes n
  have crossed : ∀ {n}, n ∈ (m.focCrossed Ob.focTrip wins).filter (fun n => m.newLanes lanes n ≠ 0) → n ∈ m.focCrossed Ob.focTrip wins :=
    fun h => (List.mem_filter.1 h).1
  obtain ⟨parts, entries, -⟩ := each_invariant start step
  rw [heq]
  refine ⟨parts, entries, fun c hc ⟨l, h2, hl⟩ hn => ?_, fun g h8 hl hno => ?_⟩
  · have c24 := focCrossed_lt hc
    have hmem : c ∈ (m.focCrossed Ob.focTrip wins).filter (fun n => m.newLanes lanes n ≠ 0) :=
      List.mem_filter.2 ⟨hc, by simpa using newLanes_ne_zero h2 hl (hn l h2)⟩
    refine ⟨fun g hg hi hlen => ?_, fun ⟨g, hg, hi⟩ => ?_⟩
    · have h8 := groupsOf_lt _ g hg
      refine each_establishes (P := fun x => (x.grpAt g).latched = true ∧ (x.grpAt g).on = false) hmem start step (fun n _ x hx ht => ?_)
        (fun x hx => ?_)
      · obtain ⟨-, -, -, -, keeps, -⟩ := focReport_laws m lanes n x
        exact keeps g h8 (by rw [hx.2.2]; exact hlen) (by rw [hx.inUse h8]; exact hi) ht
      · exact (focReport_trips x hn).1 g (by rw [hx.owners c24]; exact hg) (by rw [hx.inUse h8]; exact hi) (by rw [hx.2.2]; exact hlen)
    · refine each_establishes hmem start step (fun n _ x _ hw => ?_) (fun x hx => ?_)
      · obtain ⟨-, -, -, -, -, keeps⟩ := focReport_laws m lanes n x
        exact keeps _ _ _ hw
      · have hw := (focReport_trips (lanes := lanes) x hn).2
          ⟨g, by rw [hx.owners c24]; exact hg, by rw [hx.inUse (groupsOf_lt _ g hg)]; exact hi⟩
        rw [hx.role c24, hx.now] at hw
        exact hw
  · refine (each_invariant (I := fun x => FocFrame m x ∧ x.grpAt g = m.grpAt g) ⟨start, rfl⟩
      (fun n hn x ⟨hx, he⟩ => ⟨step n hn x hx, ?_⟩)).2
    obtain ⟨-, -, -, keeps, -⟩ := focReport_laws m lanes n x
    rw [keeps g h8 (by rw [hx.2.2]; exact hl) (by rw [hx.owners (focCrossed_lt (crossed hn))]; exact hno n (crossed hn)), he]

/-! ### FOC_ALERT -/

/-- FOC_ALERT sets the flags, and raises EV035 with the channels whose flag is new. -/
theorem focAlert_laws (wins : List Nat) (m : Mod) :
    (m.focAlert wins).prot.focAlert = maskOf (m.focCrossed Ob.focAlert wins)
    ∧ ((∃ c ∈ m.focCrossed Ob.focAlert wins, bit m.prot.focAlert c = false) →
        Tells 35 sevWarn 0x2009 (maskOf ((m.focCrossed Ob.focAlert wins).filter (fun c => !bit m.prot.focAlert c))) m (m.focAlert wins))
    ∧ Only (.prot :: evParts) m (m.focAlert wins) ∧ OnlyEntries [] m (m.focAlert wins) := by
  unfold Mod.focAlert
  dsimp only
  rw [show bitsOf 24 (maskOf (m.focCrossed Ob.focAlert wins)) = m.focCrossed Ob.focAlert wins from bitsOf_maskOf 24 _]
  generalize hA : Mod.mk .. = A
  have a1 : Only [.prot] m A := by
    subst hA; intro p hp; cases p <;> first | (exact absurd (by decide) hp) | rfl
  have a2 : A.prot.focAlert = maskOf (m.focCrossed Ob.focAlert wins) := by subst hA; rfl
  have a3 : OnlyEntries [] m A := onlyEntries_obj (onlyEntries_refl _ _) (a1 .obj (by decide))
  split
  · rename_i hnone
    refine ⟨a2, fun ⟨c, hc, hb⟩ => ?_, a1.mono (by decide), a3⟩
    have : c ∈ (m.focCrossed Ob.focAlert wins).filter (fun c => !bit m.prot.focAlert c) := List.mem_filter.2 ⟨hc, by rw [hb]; rfl⟩
    rw [List.isEmpty_iff.1 hnone] at this
    cases this
  · refine ⟨?_, fun _ => a1.tells_raise _ _ _ _ (by decide) (by decide) (by decide), (a1.mono (by decide)).oraise _ _ _ _ (by decide),
      a3.raise _ _ _ _⟩
    rw [show (A.raise 35 _ _ _).prot = A.prot from raise_part A _ _ _ _ .prot (by decide)]
    exact a2

/-- Settles O32: the reports of the channels newly found, one after another, on the module as the crossing finds it. -/
theorem fastOvercurrentTripsItsUnits : Obligations.FastOvercurrentTripsItsUnits := by
  unfold Obligations.FastOvercurrentTripsItsUnits
  intro s dt lanes wins
  have pass : Only [.clk] s.m (s.m.passNs dt) := (Only.refl _ _).oPass (by decide)
  refine ⟨⟨_, rfl, ?_⟩, ⟨_, rfl, ?_⟩⟩
  · obtain ⟨parts, entries, trips, stays⟩ := focTrip_laws lanes wins (s.m.passNs dt)
    refine ⟨?_, trips, stays, (pass.mono (by decide)).to parts (by decide), (onlyEntries_refl _ _).oPass.trans entries⟩
    rw [show (atDt dt (Mod.focTrip lanes wins) s.m).clk = (s.m.passNs dt).clk from parts .clk (by decide)]
    rfl
  · obtain ⟨flags, tells, parts, entries⟩ := focAlert_laws wins (s.m.passNs dt)
    refine ⟨?_, flags, fun h => ?_, (pass.mono (by decide)).to parts (by decide), (onlyEntries_refl _ _).oPass.trans entries⟩
    · rw [show (atDt dt (Mod.focAlert wins) s.m).clk = (s.m.passNs dt).clk from parts .clk (by decide)]
      rfl
    · exact (tells h).of_eq rfl rfl

end Sys2Proof.Machine
end

section
/-!
PROOFS. Lost channels (R108 to R113): what a modulator fault and a finding of one lane do, and the statement that lost channels are
shown (O33).
-/
namespace Sys2Proof.Machine

theorem only_modCh (m : Mod) (n : Nat) (f : MeasCh → MeasCh) : Only [.meas] m (m.modCh n f) := (Only.refl _ _).oMeas (by decide)

/-! ### A running calibration point ends (R101) -/

theorem calAborted_laws (m : Mod) : Only (.obj :: .meas :: evParts) m m.calAborted ∧ OnlyEntries [Ob.calState] m m.calAborted := by
  unfold Mod.calAborted
  split
  · unfold Mod.showCal Mod.modCal
    exact ⟨(((Only.refl _ _).oMeas (by decide)).oput (by decide)).oraise _ _ _ _ (by decide),
      (((onlyEntries_refl _ _).oMeas).oput (by simp)).raise _ _ _ _⟩
  · exact ⟨Only.refl _ _, onlyEntries_refl _ _⟩

/-! ### A modulator fault (R111) -/

/-- The parts that a modulator fault may touch. -/
def faultParts : List Part := [.obj, .grp, .prot, .meas] ++ evParts

/-- The entries of a channel that a modulator fault may write, with those of the groups that trip. -/
def faultKeys (n : Nat) : List Nat := [Ob.chState n, Ob.calState] ++ allTripKeys

theorem chState_notFaultKey {n c : Nat} (hc : c < 24) (h : c ≠ n) : Ob.chState c ∉ faultKeys n := by
  have ht : Ob.chState c ∉ allTripKeys := notTripKey (by unfold Ob.chState; omega)
  have hn : Ob.chState c ≠ Ob.chState n := by unfold Ob.chState; omega
  have hk : Ob.chState c ≠ Ob.calState := by unfold Ob.chState Ob.calState; omega
  simp [faultKeys, ht, hn, hk]

theorem mclkState_notFaultKey {n k : Nat} (hn : n < 24) (hk : k < 4) : Ob.mclkState k ∉ faultKeys n := by
  have ht : Ob.mclkState k ∉ allTripKeys := notTripKey (by unfold Ob.mclkState; omega)
  have hs : Ob.mclkState k ≠ Ob.chState n := by unfold Ob.mclkState Ob.chState; omega
  have hc : Ob.mclkState k ≠ Ob.calState := by unfold Ob.mclkState Ob.calState; omega
  simp [faultKeys, ht, hs, hc]

/-- A channel that counts as neither lost nor without a role. -/
def Mod.mayFail (m : Mod) (c : Nat) : Prop := m.get (Ob.chState c) = 0 ∨ m.get (Ob.chState c) = 4

/-- The first part of a modulator fault: the channel counts as lost, and a calibration point of it ends. -/
def Mod.lose (n : Nat) (m : Mod) : Mod :=
  ((if m.meas.cal.run.isSome && m.meas.cal.chan = n then m.calAborted else m).modMeas (fun x =>
    { x with lost := setBit x.lost n true })).spoilBits n

/-- The last part: the valid partner serves with EV037, or the owners trip; `a` is the module as the fault finds it. -/
def Mod.fallOrTrip (a : Mod) (fallback perTick : Bool) (lanes n : Nat) (m : Mod) : Mod :=
  let one := if perTick then none else a.oneLane lanes
  match (if fallback then m.partner n else none) with
  | some p => (m.assertTrip 0x4407 2 (laneBits lanes) (2 ^ n) (a.legsOfChan n) [] [n] perTick one).raise 37 sevWarn 0x200A (n + 256 * p)
  | none   => m.assertTrip 0x4407 2 (laneBits lanes) (2 ^ n) (a.legsOfChan n) (groupsOf (a.owners n)) [n] perTick one

theorem modulatorFault_eq (st : Nat) (fallback perTick : Bool) (lanes n : Nat) (m : Mod) :
    m.modulatorFault st fallback perTick lanes n =
      if m.get (Ob.chState n) = 255 || (1 ≤ m.get (Ob.chState n) && m.get (Ob.chState n) ≤ 3) then m
      else m.fallOrTrip fallback perTick lanes n (if m.get (Ob.chState n) = 5 then m.lose n else (m.lose n).put (Ob.chState n) st) := rfl

theorem lose_laws (n : Nat) (m : Mod) :
    Only (.obj :: .meas :: evParts) m (m.lose n) ∧ OnlyEntries [Ob.calState] m (m.lose n) ∧ bit (m.lose n).meas.lost n = true := by
  unfold Mod.lose
  generalize hA : (if m.meas.cal.run.isSome && m.meas.cal.chan = n then m.calAborted else m) = A
  have a : Only (.obj :: .meas :: evParts) m A ∧ OnlyEntries [Ob.calState] m A := by
    subst hA
    split
    · exact calAborted_laws m
    · exact ⟨Only.refl _ _, onlyEntries_refl _ _⟩
  exact ⟨(a.1.oMeas (by decide)).to (only_modCh _ _ _) (by decide), a.2.oMeas.oMeas, bit_setBit _ _ _⟩

theorem fallOrTrip_laws (a : Mod) (fallback perTick : Bool) (lanes n : Nat) (m : Mod) :
    Only ([.obj, .grp, .prot] ++ evParts) m (a.fallOrTrip fallback perTick lanes n m)
    ∧ OnlyEntries allTripKeys m (a.fallOrTrip fallback perTick lanes n m) := by
  have trip : ∀ groups, (∀ g ∈ groups, g < 8) → ∀ one,
      Only [.obj, .grp, .prot] m (m.assertTrip 0x4407 2 (laneBits lanes) (2 ^ n) (a.legsOfChan n) groups [n] perTick one)
      ∧ OnlyEntries allTripKeys m (m.assertTrip 0x4407 2 (laneBits lanes) (2 ^ n) (a.legsOfChan n) groups [n] perTick one) :=
    fun groups hg one =>
      have h := assertTrip_laws 0x4407 2 (laneBits lanes) (2 ^ n) (a.legsOfChan n) groups [n] perTick one m hg
      ⟨h.1, h.2.1⟩
  unfold Mod.fallOrTrip
  dsimp only
  split
  · obtain ⟨parts, entries⟩ := trip [] (by simp) (if perTick then none else a.oneLane lanes)
    exact ⟨(parts.mono (by decide)).oraise _ _ _ _ (by decide), OnlyEntries.raise entries _ _ _ _⟩
  · obtain ⟨parts, entries⟩ := trip _ (groupsOf_lt (a.owners n)) (if perTick then none else a.oneLane lanes)
    exact ⟨parts.mono (by decide), entries⟩

/-- A modulator fault touches its channel, the calibration of it and the groups that trip; a channel that may fail shows why it is
lost, and counts as lost. -/
theorem modulatorFault_laws (st : Nat) (fallback perTick : Bool) (lanes n : Nat) (m : Mod) :
    Only faultParts m (m.modulatorFault st fallback perTick lanes n) ∧ OnlyEntries (faultKeys n) m (m.modulatorFault st fallback perTick lanes n)
    ∧ (n < 24 → m.mayFail n → (m.modulatorFault st fallback perTick lanes n).get (Ob.chState n) = st
        ∧ bit (m.modulatorFault st fallback perTick lanes n).meas.lost n = true) := by
  rw [modulatorFault_eq]
  split
  · rename_i h
    refine ⟨Only.refl _ _, onlyEntries_refl _ _, fun _ hf => ?_⟩
    rcases hf with hf | hf <;> simp [hf] at h
  · obtain ⟨l1, l2, l3⟩ := lose_laws n m
    generalize hB : (if m.get (Ob.chState n) = 5 then m.lose n else (m.lose n).put (Ob.chState n) st) = B
    have b1 : Only (.obj :: .meas :: evParts) m B := by
      subst hB; split
      · exact l1
      · exact l1.oput (by decide)
    have b2 : OnlyEntries (faultKeys n) m B := by
      have l2' : OnlyEntries (faultKeys n) m (m.lose n) := l2.mono (by simp [faultKeys])
      subst hB; split
      · exact l2'
      · exact l2'.oput (by simp [faultKeys])
    have b3 : B.meas = (m.lose n).meas := by subst hB; split <;> rfl
    have b4 : m.mayFail n → B.get (Ob.chState n) = st := by
      intro hf
      have h5 : m.get (Ob.chState n) ≠ 5 := by rcases hf with hf | hf <;> omega
      rw [← hB, if_neg h5, get_put_same]
    obtain ⟨f1, f2⟩ := fallOrTrip_laws m fallback perTick lanes n B
    refine ⟨(b1.mono (by decide)).to f1 (by decide), b2.trans (f2.mono (by simp [faultKeys])), fun hn hf => ⟨?_, ?_⟩⟩
    · rw [f2 _ (notTripKey (by unfold Ob.chState; omega))]; exact b4 hf
    · rw [show Mod.meas _ = B.meas from f1 .meas (by decide), b3]; exact l3

/-- A channel that is lost already stays as it is. -/
theorem modulatorFault_lost {st : Nat} {fallback perTick : Bool} {lanes n : Nat} {m : Mod} (h1 : 1 ≤ m.get (Ob.chState n))
    (h3 : m.get (Ob.chState n) ≤ 3) : m.modulatorFault st fallback perTick lanes n = m := by
  rw [modulatorFault_eq]
  exact if_pos (by simp [h1, h3])

/-- Modulator faults of a list of channels: one of them that may fail shows why it is lost. -/
theorem chState_eachFault {st : Nat} (h1 : 1 ≤ st) (h3 : st ≤ 3) (fallback perTick : Bool) (lanes : Nat) {l : List Nat} {c : Nat} {m : Mod}
    (hc : c < 24) (hl : c ∈ l) (hf : m.mayFail c) : (m.each l (Mod.modulatorFault st fallback perTick lanes)).get (Ob.chState c) = st := by
  have own : ∀ x : Mod, x.mayFail c ∨ x.get (Ob.chState c) = st → (x.modulatorFault st fallback perTick lanes c).get (Ob.chState c) = st := by
    rintro x (h | h)
    · exact ((modulatorFault_laws st fallback perTick lanes c x).2.2 hc h).1
    · rw [modulatorFault_lost (by omega) (by omega)]; exact h
  have other : ∀ n, c ≠ n → ∀ x : Mod, (x.modulatorFault st fallback perTick lanes n).get (Ob.chState c) = x.get (Ob.chState c) :=
    fun n h x => (modulatorFault_laws st fallback perTick lanes n x).2.1 _ (chState_notFaultKey hc h)
  refine each_establishes (I := fun x => x.mayFail c ∨ x.get (Ob.chState c) = st) (P := fun x => x.get (Ob.chState c) = st) hl (.inl hf)
    (fun n _ x hx => ?_) (fun n _ x hx hp => ?_) own
  · by_cases h : c = n
    · subst h; exact .inr (own x hx)
    · unfold Mod.mayFail; rw [other n h]; exact hx
  · by_cases h : c = n
    · subst h; exact own x hx
    · rw [other n h]; exact hp

/-- Modulator faults of channels leave the states of the MCLKs. -/
theorem mclkState_eachFault (st : Nat) (fallback perTick : Bool) (lanes : Nat) {l : List Nat} {k : Nat} (m : Mod) (hl : ∀ n ∈ l, n < 24)
    (hk : k < 4) : (m.each l (Mod.modulatorFault st fallback perTick lanes)).get (Ob.mclkState k) = m.get (Ob.mclkState k) :=
  each_invariant (I := fun x => x.get (Ob.mclkState k) = m.get (Ob.mclkState k)) rfl (fun n hn x hx =>
    ((modulatorFault_laws st fallback perTick lanes n x).2.1 _ (mclkState_notFaultKey (hl n hn) hk)).trans hx)

/-! ### A finding of one lane (R111, R295) -/

/-- A finding that both lanes make, or the active lane alone, acts. -/
theorem finding_acts {lanes : Nat} {m : Mod} (h : m.oneLane lanes = none ∨ m.oneLane lanes = some m.lane) :
    (m.finding lanes).1 = true ∧ Only [.prot, .arb] m (m.finding lanes).2 := by
  unfold Mod.finding
  rcases h with h | h
  · rw [h]; exact ⟨rfl, Only.refl _ _⟩
  · rw [h]
    dsimp only
    rw [if_pos rfl]
    refine ⟨rfl, ?_⟩
    intro p hp; cases p <;> first | (exact absurd (by decide) hp) | rfl

/-- A finding of the other lane alone is due for that lane at the boundary. -/
theorem finding_other {lanes l : Nat} {m : Mod} (h : m.oneLane lanes = some l) (hl : l ≠ m.lane) :
    m.finding lanes = (false, m.laneFailsLater l 0x480A) := by
  unfold Mod.finding
  rw [h]
  exact if_neg hl

theorem does_unit {c : Instr} {s : State} {ok : Bool} {M : Mod} {Q : Mod → Prop} (hc : exec c s = onUnit ok s M) (hok : ok = true) (q : Q M) :
    Does c s Q := ⟨M, by rw [hc]; exact if_pos hok, q⟩

theorem seen_raise_head (m : Mod) (ev sev fault arg : Nat) : (m.raise ev sev fault arg).seenEv.head? = some ev := by
  rw [Mod.raise, raiseAt_seenEv]; rfl

/-! ### A stream lost (R109, R111) -/

/-- A stream is lost where its channel may fail: what the finding says is done. -/
theorem streamLost_eq {n : Nat} (clipped : Bool) (lanes : Nat) {m : Mod} (h : m.mayFail n) : m.streamLost n clipped lanes =
    if (m.finding lanes).1 then
      ((m.finding lanes).2.modulatorFault 2 true false lanes n).raise 32 sevFault (if clipped then 0x2004 else 0x2001) n
    else (m.finding lanes).2 := by
  unfold Mod.streamLost
  dsimp only
  rw [if_neg]
  rcases h with h | h <;> simp [h]

theorem streamLost_acts {n : Nat} (clipped : Bool) {lanes : Nat} {m : Mod} (hn : n < 24) (h : m.mayFail n)
    (ha : m.oneLane lanes = none ∨ m.oneLane lanes = some m.lane) :
    (m.streamLost n clipped lanes).get (Ob.chState n) = 2 ∧ (m.streamLost n clipped lanes).seenEv.head? = some 32
    ∧ bit (m.streamLost n clipped lanes).meas.lost n = true := by
  obtain ⟨f1, f2⟩ := finding_acts ha
  rw [streamLost_eq clipped lanes h, if_pos f1]
  generalize (m.finding lanes).2 = A at f2
  have hA : A.mayFail n := by unfold Mod.mayFail; rw [f2.get (by decide)]; exact h
  obtain ⟨-, -, shown⟩ := modulatorFault_laws 2 true false lanes n A
  obtain ⟨s1, s2⟩ := shown hn hA
  refine ⟨by rw [get_raised]; exact s1, seen_raise_head .., ?_⟩
  rw [show Mod.meas _ = _ from raise_part _ 32 _ _ _ .meas (by decide)]
  exact s2

/-! ### MCLKs lost (R109, R111) -/

theorem mem_mclksOn_lt {m : Mod} {mask k : Nat} (h : k ∈ m.mclksOn mask) : k < 4 :=
  List.mem_range.1 (List.mem_filter.1 (List.mem_filter.1 h).1).1

/-- The MCLKs of a mask that are not lost yet. -/
def Mod.mclksNew (m : Mod) (mask : Nat) : List Nat := (m.mclksOn mask).filter (fun k => m.get (Ob.mclkState k) ≠ 2)

theorem mem_mclksNew {m : Mod} {mask k : Nat} : k ∈ m.mclksNew mask ↔ k ∈ m.mclksOn mask ∧ m.get (Ob.mclkState k) ≠ 2 := by
  simp [Mod.mclksNew]

/-- The states of some MCLKs are put in force. -/
theorem eachMclk_laws (v : Nat) (ks : List Nat) (m : Mod) :
    Only [.obj] m (m.each ks (fun k m => m.put (Ob.mclkState k) v))
    ∧ OnlyEntries (ks.map Ob.mclkState) m (m.each ks (fun k m => m.put (Ob.mclkState k) v))
    ∧ ∀ k ∈ ks, (m.each ks (fun k m => m.put (Ob.mclkState k) v)).get (Ob.mclkState k) = v := by
  refine ⟨only_each _ _ _ (fun _ _ => (Only.refl _ _).oput (by decide)),
    entries_each _ _ _ (fun k hk _ => (onlyEntries_refl _ _).oput (List.mem_map_of_mem hk)), fun k hk => ?_⟩
  refine each_establishes (I := fun _ => True) (P := fun x => x.get (Ob.mclkState k) = v) hk trivial (fun _ _ _ _ => trivial)
    (fun j _ x _ hx => ?_) (fun x _ => get_put_same x)
  rw [get_put]
  split
  · rfl
  · exact hx

theorem mclkLost_none {mask lanes : Nat} {m : Mod} (h : m.mclksNew mask = []) : m.mclkLost mask lanes = m := by
  unfold Mod.mclkLost
  exact if_pos (List.isEmpty_iff.2 h)

/-- MCLKs lost: they show it, and each channel of theirs that may fail is lost. -/
theorem mclkLost_acts {mask lanes : Nat} {m : Mod} (h : m.mclksNew mask ≠ []) (ha : m.oneLane lanes = none ∨ m.oneLane lanes = some m.lane) :
    (∀ k ∈ m.mclksOn mask, (m.mclkLost mask lanes).get (Ob.mclkState k) = 2) ∧ (m.mclkLost mask lanes).seenEv.head? = some 33
    ∧ ∀ c, c < 24 → m.get (Ob.mclkSrc c) ∈ m.mclksNew mask → m.get (Ob.role c) ≠ 0 → m.mayFail c →
        (m.mclkLost mask lanes).get (Ob.chState c) = 1 := by
  obtain ⟨f1, f2⟩ := finding_acts ha
  have heq : m.mclkLost mask lanes = ((((m.finding lanes).2.each (m.mclksNew mask) (fun k m => m.put (Ob.mclkState k) 2)).each
      ((List.range 24).filter (fun n => m.get (Ob.role n) ≠ 0 && (m.mclksNew mask).contains (m.get (Ob.mclkSrc n))))
      (Mod.modulatorFault 1 true false lanes)).raise 33 sevFault 0x2002
        (lowestBit (maskOf (m.mclksNew mask)) + 256 * maskOf (m.mclksNew mask))) := by
    unfold Mod.mclkLost
    exact (if_neg (fun he => h (List.isEmpty_iff.1 he))).trans (if_pos f1)
  rw [heq]
  generalize (m.finding lanes).2 = A at f2
  obtain ⟨-, e2, e3⟩ := eachMclk_laws 2 (m.mclksNew mask) A
  generalize A.each (m.mclksNew mask) (fun k m => m.put (Ob.mclkState k) 2) = B at e2 e3
  have hB : ∀ j, (∀ k ∈ m.mclksNew mask, j ≠ Ob.mclkState k) → B.get j = m.get j := fun j hj =>
    (e2 j (fun hm => by obtain ⟨k, hk, rfl⟩ := List.mem_map.1 hm; exact hj k hk rfl)).trans (f2.get (by decide) j)
  refine ⟨fun k hk => ?_, seen_raise_head .., fun c hc hs hr hf => ?_⟩
  · rw [get_raised, mclkState_eachFault 1 true false lanes B (fun n hn => List.mem_range.1 (List.mem_filter.1 hn).1) (mem_mclksOn_lt hk)]
    by_cases h2 : m.get (Ob.mclkState k) = 2
    · rw [hB _ (fun j hj he => ?_)]
      · exact h2
      · obtain rfl : k = j := by unfold Ob.mclkState at he; omega
        exact (mem_mclksNew.1 hj).2 h2
    · exact e3 k (mem_mclksNew.2 ⟨hk, h2⟩)
  · rw [get_raised]
    refine chState_eachFault (by decide) (by decide) true false lanes hc (List.mem_filter.2 ⟨List.mem_range.2 hc, ?_⟩) ?_
    · simpa [hr] using hs
    · unfold Mod.mayFail
      rw [hB _ (fun j hj => by have := mem_mclksOn_lt (mem_mclksNew.1 hj).1; unfold Ob.chState Ob.mclkState; omega)]
      exact hf

theorem lane_eq_of_get {a b : Mod} (h : b.get Ob.activeLane = a.get Ob.activeLane) : b.lane = a.lane := h

/-- A lane that loses its own generators: EV033, its MCLKs show it where it is active, and it withdraws or is unhealthy. -/
theorem mclkLostInLane_acts {l mask : Nat} {m : Mod} (h : m.mclksOn mask ≠ []) :
    33 ∈ (m.mclkLostInLane l mask).seenEv
    ∧ (l = m.lane → ∀ k ∈ m.mclksOn mask, (m.mclkLostInLane l mask).get (Ob.mclkState k) = 3)
    ∧ (l = m.lane → m.arb.cause = none → m.arb.grant.isSome = true → (m.mclkLostInLane l mask).arb.cause = some 0x2003)
    ∧ (l ≠ m.lane → (m.mclkLostInLane l mask).healthOf m.standby = 2 ∨ (m.mclkLostInLane l mask).healthOf m.standby = 3) := by
  obtain ⟨e1, e2, e3⟩ := eachMclk_laws 3 (m.mclksOn mask) m
  have heq : ∃ arg, m.mclkLostInLane l mask = ((if l = m.lane then m.each (m.mclksOn mask) (fun k m => m.put (Ob.mclkState k) 3)
      else m).raise 33 sevFault 0x2003 arg).laneFails l 0x2003 := by
    unfold Mod.mclkLostInLane
    exact ⟨_, if_neg (fun he => h (List.isEmpty_iff.1 he))⟩
  obtain ⟨arg, heq⟩ := heq
  rw [heq]
  generalize hB : (if l = m.lane then m.each (m.mclksOn mask) (fun k m => m.put (Ob.mclkState k) 3) else m) = B
  have b1 : B.arb = m.arb ∧ B.lane = m.lane := by
    subst hB
    split
    · refine ⟨e1 .arb (by decide), lane_eq_of_get (e2 _ (fun hm => ?_))⟩
      obtain ⟨k, -, hk⟩ := List.mem_map.1 hm
      unfold Ob.mclkState Ob.activeLane at hk; omega
    · exact ⟨rfl, rfl⟩
  have b2 : l = m.lane → ∀ k ∈ m.mclksOn mask, B.get (Ob.mclkState k) = 3 := fun hl k hk => by rw [← hB, if_pos hl]; exact e3 k hk
  have r1 := seen_raised B 33 sevFault 0x2003 arg
  have r2 := get_raised B 33 sevFault 0x2003 arg
  have r3 : Mod.arb _ = B.arb := raise_part B 33 sevFault 0x2003 arg .arb (by decide)
  generalize B.raise 33 sevFault 0x2003 arg = R at r1 r2 r3
  have hlane : R.lane = m.lane := (lane_eq_of_get (r2 _)).trans b1.2
  have harb : R.arb = m.arb := r3.trans b1.1
  obtain ⟨-, -, seen, gives, unhealthy⟩ := laneFails_laws l 0x2003 R
  refine ⟨SeenGrows.mem seen r1, fun hl k hk => ?_, fun hl hc hg => ?_, fun hl => ?_⟩
  · unfold Mod.laneFails
    rw [if_pos (hl.trans hlane.symm), (only_withdraw 0x2003 R).get (by decide), r2]
    exact b2 hl k hk
  · exact (gives (hl.trans hlane.symm) (by rw [harb]; exact hc) (by rw [harb]; exact hg)).1
  · have hs : R.standby = m.standby := by unfold Mod.standby; rw [hlane]
    rw [← hs]
    exact unhealthy (by rw [hlane]; exact hl)

/-! ### Plausibility (R112, R113) -/

theorem plausibility_fails {kind u c : Nat} {m : Mod} (hc : c < 24) (hm : c ∈ m.checkChans kind u)
    (h0 : (m.meas.checks.getD (checkIx kind u) {}).failed = false) (h1 : m.checkTicks kind u ≤ (m.meas.checks.getD (checkIx kind u) {}).run)
    (hf : m.mayFail c) : (m.plausibility kind u).get (Ob.chState c) = (if kind = 3 then 2 else 3)
      ∧ (m.plausibility kind u).seenEv.head? = some (if kind = 3 then 32 else 36) := by
  have hst : 1 ≤ (if kind = 3 then 2 else 3) ∧ (if kind = 3 then 2 else 3) ≤ 3 := by split <;> decide
  have hne : (m.checkChans kind u).isEmpty = false := by simpa using List.ne_nil_of_mem hm
  unfold Mod.plausibility
  dsimp only
  rw [hne, h0, decide_eq_false (Nat.not_lt.2 h1), if_neg (by decide)]
  generalize hA : m.modMeas _ = A
  have hfA : A.mayFail c := by rw [← hA]; exact hf
  have lost := chState_eachFault hst.1 hst.2 false true m.lanesUp hc hm hfA
  split
  · rename_i h3
    rw [if_pos h3] at lost
    exact ⟨by rw [get_raised]; exact lost, seen_raise_head ..⟩
  · rename_i h3
    rw [if_neg h3] at lost
    exact ⟨by rw [get_raised]; exact lost, seen_raise_head ..⟩

/-! ### A channel that settles (R108) -/

theorem chAt_modCh (m : Mod) (n : Nat) (f : MeasCh → MeasCh) (h : n < m.meas.ch.length) : (m.modCh n f).chAt n = f (m.chAt n) := by
  unfold Mod.chAt Mod.modCh Mod.modMeas; simp [List.getD_eq_getElem?_getD, h]

theorem channelSettled_eq {n : Nat} {m : Mod} (h1 : 1 ≤ m.get (Ob.chState n)) (h5 : m.get (Ob.chState n) ≤ 5)
    (hf : m.get (Ob.mclkFreq (m.get (Ob.mclkSrc n))) ≠ 255) (hg : 3 * m.get (Ob.osr n) + 31 ≤ (m.chAt n).good.getD 0) :
    m.channelSettled n = m.modCh n (fun x => { x with settled := true }) := by
  unfold Mod.channelSettled
  exact if_pos (by simp [h1, h5, hf, hg])

/-- A channel that has settled is valid, one retired apart, and counts as lost no more. -/
theorem settleActs_laws {n : Nat} {m : Mod} (hn : n < 24) (h : (m.chAt n).settled = true) :
    (m.settleActs n).get (Ob.chState n) = (if m.get (Ob.chState n) = 5 then 5 else 0) ∧ bit (m.settleActs n).meas.lost n = false := by
  unfold Mod.settleActs
  rw [if_pos h]
  dsimp only
  generalize hA : Mod.modCh n _ _ = A
  have a1 : A.get (Ob.chState n) = m.get (Ob.chState n) := by
    subst hA
    rw [(only_modCh _ _ _).get (by decide), get_modMeas]
    split
    · exact get_put_other _ (by unfold Ob.chState Ob.mclkState; omega)
    · rfl
  have a2 : bit A.meas.lost n = false := by subst hA; exact bit_setBit _ _ _
  split
  · rename_i h5
    exact ⟨a1.trans h5, a2⟩
  · exact ⟨get_put_same A, a2⟩

/-- Settles O33: each event by the law of its operation, on the module at the instant of the finding. -/
theorem lostChannelsAreShown : Obligations.LostChannelsAreShown := by
  unfold Obligations.LostChannelsAreShown
  intro s dt c l u kind mask lanes clipped hc hl hu
  have pass : Only [.clk] s.m (s.m.passNs dt) := (Only.refl _ _).oPass (by decide)
  refine ⟨fun hf => ⟨fun ha => ?_, fun ho hne => ?_⟩, fun ⟨k, hk, h2⟩ ha => ?_, fun hall => ?_, fun hne => ?_, fun hk hm h0 h1 hf => ?_,
    fun h1 h5 hfr hg hlen => ?_, settleActs_laws hc⟩
  · exact does_unit rfl (by simpa using hc) (streamLost_acts clipped (m := s.m.passNs dt) hc hf ha)
  · have heq : (s.m.passNs dt).streamLost c clipped lanes = (s.m.passNs dt).laneFailsLater l 0x480A := by
      rw [streamLost_eq clipped lanes (m := s.m.passNs dt) hf, finding_other (m := s.m.passNs dt) ho hne]; rfl
    refine does_unit (M := (s.m.passNs dt).streamLost c clipped lanes) rfl (by simpa using hc) ?_
    rw [heq]
    exact ⟨rfl, (pass.mono (by decide)).oArb (by decide), (onlyEntries_refl _ _).oPass.oArb⟩
  · have hnew : k ∈ (s.m.passNs dt).mclksNew mask := mem_mclksNew.2 ⟨hk, h2⟩
    obtain ⟨lost, seen, shown⟩ := mclkLost_acts (m := s.m.passNs dt) (List.ne_nil_of_mem hnew) ha
    exact ⟨_, rfl, lost, seen, fun hs hs2 hr hf => shown c hc (mem_mclksNew.2 ⟨hs, hs2⟩) hr hf⟩
  · have hnone : (s.m.passNs dt).mclksNew mask = [] := List.filter_eq_nil_iff.2 (fun k hk hn => of_decide_eq_true hn (hall k hk))
    refine ⟨(s.m.passNs dt).mclkLost mask lanes, rfl, ?_⟩
    rw [mclkLost_none hnone]
    exact ⟨pass, (onlyEntries_refl _ _).oPass⟩
  · exact does_unit rfl (by unfold laneOk; simpa using hl) (mclkLostInLane_acts (m := s.m.passNs dt) hne)
  · refine does_unit rfl ?_ (plausibility_fails hc hm h0 h1 hf)
    have h4 : kind < 4 := by omega
    by_cases hk2 : kind = 0 ∨ kind = 2
    · rw [if_pos hk2] at hu
      simp [h4, hk2, secOk, hu]
    · rw [if_neg hk2] at hu
      simp [h4, hk2, hu]
  · refine does_unit (M := s.m.channelSettled c) rfl (by simpa using hc) ?_
    rw [channelSettled_eq h1 h5 hfr hg]
    exact ⟨by rw [chAt_modCh _ _ _ hlen], only_modCh _ _ _, (onlyEntries_refl _ _).oMeas⟩

end Sys2Proof.Machine
end

section
/-!
PROOFS. Measurement results (R93, R94): a state in which METER_BLOCK_END books energy against the sign of the power (O34).
-/
namespace Sys2Proof.Machine

/-! ### A section whose S_RATED is below 0

A write keeps S_RATED within its range, but the statement speaks of every state, and an entry in force is any number. Section 0 has one
current (channel 0) and one voltage (channel 1), both on phase a and valid. -/

/-- The entries of that section: S_RATED is −131 072 VA. -/
def negRatedEntries : List (Nat × Nat) :=
  [(Ob.sRated 0, 0xC8000000), (Ob.grpLayout 0, 1)] ++ (List.range 2).flatMap (fun n =>
    [(Ob.role n, n + 1), (Ob.ownerMask n, 1), (Ob.phase n, 0), (Ob.chState n, 0)])

/-- The state, with the scaling product 1 on every channel. -/
def negRated : State :=
  { m := negRatedEntries.foldl (fun m e => m.put e.1 e.2) { meas := { ch := List.replicate 24 { prod := 1 } } } }

/-- A block of 20 ms in which the section delivers 25/64 pu. -/
def deliveringBlock : MeterBlock :=
  { unit := 0, series := [(0, [9 * 2 ^ 26, 12 * 2 ^ 26]), (1, [3 * 2 ^ 26, 4 * 2 ^ 26])], q := 0 }

/-- The module in which the block is judged. -/
def atBlockEnd : Mod := (negRated.m.reach 20000000000).meterChans 0 deliveringBlock

/-- The hypotheses of the statement on a section's block hold. -/
theorem deliveringBlock_valid : negRated.m.blockEndPs 0 = some 20000000000 ∧ atBlockEnd.inUse 0 = true ∧ atBlockEnd.meterVolts 0 = [1]
    ∧ atBlockEnd.meterAmps 0 = [0] ∧ atBlockEnd.validSince 1 (negRated.m.meterAt 0).startPs = true
    ∧ atBlockEnd.validSince 0 (negRated.m.meterAt 0).startPs = true := by decide +kernel

theorem deliveringBlock_power : atBlockEnd.blockPower 0 deliveringBlock = 25 / 64 ∧ (0 : Rat) ≤ 25 / 64 := by decide +kernel

/-- The rated power turns the sign of the energy: 284 mWh are booked as energy in. -/
theorem deliveringBlock_energyIn : negRated.m.get (Ob.acEnergyIn 0) = 0
    ∧ (negRated.m.meterBlock deliveringBlock).get (Ob.acEnergyIn 0) = 284 := by decide +kernel

/-- Refutes O34: the clause that a block of a power not below 0 leaves the energy in lacks the premise that the rated power is not
below 0; the model takes the sign of the energy, power times rated power. -/
theorem not_measurementResultsAreShown : ¬ Obligations.MeasurementResultsAreShown := by
  unfold Obligations.MeasurementResultsAreShown
  intro h
  obtain ⟨hend, huse, hvolts, hamps, hv, hi⟩ := deliveringBlock_valid
  obtain ⟨before, after⟩ := deliveringBlock_energyIn
  obtain ⟨power, positive⟩ := deliveringBlock_power
  obtain ⟨onSection, -⟩ := h negRated deliveringBlock 0 0 20000000000 atBlockEnd (by decide) (by decide) rfl rfl
  have valid : ∀ n ∈ atBlockEnd.meterVolts 0 ++ atBlockEnd.meterAmps 0, atBlockEnd.validSince n (negRated.m.meterAt 0).startPs = true := by
    rw [hvolts, hamps]
    intro n hn
    rcases List.mem_cons.1 hn with rfl | h0
    · exact hv
    · obtain rfl := List.mem_singleton.1 h0
      exact hi
  obtain ⟨n, hn, -, -, -, -, -, -, energyIn, -⟩ := onSection rfl hend huse (by rw [hvolts]; decide) (by rw [hamps]; decide) valid
  have ran : exec (.meterBlockEnd deliveringBlock) negRated = .next { negRated with m := negRated.m.meterBlock deliveringBlock } := rfl
  have hm : negRated.m.meterBlock deliveringBlock = n := congrArg State.m (Host.Outcome.next.inj (ran.symm.trans hn))
  have kept : n.get (Ob.acEnergyIn 0) = negRated.m.get (Ob.acEnergyIn 0) := energyIn (by rw [power]; exact positive)
  rw [before, ← hm, after] at kept
  exact absurd kept (by decide)

end Sys2Proof.Machine
end

section
/-!
PROOFS. Contexts, Moraine and the injection generator (R124, R139, R142, R143, R147, R150, R151): what each operation of the
engine's chapter does, and the statements on its actions (O19) and on its events (O35).
-/
namespace Sys2Proof.Machine

/-! ### Updates of a context, of Moraine and of the injection generator -/

theorem ctxAt_modCtx (m : Mod) (n : Nat) (f : CtxRt → CtxRt) (h : n < m.eng.ctx.length) : (m.modCtx n f).ctxAt n = f (m.ctxAt n) := by
  unfold Mod.ctxAt Mod.modCtx; simp [List.getD_eq_getElem?_getD, h]

theorem ctxAt_modCtx_other (m : Mod) (n k : Nat) (f : CtxRt → CtxRt) (h : k ≠ n) : (m.modCtx n f).ctxAt k = m.ctxAt k := by
  unfold Mod.ctxAt Mod.modCtx; simp [List.getD_eq_getElem?_getD, Ne.symm h]

theorem ctxLen_modCtx (m : Mod) (n : Nat) (f : CtxRt → CtxRt) : (m.modCtx n f).eng.ctx.length = m.eng.ctx.length :=
  List.length_modify ..

theorem only_modTrace (m : Mod) (f : TraceRt → TraceRt) : Only [.trace] m (m.modTrace f) := by
  intro p hp; cases p <;> first | (exact absurd (by decide) hp) | rfl

theorem only_modInj (m : Mod) (f : InjRt → InjRt) : Only [.inj] m (m.modInj f) := by
  intro p hp; cases p <;> first | (exact absurd (by decide) hp) | rfl

section
variable {l : List Part} {ks : List Nat} {a b : Mod}

theorem Only.oTrace (h : Only l a b) {f : TraceRt → TraceRt} (hl : Part.trace ∈ l) : Only l a (b.modTrace f) :=
  h.to (only_modTrace b f) (by simpa using hl)

theorem Only.oInj (h : Only l a b) {f : InjRt → InjRt} (hl : Part.inj ∈ l) : Only l a (b.modInj f) :=
  h.to (only_modInj b f) (by simpa using hl)

theorem OnlyEntries.oTrace (h : OnlyEntries ks a b) {f : TraceRt → TraceRt} : OnlyEntries ks a (b.modTrace f) := onlyEntries_obj h rfl

theorem OnlyEntries.oInj (h : OnlyEntries ks a b) {f : InjRt → InjRt} : OnlyEntries ks a (b.modInj f) := onlyEntries_obj h rfl

end

theorem only_drawNat (m : Mod) : Only [.free] m m.drawNat.2 := by
  intro p hp; cases p <;> first | (exact absurd (by decide) hp) | rfl

/-! ### Moraine (R143) -/

/-- The entries that TRACE_ARM writes. -/
def armKeys : List Nat := [Ob.traceState, Ob.traceRecords, Ob.triggerRecord, Ob.triggerT0, Ob.gapCount]

/-- The records before the trigger rest on the nodes, the depth and PRE alone. -/
theorem preNow_eq {a b : Mod} (hn : b.get Ob.nodeCount = a.get Ob.nodeCount) (hd : b.get Ob.traceDepth = a.get Ob.traceDepth)
    (hp : b.get Ob.tracePre = a.get Ob.tracePre) : b.preNow = a.preNow := by
  unfold Mod.preNow Mod.depthNow Mod.recordBytes
  rw [hn, hd, hp]

theorem traceArm_laws (m : Mod) :
    Only [.obj, .trace] m m.traceArm ∧ OnlyEntries armKeys m m.traceArm ∧ m.traceArm.trace = { seen := m.seenEv.length }
    ∧ m.traceArm.get Ob.traceRecords = 0 ∧ m.traceArm.get Ob.gapCount = 0
    ∧ m.traceArm.traceSt = (if m.get Ob.traceMode = 1 then traceRunning else if m.preNow = 0 then traceArmed else traceArming) := by
  unfold Mod.traceArm
  dsimp only
  refine ⟨?_, ?_, rfl, ?_, get_put_same _, ?_⟩
  · exact ((((((Only.refl _ m).oTrace (by decide)).oput (by decide)).oput (by decide)).oput (by decide)).oput (by decide)).oput (by decide)
  · exact (((((onlyEntries_refl _ m).oTrace.oput (by decide)).oput (by decide)).oput (by decide)).oput (by decide)).oput (by decide)
  · rw [get_put_other _ (by decide), get_put_other _ (by decide), get_put_other _ (by decide), get_put_same]
  · unfold Mod.traceSt
    rw [get_put_other _ (by decide), get_put_other _ (by decide), get_put_other _ (by decide), get_put_other _ (by decide), get_put_same]

/-- The trace at its end, before the event: a single trace's records are numbered from 0. -/
def Mod.traceEnded (m : Mod) : Mod :=
  (if m.get Ob.traceMode = 1 then m else m.modTrace (fun t => { t with first := 0, spoilt := t.spoilt.map (fun p => (p.1, p.2 - t.first)) })).put
    Ob.traceState traceDoneState

theorem traceEnd_eq (m : Mod) : m.traceEnd = m.traceEnded.inform 22 (m.get Ob.traceRecords) := rfl

theorem traceEnded_laws (m : Mod) : Only [.obj, .trace] m m.traceEnded ∧ OnlyEntries [Ob.traceState] m m.traceEnded
    ∧ m.traceEnded.traceSt = traceDoneState ∧ m.traceEnded.trace.recs = m.trace.recs := by
  unfold Mod.traceEnded
  split
  · exact ⟨(Only.refl _ _).oput (by decide), (onlyEntries_refl _ _).oput (by decide), get_put_same _, rfl⟩
  · exact ⟨((Only.refl _ _).oTrace (by decide)).oput (by decide), (onlyEntries_refl _ _).oTrace.oput (by decide), get_put_same _, rfl⟩

/-- The end of a trace keeps its records and tells of them with EV022. -/
theorem traceEnd_laws (m : Mod) :
    Only (.obj :: .trace :: evParts) m m.traceEnd ∧ OnlyEntries [Ob.traceState] m m.traceEnd ∧ m.traceEnd.traceSt = traceDoneState
    ∧ m.traceEnd.trace.recs = m.trace.recs ∧ Tells 22 sevInfo 0 (m.get Ob.traceRecords) m m.traceEnd := by
  obtain ⟨only, entries, st, recs⟩ := traceEnded_laws m
  rw [traceEnd_eq]
  have trace : (m.traceEnded.inform 22 (m.get Ob.traceRecords)).trace = m.traceEnded.trace := inform_part _ 22 _ .trace (by decide)
  exact ⟨(only.mono (by decide)).oinform 22 _ (by decide), entries.oinform 22 _, (get_informed ..).trans st, by rw [trace, recs],
    only.tells_raise 22 sevInfo 0 _ (by decide) (by decide) (by decide)⟩

theorem kept_traceEnd (m : Mod) (snd : Sender) : (m.traceEnd.chanOf snd).kept = (m.chanOf snd).kept := by
  rw [traceEnd_eq]
  exact (kept_raise _ 22 sevInfo 0 _ snd).trans ((traceEnded_laws m).1.kept (by decide) (by decide) snd)

theorem traceStop_of_not_idle {m : Mod} (h : m.traceSt ≠ traceIdle) : m.traceStop = m.traceEnd := if_neg h

theorem tracePreFilled_of_filled {m : Mod} (h1 : m.traceSt = traceArming) (hp : m.preNow ≤ m.trace.recs.length) :
    m.tracePreFilled = (m.put Ob.traceState traceArmed).modTrace (fun t => { t with seen := m.seenEv.length }) :=
  if_pos (by simp [h1, hp])

theorem traceDone_of_recorded {m : Mod} (h3 : m.traceSt = traceTriggered) (hd : m.depthNow - m.preNow ≤ m.trace.since) :
    m.traceDone = m.traceEnd := if_pos (by simp [h3, hd])

/-! ### The injection generator (R147, R150, R151) -/

/-- The results of a sweep point. -/
def pointKeys (p : Nat) : List Nat := [Ob.sweepFreq p, Ob.sweepGain p, Ob.sweepPhase p, Ob.aAmpl p, Ob.sweepValid p]

/-- The entries that INJ_RUN writes. -/
def injKeys : List Nat := [Ob.injState, Ob.injPointNow] ++ (List.range 64).flatMap pointKeys

/-- The results of one point are cleared (R151). -/
def Mod.clearPoint (p : Nat) (m : Mod) : Mod :=
  ((((m.put (Ob.sweepFreq p) 0).put (Ob.sweepGain p) 0).put (Ob.sweepPhase p) 0).put (Ob.aAmpl p) 0).put (Ob.sweepValid p) 3

theorem only_clearPoint (p : Nat) (m : Mod) : Only [.obj] m (m.clearPoint p) :=
  (((((Only.refl _ m).oput (by decide)).oput (by decide)).oput (by decide)).oput (by decide)).oput (by decide)

theorem entries_clearPoint (p : Nat) (m : Mod) : OnlyEntries (pointKeys p) m (m.clearPoint p) := by
  refine (((((onlyEntries_refl _ m).oput ?_).oput ?_).oput ?_).oput ?_).oput ?_ <;> simp [pointKeys]

/-- A start clears every point, and then sets the generator going. -/
theorem injStart_eq (seq : Nat) (m : Mod) : m.injStart seq =
    ((((m.each (List.range 64) Mod.clearPoint).put Ob.injState (if m.get Ob.injType = 1 then 3 else 1)).put Ob.injPointNow 0).modInj
      (fun _ => { run := true, seq := seq, reg := 2 ^ m.get Ob.prbsOrder - 1, step := m.sweepStep 0 })).modTrace
      (fun t => { t with injNow := true }) := rfl

theorem injStart_laws (seq : Nat) (m : Mod) :
    Only [.obj, .inj, .trace] m (m.injStart seq) ∧ OnlyEntries injKeys m (m.injStart seq)
    ∧ (m.injStart seq).inj.run = true ∧ (m.injStart seq).inj.seq = seq ∧ (m.injStart seq).inj.point = 0
    ∧ (m.injStart seq).get Ob.injPointNow = 0 ∧ (m.injStart seq).get Ob.injState = (if m.get Ob.injType = 1 then 3 else 1) := by
  rw [injStart_eq]
  generalize hA : m.each (List.range 64) Mod.clearPoint = A
  have only : Only [.obj] m A := hA ▸ only_each _ _ _ only_clearPoint
  have entries : OnlyEntries injKeys m A := hA ▸ entries_each _ _ _ (fun p hp x =>
    (entries_clearPoint p x).mono (fun k hk => List.mem_append_right _ (List.mem_flatMap.2 ⟨p, hp, hk⟩)))
  refine ⟨?_, ?_, rfl, rfl, rfl, ?_, ?_⟩
  · exact ((((only.mono (by decide)).oput (by decide)).oput (by decide)).oInj (by decide)).oTrace (by decide)
  · exact ((entries.oput (by simp [injKeys])).oput (by simp [injKeys])).oInj.oTrace
  · rw [get_modTrace, get_modInj, get_put_same]
  · rw [get_modTrace, get_modInj, get_put_other _ (by decide), get_put_same]

theorem injIdle_laws (m : Mod) :
    Only [.obj, .inj] m m.injIdle ∧ OnlyEntries [Ob.injState] m m.injIdle ∧ m.injIdle.get Ob.injState = 0
    ∧ m.injIdle.inj.run = false ∧ m.injIdle.inj.sig = 0 := by
  unfold Mod.injIdle
  refine ⟨?_, ?_, ?_, rfl, rfl⟩
  · exact ((Only.refl _ m).oput (by decide)).oInj (by decide)
  · exact ((onlyEntries_refl _ m).oput (by decide)).oInj
  · rw [get_modInj, get_put_same]

/-- The injection ends with an event: the generator is idle, its results stay (R150). -/
theorem injIdle_raise_laws (ev sev fault arg : Nat) (hs : sev < 4) (m : Mod) :
    Only (.obj :: .inj :: evParts) m (m.injIdle.raise ev sev fault arg) ∧ OnlyEntries [Ob.injState] m (m.injIdle.raise ev sev fault arg)
    ∧ (m.injIdle.raise ev sev fault arg).get Ob.injState = 0 ∧ (m.injIdle.raise ev sev fault arg).inj.run = false
    ∧ (m.injIdle.raise ev sev fault arg).inj.sig = 0 ∧ Tells ev sev fault arg m (m.injIdle.raise ev sev fault arg) := by
  obtain ⟨only, entries, st, run, sig⟩ := injIdle_laws m
  have inj : (m.injIdle.raise ev sev fault arg).inj = m.injIdle.inj := raise_part _ ev sev fault arg .inj (by decide)
  exact ⟨(only.mono (by decide)).oraise _ _ _ _ (by decide), entries.raise _ _ _ _, (get_raised ..).trans st, by rw [inj, run],
    by rw [inj, sig], only.tells_raise _ _ _ _ (by decide) (by decide) hs⟩

theorem sweepSettled_of_settled {m : Mod} (hr : m.inj.run = true) (h1 : m.get Ob.injState = 1)
    (ht : m.get Ob.injSettle * 4294967296 ≤ m.inj.ticks * m.inj.step) : m.sweepSettled =
    (m.put Ob.injState 2).modInj (fun i => { i with ticks := 0, aRe := 0, aIm := 0, bRe := 0, bIm := 0, mark := 0 }) :=
  if_pos (by simp [hr, h1, ht])

/-- The results of a point go to its own entries, with the mark that it took. -/
theorem storePoint_laws (m : Mod) :
    Only [.obj, .free] m m.storePoint ∧ OnlyEntries (pointKeys m.inj.point) m m.storePoint
    ∧ m.storePoint.get (Ob.sweepValid m.inj.point) = m.inj.mark := by
  have amplKey : Ob.sweepValid m.inj.point ≠ Ob.aAmpl m.inj.point := by unfold Ob.sweepValid Ob.aAmpl; omega
  have gainKey : Ob.sweepValid m.inj.point ≠ Ob.sweepGain m.inj.point := by unfold Ob.sweepValid Ob.sweepGain; omega
  have phaseKey : Ob.sweepValid m.inj.point ≠ Ob.sweepPhase m.inj.point := by unfold Ob.sweepValid Ob.sweepPhase; omega
  unfold Mod.storePoint
  dsimp only
  generalize hA : Mod.putF (Ob.aAmpl m.inj.point) _ _ = A
  have only : Only [.obj, .free] m A := hA ▸ (((Only.refl _ m).oputF (by decide)).oput (by decide)).oputF (by decide)
  have entries : OnlyEntries (pointKeys m.inj.point) m A := hA ▸ (((onlyEntries_refl _ m).oputF (by simp [pointKeys])).oput
    (by simp [pointKeys])).oputF (by simp [pointKeys])
  have mark : A.get (Ob.sweepValid m.inj.point) = m.inj.mark := by rw [← hA, putF_eq, get_put_other _ amplKey, get_put_same]
  clear hA
  split
  · have drawn : Only [.free] A A.drawNat.2.drawNat.2 := (only_drawNat A).trans (only_drawNat _)
    refine ⟨((only.to drawn (by decide)).oput (by decide)).oput (by decide), ?_, ?_⟩
    · exact ((onlyEntries_obj entries (drawn .obj (by decide))).oput (by simp [pointKeys])).oput (by simp [pointKeys])
    · rw [get_put_other _ phaseKey, get_put_other _ gainKey, drawn.get (by decide), mark]
  · refine ⟨(only.oputF (by decide)).oputF (by decide), (entries.oputF (by simp [pointKeys])).oputF (by simp [pointKeys]), ?_⟩
    rw [putF_eq, putF_eq, get_put_other _ phaseKey, get_put_other _ gainKey, mark]

/-- A measured point with one more to come: its results are stored and the next point begins to settle. -/
theorem sweepMeasured_of_measured {m : Mod} (hr : m.inj.run = true) (h2 : m.get Ob.injState = 2) (hp : m.inj.point + 1 < m.get Ob.injPoints)
    (ht : m.sweepTicks ≤ m.inj.ticks) : m.sweepMeasured =
    ((m.storePoint.modInj (fun i => { i with point := m.inj.point + 1, ticks := 0, step := m.storePoint.sweepStep (m.inj.point + 1) })).put
      Ob.injState 1).put Ob.injPointNow (m.inj.point + 1) := by
  have hf : m.injFinished = false := by
    unfold Mod.injFinished
    rw [h2, if_neg (by decide)]
    exact decide_eq_false (by omega)
  unfold Mod.sweepMeasured
  rw [if_pos (by simp [hr, h2, hf, ht])]
  exact if_neg (by omega)

theorem injDone_of_finished {m : Mod} (hr : m.inj.run = true) (hf : m.injFinished = true) : m.injDone = m.injIdle.inform 24 m.inj.seq :=
  if_pos (by simp [hr, hf])

theorem injAbort_of_run {m : Mod} (hr : m.inj.run = true) :
    m.injAbort = m.injIdle.raise 25 sevWarn 0x2410 (m.inj.seq + 65536 * m.pointsDone) := if_pos hr

/-! ### The notches that track (R124, R193) -/

/-- The notch that position 12 of a section runs in FOLLOWING. -/
def Mod.followNotch (s : Nat) (m : Mod) : Mod :=
  if (m.secAt s).follow && m.get (Ob.angleValid s) = 1 then m.modCtx (24 * s + 12) (fun x => { x with next := some (2 * m.gridHz s) }) else m

/-- The notch of a context that follows a section's frequency. -/
def Mod.trackNotch (n : Nat) (m : Mod) : Mod :=
  match m.get (Ob.notchTrack n) with
  | 0 => m
  | k + 1 => if (m.ctxAt n).on && m.get (Ob.angleValid k) = 1 then m.modCtx n (fun x => { x with next := m.trackStart n }) else m

theorem notchUpdate_eq (m : Mod) : m.notchUpdate = (m.each (List.range 4) Mod.followNotch).each (List.range 160) Mod.trackNotch := rfl

theorem trackNotch_tracks {n k : Nat} {m : Mod} (ht : m.get (Ob.notchTrack n) = k + 1) (hon : (m.ctxAt n).on = true)
    (hv : m.get (Ob.angleValid k) = 1) : m.trackNotch n = m.modCtx n (fun x => { x with next := m.trackStart n }) := by
  unfold Mod.trackNotch
  rw [ht]
  exact if_pos (by simp [hon, hv])

/-- Each of the two does nothing, or gives one context the centre for the next boundary. -/
theorem followNotch_cases (s : Nat) (m : Mod) : m.followNotch s = m ∨ ∃ i v, m.followNotch s = m.modCtx i (fun x => { x with next := v }) := by
  unfold Mod.followNotch
  split
  · exact .inr ⟨_, _, rfl⟩
  · exact .inl rfl

theorem trackNotch_cases (n : Nat) (m : Mod) :
    m.trackNotch n = m ∨ m.trackNotch n = m.modCtx n (fun x => { x with next := m.trackStart n }) := by
  unfold Mod.trackNotch
  split
  · exact .inl rfl
  · split
    · exact .inr rfl
    · exact .inl rfl

/-- What the update leaves of the module, and of context `c` in it. -/
structure NotchFrame (a : Mod) (c : Nat) (x : Mod) : Prop where
  only : Only [.eng] a x
  len : x.eng.ctx.length = a.eng.ctx.length
  on : (x.ctxAt c).on = (a.ctxAt c).on
  centre : (x.ctxAt c).centre = (a.ctxAt c).centre

namespace NotchFrame
variable {a x : Mod} {c : Nat}

theorem refl (a : Mod) (c : Nat) : NotchFrame a c a := ⟨Only.refl _ _, rfl, rfl, rfl⟩

theorem next (h : NotchFrame a c x) (hc : c < a.eng.ctx.length) (i : Nat) (v : Option Rat) :
    NotchFrame a c (x.modCtx i (fun y => { y with next := v })) := by
  refine ⟨h.only.oCtx (by decide), (ctxLen_modCtx ..).trans h.len, ?_, ?_⟩ <;> by_cases hi : c = i
  · subst hi; rw [ctxAt_modCtx _ _ _ (h.len ▸ hc)]; exact h.on
  · rw [ctxAt_modCtx_other _ _ _ _ hi]; exact h.on
  · subst hi; rw [ctxAt_modCtx _ _ _ (h.len ▸ hc)]; exact h.centre
  · rw [ctxAt_modCtx_other _ _ _ _ hi]; exact h.centre

theorem follow (h : NotchFrame a c x) (hc : c < a.eng.ctx.length) (s : Nat) : NotchFrame a c (x.followNotch s) := by
  rcases followNotch_cases s x with e | ⟨i, v, e⟩ <;> rw [e]
  · exact h
  · exact h.next hc i v

theorem track (h : NotchFrame a c x) (hc : c < a.eng.ctx.length) (n : Nat) : NotchFrame a c (x.trackNotch n) := by
  rcases trackNotch_cases n x with e | e <;> rw [e]
  · exact h
  · exact h.next hc n _

/-- Where a notch starts to track rests on entries alone. -/
theorem trackStart (h : NotchFrame a c x) (n : Nat) : x.trackStart n = a.trackStart n := by
  unfold Mod.trackStart Mod.getF Mod.getS
  simp only [h.only.get (by decide)]

end NotchFrame

/-- The recomputed centre of a context that tracks a valid angle waits for the next boundary. -/
theorem notchUpdate_laws {m : Mod} {c k : Nat} (hc : c < m.eng.ctx.length) (h160 : c < 160) (ht : m.get (Ob.notchTrack c) = k + 1)
    (hon : (m.ctxAt c).on = true) (hv : m.get (Ob.angleValid k) = 1) :
    NotchFrame m c m.notchUpdate ∧ (m.notchUpdate.ctxAt c).next = m.trackStart c := by
  rw [notchUpdate_eq]
  have followed : NotchFrame m c (m.each (List.range 4) Mod.followNotch) :=
    each_invariant (NotchFrame.refl m c) (fun s _ _ h => h.follow hc s)
  have tracked : ∀ x, NotchFrame m c x → ((x.trackNotch c).ctxAt c).next = m.trackStart c := fun x h => by
    rw [trackNotch_tracks ((h.only.get (by decide) _).trans ht) (h.on.trans hon) ((h.only.get (by decide) _).trans hv),
      ctxAt_modCtx _ _ _ (h.len ▸ hc)]
    exact h.trackStart c
  refine ⟨each_invariant followed (fun n _ _ h => h.track hc n),
    each_establishes (I := NotchFrame m c) (P := fun x => (x.ctxAt c).next = m.trackStart c) (List.mem_range.2 h160) followed
      (fun n _ _ h => h.track hc n) (fun n _ x h hx => ?_) tracked⟩
  by_cases hn : n = c
  · subst hn; exact tracked x h
  · rcases trackNotch_cases n x with e | e <;> rw [e]
    · exact hx
    · rw [ctxAt_modCtx_other _ _ _ _ (Ne.symm hn)]; exact hx

/-! ### The actions as their rows run them -/

theorem ctxResetRun_of_free {n : Nat} {m : Mod} (h160 : n < 160) (hc : m.inCascade n = false) (hb : (m.isAdditional n && m.ctxBusy n) = false) :
    m.ctxResetRun n = okay { m with acts := m.acts ++ [.ctxReset n] } := by
  unfold Mod.ctxResetRun
  rw [if_neg (by omega), hc, hb]
  rfl

theorem traceArmRun_of_ended {m : Mod} (h : m.traceSt = traceIdle ∨ m.traceSt = traceDoneState) : m.traceArmRun = okay m.traceArm :=
  if_pos (by simpa using h)

theorem injRun_starts {seq : Nat} {m : Mod} (h : m.injRefusal = none) : m.injRun seq 0 = queued (m.injStart seq) := by
  unfold Mod.injRun
  rw [if_pos rfl, h]

theorem injRun_stops {seq : Nat} {m : Mod} (h : m.inj.run = true) :
    m.injRun seq 1 = okay (m.injIdle.raise 25 sevWarn 0x2410 (m.inj.seq + 65536 * m.pointsDone)) := by
  rw [← injAbort_of_run h]
  unfold Mod.injRun
  rw [if_neg (by decide), if_pos rfl, if_pos h]

/-- What an operation tells of is told from before its frame, and still after the response. -/
theorem tells_taken {f : Frame} {m T M n : Mod} {ev sev fault arg : Nat} (hT : m.taken f = T) (h : Tells ev sev fault arg T M)
    (hn : Only rspParts M n) : Tells ev sev fault arg m n :=
  (Only.tells_after h hn (by decide) (by decide)).of_eq (taken_part hT .hostQ (by decide)) (taken_part hT .seenEv (by decide))

/-- An act that waits for the boundary changes nothing else. -/
theorem only_acts (m : Mod) (w : List BoundaryAct) : Only [.acts] m { m with acts := w } := by
  intro p hp; cases p <;> first | (exact absurd (by decide) hp) | rfl

/-- An ACTION that waits for the boundary stands last among the acts. -/
theorem done_later {c : Instr} {s : State} {h : Hdr} {idx : Nat} {a : List Byte} (w : BoundaryAct) (len : Nat)
    (hp : plainAction idx 0 len = true) (hl : a.length = len) (hc : exec c s = State.frame ⟨h, 4, idx, 0, a⟩ s)
    (hr : s.m.runs ⟨h, 4, idx, 0, a⟩ = true)
    (hact : (s.m.taken ⟨h, 4, idx, 0, a⟩).actionOf s.kept h.snd h.slot h.seq idx 0 a = (s.m.taken ⟨h, 4, idx, 0, a⟩).actLater w) :
    Done c ⟨h, 4, idx, 0, a⟩ s 0 [] [.acts] [] (fun n => n.acts = s.m.acts ++ [w]) := by
  have acts : (s.m.taken ⟨h, 4, idx, 0, a⟩).acts = s.m.acts := taken_part rfl .acts (by decide)
  refine done_plain len hp hl hc hr rfl hact (only_acts _ _) (onlyEntries_obj (onlyEntries_refl _ _) rfl)
    ((only_acts _ _).kept (by decide) (by decide) _) (fun n hn => ?_)
  have kept : n.acts = (s.m.taken ⟨h, 4, idx, 0, a⟩).acts ++ [w] := hn .acts (by decide)
  rw [kept, acts]

/-! ### The statements -/

/-- Settles O19: each action by the law of its operation, on the module as the command finds it. -/
theorem engineActions : Obligations.EngineActions := by
  unfold Obligations.EngineActions
  intro s h
  refine ⟨fun k f hk hf hr hc hb => ?reset, fun hr => ?force, fun hr hst => ?arm, fun hr hst => ?stop, fun hr hn => ?start, fun hr hrun => ?abort⟩
  case reset =>
    subst hf
    refine done_later (.ctxReset k) 1 (by decide) rfl rfl hr ?_
    show Mod.ctxResetRun (argAt (leBytes 1 k) 0) _ = _
    rw [argAt_leBytes k (by omega)]
    exact ctxResetRun_of_free hk hc hb
  case force => exact done_later .traceForce 0 (by decide) rfl rfl hr rfl
  case arm =>
    generalize hT : s.m.taken ⟨h, 4, 0x7004, 0, []⟩ = T
    have get : ∀ k, k ≠ Ob.framesOk → T.get k = s.m.get k := fun k hk => taken_get hT hk
    have seen : T.seenEv = s.m.seenEv := taken_part hT .seenEv (by decide)
    have pre : T.preNow = s.m.preNow := preNow_eq (get _ (by decide)) (get _ (by decide)) (get _ (by decide))
    have st : T.traceSt = s.m.traceSt := get _ (by decide)
    obtain ⟨only, entries, trace, records, gaps, state⟩ := traceArm_laws T
    refine done_plain 0 (by decide) rfl rfl hr hT (traceArmRun_of_ended (by rwa [st])) only entries (only.kept (by decide) (by decide) _)
      (fun n hn => ⟨?_, ?_, ?_, ?_⟩)
    · have kept : n.trace = T.traceArm.trace := hn .trace (by decide)
      rw [kept, trace, seen]
    · rw [hn.get (by decide), records]
    · rw [hn.get (by decide), gaps]
    · have kept : n.traceSt = T.traceArm.traceSt := hn.get (by decide) _
      rw [kept, state, get _ (by decide), pre]
  case stop =>
    generalize hT : s.m.taken ⟨h, 4, 0x7005, 0, []⟩ = T
    have st : T.traceSt = s.m.traceSt := taken_get hT (by decide)
    have trace : T.trace = s.m.trace := taken_part hT .trace (by decide)
    have records : T.get Ob.traceRecords = s.m.get Ob.traceRecords := taken_get hT (by decide)
    obtain ⟨only, entries, state, recs, tells⟩ := traceEnd_laws T
    refine done_kept 0 (by decide) rfl rfl hr hT (congrArg okay (traceStop_of_not_idle (by rwa [st]))) only entries (kept_traceEnd T _)
      (fun n hn => ⟨?_, ?_, ?_⟩)
    · have kept : n.traceSt = T.traceEnd.traceSt := hn.get (by decide) _
      rw [kept, state]
    · have kept : n.trace = T.traceEnd.trace := hn .trace (by decide)
      rw [kept, recs, trace]
    · exact records ▸ tells_taken hT tells hn
  case start =>
    generalize hT : s.m.taken ⟨h, 4, 0x2711, 0, [0]⟩ = T at hn
    have kind : T.get Ob.injType = s.m.get Ob.injType := taken_get hT (by decide)
    obtain ⟨only, entries, run, seq, point, now, state⟩ := injStart_laws h.seq T
    refine done_plain 1 (by decide) rfl rfl hr hT (injRun_starts hn) only entries (only.kept (by decide) (by decide) _)
      (fun n hn => ?_)
    have kept : n.inj = (T.injStart h.seq).inj := hn .inj (by decide)
    rw [kept, hn.get (by decide), hn.get (by decide), ← kind]
    exact ⟨run, seq, point, now, state⟩
  case abort =>
    generalize hT : s.m.taken ⟨h, 4, 0x2711, 0, [1]⟩ = T
    have inj : T.inj = s.m.inj := taken_part hT .inj (by decide)
    have state : T.get Ob.injState = s.m.get Ob.injState := taken_get hT (by decide)
    have points : T.pointsDone = s.m.pointsDone := by unfold Mod.pointsDone; rw [state, inj]
    obtain ⟨only, entries, st, run, -, tells⟩ := injIdle_raise_laws 25 sevWarn 0x2410 (T.inj.seq + 65536 * T.pointsDone) (by decide) T
    refine done_kept 1 (by decide) rfl rfl hr hT (injRun_stops (seq := h.seq) (by rwa [inj])) only entries ?_ (fun n hn => ⟨?_, ?_, ?_⟩)
    · rw [kept_raise, (injIdle_laws T).1.kept (by decide) (by decide)]
    · have kept : n.inj = _ := hn .inj (by decide)
      rw [kept, run]
    · rw [hn.get (by decide), st]
    · rw [← inj, ← points]
      exact tells_taken hT tells hn

/-- Settles O35: each event by the law of its operation. -/
theorem engineEventsTakeEffect : Obligations.EngineEventsTakeEffect := by
  unfold Obligations.EngineEventsTakeEffect
  intro s c k hc hk hlen
  refine ⟨fun ht hon hv => ?notch, fun h1 hp => ?filled, fun h3 hd => ?done, fun hr h1 ht => ?settled, fun hr h2 hp ht h64 => ?measured,
    fun hr hf => ?ends⟩
  case notch =>
    obtain ⟨frame, next⟩ := notchUpdate_laws (by rw [hlen]; exact hc) hc ht hon hv
    exact does_onMod rfl rfl ⟨next, frame.centre, frame.only⟩
  case filled =>
    refine does_onMod rfl (tracePreFilled_of_filled h1 hp) ⟨?_, rfl, ?_, ?_⟩
    · unfold Mod.traceSt; rw [get_modTrace, get_put_same]; rfl
    · exact ((Only.refl _ _).oput (by decide)).oTrace (by decide)
    · exact ((onlyEntries_refl _ _).oput (by decide)).oTrace
  case done =>
    obtain ⟨only, entries, st, -, tells⟩ := traceEnd_laws s.m
    exact does_onMod rfl (traceDone_of_recorded h3 hd) ⟨st, tells, only, entries⟩
  case settled =>
    refine does_onMod rfl (sweepSettled_of_settled hr h1 ht) ⟨?_, rfl, rfl, rfl, ?_, ?_⟩
    · rw [get_modInj, get_put_same]
    · exact ((Only.refl _ _).oput (by decide)).oInj (by decide)
    · exact ((onlyEntries_refl _ _).oput (by decide)).oInj
  case measured =>
    obtain ⟨only, -, mark⟩ := storePoint_laws s.m
    refine does_onMod rfl (sweepMeasured_of_measured hr h2 hp ht) ⟨?_, rfl, ?_, get_put_same _, ?_, ?_⟩
    · rw [get_put_other _ (by decide), get_put_same]
    · have inj : s.m.storePoint.inj = s.m.inj := only .inj (by decide)
      show s.m.storePoint.inj.ang = s.m.inj.ang
      rw [inj]
    · rw [get_put_other _ (by unfold Ob.sweepValid Ob.injPointNow; omega), get_put_other _ (by unfold Ob.sweepValid Ob.injState; omega),
        get_modInj, mark]
    · exact (((only.mono (by decide)).oInj (by decide)).oput (by decide)).oput (by decide)
  case ends =>
    obtain ⟨only, entries, st, run, sig, tells⟩ := injIdle_raise_laws 24 sevInfo 0 s.m.inj.seq (by decide) s.m
    exact does_onMod rfl (injDone_of_finished hr hf) ⟨st, run, sig, tells, only, entries⟩

end Sys2Proof.Machine
end

section
/-!
PROOFS. The sequence of a section (R162 to R172): what each of its timers and conditions does, and the statements that a start goes
on (O36) and that failed sequences and stops end (O37).
-/
namespace Sys2Proof.Machine

/-! ### An event of a section -/

/-- An overrun restores no more than the engines: beside them the event leaves what its operation leaves. -/
theorem alsoSaved_eq (f : Mod → Mod) (m : Mod) : ∃ e, m.alsoSaved f = { f m with saved := e } := by
  unfold Mod.alsoSaved
  dsimp only
  split
  · exact ⟨_, rfl⟩
  · exact ⟨(f m).saved, rfl⟩

theorem does_sectionEvent {c : Instr} {s : State} {u : Nat} {f : Mod → Mod} {Q : Mod → Prop} (hc : exec c s = secStep u f s) (hu : u < 4)
    (q : ∀ e, Q { f s.m with saved := e }) : Does c s Q := by
  obtain ⟨e, he⟩ := alsoSaved_eq f s.m
  refine ⟨s.m.alsoSaved f, hc.trans (if_pos (by simpa [secOk] using hu)), ?_⟩
  rw [he]
  exact q e

theorem Only.oSaved {l : List Part} {a b : Mod} (h : Only l a b) {e : EngRt} (hl : Part.saved ∈ l) : Only l a { b with saved := e } :=
  h.trans (Only.mono (l := [.saved]) (by intro p hp; cases p <;> first | (exact absurd (by decide) hp) | rfl) (by simpa using hl))

theorem Only.secLen {l : List Part} {a b : Mod} (h : Only l a b) (hl : Part.sec ∉ l) : b.sec.length = a.sec.length :=
  congrArg List.length (h .sec hl)

/-! ### The routing of a unit's contexts (R154, R196, R210) -/

/-- Nothing but entries of contexts changes: their objects stand below index 2600h. -/
structure Routed (a b : Mod) : Prop where
  only : Only [.obj] a b
  get  : ∀ k, 0x260000 ≤ k → b.get k = a.get k

namespace Routed
variable {a b : Mod}

theorem refl (a : Mod) : Routed a a := ⟨Only.refl _ _, fun _ _ => rfl⟩

theorem put (h : Routed a b) {k v : Nat} (hk : k < 0x260000) : Routed a (b.put k v) :=
  ⟨h.only.oput (by decide), fun j hj => (get_put_other b (by omega)).trans (h.get j hj)⟩

theorem dflt (h : Routed a b) {k v : Nat} (hk : k < 0x260000) : Routed a (b.dflt k v) := by
  unfold Mod.dflt
  split
  · exact h
  · exact h.put hk

theorem position (h : Routed a b) {n ref fb : Nat} {kp ki lo hi : Rat} (hn : n < 160) : Routed a (b.position n ref fb kp ki lo hi) :=
  (((((h.put (by unfold Ob.refSrc; omega)).put (by unfold Ob.fbSrc; omega)).dflt (by unfold Ob.ctxKp; omega)).dflt
    (by unfold Ob.ctxKi; omega)).dflt (by unfold Ob.outMin; omega)).dflt (by unfold Ob.outMax; omega)

theorem notchDefault (h : Routed a b) {n s : Nat} (hn : n < 160) : Routed a (b.notchDefault n s) :=
  ((((h.dflt (by unfold Ob.notchPos; omega)).dflt (by unfold Ob.notchTrack; omega)).dflt (by unfold Ob.notchHarm; omega)).dflt
    (by unfold Ob.notchDepth; omega)).dflt (by unfold Ob.notchWidth; omega)

theorem notches (h : Routed a b) {l : List Nat} {s : Nat} (hl : ∀ n ∈ l, n < 160) : Routed a (b.each l (fun n m => m.notchDefault n s)) :=
  each_invariant h (fun n hn _ g => g.notchDefault (hl n hn))

theorem ite (h : Routed a b) {c : Mod} (g : Routed a c) {p : Prop} [Decidable p] : Routed a (if p then b else c) := by
  split
  · exact h
  · exact g

theorem acShared (h : Routed a b) {s : Nat} (hs : s < 4) : Routed a (b.acShared s) := by
  unfold Mod.acShared
  dsimp only
  refine ite (position ?_ (by omega)) ?_ <;>
  · refine notches (l := [_, _, _, _]) ?_ (by simp; omega)
    iterate 5 refine position ?_ (by omega)
    exact h

theorem formRouting (h : Routed a b) {s : Nat} (hs : s < 4) : Routed a (b.formRouting s) := by
  refine notches (l := [_, _, _, _]) ?_ (by simp; omega)
  iterate 9 refine position ?_ (by omega)
  exact h.acShared hs

theorem dcRouting (h : Routed a b) {c : Nat} (hc : c < 4) : Routed a (b.dcRouting c) := by
  unfold Mod.dcRouting
  dsimp only
  iterate 4 refine position ?_ (by omega)
  refine ite (position ?_ (by omega)) (position ?_ (by omega)) <;> exact ite (h.position (by omega)) (h.position (by omega))

end Routed

theorem only_sigs (s j : Nat) (vs : List Int) (m : Mod) : Only [.eng] m (m.sigs s j vs) := by
  unfold Mod.sigs
  induction vs generalizing j m with
  | nil => exact Only.refl _ _
  | cons v vs ih =>
    have one : Only [.eng] m (m.sig s j v) := by
      intro p hp; cases p <;> first | (exact absurd (by decide) hp) | rfl
    exact one.trans (ih (j + 1) (m.sig s j v))

/-- The contexts of grid forming are routed and enabled: entries of contexts and the engines alone. -/
theorem only_enableForming {s : Nat} (hs : s < 4) (presync : Bool) (m : Mod) : Only [.obj, .eng] m (m.enableForming s presync) := by
  unfold Mod.enableForming Mod.enableAll Mod.clearModeSignals
  exact ((((Routed.refl m).formRouting hs).only.mono (by decide)).to (only_sigs _ _ _ _) (by decide)).oeach
    (fun _ _ => (Only.refl _ _).oCtx (by decide))

/-! ### The start of a section goes on (R162, R165 to R172) -/

/-- The dead bus is confirmed: the backoff is the section's slot and a jitter (R165). -/
theorem deadConfirmed_laws {u t : Nat} {m : Mod} (hl : u < m.sec.length) (hst : m.gf u = gfDeadWait) (hc : (m.secAt u).confirmPs = some t) :
    (m.deadConfirmed u).gf u = gfBackoff ∧ ∃ j, j ≤ m.get (Ob.bsJitter u)
      ∧ (m.deadConfirmed u).get (Ob.backoffMs u)
        = (m.get (Ob.bsSlot u) * ((m.secAt u).fleet % max 1 (m.get (Ob.bsSlots u))) + j) % 65536
      ∧ ((m.deadConfirmed u).secAt u).backoffPs
        = some ((m.deadConfirmed u).now + msPs (m.get (Ob.bsSlot u) * ((m.secAt u).fleet % max 1 (m.get (Ob.bsSlots u))) + j)) := by
  have slots : (if m.get (Ob.bsSlots u) = 0 then 1 else m.get (Ob.bsSlots u)) = max 1 (m.get (Ob.bsSlots u)) := by split <;> omega
  unfold Mod.deadConfirmed
  rw [if_pos (by simp [hst, hc])]
  dsimp only
  rw [slots]
  generalize hd : Mod.drawRandom _ = d
  have obj : d.2.obj = m.obj := by subst hd; rfl
  have sec : d.2.sec = m.sec := by subst hd; rfl
  clear hd
  obtain ⟨r, D⟩ := d
  generalize hms : m.get (Ob.bsSlot u) * ((m.secAt u).fleet % max 1 (m.get (Ob.bsSlots u))) + r % (m.get (Ob.bsJitter u) + 1) = ms
  generalize hA : Mod.modSec u _ _ = A
  have ms_A : A.get (Ob.backoffMs u) = ms % 65536 := by subst hA; rw [get_modSec, get_put_same]
  have due : (A.secAt u).backoffPs = some (A.now + msPs ms) := by
    subst hA
    rw [secAt_modSec _ _ _ (by show u < D.sec.length; rwa [sec])]
    rfl
  clear hA
  obtain ⟨only, entries, st, -⟩ := gfTo_laws u gfBackoff A
  refine ⟨st, r % (m.get (Ob.bsJitter u) + 1), Nat.lt_succ_iff.1 (Nat.mod_lt _ (Nat.succ_pos _)), ?_, ?_⟩
  · rw [hms, entries _ (by simp [Ob.backoffMs, Ob.gfState]), ms_A]
  · have clk : (A.gfTo u gfBackoff).now = A.now := congrArg Clock.upPs (only .clk (by decide))
    rw [hms, secAt_eq (only .sec (by decide)), due, clk]

/-- A backoff that ends with the bus dead requests connection. -/
theorem backoffExpires_laws {u : Nat} {m : Mod} (hl : u < m.sec.length) (hst : m.gf u = gfBackoff) (hd : m.busDead u = true) :
    Only ([.clk, .sec, .obj] ++ evParts) m (m.backoffExpires u) ∧ OnlyEntries [Ob.gfState u] m (m.backoffExpires u)
    ∧ (m.backoffExpires u).gf u = gfClosingDead ∧ ((m.backoffExpires u).secAt u).ask = true := by
  unfold Mod.backoffExpires
  rw [if_pos hst]
  dsimp only
  rw [if_pos hd]
  generalize hA : Mod.modSec u _ (m.reach _) = A
  have before : Only [.clk, .sec] m A := by subst hA; exact ((Only.refl _ _).oReach (by decide)).oSec (by decide)
  have len : A.sec.length = m.sec.length := by subst hA; exact secLen_modSec _ _ _
  obtain ⟨only, entries, st, ask, -⟩ := request_laws u gfClosingDead A (by rwa [len])
  exact ⟨(before.mono (by decide)).to only (by decide), (onlyEntries_obj (onlyEntries_refl _ _) (before .obj (by decide))).trans entries, st, ask⟩

/-- A bus that has been live for 5 ms makes a section that waits for it join (R162, R166). -/
theorem busTurnsLive_joins {u t outcome : Nat} {m : Mod} (hl : u < m.sec.length) (h4 : u < 4) (ht : (m.secAt u).livePs = some t)
    (hj : ∀ x : Mod, x.gf u = m.gf u → x.sdcSt = m.sdcSt → x.busLive u = (x.modSec u (fun y => { y with live := true })).joins u outcome) :
    Only ([.clk, .sec, .obj] ++ evParts) m (m.busTurnsLive u) ∧ OnlyEntries [Ob.gfState u, Ob.bsOutcome u] m (m.busTurnsLive u)
    ∧ (m.busTurnsLive u).gf u = gfDelay ∧ (m.busTurnsLive u).get (Ob.bsOutcome u) = outcome
    ∧ ((m.busTurnsLive u).secAt u).joining = true ∧ ((m.busTurnsLive u).secAt u).ask = false ∧ 66 ∈ (m.busTurnsLive u).seenEv
    ∧ (m.busTurnsLive u).clk.upPs = max m.clk.upPs (t + msPs 5) := by
  unfold Mod.busTurnsLive
  rw [ht]
  dsimp only
  rw [hj (m.reach (t + msPs 5)) rfl rfl]
  generalize hA : Mod.modSec u _ (m.reach (t + msPs 5)) = A
  have before : Only [.clk, .sec] m A := by subst hA; exact ((Only.refl _ _).oReach (by decide)).oSec (by decide)
  have len : A.sec.length = m.sec.length := by subst hA; exact secLen_modSec _ _ _
  have clk : A.clk.upPs = max m.clk.upPs (t + msPs 5) := by subst hA; rfl
  obtain ⟨only, entries, st, out, joining, ask, told⟩ := joins_laws u outcome A (by rwa [len]) h4
  refine ⟨(before.mono (by decide)).to only (by decide), (onlyEntries_obj (onlyEntries_refl _ _) (before .obj (by decide))).trans entries,
    st, out, joining, ask, told, ?_⟩
  rw [show (A.joins u outcome).clk = A.clk from only .clk (by decide), clk]

theorem busLive_waiting {u : Nat} {m : Mod} (hst : m.gf u = gfDeadWait ∨ m.gf u = gfBackoff) :
    m.busLive u = (m.modSec u (fun y => { y with live := true })).joins u 2 := by
  unfold Mod.busLive
  exact if_pos (by simpa using hst)

theorem busLive_closing {u : Nat} {m : Mod} (hst : m.gf u = gfClosingDead) (hs : m.sdcSt ≠ sdcClosed) :
    m.busLive u = (m.modSec u (fun y => { y with live := true })).joins u 3 := by
  unfold Mod.busLive
  dsimp only
  rw [if_neg (by rw [hst]; decide), if_pos (by simp [hst, hs])]

/-- The enter-service delay ends with the grid normal: PRESYNC, with PWM from the next carrier boundary (R170, R171). -/
theorem delayEnds_laws {u t : Nat} {m : Mod} (hl : u < m.sec.length) (hg : u < m.grp.length) (h4 : u < 4) (hst : m.gf u = gfDelay)
    (hd : (m.secAt u).delayPs = some t) (hn : m.gridNormal u = true) :
    (m.delayEnds u).gf u = gfPresync ∧ ((m.delayEnds u).grpAt u).starting = true ∧ ((m.delayEnds u).secAt u).delayPs = none := by
  unfold Mod.delayEnds
  rw [if_pos (by simp [hst, hd, hn])]
  dsimp only
  generalize hR : m.reach _ = R
  have forming := only_enableForming h4 true R
  have sec : (R.enableForming u true).sec = m.sec := (forming .sec (by decide)).trans (by subst hR; rfl)
  have grp : (R.enableForming u true).grp = m.grp := (forming .grp (by decide)).trans (by subst hR; rfl)
  generalize R.enableForming u true = E at sec grp
  generalize hA : Mod.modGrp u _ _ = A
  have starting : (A.grpAt u).starting = true := by
    subst hA
    rw [grpAt_modGrp _ _ _ (by rw [modSec_grp, grp]; exact hg)]
  have ended : (A.secAt u).delayPs = none := by
    subst hA
    rw [secAt_eq (modGrp_sec _ _ _), secAt_modSec _ _ _ (by rw [sec]; exact hl)]
  clear hA
  obtain ⟨only, -, st, -⟩ := gfTo_laws u gfPresync A
  exact ⟨st, by rw [grpAt_eq (only .grp (by decide)), starting], by rw [secAt_eq (only .sec (by decide)), ended]⟩

/-- Windows that have held for SYNC_HOLD request connection (R172). -/
theorem syncHeld_laws {u t : Nat} {m : Mod} (hl : u < m.sec.length) (hst : m.gf u = gfPresync) (hh : (m.secAt u).holdPs = some t) :
    Only ([.clk, .sec, .obj] ++ evParts) m (m.syncHeld u) ∧ OnlyEntries [Ob.gfState u, Ob.syncFlags u] m (m.syncHeld u)
    ∧ (m.syncHeld u).gf u = gfClosingLive ∧ ((m.syncHeld u).secAt u).ask = true ∧ bit ((m.syncHeld u).get (Ob.syncFlags u)) 4 = true := by
  unfold Mod.syncHeld
  rw [if_pos (by simp [hst, hh])]
  generalize hA : Mod.putBit (Ob.syncFlags u) 4 true _ = A
  have before : Only [.clk, .obj] m A := by subst hA; exact ((Only.refl _ _).oReach (by decide)).oputB (by decide)
  have flags : OnlyEntries [Ob.gfState u, Ob.syncFlags u] m A := by subst hA; exact ((onlyEntries_refl _ _).oReach).oputB (by simp)
  have held : bit (A.get (Ob.syncFlags u)) 4 = true := by subst hA; rw [putBit_eq, get_put_same, bit_setBit]
  clear hA
  obtain ⟨only, entries, st, ask, -⟩ := request_laws u gfClosingLive A (by rwa [before.secLen (by decide)])
  refine ⟨(before.mono (by decide)).to only (by decide), flags.trans (entries.mono (by simp)), st, ask, ?_⟩
  rw [entries _ (by simp [Ob.syncFlags, Ob.gfState]), held]

/-- BS_OUTCOME with EV066 (R167). -/
theorem bsOutcome_laws (u v : Nat) (m : Mod) :
    Only (.obj :: evParts) m (m.bsOutcome u v) ∧ OnlyEntries [Ob.bsOutcome u] m (m.bsOutcome u v)
    ∧ (m.bsOutcome u v).get (Ob.bsOutcome u) = v := by
  unfold Mod.bsOutcome
  exact ⟨((Only.refl _ _).oput (by decide)).oinform _ _ (by decide), ((onlyEntries_refl _ _).oput (by simp)).oinform _ _,
    by rw [get_informed, get_put_same]⟩

/-- A ramp whose reference has reached its target leaves the section FORMING, its start over (R162, R167). -/
theorem rampComplete_laws {u : Nat} {m : Mod} (hl : u < m.sec.length) (hst : m.gf u = gfRamp)
    (hr : (m.ctxAt (24 * u + 2)).r = m.eng.signal u 0x19) :
    Only ([.sec, .obj] ++ evParts) m (m.rampComplete u) ∧ OnlyEntries [Ob.gfState u, Ob.bsOutcome u] m (m.rampComplete u)
    ∧ (m.rampComplete u).gf u = gfForming ∧ (m.rampComplete u).get (Ob.bsOutcome u) = (if (m.secAt u).fromDead then 1 else 2)
    ∧ ((m.rampComplete u).secAt u).start = none ∧ (∀ q, (m.secAt u).start = some q → 65 ∈ (m.rampComplete u).seenEv) := by
  unfold Mod.rampComplete
  rw [if_pos (by simp [hst, hr])]
  generalize (if (m.secAt u).fromDead = true then 1 else 2) = v
  generalize hA : Mod.modSec u _ m = A
  have before : Only [.sec] m A := by subst hA; exact (Only.refl _ _).oSec (by decide)
  have len : A.sec.length = m.sec.length := by subst hA; exact secLen_modSec _ _ _
  have start : (A.secAt u).start = (m.secAt u).start := by subst hA; rw [secAt_modSec _ _ _ hl]
  clear hA
  obtain ⟨onlyB, entriesB, out⟩ := bsOutcome_laws u v A
  generalize A.bsOutcome u v = B at onlyB entriesB out
  obtain ⟨onlyC, entriesC, st, -⟩ := gfTo_laws u gfForming B
  generalize B.gfTo u gfForming = C at onlyC entriesC st
  have sec : C.sec = A.sec := (onlyC .sec (by decide)).trans (onlyB .sec (by decide))
  obtain ⟨onlyD, entriesD, ended, -, told⟩ := gfStartEnd_laws u false 0 C
  have kept : OnlyEntries [Ob.gfState u, Ob.bsOutcome u] m C :=
    (onlyEntries_obj (onlyEntries_refl _ _) (before .obj (by decide))).trans ((entriesB.mono (by simp)).trans (entriesC.mono (by simp)))
  refine ⟨(((before.mono (by decide)).to onlyB (by decide)).to onlyC (by decide)).to onlyD (by decide), kept.trans (entriesD.mono (by simp)),
    ?_, ?_, ?_, fun q hq => told q ?_⟩
  · exact (entriesD _ (by simp)).trans st
  · rw [entriesD _ (by simp), entriesC _ (by simp [Ob.bsOutcome, Ob.gfState]), out]
  · rw [ended (by rw [sec, len]; exact hl)]
  · rw [secAt_eq sec, start, hq]

/-! ### Failed sequences and stops (R162, R163, R170) -/

theorem only_unask (u : Nat) (m : Mod) : Only [.sec] m (m.unask u) := (Only.refl _ _).oSec (by decide)

theorem unask_withdraws {u : Nat} {m : Mod} (hl : u < m.sec.length) : ((m.unask u).secAt u).ask = false := by
  rw [Mod.unask, secAt_modSec _ _ _ hl]

/-- A sequence of section `u` has failed between `m` and `n`: REST with EV067, no request, no start, PWM off. -/
structure FailedToRest (u : Nat) (m n : Mod) : Prop where
  only    : Only ([.clk, .sec, .obj, .grp, .eng] ++ evParts) m n
  entries : OnlyEntries [Ob.gfState u, Ob.rtState u, Ob.outState u] m n
  st      : n.gf u = gfRest
  ask     : (n.secAt u).ask = false
  start   : (n.secAt u).start = none
  on      : (n.grpAt u).on = false
  told    : 67 ∈ n.seenEv

theorem seqFailed_toRest {u : Nat} (code : Nat) {m A : Mod} (h : Only [.clk, .sec] m A) (hl : u < A.sec.length) (hg : u < m.grp.length) :
    FailedToRest u m ((A.seqFailed u code).gfToRest u code) := by
  obtain ⟨onlyF, entriesF, len, told⟩ := seqFailed_laws u code A
  generalize A.seqFailed u code = F at onlyF entriesF len told
  have grp : F.grp = m.grp := (onlyF .grp (by decide)).trans (h .grp (by decide))
  obtain ⟨only, entries, st, ask, start, seen, on⟩ := gfToRest_laws u code F (by rwa [len])
  refine ⟨((h.mono (by decide)).to onlyF (by decide)).to only (by decide), ?_, st, ask, start, on (by rwa [grp]), seen.mem told⟩
  exact ((onlyEntries_obj (onlyEntries_refl _ _) (h .obj (by decide))).trans (entriesF.mono (by simp))).trans entries

theorem closeTimeout_fails {u : Nat} {m : Mod} (hl : u < m.sec.length) (hg : u < m.grp.length)
    (hst : m.gf u = gfClosingDead ∨ m.gf u = gfClosingLive) : FailedToRest u m (m.closeTimeout u) := by
  unfold Mod.closeTimeout
  rw [if_pos (by simpa using hst)]
  exact seqFailed_toRest _ (((Only.refl _ _).oReach (by decide)).to (only_unask u _) (by decide))
    (by rw [Mod.unask, secLen_modSec]; exact hl) hg

theorem syncExpires_fails {u : Nat} {m : Mod} (hl : u < m.sec.length) (hg : u < m.grp.length) (hst : m.gf u = gfPresync) :
    FailedToRest u m (m.syncExpires u) := by
  unfold Mod.syncExpires
  rw [if_pos hst]
  exact seqFailed_toRest _ ((Only.refl _ _).oReach (by decide)) hl hg

/-- A ramp that times out begins a stop with EV067. -/
theorem rampTimeout_laws {u : Nat} {m : Mod} (hl : u < m.sec.length) (hst : m.gf u = gfRamp) :
    Only ([.clk, .sec, .obj] ++ evParts) m (m.rampTimeout u) ∧ OnlyEntries [Ob.gfState u, Ob.rtState u, Ob.islState u] m (m.rampTimeout u)
    ∧ (m.rampTimeout u).gf u = gfStopping ∧ ((m.rampTimeout u).secAt u).noRamps = false ∧ 67 ∈ (m.rampTimeout u).seenEv := by
  unfold Mod.rampTimeout
  rw [if_pos hst]
  generalize hR : m.reach _ = R
  have before : Only [.clk] m R := by subst hR; exact (Only.refl _ _).oReach (by decide)
  obtain ⟨onlyF, entriesF, len, told⟩ := seqFailed_laws u 0x3003 R
  generalize R.seqFailed u 0x3003 = F at onlyF entriesF len told
  obtain ⟨only, entries, st, noRamps, -, -, seen⟩ := gfStopNow_laws u false F (by rwa [len, before.secLen (by decide)])
  refine ⟨((before.mono (by decide)).to onlyF (by decide)).to only (by decide), ?_, st, noRamps, seen.mem told⟩
  exact ((onlyEntries_obj (onlyEntries_refl _ _) (before .obj (by decide))).trans (entriesF.mono (by simp))).trans entries

/-- The power of a stop has fallen: the request is withdrawn (R163). -/
theorem stopLow_laws {u t : Nat} {m : Mod} (hl : u < m.sec.length) (hst : m.gf u = gfStopping) (ht : (m.secAt u).stopEndPs = some t) :
    Only [.clk, .sec] m (m.stopLow u) ∧ ((m.stopLow u).secAt u).ask = false ∧ ((m.stopLow u).secAt u).stopEndPs = none
    ∧ (m.stopLow u).clk.upPs = max m.clk.upPs (m.stopLowPs u t) := by
  unfold Mod.stopLow
  rw [ht]
  dsimp only
  rw [if_pos hst]
  have len : u < ((m.reach (m.stopLowPs u t)).unask u).sec.length := by rw [Mod.unask, secLen_modSec]; exact hl
  refine ⟨(((Only.refl _ _).oReach (by decide)).to (only_unask _ _) (by decide)).oSec (by decide), ?_, by rw [secAt_modSec _ _ _ len], rfl⟩
  rw [secAt_modSec _ _ _ len]
  exact unask_withdraws hl

/-- With both relays open PWM that is on goes off at the next carrier boundary (R163). -/
theorem stopDone_laws {u : Nat} {m : Mod} (hg : u < m.grp.length) (hst : m.gf u = gfStopping) (ht : (m.secAt u).stopEndPs = none)
    (ho : m.bothOpen = true) (on : (m.grpAt u).on = true) : Only [.grp] m (m.stopDone u) ∧ ((m.stopDone u).grpAt u).stopping = true := by
  unfold Mod.stopDone
  rw [if_pos (by simp [hst, ht, ho]), if_pos on]
  exact ⟨(Only.refl _ _).oGrp (by decide), by rw [grpAt_modGrp _ _ _ hg]⟩

theorem stopDone_off {u : Nat} {m : Mod} (hst : m.gf u = gfStopping) (ht : (m.secAt u).stopEndPs = none) (ho : m.bothOpen = true)
    (off : (m.grpAt u).on = false) : m.stopDone u = m.stopEnds u := by
  unfold Mod.stopDone
  rw [if_pos (by simp [hst, ht, ho]), if_neg (by simp [off])]

theorem stopEnds_inDelay {u : Nat} {m : Mod} (hl : u < m.sec.length) (hd : (m.secAt u).toDelay = true) : (m.stopEnds u).gf u = gfDelay := by
  unfold Mod.stopEnds
  rw [if_pos hd]
  have off : Only [.obj, .grp, .eng] m ((m.stopCtx u).pwmOff u) := ((only_stopCtx u m).mono (by decide)).to (pwmOff_laws u _).1 (by decide)
  exact (toDelay_laws u _ (by rwa [off.secLen (by decide)])).2.2.1

theorem stopEnds_atRest {u : Nat} {m : Mod} (hl : u < m.sec.length) (hd : (m.secAt u).toDelay = false) :
    (m.stopEnds u).gf u = gfRest ∧ ((m.stopEnds u).secAt u).start = none ∧ ((m.stopEnds u).secAt u).ask = false := by
  unfold Mod.stopEnds
  rw [if_neg (by simp [hd])]
  obtain ⟨-, -, st, ask, start, -, -⟩ := gfToRest_laws u 0 m hl
  exact ⟨st, start, ask⟩

/-! ### The statements -/

/-- Settles O36: each event by the law of its operation. -/
theorem startSequenceGoesOn : Obligations.StartSequenceGoesOn := by
  unfold Obligations.StartSequenceGoesOn
  intro s u hu hsec hgrp
  have hl : u < s.m.sec.length := by rwa [hsec]
  refine ⟨fun t hst hc => ?confirmed, fun hst hd => ?backoff, fun t hst ht => ?joins, fun t hst ht hs => ?late, fun t hst hd hn => ?delay,
    fun t hst hh => ?windows, fun hst hr => ?ramp⟩
  case confirmed => exact does_sectionEvent rfl hu (fun _ => deadConfirmed_laws hl hst hc)
  case backoff =>
    obtain ⟨only, entries, st, ask⟩ := backoffExpires_laws hl hst hd
    exact does_sectionEvent rfl hu (fun _ => ⟨st, ask, (only.mono (by decide)).oSaved (by decide), entries⟩)
  case joins =>
    obtain ⟨only, entries, st, out, joining, ask, told, clk⟩ := busTurnsLive_joins (outcome := 2) hl hu ht
      (fun x hx _ => busLive_waiting (by rwa [hx]))
    exact does_sectionEvent rfl hu (fun _ => ⟨st, joining, ask, out, told, clk, (only.mono (by decide)).oSaved (by decide), entries⟩)
  case late =>
    obtain ⟨-, -, st, out, joining, ask, -, -⟩ := busTurnsLive_joins (outcome := 3) hl hu ht
      (fun x hx hy => busLive_closing (by rwa [hx]) (by rwa [hy]))
    exact does_sectionEvent rfl hu (fun _ => ⟨st, joining, ask, out⟩)
  case delay => exact does_sectionEvent rfl hu (fun _ => delayEnds_laws hl (by omega) hu hst hd hn)
  case windows =>
    obtain ⟨only, entries, st, ask, flags⟩ := syncHeld_laws hl hst hh
    exact does_sectionEvent rfl hu (fun _ => ⟨st, ask, flags, (only.mono (by decide)).oSaved (by decide), entries⟩)
  case ramp =>
    obtain ⟨only, entries, st, out, ended, told⟩ := rampComplete_laws hl hst hr
    exact does_sectionEvent rfl hu (fun _ => ⟨st, out, ended, told, (only.mono (by decide)).oSaved (by decide), entries⟩)

/-- Settles O37: each event by the law of its operation. -/
theorem failedSequencesAndStopsEnd : Obligations.FailedSequencesAndStopsEnd := by
  unfold Obligations.FailedSequencesAndStopsEnd
  intro s u hu hsec hgrp
  have hl : u < s.m.sec.length := by rwa [hsec]
  have hg : u < s.m.grp.length := by omega
  refine ⟨fun hst => ?close, fun hst => ?sync, fun hst => ?ramp, fun t hst ht => ?low, fun hst ht ho => ?complete⟩
  case close =>
    obtain ⟨only, entries, st, ask, start, on, told⟩ := closeTimeout_fails hl hg hst
    exact does_sectionEvent rfl hu (fun _ => ⟨st, ask, start, on, told, (only.mono (by decide)).oSaved (by decide), entries⟩)
  case sync =>
    obtain ⟨only, entries, st, ask, start, on, told⟩ := syncExpires_fails hl hg hst
    exact does_sectionEvent rfl hu (fun _ => ⟨st, ask, start, on, told, (only.mono (by decide)).oSaved (by decide), entries⟩)
  case ramp =>
    obtain ⟨only, entries, st, noRamps, told⟩ := rampTimeout_laws hl hst
    exact does_sectionEvent rfl hu (fun _ => ⟨st, noRamps, told, (only.mono (by decide)).oSaved (by decide), entries⟩)
  case low =>
    obtain ⟨only, ask, ended, clk⟩ := stopLow_laws hl hst ht
    refine does_sectionEvent rfl hu (fun _ => ⟨?_, ask, ended, clk, (only.mono (by decide)).oSaved (by decide)⟩)
    exact (only.get (by decide) _).trans hst
  case complete =>
    refine does_sectionEvent rfl hu (fun _ => ⟨fun on => ?_, fun off hd => ?_, fun off hd => ?_⟩)
    · obtain ⟨only, stopping⟩ := stopDone_laws hg hst ht ho on
      exact ⟨(only.get (by decide) _).trans hst, stopping, (only.mono (by decide)).oSaved (by decide)⟩
    · rw [stopDone_off hst ht ho off]
      exact stopEnds_atRest hl hd
    · rw [stopDone_off hst ht ho off]
      exact stopEnds_inDelay hl hd

end Sys2Proof.Machine
end

section
/-!
PROOFS. Impedance identification and islanding (R180 to R185, R202 to R205): what a slot, the end of an injection, a result and a
passive check do, and the statement on them (O38).
-/
namespace Sys2Proof.Machine

/-- What a change of a section's record leaves of it, whether the section is there or not. -/
theorem secAt_modSec_proj {β : Type} (π : SecRt → β) (m : Mod) (u : Nat) {f : SecRt → SecRt} (hf : ∀ x, π (f x) = π x) :
    π ((m.modSec u f).secAt u) = π (m.secAt u) := by
  unfold Mod.secAt Mod.modSec
  rw [List.getD_eq_getElem?_getD, List.getD_eq_getElem?_getD, List.getElem?_modify_eq]
  cases m.sec[u]? <;> simp [hf]

/-! ### Slots and injections (R180, R181, R185) -/

/-- A slot of a section that takes part seeds its register; the injection waits for the next boundary (R181). -/
theorem idSlot_laws {u : Nat} {m : Mod} (hl : u < m.sec.length) (he : m.get (Ob.idEn u) = 1 ∨ (m.secAt u).idRun.isSome = true)
    (ho : m.get (Ob.idOrder u) ≠ 0) (hs : m.slotSkipped u = false) :
    Only [.clk, .sec] m (m.idSlot u) ∧ ((m.idSlot u).secAt u).idWait = true ∧ ((m.idSlot u).secAt u).idOn = false
    ∧ ((m.idSlot u).secAt u).idSlot = m.nextSlot u
    ∧ ((m.idSlot u).secAt u).idReg = (m.secAt u).fleet % (2 ^ m.get (Ob.idOrder u) - 1) + 1 := by
  unfold Mod.idSlot Mod.reachTai
  dsimp only
  rw [if_pos (by simp [he, ho, hs])]
  refine ⟨((Only.refl _ _).oReach (by decide)).oSec (by decide), ?_⟩
  rw [secAt_modSec _ _ _ (by exact hl)]
  exact ⟨rfl, rfl, rfl, rfl⟩

/-- One period of the sequence ends the injection (R180). -/
theorem idEnds_laws {u : Nat} {m : Mod} (hl : u < m.sec.length) (hon : (m.secAt u).idOn = true) (hp : m.idPeriod u ≤ (m.secAt u).idTicks) :
    Only [.sec] m (m.idEnds u) ∧ ((m.idEnds u).secAt u).idOn = false ∧ ((m.idEnds u).secAt u).idDone = true := by
  unfold Mod.idEnds
  rw [if_pos (by simp [hon, hp])]
  refine ⟨(Only.refl _ _).oSec (by decide), ?_⟩
  rw [secAt_modSec _ _ _ hl]
  exact ⟨rfl, rfl⟩

/-! ### Islanding (R202 to R205) -/

/-- A decision for islanding: the latch, its instant and EV070 (R205). -/
theorem islanded_laws {u cause : Nat} {m : Mod} (hl : u < m.sec.length) (hc : cause ≠ 0) (hi : (m.secAt u).isl = false) :
    ((m.islanded u cause).secAt u).isl = true ∧ ((m.islanded u cause).secAt u).islNow = true ∧ (m.islanded u cause).get (Ob.islState u) = 2
    ∧ (m.islanded u cause).get (Ob.islTime u) = m.t64 ∧ 70 ∈ (m.islanded u cause).seenEv := by
  unfold Mod.islanded
  rw [if_neg (by simp [hc, hi]), secAt_eq (raise_part _ _ _ _ _ .sec (by decide)), secAt_modSec _ _ _ (by exact hl)]
  refine ⟨rfl, rfl, ?_, ?_, seen_raised _ _ _ _ _⟩
  · rw [get_raised, get_modSec, get_put_other _ (by simp [Ob.islState, Ob.islTime]), get_put_other _ (by simp [Ob.islState, Ob.islCause]),
      get_put_same]
  · rw [get_raised, get_modSec, get_put_same]

/-- A passive check whose window has been left for its time decides for islanding (R202, R203, R205). -/
theorem islandingCheck_laws {u t : Nat} {m : Mod} (hl : u < m.sec.length) (hj : m.joined u = true) (hi : (m.secAt u).isl = false)
    (hrt : m.get (Ob.rtState u) = 0) (hm : bit (m.get (Ob.islPassiveMask u)) 0 = true) (hv : m.getS (Ob.vPos u) < m.getS (Ob.islVLow u))
    (hw : (m.secAt u).islWinPs = some t) (ht : t + msPs (m.get (Ob.islWinTime u)) ≤ m.now) :
    ((m.islandingCheck u).secAt u).isl = true ∧ ((m.islandingCheck u).secAt u).islNow = true ∧ (m.islandingCheck u).get (Ob.islState u) = 2
    ∧ (m.islandingCheck u).get (Ob.islTime u) = m.t64 ∧ 70 ∈ (m.islandingCheck u).seenEv := by
  unfold Mod.islandingCheck
  dsimp only
  rw [if_neg (by simp [hj]), if_neg (by simp [hi]), if_neg (by simp [hrt])]
  generalize hA : Mod.put (Ob.islState u) _ _ = A
  have before : Only [.sec, .obj] m A := by
    subst hA
    refine ((Only.trans ?_ ((Only.refl _ _).oSec (by decide))).oput (by decide))
    cases m.rocofNow u
    · exact (Only.refl _ _).oSec (by decide)
    · exact ((Only.refl _ _).oSec (by decide)).oputF (by decide)
  have len : A.sec.length = m.sec.length ∧ (A.secAt u).isl = (m.secAt u).isl := by
    subst hA
    rw [put_sec, secLen_modSec, secAt_eq (put_sec _ _ _), secAt_modSec_proj (·.isl) _ _ (by intro x; rfl)]
    cases m.rocofNow u <;> exact ⟨secLen_modSec _ _ _, secAt_modSec_proj (·.isl) _ _ (fun _ => rfl)⟩
  have time : A.t64 = m.t64 := by unfold Mod.t64 Mod.tai; rw [show A.clk = m.clk from before .clk (by decide)]
  rw [← time]
  refine islanded_laws (by rw [len.1]; exact hl) ?_ (by rw [len.2]; exact hi)
  simp [hm, hv, hw, ht, b2n]

/-! ### Results (R182, R185, R201, R204) -/

/-- What a result brings beyond its objects leaves: the results and the ID_RUN of section `u`, and every entry but those of the active
check. -/
structure ResultKept (u : Nat) (a b : Mod) : Prop where
  entries : OnlyEntries [Ob.zRatio u, Ob.islState u, Ob.islCause u, Ob.islTime u] a b
  run     : (b.secAt u).idRun = (a.secAt u).idRun
  results : (b.secAt u).idRes = (a.secAt u).idRes

namespace ResultKept
variable {u : Nat} {a b : Mod}

theorem refl (u : Nat) (a : Mod) : ResultKept u a a := ⟨onlyEntries_refl _ _, rfl, rfl⟩

/-- A record that keeps the results and the ID_RUN. -/
theorem record (h : ResultKept u a b) {f : SecRt → SecRt} (hf : ∀ x, (f x).idRun = x.idRun ∧ (f x).idRes = x.idRes) :
    ResultKept u a (b.modSec u f) :=
  ⟨h.entries.oSec, (secAt_modSec_proj (·.idRun) b u (fun x => (hf x).1)).trans h.run,
    (secAt_modSec_proj (·.idRes) b u (fun x => (hf x).2)).trans h.results⟩

theorem put (h : ResultKept u a b) {k v : Nat} (hk : k ∈ [Ob.zRatio u, Ob.islState u, Ob.islCause u, Ob.islTime u]) :
    ResultKept u a (b.put k v) := ⟨h.entries.oput hk, h.run, h.results⟩

theorem raise (h : ResultKept u a b) (ev sev fault arg : Nat) : ResultKept u a (b.raise ev sev fault arg) := by
  have sec : (b.raise ev sev fault arg).secAt u = b.secAt u := secAt_eq (raise_part _ _ _ _ _ .sec (by decide)) u
  exact ⟨h.entries.raise _ _ _ _, sec ▸ h.run, sec ▸ h.results⟩

theorem inform (h : ResultKept u a b) (ev arg : Nat) : ResultKept u a (b.inform ev arg) := h.raise _ _ _ _

theorem drawn (h : ResultKept u a b) : ResultKept u a b.drawNat.2 := ⟨h.entries, h.run, h.results⟩

theorem ite (h : ResultKept u a b) {c : Mod} (g : ResultKept u a c) {p : Prop} [Decidable p] : ResultKept u a (if p then b else c) := by
  split
  · exact h
  · exact g

theorem islanded (h : ResultKept u a b) (cause : Nat) : ResultKept u a (b.islanded u cause) := by
  unfold Mod.islanded
  split
  · exact h
  · refine raise (record ?_ (by intro x; exact ⟨rfl, rfl⟩)) _ _ _ _
    iterate 3 refine put ?_ (by simp)
    exact h

theorem activeCheck (h : ResultKept u a b) (z : Rat) : ResultKept u a (b.activeCheck u z) := by
  unfold Mod.activeCheck
  dsimp only
  split
  · exact record (record h (by intro x; exact ⟨rfl, rfl⟩)) (by intro x; exact ⟨rfl, rfl⟩)
  · refine ite (islanded ?_ _) ?_ <;>
    · refine record (ite (put (drawn ?_) (by simp)) (put ?_ (by simp))) (by intro x; exact ⟨rfl, rfl⟩) <;>
      exact record h (by intro x; exact ⟨rfl, rfl⟩)

/-- EV069, EV074, WEAK_ACTION and the active check (R192, R201, R204). -/
theorem told (h : ResultKept u a b) (req : Option Nat) (had : Bool) (old : Rat) (z : Rat) : ResultKept u a (b.idTold u req had old z) := by
  unfold Mod.idTold
  dsimp only
  refine activeCheck (record ?_ (by intro x; exact ⟨rfl, rfl⟩)) z
  cases req with
  | some q => exact ite ((h.inform 69 _).raise 74 _ _ _) (h.inform 69 _)
  | none => exact ite (raise (ite (h.inform 69 _) h) 74 _ _ _) (ite (h.inform 69 _) h)

end ResultKept

/-- The entries of a valid result. -/
def resultKeys (u : Nat) : List Nat := [Ob.idRG u, Ob.idXG u, Ob.scr u, Ob.idValid u, Ob.idTime u]

/-- The means of the last results stand published, with the instant of their slot (R182). -/
structure Published (u : Nat) (l : List (Rat × Rat)) (m n : Mod) : Prop where
  entries : OnlyEntries (resultKeys u) m n
  record  : n.secAt u = { m.secAt u with idRes := l }
  mean    : n.get (Ob.idRG u) = f32Raw (meanR (l.map (·.1)))
  valid   : n.get (Ob.idValid u) = 0
  time    : n.get (Ob.idTime u) = ((m.secAt u).idSlot % 18446744073709551616).toNat

/-- SCR is published beside them. -/
theorem Published.scr {u v : Nat} {l : List (Rat × Rat)} {m n k : Mod} (h : Published u l m n) (obj : k.obj = n.obj) (sec : k.sec = n.sec) :
    Published u l m (k.put (Ob.scr u) v) where
  entries := (onlyEntries_obj h.entries obj).oput (by simp [resultKeys])
  record  := (secAt_eq (a := n) sec u).trans h.record
  mean    := by rw [get_put_other _ (by simp [Ob.idRG, Ob.scr]), get_of_obj _ obj, h.mean]
  valid   := by rw [get_put_other _ (by simp [Ob.idValid, Ob.scr]), get_of_obj _ obj, h.valid]
  time    := by rw [get_put_other _ (by simp [Ob.idTime, Ob.scr]), get_of_obj _ obj, h.time]

theorem publishZ_publishes {u : Nat} (l : List (Rat × Rat)) {m : Mod} (hl : u < m.sec.length) : Published u l m (m.publishZ u l) := by
  unfold Mod.publishZ
  dsimp only
  generalize hA : Mod.put (Ob.idTime u) _ _ = A
  have means : Published u l m A := by
    subst hA
    refine ⟨?_, secAt_modSec _ _ _ hl, ?_, ?_, get_put_same _⟩
    · exact (((((onlyEntries_refl _ _).oSec).oputF (by simp [resultKeys])).oputF (by simp [resultKeys])).oput (by simp [resultKeys])).oput
        (by simp [resultKeys])
    · rw [get_put_other _ (by simp [Ob.idRG, Ob.idTime]), get_put_other _ (by simp [Ob.idRG, Ob.idValid]), putF_eq,
        get_put_other _ (by simp [Ob.idRG, Ob.idXG]), putF_eq, get_put_same]
    · rw [get_put_other _ (by simp [Ob.idValid, Ob.idTime]), get_put_same]
  split
  · exact means.scr rfl rfl
  · exact means.scr rfl rfl

/-- A result of coherence below 0.8 leaves the impedance: ID_VALID 01h, and EV069 for an ID_RUN (R182, R185). -/
theorem idResult_poor {u : Nat} {bins : List IdBin} {m : Mod} (hl : u < m.sec.length) (hd : (m.secAt u).idDone = true)
    (hc : meanCoherence (m.fitBins u bins) < 8 / 10) :
    OnlyEntries [Ob.coherence u, Ob.idValid u] m (m.idResult u bins) ∧ (m.idResult u bins).get (Ob.idValid u) = 1
    ∧ (m.idResult u bins).get (Ob.coherence u) = f32Raw (meanCoherence (m.fitBins u bins))
    ∧ ((m.idResult u bins).secAt u).idRun = none ∧ ((m.idResult u bins).secAt u).idDone = false
    ∧ ((m.secAt u).idRun.isSome = true → 69 ∈ (m.idResult u bins).seenEv) := by
  unfold Mod.idResult
  dsimp only
  rw [if_pos hd, if_neg (Rat.not_le.2 hc)]
  generalize hA : Mod.modSec u _ (Mod.put (Ob.idValid u) 1 _) = A
  have entries : OnlyEntries [Ob.coherence u, Ob.idValid u] m A := by
    subst hA
    exact ((((onlyEntries_refl _ _).oputF (by simp)).oSec).oput (by simp)).oSec
  have valid : A.get (Ob.idValid u) = 1 := by subst hA; rw [get_modSec, get_put_same]
  have coherence : A.get (Ob.coherence u) = f32Raw (meanCoherence (m.fitBins u bins)) := by
    subst hA
    rw [get_modSec, get_put_other _ (by simp [Ob.coherence, Ob.idValid]), get_modSec, putF_eq, get_put_same]
  have record : (A.secAt u).idRun = none ∧ (A.secAt u).idDone = false := by
    subst hA
    rw [secAt_modSec _ _ _ (by rw [put_sec, secLen_modSec]; exact hl), secAt_eq (put_sec _ _ _), secAt_modSec _ _ _ (by exact hl)]
    exact ⟨rfl, rfl⟩
  clear hA
  cases (m.secAt u).idRun with
  | none => exact ⟨entries, valid, coherence, record.1, record.2, fun h => absurd h (by simp)⟩
  | some q =>
    have sec : ∀ arg, (A.inform 69 arg).secAt u = A.secAt u := fun arg => secAt_eq (inform_part A 69 arg .sec (by decide)) u
    refine ⟨entries.oinform _ _, ?_, ?_, ?_, ?_, fun _ => seen_raised _ _ _ _ _⟩
    · rw [get_informed, valid]
    · rw [get_informed, coherence]
    · rw [sec, record.1]
    · rw [sec, record.2]

/-- A good result is published: ID_VALID 00h, COHERENCE, the instant of its slot and the mean of R_G (R182). -/
theorem idResult_good {u : Nat} {bins : List IdBin} {m : Mod} (hl : u < m.sec.length) (hd : (m.secAt u).idDone = true)
    (hc : 8 / 10 ≤ meanCoherence (m.fitBins u bins)) (ha : m.get (Ob.idAvg u) ≤ 1) :
    (m.idResult u bins).get (Ob.idValid u) = 0 ∧ (m.idResult u bins).get (Ob.coherence u) = f32Raw (meanCoherence (m.fitBins u bins))
    ∧ (m.idResult u bins).get (Ob.idTime u) = ((m.secAt u).idSlot % 18446744073709551616).toNat
    ∧ ((m.idResult u bins).secAt u).idRun = none ∧ ((m.idResult u bins).secAt u).idRes = [m.fitZ u (m.fitBins u bins)]
    ∧ (m.idResult u bins).get (Ob.idRG u) = f32Raw (meanR [(m.fitZ u (m.fitBins u bins)).1]) := by
  unfold Mod.idResult
  dsimp only
  rw [if_pos hd, if_pos hc, Nat.max_eq_left ha]
  generalize hA : Mod.modSec u _ (Mod.putF (Ob.coherence u) _ m) = A
  have len : u < A.sec.length := by subst hA; rw [secLen_modSec]; exact hl
  have run : (A.secAt u).idRun = none ∧ (A.secAt u).idSlot = (m.secAt u).idSlot := by
    subst hA
    rw [secAt_modSec _ _ _ (by exact hl)]
    exact ⟨rfl, rfl⟩
  have coherence : A.get (Ob.coherence u) = f32Raw (meanCoherence (m.fitBins u bins)) := by
    subst hA
    rw [get_modSec, putF_eq, get_put_same]
  clear hA
  obtain ⟨entries, record, mean, valid, time⟩ := publishZ_publishes (List.take 1 (m.fitZ u (m.fitBins u bins) :: (m.secAt u).idRes)) len
  generalize A.publishZ u _ = P at entries record mean valid time
  have kept := (ResultKept.refl u P).told (m.secAt u).idRun (m.scrKnown u) (m.getF (Ob.scr u)) (absZ (m.fitZ u (m.fitBins u bins)))
  generalize P.idTold u _ _ _ _ = n at kept
  refine ⟨?_, ?_, ?_, ?_, ?_, ?_⟩
  · rw [kept.entries _ (by simp [Ob.idValid, Ob.zRatio, Ob.islState, Ob.islCause, Ob.islTime]), valid]
  · rw [kept.entries _ (by simp [Ob.coherence, Ob.zRatio, Ob.islState, Ob.islCause, Ob.islTime]),
      entries _ (by simp [resultKeys, Ob.coherence, Ob.idRG, Ob.idXG, Ob.scr, Ob.idValid, Ob.idTime]), coherence]
  · rw [kept.entries _ (by simp [Ob.idTime, Ob.zRatio, Ob.islState, Ob.islCause, Ob.islTime]), time, run.2]
  · rw [kept.run, record, run.1]
  · rw [kept.results, record]
    rfl
  · rw [kept.entries _ (by simp [Ob.idRG, Ob.zRatio, Ob.islState, Ob.islCause, Ob.islTime]), mean]
    rfl

/-! ### The statement -/

/-- Settles O38: each event by the law of its operation. -/
theorem identificationAndIslanding : Obligations.IdentificationAndIslanding := by
  unfold Obligations.IdentificationAndIslanding
  intro s u t bins hu hsec
  have hl : u < s.m.sec.length := by rwa [hsec]
  refine ⟨fun he ho hs => ?slot, fun hon hp => ?injected, fun hd hc => ?poor, fun hd hc ha => ?good, fun hj hi hrt hm hv hw ht => ?passive⟩
  case slot =>
    obtain ⟨only, wait, on, slot, reg⟩ := idSlot_laws hl he ho hs
    exact does_sectionEvent rfl hu (fun _ => ⟨wait, on, slot, reg, (only.mono (by decide)).oSaved (by decide)⟩)
  case injected =>
    obtain ⟨only, on, done⟩ := idEnds_laws hl hon hp
    exact does_sectionEvent rfl hu (fun _ => ⟨on, done, (only.mono (by decide)).oSaved (by decide)⟩)
  case poor =>
    obtain ⟨entries, valid, coherence, run, done, told⟩ := idResult_poor hl hd hc
    have kept : ∀ k, k ≠ Ob.coherence u → k ≠ Ob.idValid u → (s.m.idResult u bins).get k = s.m.get k := fun k h1 h2 =>
      entries k (by simp [h1, h2])
    exact does_sectionEvent rfl hu (fun _ => ⟨valid, coherence, run, done, kept _ (by simp [Ob.idRG, Ob.coherence]) (by simp [Ob.idRG, Ob.idValid]),
      kept _ (by simp [Ob.idXG, Ob.coherence]) (by simp [Ob.idXG, Ob.idValid]),
      kept _ (by simp [Ob.scr, Ob.coherence]) (by simp [Ob.scr, Ob.idValid]), told⟩)
  case good => exact does_sectionEvent rfl hu (fun _ => idResult_good hl hd hc ha)
  case passive => exact does_sectionEvent rfl hu (fun _ => islandingCheck_laws hl hj hi hrt hm hv hw ht)

end Sys2Proof.Machine
end

section
/-!
PROOFS. The actions on sections, DC channels, lanes and the safe disconnect (R185, R217, R319, R340 to R342, R358): what each
operation does, and the statement on them (O20).
-/
namespace Sys2Proof.Machine

/-! ### The operation of an index in a run of four -/

theorem actionOf_idRun {u : Nat} (hu : u < 4) (kp : Kept) (snd : Sender) (slot seq sub : Nat) (a : List Byte) (m : Mod) :
    m.actionOf kp snd slot seq (0x3058 + u) sub a = answerOf (m.idRunOp u seq) := by
  unfold Mod.actionOf
  rw [if_neg (by omega), if_neg (by omega), if_neg (by omega), if_neg (by omega), if_pos (by simp [inBlock]; omega), Nat.add_sub_cancel_left]

theorem actionOf_scanRun {u : Nat} (hu : u < 4) (kp : Kept) (snd : Sender) (slot seq sub : Nat) (a : List Byte) (m : Mod) :
    m.actionOf kp snd slot seq (0x352C + u) sub a = answerOf (m.scanRunOp u) := by
  unfold Mod.actionOf
  rw [if_neg (by omega), if_neg (by omega), if_neg (by omega), if_neg (by omega), if_neg (by simp [inBlock]; omega),
    if_pos (by simp [inBlock]; omega), Nat.add_sub_cancel_left]

/-! ### ID_RUN and SCAN_RUN (R185, R217) -/

theorem idRunOp_queues {u seq : Nat} {m : Mod} (hj : m.joined u = true) (hv : m.get (Ob.idValid u) ≠ 3) :
    m.idRunOp u seq = (m.modSec u (fun x => { x with idRun := some seq }), 3) := by
  unfold Mod.idRunOp
  exact if_neg (by simp [hj, hv])

theorem scanRunOp_starts {u : Nat} {m : Mod} (hs : m.dcs u = dcRunning) (hm : m.get (Ob.dcMode u) = 1) (hb : m.scanBlocked u = false)
    (hn : (m.dcAt u).scan = false) : m.scanRunOp u = (m.scanStart u, 3) := by
  unfold Mod.scanRunOp
  rw [if_neg (by simp [hs, hm, hb]), if_neg (by simp [hn])]

/-- A scan starts at its first point, with P0 and V0 of the last full period (R217). -/
theorem scanStart_laws {u : Nat} {m : Mod} (hl : u < m.dc.length) :
    Only [.obj, .dc] m (m.scanStart u) ∧ OnlyEntries [Ob.scanTime u, Ob.vMppRef u] m (m.scanStart u)
    ∧ ((m.scanStart u).dcAt u).scan = true ∧ ((m.scanStart u).dcAt u).point = 0 ∧ (m.scanStart u).get (Ob.scanTime u) = m.t64
    ∧ ((m.scanStart u).dcAt u).v0 = (m.dcAt u).vRef ∧ ((m.scanStart u).dcAt u).p0 = (m.dcAt u).pMean := by
  unfold Mod.scanStart Mod.periodBegins
  dsimp only
  generalize hA : Mod.modDc u _ (Mod.modDc u _ m) = A
  have before : Only [.dc] m A := by subst hA; exact ((Only.refl _ _).oDc (by decide)).oDc (by decide)
  have run : (A.dcAt u).scan = true ∧ (A.dcAt u).point = 0 ∧ (A.dcAt u).v0 = (m.dcAt u).vRef ∧ (A.dcAt u).p0 = (m.dcAt u).pMean := by
    subst hA
    rw [dcAt_modDc _ _ _ (by rw [dcLen_modDc]; exact hl), dcAt_modDc _ _ _ hl]
    exact ⟨rfl, rfl, rfl, rfl⟩
  clear hA
  obtain ⟨scan, point, v0, p0⟩ := run
  refine ⟨((before.mono (by decide)).oput (by decide)).oputQ (by decide),
    ((onlyEntries_obj (onlyEntries_refl _ _) (before .obj (by decide))).oput (by simp)).oputQ (by simp), scan, point, ?_, v0, p0⟩
  rw [putQ_eq, get_put_other _ (by simp [Ob.scanTime, Ob.vMppRef]), get_put_same]

/-! ### INTEGRITY_CLEAR (R319) -/

theorem integrityClear_laws (m : Mod) :
    Only [.obj, .lanes] m m.integrityClear ∧ OnlyEntries integrityKeys m m.integrityClear ∧ ∀ k ∈ integrityKeys, m.integrityClear.get k = 0 := by
  unfold Mod.integrityClear
  have lanes := only_each [0, 1] (fun l x => x.modLane l (fun y => { y with corr := [] })) (m.each integrityKeys (fun k x => x.put k 0))
    (fun l x => only_modLane x l _)
  refine ⟨((only_each _ _ m (fun k x => (Only.refl _ x).oput (v := 0) (k := k) (l := [.obj]) (by decide))).mono (by decide)).trans
    (lanes.mono (by decide)), ?_, fun k hk => ?_⟩
  · exact onlyEntries_obj (entries_each _ _ m (fun k hk x => (onlyEntries_refl _ x).oput hk)) (lanes .obj (by decide))
  · rw [lanes.get (by decide)]
    refine each_establishes (I := fun _ => True) (P := fun x => x.get k = 0) hk trivial (fun _ _ _ _ => trivial) (fun n _ x _ h => ?_)
      (fun x _ => get_put_same x)
    rw [get_put, h, ite_self]

/-! ### Lanes (R340 to R342) -/

theorem laneResync_starts {seq : Nat} {m : Mod} (hh : m.healthOf m.standby = 2) (ha : m.arb.armed = true) (hc : m.arb.cause = none) :
    m.laneResync seq = ((m.startResync m.standby).modArb (fun a => { a with resyncSeq := seq }), 3) := by
  unfold Mod.laneResync
  exact if_pos (by simp [hh, ha, hc])

/-- A resynchronisation leaves UNHEALTHY_CAUSE as it stands. -/
theorem entries_startResync (b : Nat) (m : Mod) :
    OnlyEntries [Ob.health b, Ob.roleNow b, Ob.resync24h b, Ob.redundant] m (m.startResync b) := by
  unfold Mod.startResync Mod.showRedundant
  dsimp only
  exact ((((onlyEntries_obj (onlyEntries_refl _ m) rfl).oput (by simp)).oput (by simp)).oput (by simp)).oput (by simp)

/-! ### SDC_FAULT_CLEAR (R350, R358) -/

/-- The entries of the AC groups that the release of the safe state may write. -/
def releaseKeys : List Nat := (List.range 4).flatMap (fun g => [Ob.tripSources g, Ob.outState g])

/-- What the end of a relay fault may change beside the fault itself: SAFE_CAUSE, SDC_STATE with EV080, and the latches of a demand. -/
structure Released (a b : Mod) : Prop where
  only    : Only ([.obj, .sdc, .grp] ++ evParts) a b
  entries : OnlyEntries ([Ob.safeCause, Ob.sdcState] ++ releaseKeys) a b
  fault   : b.sdc.relayFault = a.sdc.relayFault
  kept    : ∀ snd, (b.chanOf snd).kept = (a.chanOf snd).kept

namespace Released
variable {a b : Mod}

theorem refl (a : Mod) : Released a a := ⟨Only.refl _ _, onlyEntries_refl _ _, rfl, fun _ => rfl⟩

theorem cause (h : Released a b) (v : Nat) : Released a (b.put Ob.safeCause v) :=
  ⟨h.only.oput (by decide), h.entries.oput (by decide), h.fault, h.kept⟩

theorem sdcTo (h : Released a b) (new : Nat) : Released a (b.sdcTo new) := by
  obtain ⟨only, entries, -, -⟩ := sdcTo_laws new b
  refine ⟨h.only.to only (by decide), h.entries.trans (entries.mono (by decide)), ?_, fun snd => ?_⟩ <;> unfold Mod.sdcTo <;> dsimp only <;> split
  · exact h.fault
  · rw [inform_eq, raiseAt_sdc]
    exact h.fault
  · exact h.kept snd
  · exact (kept_raise _ _ _ _ _ _).trans (h.kept snd)

theorem clearGroup (h : Released a b) {g : Nat} (hg : g ∈ List.range 4) : Released a (b.clearGroup g) := by
  unfold Mod.clearGroup Mod.showOut
  split
  · have keys : Ob.tripSources g ∈ releaseKeys ∧ Ob.outState g ∈ releaseKeys := by
      unfold releaseKeys
      exact ⟨List.mem_flatMap.2 ⟨g, hg, by simp⟩, List.mem_flatMap.2 ⟨g, hg, by simp⟩⟩
    exact ⟨((h.only.oGrp (by decide)).oput (by decide)).oput (by decide),
      (h.entries.oGrp.oput (List.mem_append_right _ keys.1)).oput (List.mem_append_right _ keys.2), h.fault, h.kept⟩
  · exact h

theorem release (h : Released a b) : Released a b.sdcRelease := by
  unfold Mod.sdcRelease
  split
  · refine each_invariant ((h.cause 0).sdcTo sdcOpen) (fun g hg x hx => ?_)
    split
    · exact hx.clearGroup hg
    · exact hx
  · exact h

end Released

/-- A latched relay fault goes while every signal reads open and no channel demands (R358). -/
theorem sdcClear_laws {c : Nat} {m : Mod} (hf : m.sdc.relayFault = some c) (ha : m.sdc.a = ⟨true, true, true, true, true, true⟩)
    (hb : m.sdc.b = ⟨true, true, true, true, true, true⟩) :
    ∃ M, m.sdcClear = (M, 0) ∧ Released ((m.modSdc (fun y => { y with relayFault := none })).showLatched) M := by
  unfold Mod.sdcClear
  dsimp only
  rw [if_neg (by simp [hf]), if_neg (by simp [Mod.readsClosed, demands, ha, hb])]
  refine ⟨_, rfl, ?_⟩
  split
  · exact (Released.refl _).release
  · exact ((Released.refl _).cause _).sdcTo _

/-! ### The statement -/

/-- Settles O20: each action by the law of its operation, on the module as the command finds it. -/
theorem unitLaneAndSafetyActions : Obligations.UnitLaneAndSafetyActions := by
  unfold Obligations.UnitLaneAndSafetyActions
  intro s h u hu
  refine ⟨fun f hf hr hj hv hlen => ?idRun, fun f hf hr hs hm hb hn hlen => ?scan, fun f hf hr => ?counters, fun f hf hr hred hc => ?switch,
    fun f hf hr hh ha hc => ?resync, fun f c hf hr hrel ha hb => ?relay⟩ <;> subst hf
  case idRun =>
    generalize hT : s.m.taken ⟨h, 4, 0x3058 + u, 0, []⟩ = T at hj
    have valid : T.get (Ob.idValid u) = s.m.get (Ob.idValid u) := taken_get hT (by simp [Ob.idValid, Ob.framesOk]; omega)
    have sec : T.sec = s.m.sec := taken_part hT .sec (by decide)
    refine done_plain 0 ((by decide : ∀ u < 4, plainAction (0x3058 + u) 0 0 = true) u hu) rfl (if_pos hu) hr hT
      ((actionOf_idRun hu _ _ _ _ _ _ _).trans (congrArg answerOf (idRunOp_queues hj (by rwa [valid]))))
      ((Only.refl _ _).oSec (by decide)) (onlyEntries_refl _ _).oSec rfl (fun n hn => ⟨?_, fun v hv => ?_⟩)
    · rw [secAt_eq (hn .sec (by decide)), secAt_modSec _ _ _ (by rw [sec, hlen]; exact hu)]
    · rw [secAt_eq (hn .sec (by decide)), secAt_modSec_other _ _ _ _ hv, secAt_eq sec]
  case scan =>
    generalize hT : s.m.taken ⟨h, 4, 0x352C + u, 0, []⟩ = T at hb
    have dc : T.dc = s.m.dc := taken_part hT .dc (by decide)
    have state : T.dcs u = s.m.dcs u := taken_get hT (by simp [Ob.dcState, Ob.framesOk]; omega)
    have mode : T.get (Ob.dcMode u) = s.m.get (Ob.dcMode u) := taken_get hT (by simp [Ob.dcMode, Ob.framesOk]; omega)
    have time : T.t64 = s.m.t64 := by unfold Mod.t64 Mod.tai; rw [show T.clk = s.m.clk from taken_part hT .clk (by decide)]
    obtain ⟨only, entries, scan, point, start, v0, p0⟩ := scanStart_laws (u := u) (m := T) (by rw [dc, hlen]; exact hu)
    refine done_plain 0 ((by decide : ∀ u < 4, plainAction (0x352C + u) 0 0 = true) u hu) rfl (if_pos hu) hr hT
      ((actionOf_scanRun hu _ _ _ _ _ _ _).trans (congrArg answerOf (scanRunOp_starts (by rwa [state]) (by rwa [mode]) hb
        (by rwa [dcAt_eq dc])))) only entries (only.kept (by decide) (by decide) _) (fun n hn => ?_)
    rw [dcAt_eq (hn .dc (by decide)), hn.get (by decide), scan, point, start, v0, p0, dcAt_eq dc, time]
    exact ⟨rfl, rfl, rfl, rfl, rfl⟩
  case counters =>
    obtain ⟨only, entries, zero⟩ := integrityClear_laws (s.m.taken ⟨h, 4, 0x4630, 0, []⟩)
    exact done_plain 0 (by decide) rfl rfl hr rfl rfl only entries (only.kept (by decide) (by decide) _)
      (fun n hn k hk => (hn.get (by decide) k).trans (zero k hk))
  case switch =>
    have redundant : (s.m.taken ⟨h, 4, 0x4801, 0, []⟩).isRedundant = true := by
      rw [← hred]; unfold Mod.isRedundant; rw [taken_get rfl (by decide)]
    have cause : (s.m.taken ⟨h, 4, 0x4801, 0, []⟩).arb.cause = none := by rwa [show Mod.arb _ = _ from taken_part rfl .arb (by decide)]
    refine done_later .laneSwitchover 0 (by decide) rfl rfl hr ?_
    show (if Mod.switchRefused _ then refuse 0x12 _ else Mod.actLater .laneSwitchover _) = _
    exact if_neg (by simp [Mod.switchRefused, redundant, cause])
  case resync =>
    generalize hT : s.m.taken ⟨h, 4, 0x4802, 0, []⟩ = T
    have standby : T.standby = s.m.standby := by unfold Mod.standby Mod.lane; rw [taken_get hT (by decide)]
    have health : T.healthOf s.m.standby = s.m.healthOf s.m.standby :=
      taken_get hT (by simp [Ob.health, Ob.framesOk]; omega)
    have arb : T.arb = s.m.arb := taken_part hT .arb (by decide)
    have starts := laneResync_starts (seq := h.seq) (m := T) (by rw [standby, health, hh]) (by rw [arb, ha]) (by rw [arb, hc])
    rw [standby] at starts
    obtain ⟨only, -, resyncs⟩ := startResync_laws s.m.standby T
    have all : Only [.obj, .lanes, .arb] T ((T.startResync s.m.standby).modArb (fun a => { a with resyncSeq := h.seq })) := only.oArb (by decide)
    refine done_plain 0 (by decide) rfl rfl hr hT (congrArg answerOf starts) all (entries_startResync _ T).oArb
      (all.kept (by decide) (by decide) _) (fun n hn => ⟨?_, ?_⟩)
    · rw [hn.get (by decide)]
      exact resyncs
    · rw [show n.arb = _ from hn .arb (by decide)]
      rfl
  case relay =>
    generalize hT : s.m.taken ⟨h, 4, 0x4A20, 0, []⟩ = T
    have sdc : T.sdc = s.m.sdc := taken_part hT .sdc (by decide)
    obtain ⟨M, clears, released⟩ := sdcClear_laws (m := T) (by rw [sdc, hrel]) (by rw [sdc, ha]) (by rw [sdc, hb])
    generalize hB : Mod.showLatched _ = B at released
    have before : Only [.obj, .sdc] T B := by subst hB; exact ((only_modSdc T _).mono (by decide)).oput (by decide)
    have latched : OnlyEntries [Ob.latchedFault] T B := by subst hB; exact (onlyEntries_obj (onlyEntries_refl _ T) rfl).oput (by simp)
    have shown : B.get Ob.latchedFault = if T.sdc.discFault then 0x4A01 else 0 := by subst hB; exact get_put_same _
    have gone : B.sdc.relayFault = none := by subst hB; rfl
    refine done_plain 0 (by decide) rfl rfl hr hT (congrArg answerOf clears) ((before.mono (by decide)).to released.only (by decide))
      ((latched.mono (by simp)).trans (released.entries.mono ?_)) ((released.kept _).trans (before.kept (by decide) (by decide) _))
      (fun n hn => ⟨?_, ?_⟩)
    · exact List.append_subset.2 ⟨by simp, fun k hk => List.mem_append_right _ hk⟩
    · rw [show n.sdc = _ from hn .sdc (by decide), released.fault, gone]
    · rw [hn.get (by decide), released.entries _ (by decide), shown, sdc]

end Sys2Proof.Machine
end

section
/-!
PROOFS. Starts and stops at their boundary (R153, R162 to R164, R199, R213, R214): what the start and the stop of a section and of a
DC channel do, and the statement that they begin (O29).
-/
namespace Sys2Proof.Machine

/-! ### The operation of a unit action (R515) -/

section
variable {m : Mod} {u : Nat} (hu : u < 4) (hk : m.sdc.lockout = false) (pend : List Assertion) (snd : Sender) (seq : Nat)
include hu hk

theorem unitAct_section (a : List Nat) :
    m.unitAct pend snd seq (0x3004 + u) a = if a.getD 0 0 = 0 then m.gfStart u seq else (m.gfStop u, 0) := by
  unfold Mod.unitAct
  rw [if_neg (by simp [hk]), if_pos (by simp [inBlock]; omega), Nat.add_sub_cancel_left]

theorem unitAct_channel (a : List Nat) :
    m.unitAct pend snd seq (0x3504 + u) a = if a.getD 0 0 = 0 then m.dcStart u seq else (m.dcStop u, 0) := by
  unfold Mod.unitAct
  rw [if_neg (by simp [hk]), if_neg (by simp [inBlock]; omega), if_pos (by simp [inBlock]; omega), Nat.add_sub_cancel_left]

theorem unitAct_gfStart : m.unitAct pend snd seq (0x3004 + u) [0] = m.gfStart u seq := unitAct_section hu hk pend snd seq [0]

theorem unitAct_gfStop : m.unitAct pend snd seq (0x3004 + u) [1] = (m.gfStop u, 0) := unitAct_section hu hk pend snd seq [1]

theorem unitAct_dcStart : m.unitAct pend snd seq (0x3504 + u) [0] = m.dcStart u seq := unitAct_channel hu hk pend snd seq [0]

theorem unitAct_dcStop : m.unitAct pend snd seq (0x3504 + u) [1] = (m.dcStop u, 0) := unitAct_channel hu hk pend snd seq [1]

end

/-- The leg map of a group and the pins that it frees are the groups' own (R265). -/
theorem only_loadMap (g : Nat) (m : Mod) : Only [.grp, .idle] m (m.loadMap g) := by
  unfold Mod.loadMap
  dsimp only
  split <;> intro p hp <;> cases p <;> first | (exact absurd (by decide) hp) | rfl

/-! ### A section (R153, R162 to R164, R199) -/

/-- DELAY leaves the number of the start under way. -/
theorem toDelay_start (u : Nat) (m : Mod) : ((m.toDelay u).secAt u).start = (m.secAt u).start := by
  unfold Mod.toDelay
  rw [secAt_eq ((gfTo_laws u gfDelay _).1 .sec (by decide))]
  exact secAt_modSec_proj (·.start) m u (fun _ => rfl)

/-- A section at rest that may start confirms a dead bus, or runs its enter-service delay. -/
theorem gfStart_begins {u seq : Nat} {m : Mod} (hu : u < 4) (hl : u < m.sec.length) (hst : m.gf u = gfRest) (hb : m.startBlocked u = false)
    (hc : m.sectionChannels u = true) (hp : m.profileAdmits u = true)
    (hd : m.busDead u = true → m.get (Ob.opMode u) ≠ 2 ∧ m.get (Ob.startKind u) ≠ 0) :
    (m.gfStart u seq).2 = 3 ∧ (m.gfStart u seq).1.gf u = (if m.busDead u then gfDeadWait else gfDelay)
    ∧ ((m.gfStart u seq).1.secAt u).start = some seq ∧ (m.gfStart u seq).1.get (Ob.bsOutcome u) = 0 := by
  have apart : Ob.bsOutcome u ∉ [Ob.gfState u] := by simp [Ob.bsOutcome, Ob.gfState]
  unfold Mod.gfStart
  dsimp only
  rw [if_neg (by cases h : m.busDead u <;> simp_all)]
  generalize hA : (if m.faultState 1 u = 3 then m.put (Ob.unitFaultState u) 0 else m) = A
  have sec : A.sec = m.sec := by subst hA; split <;> rfl
  generalize hB : Mod.put (Ob.bsOutcome u) 0 _ = B
  have start : (B.secAt u).start = some seq := by subst hB; rw [secAt_eq (put_sec _ _ _), secAt_modSec _ _ _ (by rw [sec]; exact hl)]
  have len : B.sec.length = m.sec.length := by subst hB; rw [put_sec, secLen_modSec, sec]
  have outcome : B.get (Ob.bsOutcome u) = 0 := by subst hB; exact get_put_same _
  clear hA hB
  have loaded := only_loadMap u B
  obtain ⟨onlyR, getR⟩ := (Routed.refl (B.loadMap u)).formRouting hu
  generalize (B.loadMap u).formRouting u = C at onlyR getR
  have secC : C.sec = B.sec := (onlyR .sec (by decide)).trans (loaded .sec (by decide))
  have outC : C.get (Ob.bsOutcome u) = 0 := by rw [getR _ (by unfold Ob.bsOutcome; omega), loaded.get (by decide), outcome]
  cases h : m.busDead u
  case true =>
    obtain ⟨only, entries, st, -⟩ := gfTo_laws u gfDeadWait (C.modSec u (fun x => { x with confirmPs := some m.now }))
    refine ⟨rfl, st, ?_, (entries _ apart).trans outC⟩
    rw [if_pos rfl, secAt_eq (only .sec (by decide)), ← start, ← secAt_eq secC]
    exact secAt_modSec_proj (·.start) C u (fun _ => rfl)
  case false =>
    obtain ⟨-, entries, st, -⟩ := toDelay_laws u C (by rw [secC, len]; exact hl)
    exact ⟨rfl, st, ((toDelay_start u C).trans (by rw [secAt_eq secC])).trans start, (entries _ apart).trans outC⟩

theorem gfStart_refused {u seq : Nat} {m : Mod}
    (h : m.gf u ≠ gfRest ∨ m.startBlocked u = true ∨ m.sectionChannels u = false ∨ m.profileAdmits u = false) :
    m.gfStart u seq = (m, 0x12) := by
  unfold Mod.gfStart
  exact if_pos (by rcases h with h | h | h | h <;> simp [h])

theorem gfStop_idle {u : Nat} {m : Mod} (h : m.gf u = gfRest ∨ m.gf u = gfStopping) : m.gfStop u = m := by
  unfold Mod.gfStop
  exact if_pos (by simpa using h)

theorem gfStop_begins {u : Nat} {m : Mod} (hl : u < m.sec.length) (h : m.gf u ≠ gfRest) (h' : m.gf u ≠ gfStopping) :
    (m.gfStop u).gf u = gfStopping ∧ ((m.gfStop u).secAt u).noRamps = false := by
  unfold Mod.gfStop
  rw [if_neg (by simp [h, h'])]
  obtain ⟨-, -, st, noRamps, -⟩ := gfStopNow_laws u false m hl
  exact ⟨st, noRamps⟩

/-! ### A DC channel (R213, R214) -/

theorem dcStart_refused {u seq : Nat} {m : Mod} (h : m.dcs u ≠ dcRest ∨ m.startBlocked (4 + u) = true ∨ m.get (Ob.dcMode u) = 0) :
    m.dcStart u seq = (m, 0x12) := by
  unfold Mod.dcStart
  exact if_pos (by rcases h with h | h | h <;> simp [h])

/-- A channel at rest that may start waits for its entry conditions. -/
theorem dcStart_waits {u seq : Nat} {m : Mod} (hu : u < 4) (hl : u < m.dc.length) (hst : m.dcs u = dcRest) (hb : m.startBlocked (4 + u) = false)
    (h7 : m.assigned (4 + u) 7 ≠ []) (h8 : m.assigned (4 + u) 8 ≠ []) (hv : m.assigned (4 + u) 4 ≠ [] ∨ m.hasHalves (4 + u) = true)
    (hm : m.get (Ob.dcMode u) ≠ 0) :
    (m.dcStart u seq).2 = 3 ∧ (m.dcStart u seq).1.dcs u = dcWait ∧ ((m.dcStart u seq).1.dcAt u).start = some seq := by
  unfold Mod.dcStart
  dsimp only
  rw [if_neg (by rcases hv with hv | hv <;> simp [hst, hb, h7, h8, hv, hm])]
  generalize hA : (if m.faultState 1 (4 + u) = 3 then m.put (Ob.unitFaultState (4 + u)) 0 else m) = A
  have dc : A.dc = m.dc := by subst hA; split <;> rfl
  generalize hB : Mod.modDc u _ A = B
  have start : (B.dcAt u).start = some seq := by subst hB; rw [dcAt_modDc _ _ _ (by rw [dc]; exact hl)]
  clear hA hB
  have loaded := only_loadMap (4 + u) B
  have routed := ((Routed.refl (B.loadMap (4 + u))).dcRouting hu).only
  generalize (B.loadMap (4 + u)).dcRouting u = C at routed
  have dcC : C.dc = B.dc := (routed .dc (by decide)).trans (loaded .dc (by decide))
  obtain ⟨only, -, st, -⟩ := dcTo_laws u dcWait sevInfo 0 (C.putBit (Ob.limitFlags u) 6 false)
  exact ⟨rfl, st, by rw [dcAt_eq (only .dc (by decide)), ← start]; exact congrArg DcRt.start (dcAt_eq dcC u)⟩

/-- A channel that runs winds down for 10 s at the most. -/
theorem dcWindDown_laws {u : Nat} (back : Bool) {m : Mod} (hl : u < m.dc.length) :
    (m.dcWindDown u back).dcs u = dcStopping ∧ ((m.dcWindDown u back).dcAt u).stopPs = some (m.now + sPs 10) := by
  unfold Mod.dcWindDown
  dsimp only
  generalize hA : Mod.modDc u _ _ = A
  have stop : (A.dcAt u).stopPs = some (m.now + sPs 10) := by subst hA; rw [dcAt_modDc _ _ _ (by exact hl)]
  obtain ⟨only, -, st, -⟩ := dcTo_laws u dcStopping sevInfo 0 A
  exact ⟨st, by rw [dcAt_eq (only .dc (by decide)), stop]⟩

theorem dcStop_running {u : Nat} {m : Mod} (h : m.dcs u = dcRunning) : m.dcStop u = m.dcWindDown u false := by
  unfold Mod.dcStop
  exact if_pos h

theorem dcStop_waiting {u : Nat} {m : Mod} (h : m.dcs u = dcWait ∨ m.dcs u = dcHold) : m.dcStop u = m.dcToRest u sevInfo 0 := by
  unfold Mod.dcStop
  dsimp only
  rw [if_neg (by rcases h with h | h <;> rw [h] <;> decide), if_pos (by simpa using h)]

/-! ### The statement -/

/-- Settles O29: each command by the law of its operation. -/
theorem sectionAndChannelCommandsBegin : Obligations.SectionAndChannelCommandsBegin := by
  unfold Obligations.SectionAndChannelCommandsBegin
  intro m pend snd seq u hu hk hsec hdc
  have ls : u < m.sec.length := by rwa [hsec]
  have ld : u < m.dc.length := by rwa [hdc]
  rw [unitAct_gfStart hu hk, unitAct_gfStop hu hk, unitAct_dcStart hu hk, unitAct_dcStop hu hk]
  refine ⟨gfStart_begins hu ls, gfStart_refused, fun h => by rw [gfStop_idle h], fun h h' => ⟨rfl, gfStop_begins ls h h'⟩,
    dcStart_waits hu ld, dcStart_refused, fun h => ?waiting, fun h => ?running⟩
  case waiting =>
    obtain ⟨-, -, st, start, -⟩ := dcToRest_laws u sevInfo 0 m ld
    rw [dcStop_waiting h]
    exact ⟨rfl, st, start⟩
  case running =>
    rw [dcStop_running h]
    exact ⟨rfl, dcWindDown_laws false ld⟩

end Sys2Proof.Machine
end

section
/-!
PROOFS. The states of a DC channel and its limits (R212, R213): what each of its conditions and timers does, and the statement that
its states follow them (O39).
-/
namespace Sys2Proof.Machine

/-! ### An event of a channel -/

theorem does_channelEvent {c : Instr} {s : State} {u : Nat} {f : Mod → Mod} {Q : Mod → Prop} (hc : exec c s = dcStep u f s) (hu : u < 4)
    (q : ∀ e, Q { f s.m with saved := e }) : Does c s Q := by
  obtain ⟨e, he⟩ := alsoSaved_eq f s.m
  refine ⟨s.m.alsoSaved f, hc.trans (if_pos (by simpa [dcOk] using hu)), ?_⟩
  rw [he]
  exact q e

/-! ### Changes of state -/

/-- A change of state is told by EV071. -/
theorem seen_dcTo {c new : Nat} {m : Mod} (h : m.dcs c ≠ new) (sev fault : Nat) : 71 ∈ (m.dcTo c new sev fault).seenEv := by
  unfold Mod.dcTo
  dsimp only
  rw [if_neg h]
  exact seen_raised _ _ _ _ _

/-- A channel that comes to REST has nothing left to wait for, and EV071 tells of it. -/
theorem dcRested_ends {c : Nat} {m : Mod} (hl : c < m.dc.length) (sev fault : Nat) :
    ((m.dcRested c sev fault).dcAt c).toWait = false ∧ (m.dcs c ≠ dcRest → 71 ∈ (m.dcRested c sev fault).seenEv) := by
  unfold Mod.dcRested
  have stopped := only_stopCtx (4 + c) m
  generalize m.stopCtx (4 + c) = A at stopped
  have len : (A.dcTo c dcRest sev fault).dc.length = m.dc.length := by
    rw [(dcTo_laws c dcRest sev fault A).1 .dc (by decide), stopped .dc (by decide)]
  refine ⟨by rw [dcAt_modDc _ _ _ (by rwa [len])], fun h => seen_dcTo ?_ sev fault⟩
  rwa [show A.dcs c = m.dcs c from stopped.get (by decide) _]

/-- A wind-down leaves all but the channel, its state and the limits that the engines ramp; it ends in WAIT or REST as it is told. -/
theorem dcWindDown_frame {c : Nat} (back : Bool) {m : Mod} (hl : c < m.dc.length) :
    Only ([.dc, .obj, .eng, .saved] ++ evParts) m (m.dcWindDown c back) ∧ OnlyEntries [Ob.dcState c] m (m.dcWindDown c back)
    ∧ ((m.dcWindDown c back).dcAt c).toWait = back ∧ (m.dcs c ≠ dcStopping → 71 ∈ (m.dcWindDown c back).seenEv) := by
  unfold Mod.dcWindDown
  dsimp only
  generalize hA : Mod.modDc c _ _ = A
  have before : Only [.dc, .eng, .saved] m A := by
    subst hA
    intro p hp; cases p <;> first | (exact absurd (by decide) hp) | rfl
  have toWait : (A.dcAt c).toWait = back := by subst hA; rw [dcAt_modDc _ _ _ (by exact hl)]
  clear hA
  obtain ⟨only, entries, -, -⟩ := dcTo_laws c dcStopping sevInfo 0 A
  refine ⟨(before.mono (by decide)).to only (by decide),
    (onlyEntries_obj (onlyEntries_refl _ _) (before .obj (by decide))).trans entries, by rw [dcAt_eq (only .dc (by decide)), toWait],
    fun h => seen_dcTo ?_ _ _⟩
  rwa [show A.dcs c = m.dcs c from before.get (by decide) _]

/-! ### The states (R213) -/

theorem only_enableDc (c : Nat) (m : Mod) : Only [.eng] m (m.enableDc c) := by
  unfold Mod.enableDc Mod.enableAll
  exact (Only.refl _ _).oeach (fun _ _ => (Only.refl _ _).oCtx (by decide))

/-- A channel that is ready runs. -/
theorem dcTo_running {c ps : Nat} {A : Mod} (clk : A.clk.upPs = ps) (st : A.dcs c = dcWait) (starting : (A.grpAt (4 + c)).starting = true)
    (scan : (A.dcAt c).scan = false) :
    (A.dcTo c dcRunning sevInfo 0).clk.upPs = ps ∧ (A.dcTo c dcRunning sevInfo 0).dcs c = dcRunning
    ∧ ((A.dcTo c dcRunning sevInfo 0).grpAt (4 + c)).starting = true ∧ ((A.dcTo c dcRunning sevInfo 0).dcAt c).scan = false
    ∧ 71 ∈ (A.dcTo c dcRunning sevInfo 0).seenEv := by
  obtain ⟨only, -, runs, -⟩ := dcTo_laws c dcRunning sevInfo 0 A
  exact ⟨by rw [only .clk (by decide), clk], runs, by rw [grpAt_eq (only .grp (by decide)), starting],
    by rw [dcAt_eq (only .dc (by decide)), scan], seen_dcTo (by rw [st]; decide) _ _⟩

/-- Entry conditions that have held for their time start the channel, with PWM from the next carrier boundary. -/
theorem dcEntryMet_runs {c t : Nat} {m : Mod} (hl : c < m.dc.length) (hg : 4 + c < m.grp.length) (hst : m.dcs c = dcWait)
    (ht : (m.dcAt c).entryPs = some t) :
    (m.dcEntryMet c).clk.upPs = max m.clk.upPs (t + m.entryTimePs c) ∧ (m.dcEntryMet c).dcs c = dcRunning
    ∧ ((m.dcEntryMet c).grpAt (4 + c)).starting = true ∧ ((m.dcEntryMet c).dcAt c).scan = false ∧ 71 ∈ (m.dcEntryMet c).seenEv := by
  unfold Mod.dcEntryMet Mod.periodBegins
  rw [ht]
  dsimp only
  rw [if_pos hst]
  generalize hR : m.reach _ = R
  generalize hE : (R.enableDc c).putQ (Ob.vMppRef c) _ = E
  have before : Only [.clk, .eng, .obj] m E := by
    subst hE hR
    exact (((Only.refl _ _).oReach (by decide)).to (only_enableDc _ _) (by decide)).oputQ (by decide)
  have clk : E.clk.upPs = max m.clk.upPs (t + m.entryTimePs c) := by
    subst hE hR
    exact congrArg Clock.upPs (only_enableDc c _ .clk (by decide))
  have state : E.dcs c = dcWait := by
    subst hE hR
    unfold Mod.dcs
    rw [putQ_eq, get_put_other _ (by simp [Ob.dcState, Ob.vMppRef]), (only_enableDc c _).get (by decide)]
    exact hst
  have dcLen : c < E.dc.length := by rwa [before .dc (by decide)]
  have grpLen : 4 + c < E.grp.length := by rwa [before .grp (by decide)]
  clear hE
  refine dcTo_running clk state ?_ ?_
  · exact congrArg GrpRt.starting (grpAt_modGrp E (4 + c) (fun g => { g with starting := true }) grpLen)
  · show ((Mod.modDc c _ (Mod.modDc c _ (Mod.modGrp (4 + c) _ E))).dcAt c).scan = false
    rw [dcAt_modDc _ _ _ (by rw [dcLen_modDc]; exact dcLen), dcAt_modDc _ _ _ (by exact dcLen)]

/-- Low power of a photovoltaic channel for 60 s winds it down, to wait again. -/
theorem pvLow_windsDown {c t : Nat} {m : Mod} (hst : m.dcs c = dcRunning) (hm : m.get (Ob.dcMode c) = 1)
    (ht : (m.dcAt c).pLowPs = some t) : m.pvLow c = (m.reach (t + sPs 60)).dcWindDown c true := by
  unfold Mod.pvLow
  rw [ht]
  exact if_pos (by simp [hst, hm])

/-- A battery that has been out of its window for 10 ms rests, with PWM off from the next carrier boundary. -/
theorem batteryOut_rests {c t : Nat} {m : Mod} (hst : m.dcs c = dcRunning) (hm : m.get (Ob.dcMode c) = 2)
    (ht : (m.dcAt c).outPs = some t) :
    m.batteryOut c = ((m.reach (t + msPs 10)).modGrp (4 + c) (fun g => { g with stopping := true })).dcRested c sevFault 0x3502 := by
  unfold Mod.batteryOut
  rw [ht]
  exact if_pos (by simp [hst, hm])

/-- A stop that has ended takes PWM off at the next carrier boundary; the channel rests, or waits again after low power. -/
theorem dcStopDone_laws {c : Nat} {m : Mod} (hl : c < m.dc.length) (hg : 4 + c < m.grp.length) (hst : m.dcs c = dcStopping) :
    Only ([.clk, .dc, .obj, .grp, .eng] ++ evParts) m (m.dcStopDone c) ∧ OnlyEntries [Ob.dcState c] m (m.dcStopDone c)
    ∧ (m.dcStopDone c).dcs c = (if (m.dcAt c).toWait then dcWait else dcRest)
    ∧ ((m.dcStopDone c).grpAt (4 + c)).stopping = (m.grpAt (4 + c)).on ∧ ((m.dcStopDone c).dcAt c).toWait = false
    ∧ 71 ∈ (m.dcStopDone c).seenEv := by
  unfold Mod.dcStopDone
  rw [if_pos hst]
  dsimp only
  generalize hR : (if absI (m.eng.dcSignal c 0) * 100 ≤ one29 then m else _) = R
  have reached : Only [.clk] m R := by
    subst hR
    split
    · exact Only.refl _ _
    · exact (Only.refl _ _).oReach (by decide)
  have stopping : ((R.modGrp (4 + c) (fun g => { g with stopping := g.on })).grpAt (4 + c)).stopping = (m.grpAt (4 + c)).on := by
    rw [grpAt_modGrp _ _ _ (by rwa [reached .grp (by decide)]), grpAt_eq (reached .grp (by decide))]
  have before : Only [.clk, .grp] m (R.modGrp (4 + c) (fun g => { g with stopping := g.on })) := (reached.mono (by decide)).oGrp (by decide)
  generalize R.modGrp (4 + c) _ = A at stopping before
  have len : A.dc.length = m.dc.length := congrArg List.length (before .dc (by decide))
  have state : A.dcs c = m.dcs c := before.get (by decide) _
  cases (m.dcAt c).toWait with
  | true =>
    have stopped := only_stopCtx (4 + c) A
    generalize A.stopCtx (4 + c) = B at stopped
    rw [if_pos rfl, if_pos rfl]
    generalize hC : B.modDc c _ = C
    have cleared : Only [.dc] B C := by subst hC; exact (Only.refl _ _).oDc (by decide)
    have toWait : (C.dcAt c).toWait = false := by subst hC; rw [dcAt_modDc _ _ _ (by rwa [stopped .dc (by decide), len])]
    have all : Only [.clk, .grp, .eng, .dc] m C := ((before.mono (by decide)).to stopped (by decide)).to cleared (by decide)
    obtain ⟨only, entries, st, -⟩ := dcTo_laws c dcWait sevInfo 0 C
    refine ⟨(all.mono (by decide)).to only (by decide), (onlyEntries_obj (onlyEntries_refl _ _) (all .obj (by decide))).trans entries, st,
      ?_, by rw [dcAt_eq (only .dc (by decide)), toWait], seen_dcTo ?_ _ _⟩
    · rw [grpAt_eq (only .grp (by decide)), grpAt_eq (cleared .grp (by decide)), grpAt_eq (stopped .grp (by decide)), stopping]
    · rw [show C.dcs c = m.dcs c from all.get (by decide) _, hst]
      decide
  | false =>
    rw [if_neg (by decide), if_neg (by decide)]
    obtain ⟨only, entries, st, -⟩ := dcRested_laws c sevInfo 0 A (by rwa [len])
    obtain ⟨toWait, told⟩ := dcRested_ends (c := c) (m := A) (by rwa [len]) sevInfo 0
    exact ⟨(before.mono (by decide)).to only (by decide), (onlyEntries_obj (onlyEntries_refl _ _) (before .obj (by decide))).trans entries,
      st, by rw [grpAt_eq (only .grp (by decide)), stopping], toWait, told (by rw [state, hst]; decide)⟩

/-! ### The limits (R212) -/

theorem limitsExpire_laws {c t : Nat} {m : Mod} (hl : c < m.dc.length) (hst : m.dcs c ≠ dcRest) (ht : (m.dcAt c).limitPs = some t) :
    Only [.clk, .dc] m (m.limitsExpire c) ∧ ((m.limitsExpire c).dcAt c).expDue = true ∧ ((m.limitsExpire c).dcAt c).limitPs = none
    ∧ (m.limitsExpire c).clk.upPs = max m.clk.upPs t := by
  unfold Mod.limitsExpire
  rw [ht]
  dsimp only
  rw [if_pos hst, dcAt_modDc _ _ _ (by exact hl)]
  exact ⟨((Only.refl _ _).oReach (by decide)).oDc (by decide), rfl, rfl, rfl⟩

/-- An expiry that no write has met acts at its boundary: LIMIT_FLAGS bit 6 and EV072. -/
theorem expireActs_laws {c : Nat} {m : Mod} (hl : c < m.dc.length) (he : (m.dcAt c).expDue = true) :
    ((m.expireActs c).dcAt c).expired = true ∧ ((m.expireActs c).dcAt c).expPs = m.now ∧ bit ((m.expireActs c).get (Ob.limitFlags c)) 6 = true
    ∧ (m.expireActs c).dcs c = m.dcs c ∧ 72 ∈ (m.expireActs c).seenEv := by
  unfold Mod.expireActs
  rw [if_pos he, dcAt_eq (raise_part _ _ _ _ _ .dc (by decide)), get_raised]
  refine ⟨?_, ?_, ?_, ?_, seen_raised _ _ _ _ _⟩
  · rw [putBit_eq, dcAt_eq (put_dc _ _ _), dcAt_modDc _ _ _ hl]
  · rw [putBit_eq, dcAt_eq (put_dc _ _ _), dcAt_modDc _ _ _ hl]
  · rw [putBit_eq, get_put_same, bit_setBit]
  · unfold Mod.dcs
    rw [get_raised, putBit_eq, get_put_other _ (by simp [Ob.dcState, Ob.limitFlags]), get_modDc]

/-! ### The statement -/

/-- Settles O39: each event by the law of its operation. -/
theorem channelStatesAndLimits : Obligations.ChannelStatesAndLimits := by
  unfold Obligations.ChannelStatesAndLimits
  intro s c hc hdc hgrp
  have hl : c < s.m.dc.length := by rwa [hdc]
  have hg : 4 + c < s.m.grp.length := by omega
  refine ⟨fun t hst ht => ?starts, fun t hst hm ht => ?lowPower, fun t hst hm ht => ?battery, fun hst => ?stopped,
    fun t hst ht => ?expires, expireActs_laws hl⟩
  case starts => exact does_channelEvent rfl hc (fun _ => dcEntryMet_runs hl hg hst ht)
  case lowPower =>
    have op := pvLow_windsDown hst hm ht
    generalize hR : s.m.reach (t + sPs 60) = R at op
    have reached : Only [.clk] s.m R := by subst hR; exact (Only.refl _ _).oReach (by decide)
    have clk : R.clk.upPs = max s.m.clk.upPs (t + sPs 60) := by subst hR; rfl
    have len : c < R.dc.length := by rwa [reached .dc (by decide)]
    have state : R.dcs c = s.m.dcs c := reached.get (by decide) _
    obtain ⟨st, stop⟩ := dcWindDown_laws true len
    obtain ⟨only, entries, toWait, told⟩ := dcWindDown_frame true len
    rw [← op] at st stop only entries toWait told
    have now : (s.m.pvLow c).clk = R.clk := only .clk (by decide)
    refine does_channelEvent rfl hc (fun _ => ⟨st, toWait, stop.trans (by unfold Mod.now; rw [now]), told (by rw [state, hst]; decide), ?_,
      ((reached.mono (by decide)).to only (by decide)).oSaved (by decide),
      (onlyEntries_obj (onlyEntries_refl _ _) (reached .obj (by decide))).trans entries⟩)
    exact (congrArg Clock.upPs now).trans clk
  case battery =>
    have op := batteryOut_rests hst hm ht
    generalize hA : Mod.modGrp (4 + c) _ _ = A at op
    have before : Only [.clk, .grp] s.m A := by subst hA; exact ((Only.refl _ _).oReach (by decide)).oGrp (by decide)
    have clk : A.clk.upPs = max s.m.clk.upPs (t + msPs 10) := by subst hA; rfl
    have stopping : (A.grpAt (4 + c)).stopping = true := by subst hA; rw [grpAt_modGrp _ _ _ (by exact hg)]
    have len : c < A.dc.length := by rwa [before .dc (by decide)]
    have state : A.dcs c = s.m.dcs c := before.get (by decide) _
    obtain ⟨only, entries, st, start⟩ := dcRested_laws c sevFault 0x3502 A len
    obtain ⟨-, told⟩ := dcRested_ends len sevFault 0x3502
    rw [← op] at only entries st start told
    refine does_channelEvent rfl hc (fun _ => ⟨st, ?_, start, told (by rw [state, hst]; decide), ?_,
      ((before.mono (by decide)).to only (by decide)).oSaved (by decide),
      (onlyEntries_obj (onlyEntries_refl _ _) (before .obj (by decide))).trans entries⟩)
    · exact (congrArg GrpRt.stopping (grpAt_eq (only .grp (by decide)) _)).trans stopping
    · exact (congrArg Clock.upPs (only .clk (by decide))).trans clk
  case stopped =>
    obtain ⟨only, entries, st, stopping, toWait, told⟩ := dcStopDone_laws hl hg hst
    exact does_channelEvent rfl hc (fun _ => ⟨st, stopping, toWait, told, (only.mono (by decide)).oSaved (by decide), entries⟩)
  case expires =>
    obtain ⟨only, due, limit, clk⟩ := limitsExpire_laws hl hst ht
    exact does_channelEvent rfl hc (fun _ => ⟨due, limit, clk, (only.mono (by decide)).oSaved (by decide),
      onlyEntries_obj (onlyEntries_refl _ _) (only .obj (by decide))⟩)

end Sys2Proof.Machine
end

section
/-!
PROOFS. Maximum power point tracking and the global scan (R215 to R217): what the end of a period, a scan that is due, the end of a
dwell and the check do, and the statement on them (O40).
-/
namespace Sys2Proof.Machine

/-! ### The bounds of V_MPP_REF (R215)

They read the engines, the channels of the link with their bases, and bounds that no period writes. -/

/-- The entries agree but for the sub-indices 03h and 05h, where P_SRC and LIMIT_FLAGS stand and the bounds read nothing. -/
def SameBounds (a b : Mod) : Prop := ∀ k, k % 256 ≠ 3 → k % 256 ≠ 5 → b.get k = a.get k

section
variable {a b : Mod} (h : SameBounds a b)
include h

theorem SameBounds.assigned (g r : Nat) : b.assigned g r = a.assigned g r := by
  unfold Mod.assigned Mod.owners
  have role : ∀ n, b.get (Ob.role n) = a.get (Ob.role n) := fun n => h _ (by unfold Ob.role; omega) (by unfold Ob.role; omega)
  have owner : ∀ n, b.get (Ob.ownerMask n) = a.get (Ob.ownerMask n) := fun n =>
    h _ (by unfold Ob.ownerMask; omega) (by unfold Ob.ownerMask; omega)
  have partner : ∀ n, b.get (Ob.redundantWith n) = a.get (Ob.redundantWith n) := fun n =>
    h _ (by unfold Ob.redundantWith; omega) (by unfold Ob.redundantWith; omega)
  simp only [role, owner, partner]

theorem SameBounds.linkChans (meas : b.meas = a.meas) (g : Nat) : b.linkChans g = a.linkChans g := by
  have inUse : b.inUseFor = a.inUseFor := by
    funext n
    unfold Mod.inUseFor
    rw [meas, h (Ob.redundantWith n) (by unfold Ob.redundantWith; omega) (by unfold Ob.redundantWith; omega)]
  unfold Mod.linkChans Mod.roleChans
  simp only [inUse, h.assigned]

theorem SameBounds.linkBaseOf (n : Nat) : b.linkBaseOf n = a.linkBaseOf n := by
  have owners : b.owners n = a.owners n := h _ (by unfold Ob.ownerMask; omega) (by unfold Ob.ownerMask; omega)
  have dcBase : ∀ c, b.getF (Ob.vDcBase c) = a.getF (Ob.vDcBase c) := fun c => by
    unfold Mod.getF
    rw [h (Ob.vDcBase c) (by unfold Ob.vDcBase; omega) (by unfold Ob.vDcBase; omega)]
  have acBase : ∀ s, b.vBase s = a.vBase s := fun s => by
    unfold Mod.vBase Mod.getF
    rw [h (Ob.vRatedLl s) (by unfold Ob.vRatedLl; omega) (by unfold Ob.vRatedLl; omega)]
  unfold Mod.linkBaseOf
  simp only [owners, dcBase, acBase]

theorem SameBounds.linkBase (meas : b.meas = a.meas) (g : Nat) : b.linkBase g = a.linkBase g := by
  unfold Mod.linkBase
  simp only [h.linkChans meas, h.linkBaseOf]

theorem SameBounds.mppClamp (meas : b.meas = a.meas) (eng : b.eng = a.eng) (c : Nat) (v : Int) : b.mppClamp c v = a.mppClamp c v := by
  have dcBase : b.getF (Ob.vDcBase c) = a.getF (Ob.vDcBase c) := by
    unfold Mod.getF
    rw [h (Ob.vDcBase c) (by unfold Ob.vDcBase; omega) (by unfold Ob.vDcBase; omega)]
  have high : b.getS (Ob.vMppMax c) = a.getS (Ob.vMppMax c) := by
    unfold Mod.getS
    rw [h (Ob.vMppMax c) (by unfold Ob.vMppMax; omega) (by unfold Ob.vMppMax; omega)]
  have low : b.getS (Ob.vMppMin c) = a.getS (Ob.vMppMin c) := by
    unfold Mod.getS
    rw [h (Ob.vMppMin c) (by unfold Ob.vMppMin; omega) (by unfold Ob.vMppMin; omega)]
  unfold Mod.mppClamp
  rw [h.linkBase meas, eng, dcBase, high, low]

end

/-! ### A period ends (R215, R216) -/

/-- The means of the period that ends are taken: P_SRC alone is shown. -/
theorem periodEnds_laws (c : Nat) (m : Mod) :
    Only [.obj, .dc] m (m.periodEnds c) ∧ OnlyEntries [Ob.pSrc c] m (m.periodEnds c) ∧ (m.periodEnds c).dc.length = m.dc.length
    ∧ (m.periodEnds c).getS (Ob.pSrc c) = sat29 (meanOver (m.dcAt c).perP (m.dcAt c).perN) := by
  unfold Mod.periodEnds Mod.periodBegins
  exact ⟨(((Only.refl _ _).oputQ (by decide)).oDc (by decide)).oDc (by decide), (((onlyEntries_refl _ _).oputQ (by simp)).oDc).oDc,
    by rw [dcLen_modDc, dcLen_modDc, putQ_eq, put_dc], getS_putQ _ _ _⟩

/-- A period of a channel that tracks has been taken, before the next V_MPP_REF: P_SRC, and in LIMIT_FLAGS bit 7 whether its power
is above the limit. -/
structure PeriodTaken (c : Nat) (p : Int) (m n : Mod) : Prop where
  only    : Only [.clk, .obj, .dc] m n
  entries : OnlyEntries [Ob.pSrc c, Ob.limitFlags c] m n
  len     : n.dc.length = m.dc.length
  power   : n.getS (Ob.pSrc c) = sat29 (meanOver (m.dcAt c).perP (m.dcAt c).perN)
  above   : bit (n.get (Ob.limitFlags c)) 7 = decide (m.getS (Ob.pvPLimit c) < p)

theorem periodTaken_reached (c t : Nat) (p : Int) (m : Mod) :
    PeriodTaken c p m (((m.reach t).periodEnds c).putBit (Ob.limitFlags c) 7 (decide (m.getS (Ob.pvPLimit c) < p))) := by
  obtain ⟨only, entries, len, power⟩ := periodEnds_laws c (m.reach t)
  refine ⟨(((Only.refl _ _).oReach (by decide)).to only (by decide)).oputB (by decide),
    (((onlyEntries_refl _ _).oReach).trans (entries.mono (by simp))).oputB (by simp), len, ?_, ?_⟩
  · rw [putBit_eq, getS_put_other _ (by simp [Ob.pSrc, Ob.limitFlags]), power]
    rfl
  · rw [putBit_eq, get_put_same, bit_setBit]

/-- The step moves V_MPP_REF, and notes in the channel's record what the next step reads. -/
theorem PeriodTaken.stepped {c : Nat} {p v : Int} {f : DcRt → DcRt} {m n N : Mod} (h : PeriodTaken c p m n)
    (hN : N = (n.putQ (Ob.vMppRef c) v).modDc c f) :
    N.getS (Ob.vMppRef c) = sat29 v ∧ N.getS (Ob.pSrc c) = sat29 (meanOver (m.dcAt c).perP (m.dcAt c).perN)
    ∧ bit (N.get (Ob.limitFlags c)) 7 = decide (m.getS (Ob.pvPLimit c) < p) ∧ Only [.clk, .obj, .dc] m N
    ∧ OnlyEntries [Ob.vMppRef c, Ob.pSrc c, Ob.limitFlags c] m N
    ∧ (c < m.dc.length → N.dcAt c = f (n.dcAt c)) := by
  subst hN
  refine ⟨getS_putQ _ _ _, ?_, ?_, (h.only.oputQ (by decide)).oDc (by decide), ((h.entries.mono (by simp)).oputQ (by simp)).oDc,
    fun hl => dcAt_modDc _ _ _ (by rw [putQ_eq, put_dc, h.len]; exact hl)⟩
  · exact (getS_put_other n (by simp [Ob.pSrc, Ob.vMppRef])).trans h.power
  · rw [get_modDc, putQ_eq, get_put_other _ (by simp [Ob.limitFlags, Ob.vMppRef]), h.above]

/-- The step of a channel that is capped follows the source voltage (R216). -/
theorem mpptStep_capped {c : Nat} {m : Mod} (hst : m.dcs c = dcRunning) (hm : m.get (Ob.dcMode c) = 1) (hs : (m.dcAt c).scan = false)
    (hcap : m.capped c = true) (hn : (m.dcAt c).partN ≠ 0) :
    ∃ f n, PeriodTaken c (meanOver (m.dcAt c).partP (m.dcAt c).partN) m n
      ∧ m.mpptStep c = (n.putQ (Ob.vMppRef c) (m.eng.dcSignal c 1)).modDc c f := by
  unfold Mod.mpptStep
  dsimp only
  rw [if_neg (by simp [hst, hm, hs, hn]), if_pos hcap]
  exact ⟨_, _, periodTaken_reached c _ _ m, rfl⟩

/-- Perturb and observe within the power deadband steps by STEP_MIN with the last sign. -/
theorem mpptMove_deadband {c : Nat} {v p vp pp sign : Int} {big : Bool} {m : Mod} (hp : p ≤ m.getS (Ob.pvPLimit c))
    (hmeth : m.get (Ob.mpptMethod c) = 0) (hd : absI (p - pp) ≤ m.getS (Ob.pDeadband c)) :
    m.mpptMove c v p vp pp sign big = (m.getS (Ob.vMppRef c) + sign * m.getS (Ob.stepMin c), sign) := by
  unfold Mod.mpptMove
  dsimp only
  rw [if_neg (by omega), if_pos hmeth, if_pos hd]

/-- The step of perturb and observe within the power deadband (R215). -/
theorem mpptStep_deadband {c : Nat} {v p vp : Int} {m : Mod} (hst : m.dcs c = dcRunning) (hm : m.get (Ob.dcMode c) = 1)
    (hs : (m.dcAt c).scan = false) (hcap : m.capped c = false) (hw : (m.dcAt c).waits = false) (hvp : (m.dcAt c).vPrev = some vp)
    (hn : (m.dcAt c).partN ≠ 0) (hv : v = meanOver (m.dcAt c).partV (m.dcAt c).partN)
    (hp : p = meanOver (m.dcAt c).partP (m.dcAt c).partN) (hlim : p ≤ m.getS (Ob.pvPLimit c)) (hmeth : m.get (Ob.mpptMethod c) = 0)
    (hd : absI (p - (m.dcAt c).pPrev) ≤ m.getS (Ob.pDeadband c)) :
    ∃ f n, PeriodTaken c p m n ∧ (∀ y, (f y).sign = (m.dcAt c).sign ∧ (f y).vPrev = some v ∧ (f y).pPrev = p)
      ∧ m.mpptStep c
        = (n.putQ (Ob.vMppRef c) (m.mppClamp c (m.getS (Ob.vMppRef c) + (m.dcAt c).sign * m.getS (Ob.stepMin c)))).modDc c f := by
  unfold Mod.mpptStep
  dsimp only
  rw [if_neg (by simp [hst, hm, hs, hn]), if_neg (by simp [hcap]), if_neg (by simp [hw]), hvp, ← hv, ← hp]
  dsimp only
  have taken := periodTaken_reached c ((m.dcAt c).perPs + msPs (m.get (Ob.mpptPeriod c))) p m
  generalize Mod.putBit _ 7 _ _ = n at taken
  have kept : ∀ k, k ≠ Ob.pSrc c → k ≠ Ob.limitFlags c → n.get k = m.get k := fun k h1 h2 => taken.entries k (by simp [h1, h2])
  have keptS : ∀ k, k ≠ Ob.pSrc c → k ≠ Ob.limitFlags c → n.getS k = m.getS k := fun k h1 h2 => taken.entries.getS (by simp [h1, h2])
  have bounds : SameBounds m n := fun k h3 h5 => kept k (by unfold Ob.pSrc; omega) (by unfold Ob.limitFlags; omega)
  have move : n.mpptMove c v p vp (m.dcAt c).pPrev (m.dcAt c).sign (m.dcAt c).big
      = (m.getS (Ob.vMppRef c) + (m.dcAt c).sign * m.getS (Ob.stepMin c), (m.dcAt c).sign) := by
    rw [mpptMove_deadband, keptS (Ob.vMppRef c), keptS (Ob.stepMin c)]
    · simp [Ob.stepMin, Ob.pSrc]
    · simp [Ob.stepMin, Ob.limitFlags]
    · simp [Ob.vMppRef, Ob.pSrc]
    · simp [Ob.vMppRef, Ob.limitFlags]
    · rwa [keptS _ (by unfold Ob.pvPLimit Ob.pSrc; omega) (by unfold Ob.pvPLimit Ob.limitFlags; omega)]
    · rwa [kept _ (by unfold Ob.mpptMethod Ob.pSrc; omega) (by unfold Ob.mpptMethod Ob.limitFlags; omega)]
    · rwa [keptS _ (by unfold Ob.pDeadband Ob.pSrc; omega) (by unfold Ob.pDeadband Ob.limitFlags; omega)]
  rw [move, bounds.mppClamp (taken.only .meas (by decide)) (taken.only .eng (by decide))]
  refine ⟨_, n, taken, ?_, rfl⟩
  exact fun _ => ⟨rfl, rfl, rfl⟩

/-! ### The global scan (R217) -/

/-- A scan that is due waits under its conditions. -/
theorem scanDue_waits {c : Nat} {m : Mod} (hst : m.dcs c = dcRunning) (hm : m.get (Ob.dcMode c) = 1) (hp : m.get (Ob.scanPeriod c) ≠ 0)
    (hs : (m.dcAt c).scan = false) (hb : m.scanBlocked c = true) :
    m.scanDue c = (m.reach ((m.dcAt c).scanPs + sPs (m.get (Ob.scanPeriod c)))).modDc c (fun x => { x with waits := true }) := by
  unfold Mod.scanDue
  rw [if_pos (by simp [hst, hm, hp, hs])]
  exact if_pos hb

/-- It starts where nothing blocks it. -/
theorem scanDue_starts {c : Nat} {m : Mod} (hst : m.dcs c = dcRunning) (hm : m.get (Ob.dcMode c) = 1) (hp : m.get (Ob.scanPeriod c) ≠ 0)
    (hs : (m.dcAt c).scan = false) (hb : m.scanBlocked c = false) :
    m.scanDue c = (m.reach ((m.dcAt c).scanPs + sPs (m.get (Ob.scanPeriod c)))).scanStart c := by
  unfold Mod.scanDue
  rw [if_pos (by simp [hst, hm, hp, hs])]
  exact if_neg (fun h => absurd (hb.symm.trans h) (by decide))

/-- The first voltage of a scan is SCAN_V_HIGH. -/
theorem scanStart_volts (c : Nat) (m : Mod) : (m.scanStart c).getS (Ob.vMppRef c) = sat29 (m.scanVolts c 0) := getS_putQ _ _ _

/-- A dwell that ends passes to the next voltage and keeps the better power. -/
theorem scanDwell_laws {c : Nat} {p : Int} {m : Mod} (hl : c < m.dc.length) (hst : m.dcs c = dcRunning) (hs : (m.dcAt c).scan = true)
    (hk : (m.dcAt c).point + 1 < m.get (Ob.scanPoints c)) (hn : (m.dcAt c).partN ≠ 0)
    (hp : p = meanOver (m.dcAt c).partP (m.dcAt c).partN) :
    Only [.clk, .obj, .dc] m (m.scanDwell c) ∧ OnlyEntries [Ob.vMppRef c] m (m.scanDwell c)
    ∧ ((m.scanDwell c).dcAt c).point = (m.dcAt c).point + 1
    ∧ (m.scanDwell c).getS (Ob.vMppRef c) = sat29 (m.scanVolts c ((m.dcAt c).point + 1))
    ∧ ((m.scanDwell c).dcAt c).pBest = (if (m.dcAt c).pBest < p then p else (m.dcAt c).pBest)
    ∧ ((m.scanDwell c).dcAt c).vBest = (if (m.dcAt c).pBest < p then m.scanVolts c (m.dcAt c).point else (m.dcAt c).vBest) := by
  unfold Mod.scanDwell Mod.periodBegins
  dsimp only
  rw [if_pos (by simp [hst, hs, hn]; omega), ← hp]
  generalize hA : Mod.modDc c _ (Mod.modDc c _ _) = A
  have before : Only [.clk, .dc] m A := by
    subst hA
    exact (((Only.refl _ _).oReach (by decide)).oDc (by decide)).oDc (by decide)
  have record : (A.dcAt c).point = (m.dcAt c).point + 1 ∧ (A.dcAt c).pBest = (if (m.dcAt c).pBest < p then p else (m.dcAt c).pBest)
      ∧ (A.dcAt c).vBest = (if (m.dcAt c).pBest < p then m.scanVolts c (m.dcAt c).point else (m.dcAt c).vBest) := by
    subst hA
    rw [dcAt_modDc _ _ _ (by rw [dcLen_modDc]; exact hl), dcAt_modDc _ _ _ (by exact hl)]
    exact ⟨rfl, rfl, rfl⟩
  clear hA
  obtain ⟨point, pBest, vBest⟩ := record
  rw [point, if_pos hk]
  exact ⟨(before.mono (by decide)).oputQ (by decide), (onlyEntries_obj (onlyEntries_refl _ _) (before .obj (by decide))).oputQ (by simp),
    point, getS_putQ _ _ _, pBest, vBest⟩

/-- A scan that is over: its result, V_MPP_REF, and a next step of STEP_MAX. -/
theorem scanOver_laws {c : Nat} (r : Nat) (v : Int) {m : Mod} (hl : c < m.dc.length) :
    Only [.obj, .dc] m (m.scanOver c r v) ∧ OnlyEntries [Ob.vMppRef c, Ob.scanResult c] m (m.scanOver c r v)
    ∧ ((m.scanOver c r v).dcAt c).scan = false ∧ ((m.scanOver c r v).dcAt c).big = true ∧ (m.scanOver c r v).get (Ob.scanResult c) = r
    ∧ (m.scanOver c r v).getS (Ob.vMppRef c) = sat29 v := by
  unfold Mod.scanOver Mod.periodBegins
  rw [dcAt_modDc _ _ _ (by rw [dcLen_modDc]; exact hl), dcAt_modDc _ _ _ (by exact hl)]
  refine ⟨((((Only.refl _ _).oputQ (by decide)).oput (by decide)).oDc (by decide)).oDc (by decide),
    ((((onlyEntries_refl _ _).oputQ (by simp)).oput (by simp)).oDc).oDc, rfl, rfl, ?_, ?_⟩
  · exact get_put_same _
  · exact (getS_put_other _ (by simp [Ob.vMppRef, Ob.scanResult])).trans (getS_putQ _ _ _)

/-- The check that ends decides for V_best, where the power has grown by SCAN_MIN_GAIN over P0, or for V0. -/
theorem scanCheck_decides {c : Nat} {p : Int} {m : Mod} (hst : m.dcs c = dcRunning) (hs : (m.dcAt c).scan = true)
    (hk : m.get (Ob.scanPoints c) ≤ (m.dcAt c).point) (hn : (m.dcAt c).perN ≠ 0) (hp : p = meanOver (m.dcAt c).perP (m.dcAt c).perN) :
    ∃ t r v arg, m.scanCheck c = (((m.reach t).periodEnds c).scanOver c r v).inform 73 arg
      ∧ (pu (m.dcAt c).p0 * (1 + m.getF (Ob.scanMinGain c) / 100) ≤ pu p → r = 1 ∧ v = (m.dcAt c).vBest)
      ∧ (pu p < pu (m.dcAt c).p0 * (1 + m.getF (Ob.scanMinGain c) / 100) → r = 2 ∧ v = (m.dcAt c).v0) := by
  unfold Mod.scanCheck
  dsimp only
  rw [if_pos (by simp [hst, hs, hk, hn]), ← hp]
  exact ⟨_, _, _, _, rfl, fun h => ⟨if_pos h, if_pos h⟩, fun h => ⟨if_neg (Rat.not_le.2 h), if_neg (Rat.not_le.2 h)⟩⟩

/-- The check ends the scan, with EV073. -/
theorem checkEnds_laws {c t r arg : Nat} {v : Int} {m N : Mod} (hl : c < m.dc.length)
    (hN : N = (((m.reach t).periodEnds c).scanOver c r v).inform 73 arg) :
    Only ([.clk, .obj, .dc] ++ evParts) m N ∧ OnlyEntries [Ob.vMppRef c, Ob.pSrc c, Ob.scanResult c] m N
    ∧ (N.dcAt c).scan = false ∧ (N.dcAt c).big = true ∧ 73 ∈ N.seenEv ∧ N.get (Ob.scanResult c) = r ∧ N.getS (Ob.vMppRef c) = sat29 v := by
  subst hN
  obtain ⟨onlyP, entriesP, lenP, -⟩ := periodEnds_laws c (m.reach t)
  generalize (m.reach t).periodEnds c = P at onlyP entriesP lenP
  obtain ⟨only, entries, scan, big, result, ref⟩ := scanOver_laws (c := c) (m := P) r v (by rw [lenP]; exact hl)
  generalize P.scanOver c r v = O at only entries scan big result ref
  have record : (O.inform 73 arg).dcAt c = O.dcAt c := dcAt_eq (inform_part O 73 arg .dc (by decide)) c
  refine ⟨((((Only.refl _ _).oReach (by decide)).to onlyP (by decide)).to only (by decide)).oinform _ _ (by decide),
    ((((onlyEntries_refl _ _).oReach).trans (entriesP.mono (by simp))).trans (entries.mono (by simp))).oinform _ _,
    by rw [record, scan], by rw [record, big], seen_raised _ _ _ _ _, by rw [get_informed, result], ?_⟩
  rw [← ref]
  exact congrArg (Raw.signed 32) (get_informed _ _ _ _)

/-! ### The statement -/

/-- Settles O40: each event by the law of its operation. -/
theorem trackingAndScan : Obligations.TrackingAndScan := by
  unfold Obligations.TrackingAndScan
  intro s c v p hc hdc hst hm
  have hl : c < s.m.dc.length := by rwa [hdc]
  refine ⟨fun hs hcap hn hp => ?capped, fun vp hs hcap hw hvp hn hv hp hlim hmeth hd => ?deadband,
    fun hp hs => ⟨fun hb => ?starts, fun hb => ?waits⟩, fun hs _ hk hn hp => ?dwell, fun hs _ hk hn hp => ?check⟩
  case capped =>
    obtain ⟨f, n, taken, op⟩ := mpptStep_capped hst hm hs hcap hn
    obtain ⟨ref, power, above, only, entries, -⟩ := taken.stepped op
    rw [← hp] at above
    exact does_channelEvent rfl hc (fun _ => ⟨ref, power, above, (only.mono (by decide)).oSaved (by decide), entries⟩)
  case deadband =>
    obtain ⟨f, n, taken, record, op⟩ := mpptStep_deadband hst hm hs hcap hw hvp hn hv hp hlim hmeth hd
    obtain ⟨ref, power, -, only, entries, stepped⟩ := taken.stepped op
    obtain ⟨sign, vPrev, pPrev⟩ := record (n.dcAt c)
    rw [← stepped hl] at sign vPrev pPrev
    exact does_channelEvent rfl hc (fun _ => ⟨ref, power, sign, vPrev, pPrev, (only.mono (by decide)).oSaved (by decide), entries⟩)
  case starts =>
    have op := scanDue_starts hst hm hp hs hb
    generalize hR : s.m.reach _ = R at op
    have reached : Only [.clk] s.m R := by subst hR; exact (Only.refl _ _).oReach (by decide)
    have same : R.scanVolts c 0 = s.m.scanVolts c 0 ∧ R.dcAt c = s.m.dcAt c := by subst hR; exact ⟨rfl, rfl⟩
    obtain ⟨only, entries, scan, point, -, v0, p0⟩ := scanStart_laws (u := c) (m := R) (by rwa [reached .dc (by decide)])
    have ref := scanStart_volts c R
    rw [← op] at only entries scan point v0 p0 ref
    rw [same.2] at v0 p0
    rw [same.1] at ref
    exact does_channelEvent rfl hc (fun _ => ⟨scan, point, v0, p0, ref, ((reached.mono (by decide)).to only (by decide)).oSaved (by decide),
      (onlyEntries_obj (onlyEntries_refl _ _) (reached .obj (by decide))).trans (entries.mono (by simp))⟩)
  case waits =>
    have op := scanDue_waits hst hm hp hs hb
    generalize hR : s.m.reach _ = R at op
    have reached : Only [.clk] s.m R := by subst hR; exact (Only.refl _ _).oReach (by decide)
    have record := dcAt_modDc R c (fun x => { x with waits := true }) (by rwa [reached .dc (by decide)])
    have only : Only [.clk, .dc, .saved] s.m (s.m.scanDue c) := op ▸ (reached.mono (by decide)).oDc (by decide)
    rw [← op, dcAt_eq (reached .dc (by decide))] at record
    exact does_channelEvent rfl hc (fun _ => ⟨(congrArg DcRt.scan record).trans hs, congrArg DcRt.waits record, only.oSaved (by decide)⟩)
  case dwell =>
    obtain ⟨only, entries, point, ref, pBest, vBest⟩ := scanDwell_laws hl hst hs hk hn hp
    exact does_channelEvent rfl hc (fun _ => ⟨point, ref, fun h => ⟨pBest.trans (if_pos h), vBest.trans (if_pos h)⟩,
      fun h => ⟨pBest.trans (if_neg (by omega)), vBest.trans (if_neg (by omega))⟩, (only.mono (by decide)).oSaved (by decide), entries⟩)
  case check =>
    obtain ⟨t, r, ref, arg, op, keeps, returns⟩ := scanCheck_decides hst hs hk hn hp
    obtain ⟨only, entries, scan, big, told, result, shown⟩ := checkEnds_laws hl op
    refine does_channelEvent rfl hc (fun _ => ⟨scan, told, big, fun h => ?_, fun h => ?_,
      (only.mono (by decide)).oSaved (by decide), entries⟩)
    · exact ⟨result.trans (keeps h).1, shown.trans (congrArg sat29 (keeps h).2)⟩
    · exact ⟨result.trans (returns h).1, shown.trans (congrArg sat29 (returns h).2)⟩

end Sys2Proof.Machine
end

section
/-!
PROOFS. Fault ride-through (R227, R228, R233, R238, R240 to R242): what the checks, the stops noted, the recovery, a loss of
synchronism and the current limit do, and the statement that a ride-through goes on (O41).
-/
namespace Sys2Proof.Machine

/-! ### What the operations of a ride-through share -/

theorem sat29_of_range {v : Int} (lo : -2147483648 ≤ v) (hi : v ≤ 2147483647) : sat29 v = v := by
  unfold sat29 clampI min29 max29
  rw [if_neg (by omega), if_neg (by omega)]

theorem sat29_q29OfLsb (x : Rat) : sat29 (q29OfLsb x) = q29OfLsb x := by
  obtain ⟨lo, hi⟩ := sat29_range (wholeNear x)
  exact sat29_of_range lo hi

theorem vsmAt_modVsm {u : Nat} (m : Mod) (f : VsmRt → VsmRt) (hl : u < m.eng.vsm.length) : (m.modVsm u f).vsmAt u = f (m.vsmAt u) := by
  unfold Mod.vsmAt Mod.modVsm
  simp [List.getD_eq_getElem?_getD, hl]

theorem vsmAt_eq {a b : Mod} (h : b.eng = a.eng) (u : Nat) : b.vsmAt u = a.vsmAt u := by unfold Mod.vsmAt; rw [h]

/-- The detector runs by GF_STATE alone (R222). -/
theorem detects_eq {u : Nat} {a b : Mod} (h : b.gf u = a.gf u) : b.detects u = a.detects u := by
  unfold Mod.detects Mod.joined
  rw [h]

/-- A stop of R228 is noted behind those noted before. -/
theorem rtStop_notes {u cause code : Nat} {m : Mod} (hl : u < m.sec.length) (hd : m.detects u = true) (hg : (m.grpAt u).latched = false) :
    Only [.sec] m (m.rtStop u cause code) ∧ ((m.rtStop u cause code).secAt u).stops = (m.secAt u).stops ++ [(cause, code)] := by
  unfold Mod.rtStop
  rw [if_pos (by simp [hd, hg])]
  exact ⟨(Only.refl _ _).oSec (by decide), by rw [secAt_modSec _ _ _ hl]⟩

/-! ### The curve check and the frequency stages (R227, R228) -/

/-- In LVRT the check shows the boundary of the low curve, and compares with it on the module as it found it. -/
theorem curveCheck_lvrt {u : Nat} {m : Mod} (hd : m.detects u = true) (hr : m.rt u = rtLvrt) (hm : (m.secAt u).mags ≠ []) :
    m.curveCheck u
      = if meanLsb ((m.secAt u).mags.map (·.2.1)) < m.curveNow u false then
          (m.putQ (Ob.boundary u) (q29OfLsb (m.curveNow u false))).rtStop u 2 0x3701
        else if m.curveNow u true < meanLsb ((m.secAt u).mags.map (·.2.2)) then
          (m.putQ (Ob.boundary u) (q29OfLsb (m.curveNow u false))).rtStop u 3 0x3702
        else m.putQ (Ob.boundary u) (q29OfLsb (m.curveNow u false)) := by
  unfold Mod.curveCheck
  dsimp only
  rw [if_pos (by simp [hd, hr, hm, riding]), hr]
  rfl

/-- A mean of the lowest phase below the boundary notes a stop with the code of the low curve. -/
theorem curveCheck_below {u : Nat} {m : Mod} (hl : u < m.sec.length) (hd : m.detects u = true) (hr : m.rt u = rtLvrt)
    (hg : (m.grpAt u).latched = false) (hm : (m.secAt u).mags ≠ [])
    (hv : meanLsb ((m.secAt u).mags.map (·.2.1)) < m.curveNow u false) :
    Only [.obj, .sec] m (m.curveCheck u) ∧ OnlyEntries [Ob.boundary u] m (m.curveCheck u)
    ∧ ((m.curveCheck u).secAt u).stops = (m.secAt u).stops ++ [(2, 0x3701)]
    ∧ (m.curveCheck u).getS (Ob.boundary u) = q29OfLsb (m.curveNow u false) := by
  rw [curveCheck_lvrt hd hr hm, if_pos hv]
  generalize hB : m.putQ (Ob.boundary u) _ = B
  have shown : B.getS (Ob.boundary u) = q29OfLsb (m.curveNow u false) := by rw [← hB, getS_putQ, sat29_q29OfLsb]
  have before : Only [.obj] m B := by subst hB; exact (Only.refl _ _).oputQ (by decide)
  have entries : OnlyEntries [Ob.boundary u] m B := by subst hB; exact (onlyEntries_refl _ _).oputQ (by simp)
  clear hB
  have state : B.gf u = m.gf u := entries _ (by simp [Ob.gfState, Ob.boundary])
  obtain ⟨only, stops⟩ := rtStop_notes (m := B) (u := u) (cause := 2) (code := 0x3701) (by rwa [before.secLen (by decide)])
    (by rw [detects_eq state, hd]) (by rw [grpAt_eq (before .grp (by decide)), hg])
  refine ⟨(before.mono (by decide)).to only (by decide), onlyEntries_obj entries (only .obj (by decide)), ?_, ?_⟩
  · rw [stops, secAt_eq (before .sec (by decide))]
  · rw [← shown]
    exact congrArg (Raw.signed 32) (only.get (by decide) _)

/-- A frequency stage that has lasted its time notes a stop. -/
theorem freqTrip_notes {u stage t : Nat} {m : Mod} (hl : u < m.sec.length) (hd : m.detects u = true) (hg : (m.grpAt u).latched = false)
    (ht : (m.secAt u).stagePs.getD stage none = some t) :
    Only [.clk, .sec] m (m.freqTrip u stage) ∧ ((m.freqTrip u stage).secAt u).stops = (m.secAt u).stops ++ [(4, 0x3703)]
    ∧ (m.freqTrip u stage).clk.upPs = max m.clk.upPs (t + msPs (m.stageMs u stage)) := by
  unfold Mod.freqTrip
  rw [ht]
  dsimp only
  obtain ⟨only, stops⟩ := rtStop_notes (m := m.reach (t + msPs (m.stageMs u stage))) (cause := 4) (code := 0x3703) hl hd hg
  exact ⟨((Only.refl _ _).oReach (by decide)).to only (by decide), stops, congrArg Clock.upPs (only .clk (by decide))⟩

/-! ### The stops noted act at the boundary (R228, R242) -/

/-- A stop leaves no ride-through and no stop noted. -/
theorem gfStopNow_endsRide (u : Nat) (noRamps : Bool) {m : Mod} (hl : u < m.sec.length) :
    (m.gfStopNow u noRamps).get (Ob.rtState u) = 0 ∧ ((m.gfStopNow u noRamps).secAt u).stops = []
    ∧ (m.gfStopNow u noRamps).sec.length = m.sec.length := by
  unfold Mod.gfStopNow
  dsimp only
  generalize hA : Mod.modSec u _ m = A
  have len : A.sec.length = m.sec.length := by subst hA; exact secLen_modSec _ _ _
  have cleared : (A.secAt u).stops = [] := by subst hA; rw [secAt_modSec _ _ _ hl]
  clear hA
  obtain ⟨-, -, -, lenI, recI⟩ := endIdRun_laws u A
  generalize A.endIdRun u = I at lenI recI
  obtain ⟨onlyR, -, normal, -⟩ := rtTo_laws u 0 (I.put (Ob.islState u) 0)
  generalize (I.put (Ob.islState u) 0).rtTo u 0 = R at onlyR normal
  obtain ⟨onlyG, entriesG, -, -⟩ := gfTo_laws u gfStopping R
  have sec : (R.gfTo u gfStopping).sec = I.sec := (onlyG .sec (by decide)).trans (onlyR .sec (by decide))
  refine ⟨?_, ?_, by rw [sec, lenI, len]⟩
  · rw [entriesG _ (by simp [Ob.rtState, Ob.gfState]), normal]
  · rw [secAt_eq sec, recI (by rwa [len]), cleared]

/-- A stop at a grid event goes without ramps, to DELAY. -/
theorem gridStop_laws {u : Nat} {m : Mod} (hl : u < m.sec.length) :
    OnlyEntries [Ob.gfState u, Ob.rtState u, Ob.islState u] m (m.gridStop u) ∧ (m.gridStop u).gf u = gfStopping
    ∧ ((m.gridStop u).secAt u).noRamps = true ∧ ((m.gridStop u).secAt u).toDelay = true ∧ ((m.gridStop u).secAt u).stops = []
    ∧ (m.gridStop u).get (Ob.rtState u) = 0 := by
  unfold Mod.gridStop
  obtain ⟨normal, stops, len⟩ := gfStopNow_endsRide u true hl
  obtain ⟨-, entries, st, noRamps, -⟩ := gfStopNow_laws u true m hl
  generalize m.gfStopNow u true = A at normal stops len entries st noRamps
  rw [secAt_modSec _ _ _ (by rwa [len])]
  exact ⟨entries.oSec, st, noRamps, rfl, stops, normal⟩

/-- The stops noted act as one: the section stops to DELAY, RT_CAUSE shows every cause, and EV076 tells of it. -/
theorem rideActs_stops {u : Nat} {m : Mod} (hl : u < m.sec.length) (hd : m.detects u = true) (hg : (m.grpAt u).latched = false)
    (hs : ∃ p ∈ (m.secAt u).stops, p.1 ≠ 6) :
    (m.rideActs u).gf u = gfStopping ∧ ((m.rideActs u).secAt u).noRamps = true ∧ ((m.rideActs u).secAt u).toDelay = true
    ∧ ((m.rideActs u).secAt u).stops = [] ∧ (m.rideActs u).get (Ob.rtState u) = 0 ∧ 76 ∈ (m.rideActs u).seenEv
    ∧ (m.rideActs u).get (Ob.rtCause u) = (m.secAt u).stops.foldl (fun a p => setBit a p.1 true)
        (if m.rt u = rtNormal then 0 else m.get (Ob.rtCause u)) := by
  obtain ⟨p, hp, h6⟩ := hs
  have found : ((m.secAt u).stops.find? (fun p => decide (p.1 ≠ 6))).isSome := List.find?_isSome.2 ⟨p, hp, decide_eq_true h6⟩
  obtain ⟨q, hq⟩ := Option.isSome_iff_exists.1 found
  unfold Mod.rideActs
  dsimp only
  rw [if_neg (by simp [List.ne_nil_of_mem hp]), if_pos (by simp [hd, hg]), hq]
  dsimp only
  generalize List.foldl _ _ (m.secAt u).stops = cause
  obtain ⟨entries, st, noRamps, toDelay, stops, normal⟩ := gridStop_laws (m := m.put (Ob.rtCause u) cause) hl
  have shown : ((m.put (Ob.rtCause u) cause).gridStop u).get (Ob.rtCause u) = cause := by
    rw [entries _ (by simp [Ob.rtCause, Ob.gfState, Ob.rtState, Ob.islState]), get_put_same]
  generalize (m.put (Ob.rtCause u) cause).gridStop u = A at st noRamps toDelay stops normal shown
  rw [Mod.gf, get_raised, get_raised, get_raised, secAt_eq (raise_part _ _ _ _ _ .sec (by decide))]
  exact ⟨st, noRamps, toDelay, stops, normal, seen_raised _ _ _ _ _, shown⟩

/-! ### Recovery (R233, R238) -/

/-- RECOV_TIME inside the shrunk window starts the recovery from the present active reference. -/
theorem recovTimeMet_recovers {u t : Nat} {m : Mod} (hv : u < m.eng.vsm.length) (hd : m.detects u = true)
    (hr : m.rt u = rtLvrt ∨ m.rt u = rtHvrt ∨ m.rt u = rtCeased) (ht : (m.secAt u).recovPs = some t) :
    Only ([.clk, .obj, .eng] ++ evParts) m (m.recovTimeMet u) ∧ OnlyEntries [Ob.rtState u] m (m.recovTimeMet u)
    ∧ (m.recovTimeMet u).rt u = rtRecovery ∧ ((m.recovTimeMet u).vsmAt u).idRec = (m.vsmAt u).refs.getD 0 0
    ∧ (m.recovTimeMet u).clk.upPs = max m.clk.upPs (t + msPs (m.get (Ob.recovTime u))) := by
  unfold Mod.recovTimeMet Mod.rtRecover
  rw [ht]
  dsimp only
  rw [if_pos (by rcases hr with hr | hr | hr <;> simp [hd, hr, riding])]
  generalize hA : Mod.modVsm u _ (m.reach _) = A
  have before : Only [.clk, .eng] m A := by subst hA; exact ((Only.refl _ _).oReach (by decide)).oVsm (by decide)
  have reference : (A.vsmAt u).idRec = (m.vsmAt u).refs.getD 0 0 := by subst hA; rw [vsmAt_modVsm _ _ (by exact hv)]; rfl
  have clk : A.clk.upPs = max m.clk.upPs (t + msPs (m.get (Ob.recovTime u))) := by subst hA; rfl
  clear hA
  obtain ⟨only, entries, st, -⟩ := rtTo_laws u rtRecovery A
  refine ⟨(before.mono (by decide)).to only (by decide), (onlyEntries_obj (onlyEntries_refl _ _) (before .obj (by decide))).trans entries,
    st, by rw [vsmAt_eq (only .eng (by decide)), reference], ?_⟩
  rw [show (A.rtTo u rtRecovery).clk = A.clk from only .clk (by decide), clk]

/-- A recovery that is complete is normal operation. -/
theorem rtComplete_normal {u : Nat} {m : Mod} (hl : u < m.sec.length) (hr : m.rt u = rtRecovery) (ho : m.rideOver u = true) :
    Only ([.obj, .sec] ++ evParts) m (m.rtComplete u) ∧ OnlyEntries [Ob.rtState u] m (m.rtComplete u)
    ∧ (m.rtComplete u).rt u = rtNormal ∧ ((m.rtComplete u).secAt u).tauPs = none := by
  unfold Mod.rtComplete
  rw [if_pos (by simp [hr, ho])]
  generalize hA : Mod.modSec u _ m = A
  have before : Only [.sec] m A := by subst hA; exact (Only.refl _ _).oSec (by decide)
  have ended : (A.secAt u).tauPs = none := by subst hA; rw [secAt_modSec _ _ _ hl]
  clear hA
  obtain ⟨only, entries, st, -⟩ := rtTo_laws u rtNormal A
  exact ⟨(before.mono (by decide)).to only (by decide), (onlyEntries_obj (onlyEntries_refl _ _) (before .obj (by decide))).trans entries,
    st, by rw [secAt_eq (only .sec (by decide)), ended]⟩

/-- The current limit that releases starts the recovery ramp. -/
theorem limitRelease_ramps {u t : Nat} {m : Mod} (hl : u < m.sec.length) (hv : u < m.eng.vsm.length) (hlim : (m.vsmAt u).limited = true)
    (hf : (m.secAt u).follow = false) (ht : (m.vsmAt u).calmPs = some t) :
    Only [.clk, .eng, .sec] m (m.limitRelease u) ∧ ((m.limitRelease u).vsmAt u).limited = false
    ∧ ((m.limitRelease u).secAt u).recovRamp = true
    ∧ (m.limitRelease u).clk.upPs = max m.clk.upPs (t + msPs (m.get (Ob.releaseTime u))) := by
  unfold Mod.limitRelease
  rw [ht]
  dsimp only
  rw [if_pos (by simp [hlim, hf]), secAt_modSec _ _ _ (by exact hl)]
  refine ⟨(((Only.refl _ _).oReach (by decide)).oVsm (by decide)).oSec (by decide), ?_, rfl, rfl⟩
  exact congrArg VsmRt.limited (vsmAt_modVsm (m.reach _) _ hv)

/-! ### Loss of synchronism (R240, R241) -/

/-- One more instant kept makes LOS_IN_WINDOW one more at the most. -/
theorem losEvents_le {u t : Nat} {a b : Mod} (obj : b.obj = a.obj) (clk : b.clk = a.clk)
    (times : (b.secAt u).losTimes = t :: (a.secAt u).losTimes.take 255) : b.losEvents u ≤ a.losEvents u + 1 := by
  unfold Mod.losEvents Mod.now
  rw [times, clk, get_of_obj _ obj]
  generalize (fun t => decide (a.clk.upPs < t + sPs (a.get (Ob.losW u)))) = inWindow
  calc ((t :: (a.secAt u).losTimes.take 255).filter inWindow).length
      ≤ (((a.secAt u).losTimes.take 255).filter inWindow).length + 1 := by rw [List.filter_cons]; split <;> simp
    _ ≤ ((a.secAt u).losTimes.filter inWindow).length + 1 :=
      Nat.succ_le_succ ((List.take_sublist _ _).filter inWindow).length_le

/-- A loss of synchronism that is not one too many blanks the section from its instant on, with EV078. -/
theorem lossOfSync_blanks {u t : Nat} {m : Mod} (hl : u < m.sec.length) (hj : m.joined u = true) (hr : m.rt u ≠ rtLos)
    (ht : m.losAt u = some t) (hn : (m.reach t).losEvents u + 1 ≤ m.get (Ob.losN u)) :
    Only ([.clk, .obj, .sec] ++ evParts) m (m.lossOfSync u) ∧ OnlyEntries [Ob.rtState u, Ob.losInWindow u] m (m.lossOfSync u)
    ∧ (m.lossOfSync u).rt u = rtLos ∧ ((m.lossOfSync u).secAt u).losTimes.head? = some (m.lossOfSync u).now
    ∧ ((m.lossOfSync u).secAt u).jump = none ∧ ((m.lossOfSync u).secAt u).blankPs = some (m.lossOfSync u).now
    ∧ (m.lossOfSync u).clk.upPs = max m.clk.upPs t ∧ 78 ∈ (m.lossOfSync u).seenEv := by
  unfold Mod.lossOfSync
  rw [ht]
  dsimp only
  rw [if_pos (by simp [hj, hr])]
  have reached : Only [.clk] m (m.reach t) := (Only.refl _ _).oReach (by decide)
  have clk : (m.reach t).now = max m.clk.upPs t := rfl
  generalize m.reach t = R at hn reached clk
  -- the instant is kept
  generalize hA : Mod.modSec u _ R = A
  have kept : Only [.sec] R A := by subst hA; exact (Only.refl _ _).oSec (by decide)
  have lenA : A.sec.length = m.sec.length := by subst hA; rw [secLen_modSec, reached .sec (by decide)]
  have times : (A.secAt u).losTimes = R.now :: (R.secAt u).losTimes.take 255 := by
    subst hA; rw [secAt_modSec _ _ _ (by rwa [reached .sec (by decide)])]
  clear hA
  have few : ¬ m.get (Ob.losN u) < A.losEvents u := by
    have := losEvents_le (kept .obj (by decide)) (kept .clk (by decide)) times
    omega
  -- the count is shown and told
  generalize hB : Mod.raise 78 _ _ _ _ = B
  have told : 78 ∈ B.seenEv := by subst hB; exact seen_raised _ _ _ _ _
  have onlyB : Only (.obj :: evParts) A B := by subst hB; exact ((Only.refl _ _).oput (by decide)).oraise _ _ _ _ (by decide)
  have entriesB : OnlyEntries [Ob.losInWindow u] A B := by subst hB; exact ((onlyEntries_refl _ _).oput (by simp)).raise _ _ _ _
  clear hB
  rw [if_neg (by simpa using few)]
  -- the section is blanked
  generalize hC : Mod.modSec u _ B = C
  have onlyC : Only [.sec] B C := by subst hC; exact (Only.refl _ _).oSec (by decide)
  have blanked : (C.secAt u).losTimes.head? = some R.now ∧ (C.secAt u).jump = none ∧ (C.secAt u).blankPs = some R.now := by
    subst hC
    rw [secAt_modSec _ _ _ (by rwa [onlyB.secLen (by decide), lenA]), secAt_eq (onlyB .sec (by decide))]
    exact ⟨by rw [times]; rfl, rfl, rfl⟩
  clear hC
  obtain ⟨head, jump, blank⟩ := blanked
  obtain ⟨only, entries, st, seen⟩ := rtTo_laws u rtLos C
  have toC : Only ([.clk, .obj, .sec] ++ evParts) m C :=
    (((reached.mono (by decide)).to kept (by decide)).to onlyB (by decide)).to onlyC (by decide)
  have entriesC : OnlyEntries [Ob.rtState u, Ob.losInWindow u] m C := by
    refine onlyEntries_obj (OnlyEntries.trans (b := A) ?_ (entriesB.mono (by simp))) (onlyC .obj (by decide))
    exact onlyEntries_obj (onlyEntries_obj (onlyEntries_refl _ _) (reached .obj (by decide))) (kept .obj (by decide))
  have now : (C.rtTo u rtLos).clk = R.clk :=
    (only .clk (by decide)).trans ((onlyC .clk (by decide)).trans ((onlyB .clk (by decide)).trans (kept .clk (by decide))))
  rw [secAt_eq (only .sec (by decide)), Mod.now, now]
  exact ⟨toC.to only (by decide), entriesC.trans (entries.mono (by simp)), st, head, jump, blank, clk,
    seen.mem (by rwa [onlyC .seenEv (by decide)])⟩

/-- LOS_BLANK elapsed leaves the resynchronisation for the boundary. -/
theorem losBlankEnd_laws {u t : Nat} {m : Mod} (hl : u < m.sec.length) (hr : m.rt u = rtLos) (ht : (m.secAt u).blankPs = some t) :
    Only [.clk, .sec] m (m.losBlankEnd u) ∧ ((m.losBlankEnd u).secAt u).blankEnds = true ∧ ((m.losBlankEnd u).secAt u).blankPs = none
    ∧ (m.losBlankEnd u).clk.upPs = max m.clk.upPs (t + msPs (m.get (Ob.losBlank u))) := by
  unfold Mod.losBlankEnd
  rw [ht]
  dsimp only
  rw [if_pos hr, secAt_modSec _ _ _ (by exact hl)]
  exact ⟨((Only.refl _ _).oReach (by decide)).oSec (by decide), rfl, rfl, rfl⟩

/-- A section in FORMING resynchronises at the phase and the speed of the grid. -/
theorem resync_forming {u : Nat} {m : Mod} (hv : u < m.eng.vsm.length) (hf : (m.secAt u).follow = false) :
    ((m.resync u).vsmAt u).theta = m.get (Ob.gridPhase u) ∧ ((m.resync u).vsmAt u).dw = m.gridDw u := by
  unfold Mod.resync
  dsimp only
  rw [if_neg (by simp [hf])]
  generalize hA : Mod.modVsm u _ m = A
  have len : u < A.eng.vsm.length := by subst hA; simpa [Mod.modVsm] using hv
  have grid : (A.vsmAt u).theta = m.get (Ob.gridPhase u) ∧ (A.vsmAt u).dw = m.gridDw u := by
    subst hA; rw [vsmAt_modVsm _ _ hv]; exact ⟨rfl, rfl⟩
  have record := vsmAt_modVsm A (fun v => { v with dwLp := m.gridDw u, start := 2 }) len
  exact ⟨(congrArg VsmRt.theta record).trans grid.1, (congrArg VsmRt.dw record).trans grid.2⟩

/-! ### The statement -/

/-- Settles O41: each event by the law of its operation. -/
theorem rideThroughGoesOn : Obligations.RideThroughGoesOn := by
  unfold Obligations.RideThroughGoesOn
  intro s u stage t hu hsec hvsm
  have hl : u < s.m.sec.length := by rwa [hsec]
  have hv : u < s.m.eng.vsm.length := by rwa [hvsm]
  refine ⟨fun hd hr hm low high => ?within, fun hd hr hg hm low => ?below, fun hs hd hg ht => ?frequency, rideActs_stops hl,
    fun hd hr ht => ?recovery, fun hr ho => ?complete, fun hj hr ht hn => ?lost, fun hr ht => ?blank, resync_forming hv,
    fun hlim hf ht => ?release⟩
  case within =>
    have op := curveCheck_lvrt hd hr hm
    rw [if_neg (Rat.not_lt.2 low), if_neg (Rat.not_lt.2 high)] at op
    refine does_sectionEvent rfl hu (fun _ => ?_)
    rw [op]
    exact ⟨(getS_putQ _ _ _).trans (sat29_q29OfLsb _), ((Only.refl _ _).oputQ (by decide)).oSaved (by decide),
      (onlyEntries_refl _ _).oputQ (by simp)⟩
  case below =>
    obtain ⟨only, entries, stops, shown⟩ := curveCheck_below hl hd hr hg hm low
    exact does_sectionEvent rfl hu (fun _ => ⟨stops, shown, (only.mono (by decide)).oSaved (by decide), entries⟩)
  case frequency =>
    obtain ⟨only, stops, clk⟩ := freqTrip_notes hl hd hg ht
    have arm : exec (.freqTripStage u stage) s = secStep u (Mod.freqTrip u stage) s := by
      show onUnit (secOk u && stage < 4) s _ = onUnit (secOk u) s _
      rw [decide_eq_true hs, Bool.and_true]
    exact does_sectionEvent arm hu (fun _ => ⟨stops, clk, (only.mono (by decide)).oSaved (by decide),
      onlyEntries_obj (onlyEntries_refl _ _) (only .obj (by decide))⟩)
  case recovery =>
    obtain ⟨only, entries, st, reference, clk⟩ := recovTimeMet_recovers hv hd hr ht
    exact does_sectionEvent rfl hu (fun _ => ⟨st, reference, clk, (only.mono (by decide)).oSaved (by decide), entries⟩)
  case complete =>
    obtain ⟨only, entries, st, ended⟩ := rtComplete_normal hl hr ho
    exact does_sectionEvent rfl hu (fun _ => ⟨st, ended, (only.mono (by decide)).oSaved (by decide), entries⟩)
  case lost =>
    obtain ⟨only, entries, st, head, jump, blank, clk, told⟩ := lossOfSync_blanks hl hj hr ht hn
    exact does_sectionEvent rfl hu (fun _ => ⟨st, head, jump, blank, clk, told, (only.mono (by decide)).oSaved (by decide), entries⟩)
  case blank =>
    obtain ⟨only, ends, ended, clk⟩ := losBlankEnd_laws hl hr ht
    exact does_sectionEvent rfl hu (fun _ => ⟨ends, ended, clk, (only.mono (by decide)).oSaved (by decide),
      onlyEntries_obj (onlyEntries_refl _ _) (only .obj (by decide))⟩)
  case release =>
    obtain ⟨only, limited, ramp, clk⟩ := limitRelease_ramps hl hv hlim hf ht
    exact does_sectionEvent rfl hu (fun _ => ⟨limited, ramp, clk, (only.mono (by decide)).oSaved (by decide)⟩)

end Sys2Proof.Machine
end

section
/-!
PROOFS. Trip sources (R264, R270 to R272, R284): what the FLT inputs, a lane's trip lines and Serac's second interlock do, how a
trip settles, and the statement that they act at once (O42).
-/
namespace Sys2Proof.Machine

/-! ### What waits after a trip -/

/-- A trip adds to what waits for the boundary, and changes nothing else of the protection. -/
theorem prot_assertTrip (fault cls sources channels legs : Nat) (groups units : List Nat) (perTick : Bool) (one : Option Nat) (m : Mod) :
    ∃ l, (m.assertTrip fault cls sources channels legs groups units perTick one).prot = { m.prot with pend := m.prot.pend ++ l } := by
  unfold Mod.assertTrip
  dsimp only
  generalize (if cls = 1 then groups.filter m.inUse else units) = us
  by_cases hu : us = []
  · rw [if_pos hu]
    exact ⟨[], by rw [List.append_nil]⟩
  · have hp : (m.each (groups.filter m.inUse) (Mod.tripGroup sources)).prot = m.prot :=
      only_each _ _ _ (fun _ _ => only_tripGroup _ _ _) .prot (by decide)
    rw [if_neg hu]
    unfold Mod.push
    rw [hp]
    exact ⟨_, rfl⟩

theorem only_prot (m : Mod) (p : ProtRt) : Only [.prot] m { m with prot := p } := by
  intro q hq; cases q <;> first | (exact absurd (by decide) hq) | rfl

/-! ### FLT inputs (R270, R284, R286) -/

/-- The FLT inputs that are low. -/
def fltLow (inputs : List FltInput) : List Nat := (List.range 16).filter (fun f => (inputs.getD f { fell := none }).fell.isSome)

/-- The low inputs whose filter newly completes. -/
def Mod.fltFresh (inputs : List FltInput) (m : Mod) : List Nat :=
  (fltLow inputs).filter (fun f => m.fltDone f (inputs.getD f { fell := none }) && !bit m.prot.fltOn f)

/-- The inputs that stand as sources: low, with a filter that has completed at some time since they fell. -/
def Mod.fltStanding (inputs : List FltInput) (m : Mod) : List Nat :=
  (fltLow inputs).filter (fun f => bit m.prot.fltOn f || m.fltDone f (inputs.getD f { fell := none }))

/-- The module with the inputs noted: which stand as sources, and which are low. -/
def Mod.fltNoted (inputs : List FltInput) (m : Mod) : Mod :=
  Mod.put Ob.fltLevel (maskOf (fltLow inputs)) { m with prot := { m.prot with fltOn := maskOf (m.fltStanding inputs) } }

/-- The trip of one FLT input. -/
def Mod.fltReport (f : Nat) (m : Mod) : Mod :=
  m.assertTrip 0x4402 1 (2 ^ f) 0 (m.legsOfFlt f) (groupsOf (m.get (Ob.fltTarget f))) [] false none

/-- FLT_TRIP notes the inputs, and then those newly complete trip one after another. -/
theorem fltTrip_eq (inputs : List FltInput) (m : Mod) :
    m.fltTrip inputs = (m.fltNoted inputs).each (m.fltFresh inputs) Mod.fltReport := rfl

section
variable {inputs : List FltInput} {f : Nat}

theorem mem_fltLow : f ∈ fltLow inputs ↔ f < 16 ∧ (inputs.getD f { fell := none }).fell.isSome = true := by
  rw [fltLow, List.mem_filter, List.mem_range]

theorem mem_fltFresh {m : Mod} : f ∈ m.fltFresh inputs ↔ (f < 16 ∧ (inputs.getD f { fell := none }).fell.isSome = true)
    ∧ m.fltDone f (inputs.getD f { fell := none }) = true ∧ bit m.prot.fltOn f = false := by
  rw [Mod.fltFresh, List.mem_filter, mem_fltLow, Bool.and_eq_true, Bool.not_eq_true']

theorem mem_fltStanding_of_fresh {m : Mod} (h : f ∈ m.fltFresh inputs) : f ∈ m.fltStanding inputs := by
  obtain ⟨low, done, -⟩ := mem_fltFresh.1 h
  exact List.mem_filter.2 ⟨mem_fltLow.2 low, by rw [done, Bool.or_true]⟩

theorem not_mem_fltLow (h : (inputs.getD f { fell := none }).fell = none) : f ∉ fltLow inputs := by
  rw [mem_fltLow, h]
  exact fun hf => absurd hf.2 (by decide)

end

theorem fltTarget_notTripKey {f : Nat} (h : f < 16) : Ob.fltTarget f ∉ allTripKeys := by
  have hall : ∀ k, k < 16 → Ob.fltTarget k ∉ allTripKeys := by decide
  exact hall f h

theorem fltNoted_target (inputs : List FltInput) (m : Mod) {f : Nat} (h : f < 16) :
    (m.fltNoted inputs).get (Ob.fltTarget f) = m.get (Ob.fltTarget f) :=
  get_put_other _ (by unfold Ob.fltTarget Ob.fltLevel; omega)

theorem fltNoted_inUse (inputs : List FltInput) (m : Mod) {g : Nat} (h : g < 8) : (m.fltNoted inputs).inUse g = m.inUse g := by
  unfold Mod.inUse Mod.layout
  rw [show (m.fltNoted inputs).get (Ob.grpLayout g) = m.get (Ob.grpLayout g) from
    get_put_other _ (by unfold Ob.grpLayout Ob.fltLevel; omega)]

/-- Whether the trip of an FLT input waits for the boundary, with the instant of its filter. -/
def FltWaits (f ps : Nat) (m : Mod) : Prop := ∃ a ∈ m.prot.pend, a.fault = 0x4402 ∧ a.cls = 1 ∧ a.sources = 2 ^ f ∧ a.atPs = ps

/-- What the trips of the inputs leave of the module: the targets, the groups in use and the standing sources among it. -/
def FltFrame (a x : Mod) : Prop := FocFrame a x ∧ x.prot.fltOn = a.prot.fltOn

theorem FltFrame.refl (a : Mod) : FltFrame a a := ⟨⟨Only.refl _ _, onlyEntries_refl _ _, rfl⟩, rfl⟩

namespace FltFrame
variable {a x : Mod} (h : FltFrame a x)
include h

theorem report (f : Nat) : FltFrame a (x.fltReport f) := by
  obtain ⟨⟨parts, entries, len⟩, standing⟩ := h
  obtain ⟨p, e, -⟩ := assertTrip_laws 0x4402 1 (2 ^ f) 0 (x.legsOfFlt f) (groupsOf (x.get (Ob.fltTarget f))) [] false none x (groupsOf_lt _)
  obtain ⟨l, hl⟩ := prot_assertTrip 0x4402 1 (2 ^ f) 0 (x.legsOfFlt f) (groupsOf (x.get (Ob.fltTarget f))) [] false none x
  refine ⟨⟨parts.trans p, entries.trans e, (grpLen_assertTrip ..).trans len⟩, ?_⟩
  rw [Mod.fltReport, hl]
  exact standing

theorem target {f : Nat} (hf : f < 16) : x.get (Ob.fltTarget f) = a.get (Ob.fltTarget f) := h.1.2.1 _ (fltTarget_notTripKey hf)

end FltFrame

/-- The trip of an input leaves what waits already, and the groups that it does not name. -/
theorem fltReport_keeps (f : Nat) (x : Mod) :
    (∀ k ps, FltWaits k ps x → FltWaits k ps (x.fltReport f))
    ∧ (∀ g, g < 8 → g < x.grp.length → x.inUse g = true → (x.grpAt g).latched = true ∧ (x.grpAt g).on = false →
        ((x.fltReport f).grpAt g).latched = true ∧ ((x.fltReport f).grpAt g).on = false)
    ∧ (∀ g, g < 8 → g < x.grp.length → g ∉ groupsOf (x.get (Ob.fltTarget f)) → (x.fltReport f).grpAt g = x.grpAt g) := by
  have hg := groupsOf_lt (x.get (Ob.fltTarget f))
  obtain ⟨-, -, -, -, stays⟩ := assertTrip_laws 0x4402 1 (2 ^ f) 0 (x.legsOfFlt f) _ [] false none x hg
  refine ⟨fun k ps ⟨a, ha, told⟩ => ?_, fun g h8 hl hi => tripped_assertTrip hg (fun h => absurd rfl h) h8 hl hi, stays⟩
  obtain ⟨l, hl⟩ := prot_assertTrip 0x4402 1 (2 ^ f) 0 (x.legsOfFlt f) (groupsOf (x.get (Ob.fltTarget f))) [] false none x
  exact ⟨a, by rw [Mod.fltReport, hl]; exact List.mem_append_left _ ha, told⟩

/-- The trip of an input takes the groups in use of its FLT_TARGET, and waits. -/
theorem fltReport_trips (f : Nat) (x : Mod) :
    (∀ g ∈ groupsOf (x.get (Ob.fltTarget f)), x.inUse g = true → g < x.grp.length →
      ((x.fltReport f).grpAt g).latched = true ∧ ((x.fltReport f).grpAt g).on = false)
    ∧ ((∃ g ∈ groupsOf (x.get (Ob.fltTarget f)), x.inUse g = true) → FltWaits f x.now (x.fltReport f)) := by
  obtain ⟨-, -, waits, trips, -⟩ := assertTrip_laws 0x4402 1 (2 ^ f) 0 (x.legsOfFlt f) _ [] false none x
    (groupsOf_lt (x.get (Ob.fltTarget f)))
  refine ⟨trips (fun h => absurd rfl h), fun hu => ?_⟩
  obtain ⟨a, hp, fault, cls, sources, -, -, atPs⟩ := waits (fun _ => hu) (fun h => absurd rfl h)
  exact ⟨a, by rw [Mod.fltReport, hp]; exact List.mem_append_right _ List.mem_cons_self, fault, cls, sources, atPs⟩

/-- What FLT_TRIP leaves once the inputs are noted. -/
theorem fltTrip_frame (inputs : List FltInput) (m : Mod) : FltFrame (m.fltNoted inputs) (m.fltTrip inputs) :=
  each_invariant (FltFrame.refl _) (fun f _ _ h => h.report f)

/-- An input whose filter newly completes trips the groups in use of its target, and its fault waits. -/
theorem fltTrip_trips {inputs : List FltInput} {f : Nat} {m : Mod} (hf : f ∈ m.fltFresh inputs) :
    (∀ g ∈ groupsOf (m.get (Ob.fltTarget f)), m.inUse g = true → g < m.grp.length →
      ((m.fltTrip inputs).grpAt g).latched = true ∧ ((m.fltTrip inputs).grpAt g).on = false)
    ∧ ((∃ g ∈ groupsOf (m.get (Ob.fltTarget f)), m.inUse g = true) → FltWaits f m.now (m.fltTrip inputs)) := by
  have f16 : f < 16 := (mem_fltFresh.1 hf).1.1
  have target : ∀ {x}, FltFrame (m.fltNoted inputs) x → x.get (Ob.fltTarget f) = m.get (Ob.fltTarget f) :=
    fun h => (h.target f16).trans (fltNoted_target inputs m f16)
  have inUse : ∀ {x g}, FltFrame (m.fltNoted inputs) x → g < 8 → x.inUse g = m.inUse g :=
    fun h h8 => (h.1.inUse h8).trans (fltNoted_inUse inputs m h8)
  rw [fltTrip_eq]
  refine ⟨fun g hg hi hlen => ?_, fun ⟨g, hg, hi⟩ => ?_⟩
  · have h8 := groupsOf_lt _ g hg
    refine each_establishes (P := fun x => (x.grpAt g).latched = true ∧ (x.grpAt g).on = false) hf (FltFrame.refl _) (fun k _ _ h => h.report k)
      (fun k _ x hx tripped => ?_) (fun x hx => ?_)
    · obtain ⟨-, keeps, -⟩ := fltReport_keeps k x
      exact keeps g h8 (by rw [hx.1.2.2]; exact hlen) (by rw [inUse hx h8]; exact hi) tripped
    · exact (fltReport_trips f x).1 g (by rw [target hx]; exact hg) (by rw [inUse hx h8]; exact hi) (by rw [hx.1.2.2]; exact hlen)
  · refine each_establishes hf (FltFrame.refl _) (fun k _ _ h => h.report k) (fun k _ x _ waits => (fltReport_keeps k x).1 _ _ waits) (fun x hx => ?_)
    have waits := (fltReport_trips f x).2 ⟨g, by rw [target hx]; exact hg, by rw [inUse hx (groupsOf_lt _ g hg)]; exact hi⟩
    rw [hx.1.now] at waits
    exact waits

/-- A group that no newly complete input names is left. -/
theorem fltTrip_leaves {inputs : List FltInput} {g : Nat} {m : Mod} (h8 : g < 8) (hlen : g < m.grp.length)
    (hno : ∀ f ∈ m.fltFresh inputs, g ∉ groupsOf (m.get (Ob.fltTarget f))) : (m.fltTrip inputs).grpAt g = m.grpAt g := by
  refine (each_invariant (I := fun x => FltFrame (m.fltNoted inputs) x ∧ x.grpAt g = m.grpAt g)
    ⟨FltFrame.refl _, rfl⟩ (fun f hf x ⟨hx, same⟩ => ⟨hx.report f, ?_⟩)).2
  have f16 : f < 16 := (mem_fltFresh.1 hf).1.1
  obtain ⟨-, -, keeps⟩ := fltReport_keeps f x
  rw [keeps g h8 (by rw [hx.1.2.2]; exact hlen) (by rw [hx.target f16, fltNoted_target inputs m f16]; exact hno f hf), same]

/-- FLT_TRIP shows the standing sources and the levels of the inputs. -/
theorem fltTrip_shows (inputs : List FltInput) (m : Mod) (f : Nat) :
    bit (m.fltTrip inputs).prot.fltOn f = decide (f ∈ m.fltStanding inputs)
    ∧ bit ((m.fltTrip inputs).get Ob.fltLevel) f = decide (f ∈ fltLow inputs) := by
  obtain ⟨⟨-, entries, -⟩, standing⟩ := fltTrip_frame inputs m
  rw [standing, entries Ob.fltLevel (by decide), Mod.fltNoted, get_put_same]
  exact ⟨bit_maskOf _ f, bit_maskOf _ f⟩

theorem only_fltTrip (inputs : List FltInput) (m : Mod) : Only [.obj, .grp, .prot] m (m.fltTrip inputs) :=
  (((only_prot m _).mono (by decide)).oput (by decide)).trans (fltTrip_frame inputs m).1.1

/-! ### A lane's trip lines (R271, R284) -/

/-- The request bit of one lane. -/
theorem laneBits_lane {l : Nat} (h : l < 2) : laneBits (2 ^ l) = 2 ^ (16 + l) := by
  have hall : ∀ k, k < 2 → laneBits (2 ^ k) = 2 ^ (16 + k) := by decide
  exact hall l h

/-- The lines of a lane that requested nothing: every group that they name is new. -/
theorem laneTrip_eq {l gs : Nat} {m : Mod} (h : m.prot.laneReq.getD l 0 = 0) : ∃ p : ProtRt, p.pend = m.prot.pend ∧ ∃ one,
    m.laneTrip l gs = Mod.assertTrip 0x4401 1 (laneBits (2 ^ l)) 0 0 (groupsOf gs) [] false one { m with prot := p } := by
  have fresh : (groupsOf gs).filter (fun g => !bit 0 g) = groupsOf gs := List.filter_eq_self.2 (fun g _ => by simp [bit])
  unfold Mod.laneTrip
  dsimp only
  rw [h, fresh]
  exact ⟨{ m.prot with laneReq := m.prot.laneReq.set l (gs % 256) }, rfl, _, rfl⟩

/-- A request of a lane that requested nothing trips the groups in use that it names, and waits. -/
theorem laneTrip_laws {l gs : Nat} {m : Mod} (hl : l < 2) (h : m.prot.laneReq.getD l 0 = 0) :
    Only [.obj, .grp, .prot] m (m.laneTrip l gs)
    ∧ (∀ g ∈ groupsOf gs, m.inUse g = true → g < m.grp.length →
        ((m.laneTrip l gs).grpAt g).latched = true ∧ ((m.laneTrip l gs).grpAt g).on = false)
    ∧ (∀ g, g < 8 → g < m.grp.length → g ∉ groupsOf gs → (m.laneTrip l gs).grpAt g = m.grpAt g)
    ∧ ((∃ g ∈ groupsOf gs, m.inUse g = true) → ∃ a, (m.laneTrip l gs).prot.pend = m.prot.pend ++ [a]
        ∧ a.cls = 1 ∧ a.sources = 2 ^ (16 + l) ∧ a.atPs = m.now) := by
  obtain ⟨p, hp, one, heq⟩ := laneTrip_eq (gs := gs) h
  obtain ⟨parts, -, waits, trips, stays⟩ := assertTrip_laws 0x4401 1 (laneBits (2 ^ l)) 0 0 (groupsOf gs) [] false one { m with prot := p }
    (groupsOf_lt gs)
  rw [heq]
  refine ⟨((only_prot m p).mono (by decide)).trans parts, trips (fun h => absurd rfl h), stays, fun hu => ?_⟩
  obtain ⟨a, pend, -, cls, sources, -, -, atPs⟩ := waits (fun _ => hu) (fun h => absurd rfl h)
  exact ⟨a, by rw [pend, ← hp], cls, sources.trans (laneBits_lane hl), atPs⟩

/-! ### Serac's second interlock (R264) -/

/-- The interlock trips the group of the pair with EV048, and the active lane's withdrawal falls due. -/
theorem interlock_laws {pair g : Nat} {m : Mod} (b : Bool) (hp : m.groupOfPair pair = some g) (hi : m.inUse g = true) (h8 : g < 8)
    (hl : g < m.grp.length) :
    Only ([.obj, .grp, .prot, .arb] ++ evParts) m (m.interlock pair b)
    ∧ ((m.interlock pair b).grpAt g).latched = true ∧ ((m.interlock pair b).grpAt g).on = false ∧ 48 ∈ (m.interlock pair b).seenEv
    ∧ (∃ a, (m.interlock pair b).prot.pend = m.prot.pend ++ [a] ∧ a.fault = 0x4406 ∧ a.cls = 1 ∧ a.trips = [g])
    ∧ (m.interlock pair b).arb.due = m.arb.due ++ [(m.lane, 0x4001)] := by
  unfold Mod.interlock
  rw [hp]
  dsimp only
  obtain ⟨parts, -, waits, trips, -⟩ := assertTrip_laws 0x4406 1 (2 ^ 18) 0 (m.legBitOfPair pair) [g] [] false none m (by simpa using h8)
  obtain ⟨a, pend, fault, cls, -, -, named, -⟩ := waits (fun _ => ⟨g, List.mem_singleton_self g, hi⟩) (fun h => absurd rfl h)
  obtain ⟨latched, off⟩ := trips (fun h => absurd rfl h) g (List.mem_singleton_self g) hi hl
  generalize m.assertTrip .. = A at parts pend latched off
  generalize pair + 32 * b2n b + 256 * g = arg
  have raised : Only evParts A (A.raise 48 sevFault 0x4001 arg) := (Only.refl _ _).oraise _ _ _ _ (fun _ h => h)
  have later : Only (.arb :: evParts) A ((A.raise 48 sevFault 0x4001 arg).laneFailsLater m.lane 0x4001) :=
    (raised.mono (by decide)).oArb (by decide)
  have grp := grpAt_eq (later .grp (by decide)) g
  refine ⟨(parts.mono (by decide)).to later (by decide), by rw [grp]; exact latched, by rw [grp]; exact off,
    seen_raised A 48 sevFault 0x4001 arg, ⟨a, ?_, fault, cls, ?_⟩, ?_⟩
  · rw [show (Mod.laneFailsLater ..).prot = A.prot from later .prot (by decide), pend]
  · rw [named, List.filter_cons_of_pos hi, List.filter_nil]
  · show (A.raise 48 sevFault 0x4001 arg).arb.due ++ [(m.lane, 0x4001)] = _
    rw [show (A.raise 48 sevFault 0x4001 arg).arb = A.arb from raised .arb (by decide), show A.arb = m.arb from parts .arb (by decide)]

/-! ### A trip that settles (R272) -/

theorem tripSettled_of_tripping {g : Nat} {m : Mod} (h : (m.grpAt g).pins = .tripping) : m.tripSettled g =
    (m.reach ((m.grpAt g).offPs + m.get (Ob.safeDt g))).modGrp g (fun x => { x with pins := .safe }) := by
  unfold Mod.tripSettled
  rw [h]

/-- Settles O42: each source on the module as its instant finds it, and the trip that settles. -/
theorem tripSourcesActAtOnce : Obligations.TripSourcesActAtOnce := by
  unfold Obligations.TripSourcesActAtOnce
  intro s dt f l gs pair g hf hl hg len
  have pass : Only [.clk] s.m (s.m.passNs dt) := (Only.refl _ _).oPass (by decide)
  have inRange : ∀ {h}, h < 8 → h < (s.m.passNs dt).grp.length := fun h8 => by rw [show (s.m.passNs dt).grp = s.m.grp from rfl, len]; exact h8
  have now : ∀ {ps n}, Only ps (s.m.passNs dt) n → Part.clk ∉ ps → n.now = s.m.now + dt * 1000 := fun h hc =>
    congrArg Clock.upPs (h .clk hc)
  refine ⟨fun inputs => ⟨_, rfl, ?inputs⟩, fun hreq => ?request, fun hp hpair hi b => ?interlock, fun hpins => ?settled⟩
  case inputs =>
    have parts := only_fltTrip inputs (s.m.passNs dt)
    obtain ⟨standing, level⟩ := fltTrip_shows inputs (s.m.passNs dt) f
    refine ⟨now parts (by decide), fun low done new => ?_, fun high => ?_, fun h h8 hno => ?_, (pass.mono (by decide)).to parts (by decide)⟩
    · have fresh : f ∈ (s.m.passNs dt).fltFresh inputs := mem_fltFresh.2 ⟨⟨hf, low⟩, done, new⟩
      obtain ⟨trips, waits⟩ := fltTrip_trips fresh
      exact ⟨standing.trans (decide_eq_true (mem_fltStanding_of_fresh fresh)), level.trans (decide_eq_true (mem_fltLow.2 ⟨hf, low⟩)),
        fun h hm hi => trips h hm hi (inRange (groupsOf_lt _ h hm)), waits⟩
    · have hn := not_mem_fltLow high
      exact ⟨standing.trans (decide_eq_false (fun h => hn (List.mem_filter.1 h).1)), level.trans (decide_eq_false hn)⟩
    · refine fltTrip_leaves (m := s.m.passNs dt) h8 (inRange h8) (fun k hk => ?_)
      obtain ⟨⟨k16, low⟩, done, new⟩ := mem_fltFresh.1 hk
      exact hno k k16 low done new
  case request =>
    obtain ⟨parts, trips, stays, waits⟩ := laneTrip_laws (gs := gs) (m := s.m.passNs dt) hl hreq
    exact does_unit rfl (decide_eq_true hl) ⟨now parts (by decide), fun h hm hi => trips h hm hi (inRange (groupsOf_lt _ h hm)),
      fun h h8 => stays h h8 (inRange h8), waits, (pass.mono (by decide)).to parts (by decide)⟩
  case interlock =>
    obtain ⟨parts, latched, off, seen, waits, due⟩ := interlock_laws (m := s.m.passNs dt) b hpair hi hg (inRange hg)
    exact does_unit rfl (decide_eq_true hp) ⟨now parts (by decide), latched, off, seen, waits, due, (pass.mono (by decide)).to parts (by decide)⟩
  case settled =>
    refine does_unit (M := s.m.tripSettled g) rfl (decide_eq_true hg) ?_
    rw [tripSettled_of_tripping hpins]
    generalize hR : s.m.reach _ = R
    have reached : Only [.clk] s.m R := by subst hR; exact (Only.refl _ _).oReach (by decide)
    have same := grpAt_eq (reached .grp (by decide))
    have settled := grpAt_modGrp R g (fun x => { x with pins := .safe }) (by rw [show R.grp = s.m.grp from reached .grp (by decide), len]; exact hg)
    refine ⟨by rw [settled], by rw [settled, same], fun h hne => by rw [grpAt_modGrp_other _ _ _ _ hne, same], by subst hR; rfl,
      (reached.mono (by decide)).oGrp (by decide)⟩

end Sys2Proof.Machine
end

section
/-!
PROOFS. Recovery and hold (R284, R285, R297, R303): the trip and the warning of a DC link, what it does that a fault recovers, awaits
its clear or becomes permanent, the end of a hold by HOLD_MAX, and the statement that puts them together (O44).
-/
namespace Sys2Proof.Machine

/-! ### A DC link (R284, R285) -/

theorem linkAt_modify {l : List LinkRt} {c : Nat} (f : LinkRt → LinkRt) (h : c < l.length) : (l.modify c f).getD c {} = f (l.getD c {}) := by
  simp [List.getD_eq_getElem?_getD, h]

theorem dclinkTrip_asserts {c : Nat} {m : Mod} (off : (m.prot.links.getD c {}).overOn = false)
    (stood : m.get (Ob.dclTime c) ≤ (m.prot.links.getD c {}).overTicks) : m.dclinkTrip c true = m.linkAsserts c true := by
  unfold Mod.dclinkTrip
  dsimp only
  generalize m.prot.links.getD c {} = x at off stood
  rw [if_neg (by simp [off, stood])]

/-- An overvoltage stands as a source, trips the groups in use of its channel, and waits with the instant of its tick. -/
theorem linkAsserts_laws {c : Nat} {m : Mod} (hc : c < m.prot.links.length) :
    ((m.linkAsserts c true).prot.links.getD c {}).overOn = true
    ∧ (∀ g ∈ groupsOf (m.owners c), m.inUse g = true → g < m.grp.length →
        ((m.linkAsserts c true).grpAt g).latched = true ∧ ((m.linkAsserts c true).grpAt g).on = false)
    ∧ (∀ g, g < 8 → g < m.grp.length → g ∉ groupsOf (m.owners c) → (m.linkAsserts c true).grpAt g = m.grpAt g)
    ∧ ((∃ g ∈ groupsOf (m.owners c), m.inUse g = true) → ∃ a, (m.linkAsserts c true).prot.pend = m.prot.pend ++ [a]
        ∧ a.fault = 0x4404 ∧ a.cls = 1 ∧ a.channels = 2 ^ c ∧ a.atPs = m.clk.t0Ps)
    ∧ Only [.obj, .grp, .prot] m (m.linkAsserts c true) := by
  unfold Mod.linkAsserts
  dsimp only
  rw [if_pos rfl]
  generalize hp : ProtRt.mk .. = p
  have stands : (p.links.getD c {}).overOn = true := by
    subst hp
    exact (congrArg LinkRt.overOn (linkAt_modify _ hc)).trans rfl
  have pend : p.pend = m.prot.pend := by subst hp; rfl
  clear hp
  obtain ⟨parts, -, waits, trips, stays⟩ := assertTrip_laws 0x4404 1 (laneBits m.lanesUp) (2 ^ c) 0 (groupsOf (m.owners c)) [] true none
    { m with prot := p } (groupsOf_lt _)
  obtain ⟨l, prot⟩ := prot_assertTrip 0x4404 1 (laneBits m.lanesUp) (2 ^ c) 0 (groupsOf (m.owners c)) [] true none { m with prot := p }
  refine ⟨by rw [prot]; exact stands, trips (fun h => absurd rfl h), stays, fun used => ?_, ((only_prot m p).mono (by decide)).trans parts⟩
  obtain ⟨a, waiting, fault, cls, -, channels, -, atPs⟩ := waits (fun _ => used) (fun h => absurd rfl h)
  exact ⟨a, by rw [waiting, ← pend], fault, cls, channels, atPs⟩

/-- A warning that is armed disarms as it is told (R285). -/
theorem dclinkWarn_laws {c : Nat} {m : Mod} (hc : c < m.prot.links.length) (armed : (m.prot.links.getD c {}).armed = true)
    (stood : m.get (Ob.dclTime c) ≤ (m.prot.links.getD c {}).warn) :
    ((m.dclinkWarn c).prot.links.getD c {}).armed = false ∧ Tells 62 sevWarn 0x4404 c m (m.dclinkWarn c)
    ∧ Only (.prot :: evParts) m (m.dclinkWarn c) := by
  unfold Mod.dclinkWarn
  dsimp only
  rw [if_pos (by rw [armed, decide_eq_true stood]; rfl)]
  generalize hA : Mod.mk .. = A
  have disarmed : (A.prot.links.getD c {}).armed = false := by
    subst hA
    exact congrArg LinkRt.armed (linkAt_modify _ hc)
  have noted : Only [.prot] m A := by subst hA; exact only_prot m _
  clear hA
  refine ⟨?_, noted.tells_raise _ _ _ _ (by decide) (by decide) (by decide), (noted.mono (by decide)).oraise _ _ _ _ (by decide)⟩
  rw [show (A.raise 62 _ _ _).prot = A.prot from raise_part A _ _ _ _ .prot (by decide)]
  exact disarmed

/-! ### Counters of units (R292) -/

theorem inst_eq {a b : Mod} (h : b.prot.insts = a.prot.insts) (cls unit : Nat) : b.inst cls unit = a.inst cls unit := by
  unfold Mod.inst; rw [h]

/-- The counter of a unit bears the class and the unit by which it is found. -/
theorem inst_named (m : Mod) (cls unit : Nat) : (m.inst cls unit).cls = cls ∧ (m.inst cls unit).unit = unit := by
  unfold Mod.inst
  cases h : m.prot.insts.find? (fun i => i.cls = cls && i.unit = unit) with
  | none => exact ⟨rfl, rfl⟩
  | some i => simpa using List.find?_some h

/-- An element put in place of those that meet a condition is the first to meet it. -/
theorem find_replaced {α : Type} {p : α → Bool} {a : α} (ha : p a = true) {l : List α} (found : l.any p = true) :
    (l.map (fun x => if p x = true then a else x)).find? p = some a := by
  induction l with
  | nil => exact absurd found (by simp)
  | cons x l ih =>
    by_cases hx : p x = true
    · simp [hx, ha]
    · have rest : l.any p = true := by simpa [hx] using found
      rw [List.map_cons, if_neg hx, List.find?_cons_of_neg hx, ih rest]

/-- A counter that is changed is found as it was changed. -/
theorem inst_setInst {i : Inst} {cls unit : Nat} (m : Mod) (named : i.cls = cls ∧ i.unit = unit) : (m.setInst i).inst cls unit = i := by
  obtain ⟨rfl, rfl⟩ := named
  unfold Mod.inst Mod.setInst
  dsimp only
  by_cases found : (m.prot.insts.any (fun j => j.cls = i.cls && j.unit = i.unit)) = true
  · rw [if_pos found, find_replaced (by simp) found]
    rfl
  · rw [if_neg found, List.find?_append, List.find?_eq_none.2 (fun j hj hm => found (List.any_eq_true.2 ⟨j, hj, hm⟩))]
    simp

theorem recov_setInst {i : Inst} {cls unit : Nat} (m : Mod) (named : i.cls = cls ∧ i.unit = unit) :
    ((m.setInst i).inst cls unit).recov = i.recov := congrArg Inst.recov (inst_setInst m named)

/-- A change of a counter leaves the others. -/
theorem mem_setInst {i j : Inst} {m : Mod} (h : j ∈ (m.setInst i).prot.insts) :
    j = i ∨ (j ∈ m.prot.insts ∧ ¬(j.cls = i.cls ∧ j.unit = i.unit)) := by
  unfold Mod.setInst at h
  dsimp only at h
  split at h
  · obtain ⟨k, hk, rfl⟩ := List.mem_map.1 h
    by_cases same : (decide (k.cls = i.cls) && decide (k.unit = i.unit)) = true
    · exact .inl (if_pos same)
    · rw [if_neg same]
      exact .inr ⟨hk, by simpa using same⟩
  · rename_i absent
    rcases List.mem_append.1 h with hm | hm
    · exact .inr ⟨hm, fun same => absent (List.any_eq_true.2 ⟨j, hm, by simp [same]⟩)⟩
    · exact .inl (List.mem_singleton.1 hm)

/-! ### A fault recovers (R297) -/

/-- The module once a fault is settled: its counter waits for nothing, and FAULT_STATE shows it. -/
def Mod.faultSettled (cls unit : Nat) (m : Mod) : Mod :=
  (m.setInst { m.inst cls unit with recov := none, settled := some m.clk.t0Ps }).put (Ob.unitFaultState (statusIx cls unit))
    (if cls = 1 then 3 else 0)

/-- The groups that a fault tripped, and that no other fault holds. -/
def Mod.freeGroups (m : Mod) (r : Recovery) : List Nat := r.trips.filter (fun g => !m.held g && !m.retired 1 g)

/-- The clear of some groups, where there are any. -/
def Mod.stageClear (free : List Nat) (m : Mod) : Mod :=
  if free = [] then m else m.stageLocal (Ob.pwmTripClear / 256) [free.foldl (fun a g => a + 2 ^ g) 0]

/-- The start of a unit once its fault has recovered. -/
def Mod.stageRestart (g : Nat) (m : Mod) : Mod := m.stageLocal ((if g < 4 then Ob.gfCommand g else Ob.dcCommand (g - 4)) / 256) [0]

theorem recovered_eq (cls unit : Nat) (r : Recovery) (m : Mod) : ∃ again arg, m.recovered cls unit r =
    (((m.faultSettled cls unit).stageClear ((m.faultSettled cls unit).freeGroups r)).each again Mod.stageRestart).inform 55 arg :=
  ⟨_, _, rfl⟩

theorem only_stageLocal (idx : Nat) (args : List Nat) (m : Mod) : Only [.staged] m (m.stageLocal idx args) := by
  intro p hp; cases p <;> first | (exact absurd (by decide) hp) | rfl

theorem only_stageClear (free : List Nat) (m : Mod) : Only [.staged] m (m.stageClear free) := by
  unfold Mod.stageClear
  split
  · exact Only.refl _ _
  · exact only_stageLocal _ _ m

/-- The starts stand behind what is staged. -/
theorem staged_restarts (again : List Nat) (m : Mod) : ∃ l, (m.each again Mod.stageRestart).staged = m.staged ++ l :=
  each_invariant (I := fun x => ∃ l, x.staged = m.staged ++ l) ⟨[], (List.append_nil _).symm⟩ (fun g _ x ⟨l, hl⟩ =>
    ⟨_, by rw [Mod.stageRestart, Mod.stageLocal, hl, List.append_assoc]⟩)

theorem faultSettled_recov (cls unit : Nat) (m : Mod) : ((m.faultSettled cls unit).inst cls unit).recov = none := by
  unfold Mod.faultSettled
  rw [inst_eq (congrArg ProtRt.insts (put_prot ..))]
  exact recov_setInst m (inst_named m cls unit)

/-- A group that no other fault in recovery has tripped is held no more. -/
theorem faultSettled_frees {cls unit : Nat} {m : Mod} (alone : ∀ i ∈ m.prot.insts, i.recov = none ∨ (i.cls = cls ∧ i.unit = unit)) (g : Nat) :
    (m.faultSettled cls unit).held g = false := by
  unfold Mod.held Mod.faultSettled
  refine List.any_eq_false.2 (fun i hi => ?_)
  have settled : i.recov = none := by
    rcases mem_setInst hi with rfl | ⟨hm, other⟩
    · rfl
    · obtain ⟨hc, hu⟩ := inst_named m cls unit
      exact (alone i hm).resolve_right (fun same => other ⟨same.1.trans hc.symm, same.2.trans hu.symm⟩)
  rw [settled]
  exact Bool.false_ne_true

/-- A unit of the power path alone in recovery is free to clear. -/
theorem freeGroups_own {unit : Nat} {r : Recovery} {m : Mod} (own : r.trips = [unit])
    (alone : ∀ i ∈ m.prot.insts, i.recov = none ∨ (i.cls = 1 ∧ i.unit = unit)) : (m.faultSettled 1 unit).freeGroups r = [unit] := by
  have kept : (m.faultSettled 1 unit).retired 1 unit = false := by
    have shown : (m.faultSettled 1 unit).faultState 1 unit = 3 := get_put_same _
    rw [Mod.retired, shown]; rfl
  rw [Mod.freeGroups, own, List.filter_cons_of_pos (by rw [faultSettled_frees alone, kept]; rfl), List.filter_nil]

/-- From `a` to `b` the fault of a unit recovers, at an instant or later: it is settled, shown, and told of with EV055. -/
structure Recovers (cls unit ps : Nat) (a b : Mod) : Prop where
  settled : (b.inst cls unit).recov = none
  shown   : b.get (Ob.unitFaultState (statusIx cls unit)) = (if cls = 1 then 3 else 0)
  told    : 55 ∈ b.seenEv
  reached : ps ≤ b.now
  parts   : Only ([.clk, .obj, .prot, .staged] ++ evParts) a b
  entries : OnlyEntries [Ob.unitFaultState (statusIx cls unit)] a b

theorem recovers_at (cls unit ps : Nat) (r : Recovery) (m : Mod) : Recovers cls unit ps m ((m.reach ps).recovered cls unit r) := by
  obtain ⟨again, arg, heq⟩ := recovered_eq cls unit r (m.reach ps)
  rw [heq]
  have before : Only [.clk, .obj, .prot] m ((m.reach ps).faultSettled cls unit) := by
    unfold Mod.faultSettled
    exact (((Only.refl _ _).oReach (by decide)).oInst (by decide)).oput (by decide)
  have entries : OnlyEntries [Ob.unitFaultState (statusIx cls unit)] m ((m.reach ps).faultSettled cls unit) :=
    (((onlyEntries_refl _ _).oReach).oInst).oput (by simp)
  have recov := faultSettled_recov cls unit (m.reach ps)
  have shown : ((m.reach ps).faultSettled cls unit).get (Ob.unitFaultState (statusIx cls unit)) = (if cls = 1 then 3 else 0) := get_put_same _
  have now : ((m.reach ps).faultSettled cls unit).clk.upPs = max m.clk.upPs ps := rfl
  generalize (m.reach ps).faultSettled cls unit = A at before entries recov shown now
  have stages : Only [.staged] A ((A.stageClear (A.freeGroups r)).each again Mod.stageRestart) :=
    (only_stageClear _ A).oeach (fun _ _ => only_stageLocal _ _ _)
  generalize (A.stageClear (A.freeGroups r)).each again Mod.stageRestart = B at stages
  have after : Only (.staged :: evParts) A (B.inform 55 arg) := (stages.mono (by decide)).oinform _ _ (by decide)
  exact {
    settled := by rw [inst_eq (congrArg ProtRt.insts (after .prot (by decide)))]; exact recov
    shown := by rw [after.get (by decide)]; exact shown
    told := seen_raised ..
    reached := by unfold Mod.now; rw [after .clk (by decide), now]; exact Nat.le_max_right _ _
    parts := (before.mono (by decide)).to after (by decide)
    entries := onlyEntries_obj entries (after .obj (by decide)) }

theorem staged_stageClear (g : Nat) (m : Mod) : ∃ x, (m.stageClear [g]).staged = m.staged ++ [x] ∧ x.snd = .localSafety
    ∧ x.work = .unitAct (Ob.pwmTripClear / 256) [2 ^ g] :=
  ⟨_, congrArg Mod.staged (if_neg (List.cons_ne_nil _ _)), rfl, by simp⟩

/-- The local safety source stages the clear of a unit that no other fault holds. -/
theorem recovered_stages {unit : Nat} {r : Recovery} {m : Mod} (own : r.trips = [unit])
    (alone : ∀ i ∈ m.prot.insts, i.recov = none ∨ (i.cls = 1 ∧ i.unit = unit)) :
    ∃ x l, (m.recovered 1 unit r).staged = m.staged ++ x :: l ∧ x.snd = .localSafety
      ∧ x.work = .unitAct (Ob.pwmTripClear / 256) [2 ^ unit] := by
  obtain ⟨again, arg, heq⟩ := recovered_eq 1 unit r m
  obtain ⟨x, hx, sender, work⟩ := staged_stageClear unit (m.faultSettled 1 unit)
  obtain ⟨l, hl⟩ := staged_restarts again ((m.faultSettled 1 unit).stageClear [unit])
  refine ⟨x, l, ?_, sender, work⟩
  rw [heq, freeGroups_own own alone, show Mod.staged (Mod.inform ..) = _ from inform_part _ _ _ .staged (by decide), hl, hx,
    List.append_assoc]
  rfl

/-! ### The recovery delay, the checks and the retry timeout (R297) -/

section
variable {cls unit : Nat} {r : Recovery} {m : Mod} (waits : (m.inst cls unit).recov = some r)
include waits

theorem recoveryEnd_clear (begun : r.awaiting = false) (clear : m.sourceActive cls unit r = false) :
    m.recoveryEnd cls unit = (m.reach r.endPs).recovered cls unit r := by
  unfold Mod.recoveryEnd
  rw [waits]
  dsimp only
  rw [if_neg (by simp [begun])]
  exact if_neg (by rw [show (m.reach r.endPs).sourceActive cls unit r = false from clear]; decide)

theorem recoveryEnd_active (begun : r.awaiting = false) (active : m.sourceActive cls unit r = true) :
    m.recoveryEnd cls unit = ((m.reach r.endPs).setInst { m.inst cls unit with recov := some { r with awaiting := true } }).put
      (Ob.unitFaultState (statusIx cls unit)) 2 := by
  unfold Mod.recoveryEnd
  rw [waits]
  dsimp only
  rw [if_neg (by simp [begun])]
  exact if_pos active

theorem clearRecheck_clear (awaits : r.awaiting = true) (early : r.checkPs < r.retryPs) (clear : m.sourceActive cls unit r = false) :
    m.clearRecheck cls unit = (m.reach r.checkPs).recovered cls unit r := by
  unfold Mod.clearRecheck
  rw [waits]
  dsimp only
  rw [if_neg (by simp [awaits, early])]
  exact if_neg (by rw [show (m.reach r.checkPs).sourceActive cls unit r = false from clear]; decide)

theorem clearRecheck_active (awaits : r.awaiting = true) (early : r.checkPs < r.retryPs) (active : m.sourceActive cls unit r = true) :
    m.clearRecheck cls unit
      = (m.reach r.checkPs).setInst { m.inst cls unit with recov := some { r with checkPs := r.checkPs + msPs 100 } } := by
  unfold Mod.clearRecheck
  rw [waits]
  dsimp only
  rw [if_neg (by simp [awaits, early])]
  exact if_pos active

theorem retryTimeout_clear (awaits : r.awaiting = true) (clear : m.sourceActive cls unit r = false) :
    m.retryTimeout cls unit = (m.reach r.retryPs).recovered cls unit r := by
  unfold Mod.retryTimeout
  rw [waits]
  dsimp only
  rw [if_neg (by simp [awaits])]
  exact if_neg (by rw [show (m.reach r.retryPs).sourceActive cls unit r = false from clear]; decide)

end

/-! ### A record (R289, R291) -/

theorem writeRecord_laws (r : FaultRec) (m : Mod) :
    Only [.obj, .sto, .prot] m (m.writeRecord r) ∧ OnlyEntries [Ob.recordCount, Ob.lastFault] m (m.writeRecord r)
    ∧ (m.writeRecord r).get Ob.recordCount = (m.get Ob.recordCount + 1) % 4294967296
    ∧ ∃ log, (m.writeRecord r).prot = { m.prot with log := log } := by
  unfold Mod.writeRecord
  dsimp only
  refine ⟨(((only_prot m _).mono (by decide)).okeep (by decide) (by decide)).oput (by decide), ?_, ?_, ⟨_, rfl⟩⟩
  · exact ((onlyEntries_obj (onlyEntries_refl _ _) rfl).okeep (by simp)).oput (by simp)
  · rw [get_put_other _ (by decide), get_keep_same]

/-! ### A unit of the power path retires (R296, R300) -/

theorem dcLen_dcToRest (c sev fault : Nat) (m : Mod) : (m.dcToRest c sev fault).dc.length = m.dc.length := by
  unfold Mod.dcToRest Mod.dcRested
  have off := (pwmOff_laws (4 + c) m).1 .dc (by decide)
  have stopped := only_stopCtx (4 + c) (m.pwmOff (4 + c)) .dc (by decide)
  have rests := (dcTo_laws c dcRest sev fault ((m.pwmOff (4 + c)).stopCtx (4 + c))).1 .dc (by decide)
  rw [dcLen_modDc, rests, stopped, off]

theorem seenGrows_dcToRest (c sev fault : Nat) (m : Mod) : SeenGrows m (m.dcToRest c sev fault) := by
  unfold Mod.dcToRest Mod.dcRested
  have off := (pwmOff_laws (4 + c) m).1 .seenEv (by decide)
  have stopped := only_stopCtx (4 + c) (m.pwmOff (4 + c)) .seenEv (by decide)
  obtain ⟨-, -, -, grows⟩ := dcTo_laws c dcRest sev fault ((m.pwmOff (4 + c)).stopCtx (4 + c))
  exact SeenGrows.later (stopped.trans off) grows

/-- The entries of a unit that a stop or a trip of it writes. -/
def stopKeys (g : Nat) : List Nat := [Ob.gfState g, Ob.rtState g, Ob.islState g, Ob.dcState (g - 4), Ob.outState g]

/-- A unit that goes to REST at a trip leaves all but its section or channel, its group, its contexts and what tells of it. -/
theorem unitToRest_laws {g : Nat} (fault : Nat) {m : Mod} (h8 : g < 8) (hs : m.sec.length = 4) (hd : m.dc.length = 4) :
    Only (.sec :: .dc :: unitParts) m (m.unitToRest g fault) ∧ OnlyEntries (stopKeys g) m (m.unitToRest g fault)
    ∧ SeenGrows m (m.unitToRest g fault) := by
  unfold Mod.unitToRest
  split
  · split
    · obtain ⟨parts, entries, -⟩ := pwmOff_laws g m
      exact ⟨parts.mono (by decide), entries.mono (by simp [stopKeys]), SeenGrows.of_eq (parts .seenEv (by decide))⟩
    · exact ⟨Only.refl _ _, onlyEntries_refl _ _, SeenGrows.refl _⟩
  · split
    · rename_i section4
      obtain ⟨parts, entries, -, -, -, grows, -⟩ := gfToRest_laws g fault m (by omega)
      exact ⟨parts.mono (by decide), entries.mono (by simp [stopKeys]), grows⟩
    · obtain ⟨parts, entries, -⟩ := dcToRest_laws (g - 4) sevInfo 0 m (by omega)
      rw [show 4 + (g - 4) = g by omega] at entries
      exact ⟨parts.mono (by decide), entries.mono (by simp [stopKeys]), seenGrows_dcToRest ..⟩

theorem derated_laws (fault : Nat) (m : Mod) :
    Only (.obj :: evParts) m (m.derated fault) ∧ OnlyEntries [Ob.acAvailable, Ob.dcAvailable] m (m.derated fault)
    ∧ SeenGrows m (m.derated fault) := by
  unfold Mod.derated
  have parts : Only [.obj] m m.showAvail := ((Only.refl _ _).oput (by decide)).oput (by decide)
  have entries : OnlyEntries [Ob.acAvailable, Ob.dcAvailable] m m.showAvail := ((onlyEntries_refl _ _).oput (by simp)).oput (by simp)
  generalize m.showAvail = A at parts entries
  exact ⟨(parts.mono (by decide)).oraise _ _ _ _ (by decide), entries.raise _ _ _ _,
    SeenGrows.later (parts .seenEv (by decide)) (SeenGrows.raise _ _ _ _ _)⟩

/-- The entries that a retirement of a unit of the power path writes. -/
def retireKeys (g : Nat) : List Nat :=
  [Ob.unitFaultState g, Ob.unitRetiredTime g, Ob.acAvailable, Ob.dcAvailable] ++ stopKeys g

theorem shownState_apart : ∀ g, g < 8 → Ob.unitFaultState g ∉ stopKeys g ∧ Ob.unitFaultState g ∉ [Ob.acAvailable, Ob.dcAvailable]
    ∧ Ob.unitFaultState g ≠ Ob.unitRetiredTime g := by decide

/-- A unit of the power path that retires: nothing of it is in recovery, FAULT_STATE shows how, and EV057 tells of it. -/
theorem retireUnit_laws {g : Nat} (fault how : Nat) {m : Mod} (h8 : g < 8) (hs : m.sec.length = 4) (hd : m.dc.length = 4) :
    ((m.retireUnit 1 g fault how).inst 1 g).recov = none ∧ (m.retireUnit 1 g fault how).get (Ob.unitFaultState g) = how
    ∧ (m.retireUnit 1 g fault how).clk = m.clk ∧ OnlyEntries (retireKeys g) m (m.retireUnit 1 g fault how)
    ∧ SeenGrows m (m.retireUnit 1 g fault how) ∧ 57 ∈ (m.retireUnit 1 g fault how).seenEv := by
  obtain ⟨rest, available, retired⟩ := shownState_apart g h8
  rw [show m.retireUnit 1 g fault how = m.markRetired 1 g fault how from rfl]
  unfold Mod.markRetired
  dsimp only
  rw [if_pos rfl, show statusIx 1 g = g from rfl]
  generalize hA : Mod.setInst _ _ = A
  have before : Only [.obj, .sto, .prot] m A := by
    subst hA
    exact (((Only.refl _ _).okeep (by decide) (by decide)).okeep (by decide) (by decide)).oInst (by decide)
  have entries : OnlyEntries (retireKeys g) m A := by
    subst hA
    exact (((onlyEntries_refl _ _).okeep (by simp [retireKeys])).okeep (by simp [retireKeys])).oInst
  have recov : (A.inst 1 g).recov = none := by subst hA; exact recov_setInst _ (inst_named _ 1 g)
  have shown : A.get (Ob.unitFaultState g) = how := by
    subst hA
    exact (get_keep_other _ retired).trans (get_keep_same _)
  clear hA
  generalize hB : A.raise 57 sevFault fault _ = B
  have raised : Only evParts A B := by subst hB; exact (Only.refl _ _).oraise _ _ _ _ (fun _ h => h)
  have told : 57 ∈ B.seenEv := by subst hB; exact seen_raised ..
  have grows : SeenGrows m B := by subst hB; exact SeenGrows.later (before .seenEv (by decide)) (SeenGrows.raise _ _ _ _ _)
  clear hB
  obtain ⟨partsR, entriesR, growsR⟩ := unitToRest_laws fault (m := B) h8 (by rw [raised .sec (by decide), before .sec (by decide), hs])
    (by rw [raised .dc (by decide), before .dc (by decide), hd])
  obtain ⟨partsD, entriesD, growsD⟩ := derated_laws fault (B.unitToRest g fault)
  have later : Only (.sec :: .dc :: unitParts) A ((B.unitToRest g fault).derated fault) :=
    ((raised.mono (by decide)).to partsR (by decide)).to partsD (by decide)
  refine ⟨by rw [inst_eq (congrArg ProtRt.insts (later .prot (by decide)))]; exact recov, ?_,
    (later .clk (by decide)).trans (before .clk (by decide)), ?_, (grows.trans growsR).trans growsD, growsD.mem (growsR.mem told)⟩
  · rw [entriesD _ available, entriesR _ rest, raised.get (by decide)]; exact shown
  · exact (entries.trans (onlyEntries_obj (onlyEntries_refl _ _) (raised .obj (by decide)))).trans
      ((entriesR.mono (List.subset_append_right _ _)).trans (entriesD.mono (by simp)))

theorem recordCount_notRetireKey : ∀ g, g < 8 → Ob.recordCount ∉ retireKeys g ∧ Ob.recordCount ≠ Ob.unitLastRecord g := by decide

/-- A source still active at the retry timeout makes the fault of a unit of the power path permanent, with one record more. -/
theorem retryTimeout_permanent {g : Nat} {r : Recovery} {m : Mod} (h8 : g < 8) (hs : m.sec.length = 4) (hd : m.dc.length = 4)
    (waits : (m.inst 1 g).recov = some r) (awaits : r.awaiting = true) (active : m.sourceActive 1 g r = true) :
    ((m.retryTimeout 1 g).inst 1 g).recov = none ∧ (m.retryTimeout 1 g).get (Ob.unitFaultState g) = 4
    ∧ (m.retryTimeout 1 g).get Ob.recordCount = (m.get Ob.recordCount + 1) % 4294967296
    ∧ 56 ∈ (m.retryTimeout 1 g).seenEv ∧ 57 ∈ (m.retryTimeout 1 g).seenEv ∧ r.retryPs ≤ (m.retryTimeout 1 g).now := by
  obtain ⟨notRetired, notLast⟩ := recordCount_notRetireKey g h8
  unfold Mod.retryTimeout
  rw [waits]
  dsimp only
  rw [if_neg (by simp [awaits]), if_pos (by exact active), show statusIx 1 g = g from rfl]
  generalize hA : Mod.setInst _ (m.reach r.retryPs) = A
  have settled : Only [.clk, .prot] m A := by subst hA; exact ((Only.refl _ _).oReach (by decide)).oInst (by decide)
  have now : r.retryPs ≤ A.clk.upPs := by subst hA; exact Nat.le_max_right _ _
  clear hA
  generalize FaultRec.mk .. = record
  obtain ⟨recorded, -, count, -⟩ := writeRecord_laws record A
  generalize A.writeRecord record = W at recorded count
  generalize hB : (W.put (Ob.unitLastRecord g) W.lastNo).raise 56 _ _ _ = B
  have before : Only ([.clk, .obj, .sto, .prot] ++ evParts) m B := by
    subst hB
    exact (((settled.mono (by decide)).to recorded (by decide)).oput (by decide)).oraise _ _ _ _ (by decide)
  have clk : B.clk = A.clk := by
    subst hB
    rw [show Mod.clk (Mod.raise ..) = _ from raise_part _ _ _ _ _ .clk (by decide), put_clk]
    exact recorded .clk (by decide)
  have told : 56 ∈ B.seenEv := by subst hB; exact seen_raised ..
  have counted : B.get Ob.recordCount = (m.get Ob.recordCount + 1) % 4294967296 := by
    subst hB
    rw [get_raised, get_put_other _ notLast, count, settled.get (by decide)]
  clear hB
  obtain ⟨recov, shown, clkR, entries, grows, seen⟩ := retireUnit_laws 0x4408 4 (m := B) h8 (by rw [before .sec (by decide), hs])
    (by rw [before .dc (by decide), hd])
  exact ⟨recov, shown, (entries _ notRetired).trans counted, grows.mem told, seen, by unfold Mod.now; rw [clkR, clk]; exact now⟩

/-! ### HOLD_MAX (R303) -/

/-- What HOLD_MAX does with one unit: a section or a channel in hold stops. -/
def Mod.stopHeld (g : Nat) (m : Mod) : Mod :=
  if g < 4 then (if m.gf g = gfHold then m.gfStopNow g true else m)
  else if m.dcs (g - 4) = dcHold then m.dcToRest (g - 4) sevInfo 0 else m

theorem holdMax_eq {m : Mod} (hold : m.get Ob.holdState = 1) (first : m.prot.maxMet = false) (limited : m.get Ob.holdMax ≠ 0) :
    ∃ ps, m.holdMax = (Mod.each m.groupsInUse Mod.stopHeld { m.reach ps with prot := { m.prot with maxMet := true } }).moduleRecord 0x440A :=
  ⟨_, if_pos (by simp [hold, first, limited])⟩

theorem secAt_endIdRun_other (s : Nat) {u : Nat} (m : Mod) (h : u ≠ s) : (m.endIdRun s).secAt u = m.secAt u := by
  unfold Mod.endIdRun
  split
  · rfl
  · rw [secAt_eq (inform_part _ _ _ .sec (by decide)), secAt_modSec_other _ _ _ _ h]

theorem secAt_gfStopNow_other (s : Nat) {u : Nat} (noRamps : Bool) (m : Mod) (h : u ≠ s) : (m.gfStopNow s noRamps).secAt u = m.secAt u := by
  unfold Mod.gfStopNow
  dsimp only
  rw [secAt_eq ((gfTo_laws s gfStopping _).1 .sec (by decide)), secAt_eq ((rtTo_laws s 0 _).1 .sec (by decide)), secAt_eq (put_sec _ _ _),
    secAt_endIdRun_other s _ h, secAt_modSec_other _ _ _ _ h]

/-- What the stops of held units leave of the module: the number of sections and of channels, the entries that no stop writes, and
protection among it. -/
structure HoldFrame (a x : Mod) : Prop where
  secs    : x.sec.length = 4
  chans   : x.dc.length = 4
  prot    : x.prot = a.prot
  entries : OnlyEntries ((List.range 8).flatMap stopKeys) a x

/-- The stop of a held unit: it leaves the other sections, and a section in hold goes to STOPPING without ramps. -/
theorem stopHeld_laws {g : Nat} {m : Mod} (h8 : g < 8) (hs : m.sec.length = 4) (hd : m.dc.length = 4) :
    (m.stopHeld g).sec.length = 4 ∧ (m.stopHeld g).dc.length = 4 ∧ (m.stopHeld g).prot = m.prot
    ∧ OnlyEntries (stopKeys g) m (m.stopHeld g) ∧ (∀ u, u ≠ g → (m.stopHeld g).secAt u = m.secAt u) := by
  unfold Mod.stopHeld
  split
  · split
    · obtain ⟨parts, entries, -⟩ := gfStopNow_laws g true m (by omega)
      obtain ⟨-, -, len⟩ := gfStopNow_endsRide g true (m := m) (by omega)
      exact ⟨len.trans hs, by rw [parts .dc (by decide), hd], parts .prot (by decide), entries.mono (by simp [stopKeys]),
        fun u hu => secAt_gfStopNow_other g true m hu⟩
    · exact ⟨hs, hd, rfl, onlyEntries_refl _ _, fun _ _ => rfl⟩
  · split
    · obtain ⟨parts, entries, -⟩ := dcToRest_laws (g - 4) sevInfo 0 m (by omega)
      rw [show 4 + (g - 4) = g by omega] at entries
      exact ⟨by rw [parts .sec (by decide), hs], (dcLen_dcToRest ..).trans hd, parts .prot (by decide), entries.mono (by simp [stopKeys]),
        fun u _ => secAt_eq (parts .sec (by decide)) u⟩
    · exact ⟨hs, hd, rfl, onlyEntries_refl _ _, fun _ _ => rfl⟩

/-- A section that a stop has taken to STOPPING without ramps. -/
def Mod.stopsAtOnce (u : Nat) (m : Mod) : Prop := m.gf u = gfStopping ∧ (m.secAt u).noRamps = true

theorem stopHeld_stops {u : Nat} {m : Mod} (h4 : u < 4) (hs : m.sec.length = 4) (st : m.gf u = gfHold ∨ m.stopsAtOnce u) :
    (m.stopHeld u).stopsAtOnce u := by
  unfold Mod.stopHeld
  rw [if_pos h4]
  rcases st with hold | ⟨stopping, noRamps⟩
  · rw [if_pos hold]
    obtain ⟨-, -, st, noRamps, -⟩ := gfStopNow_laws u true m (by omega)
    exact ⟨st, noRamps⟩
  · rw [if_neg (by rw [stopping]; decide)]
    exact ⟨stopping, noRamps⟩

theorem gfState_notStopKey : ∀ g, g < 8 → ∀ u, u < 4 → u ≠ g → Ob.gfState u ∉ stopKeys g := by decide

/-- The stop of one unit leaves whether another section holds or has stopped. -/
theorem stopHeld_other {g u : Nat} {m : Mod} (h8 : g < 8) (h4 : u < 4) (hu : u ≠ g) (hs : m.sec.length = 4) (hd : m.dc.length = 4) :
    (m.stopHeld g).gf u = m.gf u ∧ ((m.stopHeld g).stopsAtOnce u ↔ m.stopsAtOnce u) := by
  obtain ⟨-, -, -, entries, same⟩ := stopHeld_laws h8 hs hd
  have state : (m.stopHeld g).gf u = m.gf u := entries _ (gfState_notStopKey g h8 u h4 hu)
  exact ⟨state, by rw [Mod.stopsAtOnce, state, same u hu, Mod.stopsAtOnce]⟩

theorem HoldFrame.stopHeld {a x : Mod} (h : HoldFrame a x) {g : Nat} (h8 : g < 8) : HoldFrame a (x.stopHeld g) := by
  obtain ⟨secs, chans, prot, entries, -⟩ := stopHeld_laws h8 h.secs h.chans
  exact ⟨secs, chans, prot.trans h.prot,
    h.entries.trans (entries.mono (fun k hk => List.mem_flatMap.2 ⟨g, List.mem_range.2 h8, hk⟩))⟩

theorem mem_groupsInUse {m : Mod} {g : Nat} : g ∈ m.groupsInUse ↔ g < 8 ∧ m.inUse g = true := by
  rw [Mod.groupsInUse, List.mem_filter, List.mem_range]

/-- The stops of the held units, one after another: what they leave, and that every held section among them stops. -/
theorem stopsHeld_laws {l : List Nat} {m : Mod} (hl : ∀ g ∈ l, g < 8) (hs : m.sec.length = 4) (hd : m.dc.length = 4) :
    HoldFrame m (m.each l Mod.stopHeld) ∧ (∀ u, u < 4 → u ∈ l → m.gf u = gfHold → (m.each l Mod.stopHeld).stopsAtOnce u) := by
  have start : HoldFrame m m := ⟨hs, hd, rfl, onlyEntries_refl _ _⟩
  refine ⟨each_invariant start (fun g hg _ h => h.stopHeld (hl g hg)), fun u h4 hu hold => ?_⟩
  refine each_establishes (I := fun x => HoldFrame m x ∧ (x.gf u = gfHold ∨ x.stopsAtOnce u)) hu ⟨start, .inl hold⟩
    (fun g hg x ⟨hx, st⟩ => ⟨hx.stopHeld (hl g hg), ?_⟩) (fun g hg x ⟨hx, _⟩ st => ?_)
    (fun x ⟨hx, st⟩ => stopHeld_stops h4 hx.secs st)
  · by_cases own : u = g
    · subst own
      exact .inr (stopHeld_stops h4 hx.secs st)
    · obtain ⟨state, stops⟩ := stopHeld_other (hl g hg) h4 own hx.secs hx.chans
      rw [state, stops]; exact st
  · by_cases own : u = g
    · subst own
      exact stopHeld_stops h4 hx.secs (.inr st)
    · exact (stopHeld_other (hl g hg) h4 own hx.secs hx.chans).2.2 st

/-- HOLD_MAX stops every held section without ramps, with one record more. -/
theorem holdMax_laws {m : Mod} (hs : m.sec.length = 4) (hd : m.dc.length = 4) (hold : m.get Ob.holdState = 1)
    (first : m.prot.maxMet = false) (limited : m.get Ob.holdMax ≠ 0) :
    m.holdMax.prot.maxMet = true ∧ m.holdMax.get Ob.holdState = 1
    ∧ (∀ u, u < 4 → m.inUse u = true → m.gf u = gfHold → m.holdMax.stopsAtOnce u)
    ∧ m.holdMax.get Ob.recordCount = (m.get Ob.recordCount + 1) % 4294967296 := by
  obtain ⟨ps, heq⟩ := holdMax_eq hold first limited
  rw [heq]
  obtain ⟨frame, stops⟩ := stopsHeld_laws (l := m.groupsInUse) (m := { m.reach ps with prot := { m.prot with maxMet := true } })
    (fun g hg => (mem_groupsInUse.1 hg).1) hs hd
  generalize Mod.each _ _ _ = A at frame stops
  unfold Mod.moduleRecord
  generalize FaultRec.mk .. = record
  obtain ⟨parts, entries, count, log, prot⟩ := writeRecord_laws record A
  have stateKey : ∀ u, u < 4 → Ob.gfState u ∉ [Ob.recordCount, Ob.lastFault] := by decide
  refine ⟨by rw [prot, frame.prot], ?_, fun u h4 used held => ?_, ?_⟩
  · rw [entries _ (by decide), frame.entries _ (by decide)]; exact hold
  · obtain ⟨st, noRamps⟩ := stops u h4 (mem_groupsInUse.2 ⟨by omega, used⟩) held
    exact ⟨(entries _ (stateKey u h4)).trans st, by rw [secAt_eq (parts .sec (by decide)), noRamps]⟩
  · rw [count, frame.entries _ (by decide)]; rfl

/-! ### The statement -/

/-- Settles O44: each event by the law of its operation; the recoveries are one law, at the instant of the delay, the check or the
timeout. -/
theorem faultsRecoverOrBecomePermanent : Obligations.FaultsRecoverOrBecomePermanent := by
  unfold Obligations.FaultsRecoverOrBecomePermanent
  intro s c cls unit hc hlinks hgrp hsec hdc
  have linked : c < s.m.prot.links.length := by rwa [hlinks]
  refine ⟨fun off stood => ?trip, fun armed stood => ?warning, fun r waits begun clear => ?recovers, fun r waits begun active => ?awaits,
    fun r waits awaits => ⟨fun clear => ⟨fun early => ?checkClear, ?timeoutClear⟩,
      fun active => ⟨fun early => ?checkActive, fun one h8 => ?permanent⟩⟩, fun hold first limited => ?holdMax⟩
  case trip =>
    obtain ⟨stands, trips, stays, waits, parts⟩ := linkAsserts_laws linked
    refine does_unit rfl (decide_eq_true hc) ?_
    rw [dclinkTrip_asserts off stood]
    exact ⟨stands, fun g hg hi => trips g hg hi (by rw [hgrp]; exact groupsOf_lt _ g hg), fun g h8 => stays g h8 (by rwa [hgrp]), waits, parts⟩
  case warning => exact does_unit rfl (decide_eq_true hc) (dclinkWarn_laws linked armed stood)
  case recovers =>
    have h := recovers_at cls unit r.endPs r s.m
    refine does_onMod rfl (recoveryEnd_clear waits begun clear)
      ⟨h.settled, h.shown, h.told, h.reached, fun one own alone => ?_, h.parts, h.entries⟩
    subst one
    exact recovered_stages (m := s.m.reach r.endPs) own alone
  case awaits =>
    refine does_onMod rfl (recoveryEnd_active waits begun active) ⟨?_, get_put_same _,
      (((Only.refl _ _).oReach (by decide)).oInst (by decide)).oput (by decide), (((onlyEntries_refl _ _).oReach).oInst).oput (by simp)⟩
    rw [inst_eq (congrArg ProtRt.insts (put_prot ..))]
    exact recov_setInst _ (inst_named s.m cls unit)
  case checkClear =>
    have h := recovers_at cls unit r.checkPs r s.m
    exact does_onMod rfl (clearRecheck_clear waits awaits early clear) ⟨h.settled, h.reached, h.shown, h.told, h.parts, h.entries⟩
  case timeoutClear =>
    have h := recovers_at cls unit r.retryPs r s.m
    exact does_onMod rfl (retryTimeout_clear waits awaits clear) ⟨h.settled, h.shown, h.told⟩
  case checkActive =>
    exact does_onMod rfl (clearRecheck_active waits awaits early active)
      ⟨recov_setInst _ (inst_named s.m cls unit), rfl, ((Only.refl _ _).oReach (by decide)).oInst (by decide)⟩
  case permanent =>
    subst one
    exact does_onMod rfl rfl (retryTimeout_permanent h8 hsec hdc waits awaits active)
  case holdMax => exact does_onMod rfl rfl (holdMax_laws hsec hdc hold first limited)

end Sys2Proof.Machine
end

section
/-!
PROOFS. Data integrity (R312 to R318; assumption-log entries 66 and 84): what a scrub pass, an uncorrectable word, a parity error, a
Floe frame, a failed MAC and a failed TLS record do, and the statement that puts them together (O45).
-/
namespace Sys2Proof.Machine

/-! ### Changes of a lane's record, and of nothing else -/

section
variable {l : List Part} {ks : List Nat} {a b : Mod}

theorem Only.oLane (h : Only l a b) {u : Nat} {f : LaneRt → LaneRt} (hl : Part.lanes ∈ l) : Only l a (b.modLane u f) :=
  h.to (only_modLane b u f) (by simpa using hl)

theorem OnlyEntries.oLane (h : OnlyEntries ks a b) {u : Nat} {f : LaneRt → LaneRt} : OnlyEntries ks a (b.modLane u f) :=
  onlyEntries_obj h rfl

theorem Only.onlyEntries (h : Only l a b) (hl : Part.obj ∉ l) (ks : List Nat) : OnlyEntries ks a b := fun k _ => h.get hl k

theorem Only.laneAt (h : Only l a b) (hl : Part.lanes ∉ l) (k : Nat) : b.laneAt k = a.laneAt k := laneAt_eq (h .lanes hl) k

theorem Only.now (h : Only l a b) (hl : Part.clk ∉ l) : b.now = a.now := by
  unfold Mod.now; rw [show b.clk = a.clk from h .clk hl]

theorem OnlyEntries.lane (h : OnlyEntries ks a b) (hk : Ob.activeLane ∉ ks) : b.lane = a.lane := lane_eq_of_get (h _ hk)

theorem OnlyEntries.standby (h : OnlyEntries ks a b) (hk : Ob.activeLane ∉ ks) : b.standby = a.standby := by
  unfold Mod.standby; rw [h.lane hk]

theorem OnlyEntries.healthOf (h : OnlyEntries ks a b) {u : Nat} (hk : Ob.health u ∉ ks) : b.healthOf u = a.healthOf u := h _ hk

end

theorem get_bump_same (k : Nat) (m : Mod) : (m.bump k).get k = (m.get k + 1) % 4294967296 := get_put_same m

/-! ### Scrub passes (R312) -/

/-- The words corrected of the last hour: DRAM_CORR_HOUR, the lane's record of them and EV010 alone. -/
theorem judgeCorrected_laws (l : Nat) (m : Mod) :
    Only ([.obj, .lanes] ++ evParts) m (m.judgeCorrected l) ∧ OnlyEntries [Ob.dramCorrHour l] m (m.judgeCorrected l) := by
  unfold Mod.judgeCorrected
  dsimp only
  generalize hA : Mod.put (Ob.dramCorrHour l) _ _ = A
  have parts : Only ([.obj, .lanes] ++ evParts) m A := by
    subst hA; exact ((Only.refl _ _).oLane (by decide)).oput (by decide)
  have entries : OnlyEntries [Ob.dramCorrHour l] m A := by
    subst hA; exact (onlyEntries_refl _ _).oLane.oput (by simp)
  have lane : ∀ f, Only ([.obj, .lanes] ++ evParts) m (A.modLane l f) ∧ OnlyEntries [Ob.dramCorrHour l] m (A.modLane l f) :=
    fun f => ⟨parts.oLane (by decide), entries.oLane⟩
  split
  · split
    · exact ⟨(lane _).1.oraise _ _ _ _ (by decide), (lane _).2.raise _ _ _ _⟩
    · exact lane _
  · split
    · exact ⟨parts, entries⟩
    · split
      · exact lane _
      · split
        · exact lane _
        · exact ⟨parts, entries⟩

/-- The words that a pass corrected are added up and judged. -/
def Mod.addCorrected (l corrected : Nat) (m : Mod) : Mod :=
  let m2 := m.put (Ob.dramCorrected l) ((m.get (Ob.dramCorrected l) + corrected) % 4294967296)
  (if corrected = 0 then m2 else m2.modLane l (fun y => { y with corr := y.corr ++ [(m2.now, corrected)] })).judgeCorrected l

theorem addCorrected_laws (l corrected : Nat) (m : Mod) :
    Only ([.obj, .lanes] ++ evParts) m (m.addCorrected l corrected)
    ∧ OnlyEntries [Ob.dramCorrected l, Ob.dramCorrHour l] m (m.addCorrected l corrected)
    ∧ (m.addCorrected l corrected).get (Ob.dramCorrected l) = (m.get (Ob.dramCorrected l) + corrected) % 4294967296 := by
  unfold Mod.addCorrected
  dsimp only
  generalize hA : (ite (corrected = 0) _ _ : Mod) = A
  have parts : Only [.obj, .lanes] m A := by
    subst hA; split
    · exact (Only.refl _ _).oput (by decide)
    · exact ((Only.refl _ _).oput (by decide)).oLane (by decide)
  have entries : OnlyEntries [Ob.dramCorrected l] m A := by
    subst hA; split
    · exact (onlyEntries_refl _ _).oput (by simp)
    · exact ((onlyEntries_refl _ _).oput (by simp)).oLane
  have sum : A.get (Ob.dramCorrected l) = (m.get (Ob.dramCorrected l) + corrected) % 4294967296 := by
    subst hA; split <;> exact get_put_same _
  obtain ⟨judged, hour⟩ := judgeCorrected_laws l A
  refine ⟨(parts.mono (by decide)).to judged (by decide), (entries.mono (by simp)).trans (hour.mono (by simp)), ?_⟩
  rw [hour _ (by simp [Ob.dramCorrected, Ob.dramCorrHour])]
  exact sum

/-- The instant of a scrub pass, 60 s or 10 min after the last of its region. -/
def Mod.scrubbed (l : Nat) (moraine : Bool) (m : Mod) : Mod :=
  m.reach ((m.laneAt l).scrubPs.getD (b2n moraine) 0 + sPs (if moraine then 600 else 60))

/-- The instant is noted as the last of the region. -/
def Mod.scrubNoted (l : Nat) (moraine : Bool) (m : Mod) : Mod :=
  m.modLane l (fun y => { y with scrubPs := y.scrubPs.set (b2n moraine) m.now })

theorem scrubPass_run (l corrected : Nat) (m : Mod) : m.scrubPass l false corrected =
    (((m.scrubbed l false).bump (Ob.scrubPasses l)).scrubNoted l false).addCorrected l corrected := rfl

theorem scrubPass_moraine (l corrected : Nat) {m : Mod} (h : m.traceSt = 0 ∨ m.traceSt = 4) :
    m.scrubPass l true corrected = ((m.scrubbed l true).scrubNoted l true).addCorrected l corrected := by
  unfold Mod.scrubPass
  exact if_neg (by rcases h with h | h <;> simp [h, traceIdle, traceDoneState])

theorem scrubPass_waits (l corrected : Nat) {m : Mod} (h0 : m.traceSt ≠ 0) (h4 : m.traceSt ≠ 4) : m.scrubPass l true corrected = m := by
  unfold Mod.scrubPass
  exact if_pos (by simp [h0, h4, traceIdle, traceDoneState])

theorem scrubbed_reaches (l : Nat) (moraine : Bool) (m : Mod) :
    (m.laneAt l).scrubPs.getD (b2n moraine) 0 + sPs (if moraine then 600 else 60) ≤ (m.scrubbed l moraine).now :=
  Nat.le_max_right _ _

/-- A pass of the run region counts, and adds what it corrected. -/
theorem scrubRun_laws (l corrected : Nat) (m : Mod) :
    Only ([.clk, .obj, .lanes] ++ evParts) m (m.scrubPass l false corrected)
    ∧ OnlyEntries [Ob.scrubPasses l, Ob.dramCorrected l, Ob.dramCorrHour l] m (m.scrubPass l false corrected)
    ∧ (m.scrubPass l false corrected).get (Ob.scrubPasses l) = (m.get (Ob.scrubPasses l) + 1) % 4294967296
    ∧ (m.scrubPass l false corrected).get (Ob.dramCorrected l) = (m.get (Ob.dramCorrected l) + corrected) % 4294967296
    ∧ (m.laneAt l).scrubPs.getD 0 0 + sPs 60 ≤ (m.scrubPass l false corrected).now := by
  rw [scrubPass_run]
  generalize hA : Mod.scrubNoted l false _ = A
  have parts : Only [.clk, .obj, .lanes] m A := by
    subst hA; exact (((Only.refl _ _).oReach (by decide)).obump (by decide)).oLane (by decide)
  have entries : OnlyEntries [Ob.scrubPasses l] m A := by
    subst hA; exact ((onlyEntries_refl _ _).oReach.obump (by simp)).oLane
  have count : A.get (Ob.scrubPasses l) = (m.get (Ob.scrubPasses l) + 1) % 4294967296 := by subst hA; exact get_bump_same _ _
  have instant : A.now = (m.scrubbed l false).now := by subst hA; rfl
  obtain ⟨added, kept, sum⟩ := addCorrected_laws l corrected A
  refine ⟨(parts.mono (by decide)).to added (by decide), (entries.mono (by simp)).trans (kept.mono (by simp)), ?_, ?_, ?_⟩
  · rw [kept _ (by simp [Ob.scrubPasses, Ob.dramCorrected, Ob.dramCorrHour]), count]
  · rw [sum, entries _ (by simp [Ob.scrubPasses, Ob.dramCorrected])]
  · rw [added.now (by decide), instant]
    exact scrubbed_reaches l false m

/-- A pass of the Moraine region adds what it corrected. -/
theorem scrubMoraine_laws (l corrected : Nat) {m : Mod} (h : m.traceSt = 0 ∨ m.traceSt = 4) :
    Only ([.clk, .obj, .lanes] ++ evParts) m (m.scrubPass l true corrected)
    ∧ OnlyEntries [Ob.dramCorrected l, Ob.dramCorrHour l] m (m.scrubPass l true corrected)
    ∧ (m.scrubPass l true corrected).get (Ob.dramCorrected l) = (m.get (Ob.dramCorrected l) + corrected) % 4294967296
    ∧ (m.laneAt l).scrubPs.getD 1 0 + sPs 600 ≤ (m.scrubPass l true corrected).now := by
  rw [scrubPass_moraine l corrected h]
  generalize hA : Mod.scrubNoted l true _ = A
  have parts : Only [.clk, .lanes] m A := by
    subst hA; exact ((Only.refl _ _).oReach (by decide)).oLane (by decide)
  have instant : A.now = (m.scrubbed l true).now := by subst hA; rfl
  obtain ⟨added, kept, sum⟩ := addCorrected_laws l corrected A
  refine ⟨(parts.mono (by decide)).to added (by decide), (parts.onlyEntries (by decide) _).trans kept, ?_, ?_⟩
  · rw [sum, parts.get (by decide)]
  · rw [added.now (by decide), instant]
    exact scrubbed_reaches l true m

/-! ### Uncorrectable words and parity errors (R313 to R315) -/

/-- The first part of every such error: its counter rises, and its address stands. -/
def Mod.errorNoted (cnt addr a : Nat) (m : Mod) : Mod := (m.bump cnt).put addr (a % 4294967296)

/-- The entries of the integrity counters of the lanes (chapter 46h), which no failing lane writes. -/
def LaneCounter (k : Nat) : Prop := 0x460000 ≤ k ∧ k < 0x462000

theorem laneCounter_notLaneKey {k : Nat} (h : LaneCounter k) (b : Nat) : k ∉ laneKeys b := by
  unfold LaneCounter at h
  simp only [laneKeys, List.mem_cons, List.not_mem_nil, or_false, Ob.health, Ob.unhealthyCause, Ob.roleNow, Ob.resync24h, Ob.redundant]
  omega

theorem laneCounter_ne_activeLane {k : Nat} (h : LaneCounter k) : Ob.activeLane ≠ k := by
  unfold LaneCounter at h; unfold Ob.activeLane; omega

theorem errorNoted_laws {cnt addr : Nat} (a : Nat) (m : Mod) (h : cnt ≠ addr) :
    Only [.obj] m (m.errorNoted cnt addr a) ∧ OnlyEntries [cnt, addr] m (m.errorNoted cnt addr a)
    ∧ (m.errorNoted cnt addr a).get cnt = (m.get cnt + 1) % 4294967296 ∧ (m.errorNoted cnt addr a).get addr = a % 4294967296 := by
  unfold Mod.errorNoted
  refine ⟨((Only.refl _ _).obump (by decide)).oput (by decide), ((onlyEntries_refl _ _).obump (by simp)).oput (by simp), ?_, get_put_same _⟩
  rw [get_put_other _ h, get_bump_same]

/-- An error of the lane itself: EV011, and the lane gives up control or is unhealthy. -/
def Mod.errorActs (l cnt addr a cause arg : Nat) (m : Mod) : Mod :=
  ((m.errorNoted cnt addr a).raise 11 sevFault cause arg).laneFails l cause

theorem errorActs_laws {cnt addr : Nat} (l a cause arg : Nat) (m : Mod) (hne : cnt ≠ addr) (hc : LaneCounter cnt) (ha : LaneCounter addr) :
    11 ∈ (m.errorActs l cnt addr a cause arg).seenEv
    ∧ (m.errorActs l cnt addr a cause arg).get cnt = (m.get cnt + 1) % 4294967296
    ∧ (m.errorActs l cnt addr a cause arg).get addr = a % 4294967296
    ∧ (l = m.lane → m.arb.cause = none → m.arb.grant.isSome = true →
        (m.errorActs l cnt addr a cause arg).arb.cause = some cause ∧ (m.errorActs l cnt addr a cause arg).arb.grant = none)
    ∧ (l ≠ m.lane → (m.errorActs l cnt addr a cause arg).healthOf m.standby = 2
        ∨ (m.errorActs l cnt addr a cause arg).healthOf m.standby = 3) := by
  unfold Mod.errorActs
  obtain ⟨parts, entries, count, address⟩ := errorNoted_laws a m hne
  generalize hR : Mod.raise 11 sevFault cause arg _ = R
  have told : 11 ∈ R.seenEv := hR ▸ seen_raised _ _ _ _ _
  have noted : ∀ k, R.get k = (m.errorNoted cnt addr a).get k := fun k => by rw [← hR, get_raised]
  have arb : R.arb = m.arb := by
    rw [← hR]; exact (parts.mono (List.cons_subset_cons _ (List.nil_subset evParts))).oraise _ _ _ _ (by decide) .arb (by decide)
  have active : Ob.activeLane ∉ [cnt, addr] := by simp [laneCounter_ne_activeLane hc, laneCounter_ne_activeLane ha]
  have lane : R.lane = m.lane := lane_eq_of_get ((noted _).trans (entries _ active))
  have standby : R.standby = m.standby := by unfold Mod.standby; rw [lane]
  obtain ⟨-, keys, ⟨k, seen⟩, gives, unhealthy⟩ := laneFails_laws l cause R
  rw [arb, lane] at gives
  rw [lane, standby] at unhealthy
  refine ⟨by rw [seen]; exact List.mem_append_right _ told, ?_, ?_, fun h1 h2 h3 => ?_, unhealthy⟩
  · rw [keys _ (laneCounter_notLaneKey hc _), noted, count]
  · rw [keys _ (laneCounter_notLaneKey ha _), noted, address]
  · obtain ⟨withdrawn, ungranted, -⟩ := gives h1 h2 h3
    exact ⟨withdrawn, ungranted⟩

theorem memoryUncorrectable_run (l a : Nat) (m : Mod) : m.memoryUncorrectable l false a =
    m.errorActs l (Ob.dramUncorrected l) (Ob.lastErrorAddr l) a 0x4602 (memArg l 0) := rfl

/-- A word of the Moraine region spoils its record and costs no lane its control (R313). -/
theorem memoryUncorrectable_moraine (l a : Nat) (m : Mod) :
    Only ([.obj, .trace] ++ evParts) m (m.memoryUncorrectable l true a) ∧ 11 ∈ (m.memoryUncorrectable l true a).seenEv
    ∧ (m.memoryUncorrectable l true a).get (Ob.dramUncorrected l) = (m.get (Ob.dramUncorrected l) + 1) % 4294967296
    ∧ (m.memoryUncorrectable l true a).get (Ob.lastErrorAddr l) = a % 4294967296 := by
  have eq : m.memoryUncorrectable l true a =
      ((m.errorNoted (Ob.dramUncorrected l) (Ob.lastErrorAddr l) a).spoilRecord l a).raise 11 sevWarn 0x4602 (memArg l 1) := rfl
  obtain ⟨parts, -, count, address⟩ := errorNoted_laws a m
    (show Ob.dramUncorrected l ≠ Ob.lastErrorAddr l by simp [Ob.dramUncorrected, Ob.lastErrorAddr])
  rw [eq]
  refine ⟨((parts.mono (by decide)).oTrace (by decide)).oraise _ _ _ _ (by decide), seen_raised _ _ _ _ _, ?_, ?_⟩ <;> rw [get_raised]
  · exact count
  · exact address

theorem parityError_sram (l a : Nat) (m : Mod) : m.parityError l 5 a =
    m.errorActs l (Ob.parityErrors l) (Ob.lastErrorAddr l) a 0x4605 (memArg l 5) := rfl

/-! ### A configuration record (R314) -/

/-- A codeword of a configuration record counts, keeps its offset, with EV011. -/
def Mod.flashNoted (l offset : Nat) (m : Mod) : Mod :=
  (m.errorNoted (Ob.flashUncorrected l) (Ob.lastErrorAddr l) offset).raise 11 sevFault 0x4604 (memArg l 3)

theorem flashNoted_laws (l offset : Nat) (m : Mod) :
    Only (.obj :: evParts) m (m.flashNoted l offset) ∧ OnlyEntries [Ob.flashUncorrected l, Ob.lastErrorAddr l] m (m.flashNoted l offset)
    ∧ 11 ∈ (m.flashNoted l offset).seenEv
    ∧ (m.flashNoted l offset).get (Ob.flashUncorrected l) = (m.get (Ob.flashUncorrected l) + 1) % 4294967296 := by
  obtain ⟨parts, entries, count, -⟩ := errorNoted_laws offset m
    (show Ob.flashUncorrected l ≠ Ob.lastErrorAddr l by simp [Ob.flashUncorrected, Ob.lastErrorAddr])
  exact ⟨(parts.mono (by decide)).oraise _ _ _ _ (by decide), entries.raise _ _ _ _, seen_raised _ _ _ _ _, (get_raised _ _ _ _ _ _).trans count⟩

theorem flashUncorrectable_oneCopy (l offset : Nat) (entries : List (Nat × Nat)) (m : Mod) :
    m.flashUncorrectable l 3 offset false entries = m.flashNoted l offset := rfl

/-- The entries of a record are lost, those that are lost already once. -/
def Mod.loseEntries (ks : List Nat) (m : Mod) : Mod := { m with lost := m.lost ++ ks.filter (fun k => !m.lost.contains k) }

theorem flashUncorrectable_bothCopies (l offset : Nat) (entries : List (Nat × Nat)) (m : Mod) :
    m.flashUncorrectable l 3 offset true entries =
      ((m.flashNoted l offset).loseEntries (entries.map (fun e => e.1 * 256 + e.2))).raise 9 sevFault 0x4603 offset := rfl

theorem only_loseEntries (ks : List Nat) (m : Mod) : Only [.lost] m (m.loseEntries ks) := by
  intro p hp; cases p <;> first | (exact absurd (by decide) hp) | rfl

theorem mem_loseEntries {ks : List Nat} {m : Mod} {k : Nat} : k ∈ (m.loseEntries ks).lost ↔ k ∈ m.lost ∨ k ∈ ks := by
  simp only [Mod.loseEntries, List.mem_append, List.mem_filter, List.contains_eq_mem, Bool.not_eq_true', decide_eq_false_iff_not]
  by_cases h : k ∈ m.lost
  · exact ⟨fun _ => .inl h, fun _ => .inl h⟩
  · exact or_congr_right ⟨fun g => g.1, fun g => ⟨g, h⟩⟩

theorem flashBothCopies_laws (l offset : Nat) (entries : List (Nat × Nat)) (m : Mod) :
    11 ∈ (m.flashUncorrectable l 3 offset true entries).seenEv ∧ 9 ∈ (m.flashUncorrectable l 3 offset true entries).seenEv
    ∧ (m.flashUncorrectable l 3 offset true entries).get (Ob.flashUncorrected l) = (m.get (Ob.flashUncorrected l) + 1) % 4294967296
    ∧ (∀ e, e ∈ entries → e.1 * 256 + e.2 ∈ (m.flashUncorrectable l 3 offset true entries).lost)
    ∧ (∀ e, e ∈ m.lost → e ∈ (m.flashUncorrectable l 3 offset true entries).lost)
    ∧ Only ([.obj, .lost] ++ evParts) m (m.flashUncorrectable l 3 offset true entries)
    ∧ OnlyEntries [Ob.flashUncorrected l, Ob.lastErrorAddr l] m (m.flashUncorrectable l 3 offset true entries) := by
  rw [flashUncorrectable_bothCopies]
  obtain ⟨parts, kept, told, count⟩ := flashNoted_laws l offset m
  generalize m.flashNoted l offset = A at *
  have lost := only_loseEntries (entries.map (fun e => e.1 * 256 + e.2)) A
  rw [show Mod.lost (Mod.raise ..) = _ from raise_part _ _ _ _ _ .lost (by decide)]
  refine ⟨(SeenGrows.raise _ _ _ _ _).mem told, seen_raised _ _ _ _ _, ?_, fun e he => mem_loseEntries.2 (.inr (List.mem_map.2 ⟨e, he, rfl⟩)),
    fun e he => mem_loseEntries.2 (.inl ?_), ((parts.mono (by decide)).to lost (by decide)).oraise _ _ _ _ (by decide),
    (onlyEntries_obj kept (lost .obj (by decide))).raise _ _ _ _⟩
  · rw [get_raised, lost.get (by decide), count]
  · rwa [show A.lost = m.lost from parts .lost (by decide)]

/-! ### Network sessions that close (R29, R315, R318) -/

/-- The keys of the network sessions. -/
def Mod.sessKeys (m : Mod) : List Nat := m.sess.map (·.1)

theorem sessAt_eq_none {m : Mod} {k : Nat} : m.sessAt k = none ↔ k ∉ m.sessKeys := by
  simp only [Mod.sessAt, Mod.sessKeys, Option.map_eq_none_iff, List.find?_eq_none, decide_eq_true_eq, List.mem_map, not_exists, not_and]

/-- Raising an event opens and closes no session. -/
theorem sessKeys_raise (ev sev fault arg : Nat) (m : Mod) : (m.raise ev sev fault arg).sessKeys = m.sessKeys := by
  have entered : (m.enterEvent m.t32 ev sev fault arg).sessKeys = m.sessKeys := by
    unfold Mod.sessKeys Mod.enterEvent
    dsimp only
    rw [List.map_map]
    refine List.map_congr_left (fun p _ => ?_)
    dsimp only [Function.comp]
    split <;> rfl
  unfold Mod.raise Mod.raiseAt
  dsimp only
  split
  · unfold Mod.sessKeys at entered ⊢; rw [wantPulse_sess, entered]
  · exact entered

/-- The session itself goes, with its stream channels. -/
def Mod.sessionGone (k : Nat) (m : Mod) : Mod :=
  { m with sess := m.sess.filter (fun p => p.1 ≠ k), streams := m.streams.filter (fun p => p.2.snd ≠ Sender.session k) }

theorem closeSession_cases (k : Nat) (m : Mod) : (m.sessAt k = none ∧ m.closeSession k = m)
    ∨ m.closeSession k = m.sessionGone k ∨ ∃ arg, m.closeSession k = (m.sessionGone k).raise 102 sevInfo 0 arg := by
  unfold Mod.closeSession
  cases h : m.sessAt k with
  | none => exact .inl ⟨rfl, rfl⟩
  | some x =>
    dsimp only
    split
    · exact .inr (.inr ⟨_, rfl⟩)
    · exact .inr (.inl rfl)

theorem only_sessionGone (k : Nat) (m : Mod) : Only [.sess, .streams] m (m.sessionGone k) := by
  intro p hp; cases p <;> first | (exact absurd (by decide) hp) | rfl

theorem sessKeys_sessionGone (k : Nat) (m : Mod) : (m.sessionGone k).sessKeys = m.sessKeys.filter (· ≠ k) := by
  unfold Mod.sessKeys Mod.sessionGone
  rw [List.filter_map]
  rfl

/-- A session closes: its key goes, and it may be told of with EV102. -/
theorem closeSession_laws (k : Nat) (m : Mod) : Only (.streams :: evParts) m (m.closeSession k) ∧ SeenGrows m (m.closeSession k)
    ∧ (m.closeSession k).sessKeys = m.sessKeys.filter (· ≠ k) := by
  have gone := only_sessionGone k m
  rcases closeSession_cases k m with ⟨absent, eq⟩ | eq | ⟨arg, eq⟩ <;> rw [eq]
  · refine ⟨Only.refl _ _, SeenGrows.refl _, (List.filter_eq_self.2 (fun j hj => decide_eq_true ?_)).symm⟩
    rintro rfl
    exact sessAt_eq_none.1 absent hj
  · exact ⟨gone.mono (by decide), SeenGrows.of_eq (gone .seenEv (by decide)), sessKeys_sessionGone k m⟩
  · exact ⟨(gone.mono (by decide)).oraise _ _ _ _ (by decide), SeenGrows.later (gone .seenEv (by decide)) (SeenGrows.raise _ _ _ _ _),
      (sessKeys_raise _ _ _ _ _).trans (sessKeys_sessionGone k m)⟩

theorem sessKeys_eachClosed (ks : List Nat) (m : Mod) :
    (m.each ks Mod.closeSession).sessKeys = m.sessKeys.filter (· ∉ ks) := by
  induction ks generalizing m with
  | nil => exact (List.filter_eq_self.2 (fun _ _ => decide_eq_true List.not_mem_nil)).symm
  | cons k ks ih =>
    rw [each_cons, ih, (closeSession_laws k m).2.2, List.filter_filter]
    refine List.filter_congr (fun j _ => ?_)
    simp only [List.mem_cons, not_or, Bool.decide_and, Bool.and_comm]

/-- Every session closes: none is left. -/
theorem closeAll_laws (m : Mod) : Only (.streams :: evParts) m m.closeAll ∧ SeenGrows m m.closeAll ∧ m.closeAll.sess = [] := by
  refine ⟨only_each _ _ _ (fun k x => (closeSession_laws k x).1),
    each_invariant (I := SeenGrows m) (SeenGrows.refl m) (fun k _ x hx => hx.trans (closeSession_laws k x).2.1), ?_⟩
  have keys : m.closeAll.sessKeys = [] := by
    unfold Mod.closeAll
    rw [sessKeys_eachClosed, List.filter_eq_nil_iff]
    exact fun k hk => by simpa [Mod.sessKeys] using hk
  exact List.map_eq_nil_iff.1 keys

/-- The communications core restarts for a parity error of its memory. -/
def Mod.commCoreRestart (l a : Nat) (m : Mod) : Mod :=
  ((m.errorNoted (Ob.parityErrors l) (Ob.lastErrorAddr l) a).raise 11 sevWarn 0x4605 (memArg l 7)).bump Ob.commCoreRestarts

/-- A parity error in the SRAM of the communications core restarts it: the sessions of the active lane's go, no lane's control (R315). -/
theorem parityError_commCore {l : Nat} (a : Nat) (m : Mod) (hl : l < 2) : 11 ∈ (m.parityError l 7 a).seenEv
    ∧ (m.parityError l 7 a).get Ob.commCoreRestarts = (m.get Ob.commCoreRestarts + 1) % 4294967296
    ∧ (m.parityError l 7 a).arb = m.arb ∧ (l = m.lane → (m.parityError l 7 a).sess = []) := by
  obtain ⟨parts, entries, -⟩ := errorNoted_laws a m (show Ob.parityErrors l ≠ Ob.lastErrorAddr l by simp [Ob.parityErrors, Ob.lastErrorAddr])
  have eq : m.parityError l 7 a = if l = m.lane then (m.commCoreRestart l a).closeAll else m.commCoreRestart l a := rfl
  have told : 11 ∈ (m.commCoreRestart l a).seenEv := seen_raised _ _ _ _ _
  have count : (m.commCoreRestart l a).get Ob.commCoreRestarts = (m.get Ob.commCoreRestarts + 1) % 4294967296 := by
    rw [Mod.commCoreRestart, get_bump_same, get_raised, entries]
    simp only [List.mem_cons, List.not_mem_nil, or_false, Ob.commCoreRestarts, Ob.parityErrors, Ob.lastErrorAddr]
    omega
  have arb : (m.commCoreRestart l a).arb = m.arb :=
    (((parts.mono (k := .obj :: evParts) (by decide)).oraise _ _ _ _ (by decide)).obump (by decide)) .arb (by decide)
  rw [eq]
  split
  · obtain ⟨closed, seen, empty⟩ := closeAll_laws (m.commCoreRestart l a)
    exact ⟨seen.mem told, (closed.get (by decide) _).trans count, (closed .arb (by decide)).trans arb, fun _ => empty⟩
  · exact ⟨told, count, arb, fun h => absurd h ‹_›⟩

/-- A TLS record that fails closes its session, with EV110 (R318). -/
theorem tlsRecordFail_laws {k : Nat} {m : Mod} (h : (m.sessAt k).isSome = true) : (m.tlsRecordFail k).sessAt k = none
    ∧ 110 ∈ (m.tlsRecordFail k).seenEv ∧ (m.tlsRecordFail k).get Ob.tlsAuthFail = (m.get Ob.tlsAuthFail + 1) % 4294967296 := by
  unfold Mod.tlsRecordFail
  rw [if_pos h]
  generalize hR : Mod.raise 110 _ _ _ _ = R
  obtain ⟨closed, seen, keys⟩ := closeSession_laws k R
  refine ⟨sessAt_eq_none.2 ?_, seen.mem (hR ▸ seen_raised _ _ _ _ _), ?_⟩
  · rw [keys]; simp
  · rw [closed.get (by decide), ← hR, get_raised, get_bump_same]

/-! ### Floe (R316) -/

theorem only_floeFails (bits : Nat) (m : Mod) : Only [.arb] m (m.floeFails bits) := by
  unfold Mod.floeFails
  split
  · exact Only.refl _ _
  · exact ((Only.refl _ _).oArb (by decide)).oArb (by decide)

/-- One tick more without a good state frame, the `n`th in a row. -/
def Mod.tickLost (n : Nat) (m : Mod) : Mod :=
  (m.bump (Ob.floeLostTicks m.standby)).modLane m.standby (fun x => { x with missing := n })

theorem stateFrameLost_eq (m : Mod) : m.stateFrameLost =
    if (m.laneAt m.standby).missing + 1 = 3 then (m.tickLost 3).floeFails 1 else m.tickLost ((m.laneAt m.standby).missing + 1) := by
  unfold Mod.stateFrameLost
  dsimp only
  split
  · rw [‹_ + 1 = 3›]; rfl
  · rfl

theorem tickLost_laws (n : Nat) (m : Mod) : Only [.obj, .lanes] m (m.tickLost n)
    ∧ OnlyEntries [Ob.floeLostTicks m.standby] m (m.tickLost n) :=
  ⟨((Only.refl _ _).obump (by decide)).oLane (by decide), ((onlyEntries_refl _ _).obump (by simp)).oLane⟩

/-- The parts that the loss of a Floe frame touches. -/
def floeParts : List Part := [.obj, .lanes, .arb]

theorem stateFrameLost_laws (m : Mod) : Only floeParts m m.stateFrameLost
    ∧ OnlyEntries [Ob.floeLostTicks m.standby] m m.stateFrameLost := by
  have lost := fun n => tickLost_laws n m
  rw [stateFrameLost_eq]
  split
  · have fails := only_floeFails 1 (m.tickLost 3)
    exact ⟨((lost 3).1.mono (by decide)).to fails (by decide), (lost 3).2.trans (fails.onlyEntries (by decide) _)⟩
  · exact ⟨(lost _).1.mono (by decide), (lost _).2⟩

theorem mirroredWriteLost_laws (m : Mod) : Only floeParts m m.mirroredWriteLost
    ∧ OnlyEntries [Ob.floeResends m.standby] m m.mirroredWriteLost := by
  unfold Mod.mirroredWriteLost
  dsimp only
  split
  · exact ⟨((Only.refl _ _).obump (by decide)).oLane (by decide), ((onlyEntries_refl _ _).obump (by simp)).oLane⟩
  · have parts : Only [.lanes, .arb] m ((m.modLane m.standby (fun x => { x with mwBad := 0 })).floeFails 2) :=
      ((Only.refl _ _).oLane (by decide)).to (only_floeFails _ _) (by decide)
    exact ⟨parts.mono (by decide), parts.onlyEntries (by decide) _⟩

theorem floeLost_laws (f : FloeFrame) (m : Mod) : Only floeParts m (m.floeLost f)
    ∧ OnlyEntries [Ob.floeLostTicks m.standby, Ob.floeResends m.standby] m (m.floeLost f) := by
  obtain ⟨state, ticks⟩ := stateFrameLost_laws m
  obtain ⟨write, resends⟩ := mirroredWriteLost_laws m
  have kept : Only floeParts m m ∧ OnlyEntries [Ob.floeLostTicks m.standby, Ob.floeResends m.standby] m m :=
    ⟨Only.refl _ _, onlyEntries_refl _ _⟩
  unfold Mod.floeLost
  split <;> split
  · exact ⟨state, ticks.mono (by simp)⟩
  · exact kept
  · exact ⟨write, resends.mono (by simp)⟩
  · exact kept
  · exact ⟨write, resends.mono (by simp)⟩
  · exact kept

/-- A frame with a bad CRC counts. -/
theorem floeFrame_bad {f : FloeFrame} {m : Mod} (bad : f.crcOk = false) :
    (m.floeFrame f).get (Ob.floeCrcFail f.lane) = (m.get (Ob.floeCrcFail f.lane) + 1) % 4294967296 ∧ Only floeParts m (m.floeFrame f) := by
  unfold Mod.floeFrame
  dsimp only
  rw [if_pos (by simp [bad])]
  generalize hA : Mod.modLane f.lane _ _ = A
  have parts : Only floeParts m A := by subst hA; exact ((Only.refl _ _).obump (by decide)).oLane (by decide)
  have count : A.get (Ob.floeCrcFail f.lane) = (m.get (Ob.floeCrcFail f.lane) + 1) % 4294967296 := by subst hA; exact get_bump_same _ _
  obtain ⟨lost, entries⟩ := floeLost_laws f A
  have apart : Ob.floeCrcFail f.lane ∉ [Ob.floeLostTicks A.standby, Ob.floeResends A.standby] := by
    simp only [List.mem_cons, List.not_mem_nil, or_false, Ob.floeCrcFail, Ob.floeLostTicks, Ob.floeResends]
    omega
  exact ⟨(entries _ apart).trans count, parts.trans lost⟩

/-- A good frame that carries the next number is taken. -/
theorem floeFrame_next {f : FloeFrame} {m : Mod} {n : Nat} (good : f.crcOk = true) (last : (m.laneAt f.lane).floeSeq = some n)
    (next : f.seq % 65536 = (n + 1) % 65536) :
    m.floeFrame f = (m.modLane f.lane (fun x => { x with floeSeq := some (f.seq % 65536) })).floeGood f := by
  unfold Mod.floeFrame
  dsimp only
  rw [if_neg (by simp [good]), last]
  exact if_pos next

/-- A good state frame of the standby lane in which nothing differs ends a row of lost ticks. -/
theorem floeGood_same {f : FloeFrame} {m : Mod} (kind : f.kind = .state) (lane : f.lane = m.standby) (compares : m.arb.adopt = false)
    (same : f.mismatch = none) : m.floeGood f = m.modLane f.lane (fun x => { x with missing := 0, goodTick := m.clk.tick }) := by
  unfold Mod.floeGood
  rw [kind]
  dsimp only
  rw [if_pos lane, if_neg (by rw [modLane_arb, compares]; decide), same]

/-- Such a frame that carries the next number is noted with it. -/
theorem floeFrame_inSequence {f : FloeFrame} {m : Mod} {n : Nat} (good : f.crcOk = true) (kind : f.kind = .state) (lane : f.lane = m.standby)
    (same : f.mismatch = none) (last : (m.laneAt f.lane).floeSeq = some n) (next : f.seq % 65536 = (n + 1) % 65536)
    (compares : m.arb.adopt = false) (hl : f.lane < m.lanes.length) :
    ((m.floeFrame f).laneAt f.lane).missing = 0 ∧ ((m.floeFrame f).laneAt f.lane).floeSeq = some (f.seq % 65536)
    ∧ Only [.lanes] m (m.floeFrame f) := by
  rw [floeFrame_next good last next]
  generalize hA : Mod.modLane f.lane _ m = A
  have taken : Only [.lanes] m A := hA ▸ only_modLane _ _ _
  have standby : A.standby = m.standby := (taken.onlyEntries (by decide) []).standby (by simp)
  have number : (A.laneAt f.lane).floeSeq = some (f.seq % 65536) := by rw [← hA, laneAt_modLane _ _ _ hl]
  rw [floeGood_same kind (lane.trans standby.symm) (by rw [show A.arb = m.arb from taken .arb (by decide)]; exact compares) same,
    laneAt_modLane _ _ _ (by rw [← hA, lanesLen_modLane]; exact hl)]
  exact ⟨rfl, number, taken.trans (only_modLane _ _ _)⟩

/-- From `a` to `b` the standby lane has lost `n` ticks in a row, and nothing has come of it yet. -/
structure LostTicks (n : Nat) (a b : Mod) : Prop where
  parts   : Only [.obj, .lanes] a b
  entries : OnlyEntries [Ob.floeLostTicks a.standby] a b
  lanes   : b.lanes.length = a.lanes.length
  row     : (b.laneAt a.standby).missing = n
  count   : (b.get (Ob.floeLostTicks a.standby) + 1) % 4294967296 = (a.get (Ob.floeLostTicks a.standby) + n + 1) % 4294967296

namespace LostTicks

variable {n : Nat} {a b : Mod}

theorem refl (h : (a.laneAt a.standby).missing = 0) : LostTicks 0 a a := ⟨Only.refl _ _, onlyEntries_refl _ _, rfl, h, rfl⟩

theorem standby (h : LostTicks n a b) : b.standby = a.standby :=
  h.entries.standby (by simp only [List.mem_singleton, Ob.activeLane, Ob.floeLostTicks]; omega)

theorem next (h : LostTicks n a b) (hl : a.standby < a.lanes.length) : LostTicks (n + 1) a (b.tickLost (n + 1))
    ∧ (b.tickLost (n + 1)).get (Ob.floeLostTicks a.standby) = (a.get (Ob.floeLostTicks a.standby) + (n + 1)) % 4294967296 := by
  obtain ⟨parts, entries⟩ := tickLost_laws (n + 1) b
  have counted : (b.tickLost (n + 1)).get (Ob.floeLostTicks b.standby) = (b.get (Ob.floeLostTicks b.standby) + 1) % 4294967296 :=
    get_bump_same _ _
  have row : (b.tickLost (n + 1)).laneAt b.standby = { b.laneAt b.standby with missing := n + 1 } :=
    laneAt_modLane _ _ _ (by rw [bump_eq, put_lanes, h.standby, h.lanes]; exact hl)
  have lanes : (b.tickLost (n + 1)).lanes.length = b.lanes.length := lanesLen_modLane _ _ _
  rw [h.standby] at entries counted row
  have total := counted.trans h.count
  refine ⟨⟨h.parts.trans parts, h.entries.trans entries, lanes.trans h.lanes, by rw [row], ?_⟩, total⟩
  rw [total]
  omega

/-- The next lost tick, of a row that is not yet three. -/
theorem step (h : LostTicks n a b) (hl : a.standby < a.lanes.length) (hn : n + 1 ≠ 3) : LostTicks (n + 1) a b.stateFrameLost := by
  rw [stateFrameLost_eq, h.standby, h.row, if_neg hn]
  exact (h.next hl).1

end LostTicks

/-- The standby lane that Floe has lost falls due at the next boundary, unless it is unhealthy or falls due already. -/
theorem floeFails_due {bits : Nat} {m : Mod} (healthy : m.healthOf m.standby ≠ 2) (first : m.arb.floeEv = 0) :
    (m.floeFails bits).arb.due = m.arb.due ++ [(m.standby, 0x4606)] := by
  unfold Mod.floeFails
  rw [if_neg (by simp [healthy, first])]
  rfl

/-- Three ticks without a good state frame that no frame has told. -/
theorem floeStateLoss_laws {m : Mod} (hl : m.standby < m.lanes.length) (whole : (m.laneAt m.standby).missing = 0)
    (healthy : m.healthOf m.standby ≠ 2) (first : m.arb.floeEv = 0) (past : (m.laneAt m.standby).goodTick + 3 ≤ m.clk.tick) :
    (m.floeStateLoss.laneAt m.standby).missing = 3
    ∧ m.floeStateLoss.get (Ob.floeLostTicks m.standby) = (m.get (Ob.floeLostTicks m.standby) + 3) % 4294967296
    ∧ m.floeStateLoss.arb.due = m.arb.due ++ [(m.standby, 0x4606)] ∧ Only floeParts m m.floeStateLoss := by
  have thrice : m.floeStateLoss = m.stateFrameLost.stateFrameLost.stateFrameLost := by
    unfold Mod.floeStateLoss
    dsimp only
    rw [whole, if_neg (by simp [past])]
    rfl
  have two : LostTicks 2 m m.stateFrameLost.stateFrameLost := ((LostTicks.refl whole).step hl (by decide)).step hl (by decide)
  rw [thrice, stateFrameLost_eq, two.standby, two.row, if_pos rfl]
  generalize m.stateFrameLost.stateFrameLost = B at two
  obtain ⟨three, count⟩ := two.next hl
  have fails := only_floeFails 1 (B.tickLost 3)
  have arb : (B.tickLost 3).arb = m.arb := three.parts .arb (by decide)
  have health : (B.tickLost 3).healthOf (B.tickLost 3).standby = m.healthOf m.standby := by
    rw [three.standby]
    exact three.entries.healthOf (by simp [Ob.health, Ob.floeLostTicks])
  refine ⟨by rw [fails.laneAt (by decide), three.row], by rw [fails.get (by decide), count], ?_,
    (three.parts.mono (by decide)).to fails (by decide)⟩
  rw [floeFails_due (by rw [health]; exact healthy) (by rw [arb]; exact first), arb, three.standby]

/-! ### Cirque (R317) -/

/-- The third MAC that fails: Cirque counts as unavailable, with EV104. -/
theorem cirqueMacFail_third {l : Nat} {m : Mod} (hl : l < m.lanes.length) (two : (m.laneAt l).macFails = 2) :
    ((m.cirqueMacFail l).laneAt l).macFails = 3 ∧ Tells 104 sevFault 0x6401 l m (m.cirqueMacFail l)
    ∧ (m.cirqueMacFail l).get (Ob.cirqueMacFail l) = (m.get (Ob.cirqueMacFail l) + 1) % 4294967296
    ∧ (l = m.lane → (m.cirqueMacFail l).get Ob.cirqueState = 1) ∧ Only ([.obj, .lanes] ++ evParts) m (m.cirqueMacFail l) := by
  unfold Mod.cirqueMacFail
  dsimp only
  rw [if_pos two, two]
  generalize hA : Mod.modLane l _ _ = A
  have parts : Only [.obj, .lanes] m A := by subst hA; exact ((Only.refl _ _).obump (by decide)).oLane (by decide)
  have fails : (A.laneAt l).macFails = 3 := by
    subst hA; exact congrArg LaneRt.macFails (laneAt_modLane (m.bump _) l _ hl)
  have count : A.get (Ob.cirqueMacFail l) = (m.get (Ob.cirqueMacFail l) + 1) % 4294967296 := by subst hA; exact get_bump_same _ _
  have lane : A.lane = m.lane := by
    subst hA
    exact OnlyEntries.lane (ks := [Ob.cirqueMacFail l]) ((onlyEntries_refl _ _).obump (by simp)).oLane
      (by simp only [List.mem_singleton, Ob.activeLane, Ob.cirqueMacFail]; omega)
  have shown : Only [.obj] A A.showCirque := (Only.refl _ _).oput (by decide)
  have told : Only [.obj, .lanes] m A.showCirque := parts.to shown (by decide)
  refine ⟨?_, told.tells_raise _ _ _ _ (by decide) (by decide) (by decide), ?_, fun h => ?_,
    (told.mono (by decide)).oraise _ _ _ _ (by decide)⟩
  · rw [laneAt_eq (raise_part _ _ _ _ _ .lanes (by decide)), shown.laneAt (by decide), fails]
  · rw [get_raised, Mod.showCirque, get_put_other _ (by simp only [Ob.cirqueMacFail, Ob.cirqueState]; omega), count]
  · rw [get_raised, Mod.showCirque, get_put_same, lane, ← h, fails]
    rfl

/-! ### The statement -/

/-- Settles O45: each event by the law of its operation; EV011 of a flash word rests on assumption-log entry 66, the entries lost on 84. -/
theorem integrityFailuresActAndCount : Obligations.IntegrityFailuresActAndCount := by
  unfold Obligations.IntegrityFailuresActAndCount
  intro s l a corrected k seq entries hl lanes hseq
  have ok : laneOk l = true := decide_eq_true hl
  have hlen : l < s.m.lanes.length := by omega
  have standby2 : s.m.standby < 2 := Nat.lt_succ_of_le (standby_le s.m)
  have standby : s.m.standby < s.m.lanes.length := by omega
  have address : LaneCounter (Ob.lastErrorAddr l) := by unfold LaneCounter Ob.lastErrorAddr; omega
  refine ⟨?run, fun ended => ?moraine, fun h0 h4 => ?waits, fun moraine => ?word, ?bothCopies, ?oneCopy, ?parity, ?commCore,
    fun last compares => ?good, fun kind x => ?bad, fun whole healthy first past => ?lost, fun two => ?mac, fun isOpen => ?tls⟩
  case run =>
    obtain ⟨parts, kept, count, sum, instant⟩ := scrubRun_laws l corrected s.m
    exact does_unit rfl ok ⟨count, sum, instant, parts, kept⟩
  case moraine =>
    obtain ⟨parts, kept, sum, instant⟩ := scrubMoraine_laws l corrected ended
    exact does_unit rfl ok ⟨sum, instant, parts, kept⟩
  case waits => exact does_unit rfl ok (scrubPass_waits l corrected h0 h4)
  case word =>
    cases moraine with
    | true =>
      obtain ⟨parts, told, count, addr⟩ := memoryUncorrectable_moraine l a s.m
      exact does_unit rfl ok ⟨told, count, addr, fun _ => parts, nofun, nofun⟩
    | false =>
      have counter : LaneCounter (Ob.dramUncorrected l) := by unfold LaneCounter Ob.dramUncorrected; omega
      obtain ⟨told, count, addr, gives, unhealthy⟩ := errorActs_laws l a 0x4602 (memArg l 0) s.m
        (by simp [Ob.dramUncorrected, Ob.lastErrorAddr]) counter address
      exact does_lane rfl hl (memoryUncorrectable_run l a s.m) ⟨told, count, addr, nofun, fun _ => gives, fun _ => unhealthy⟩
  case bothCopies => exact does_unit rfl ok (flashBothCopies_laws l a entries s.m)
  case oneCopy =>
    obtain ⟨parts, kept, told, -⟩ := flashNoted_laws l a s.m
    exact does_lane rfl hl (flashUncorrectable_oneCopy l a entries s.m) ⟨told, parts, kept⟩
  case parity =>
    have counter : LaneCounter (Ob.parityErrors l) := by unfold LaneCounter Ob.parityErrors; omega
    obtain ⟨told, count, -, gives, unhealthy⟩ := errorActs_laws l a 0x4605 (memArg l 5) s.m
      (by simp [Ob.parityErrors, Ob.lastErrorAddr]) counter address
    exact does_lane rfl hl (parityError_sram l a s.m) ⟨told, count, gives, unhealthy⟩
  case commCore => exact does_unit rfl ok (parityError_commCore a s.m hl)
  case good =>
    obtain ⟨row, number, parts⟩ :=
      floeFrame_inSequence (f := ⟨s.m.standby, seq + 1, true, .state, none⟩) rfl rfl rfl rfl last rfl compares standby
    exact does_unit rfl (decide_eq_true standby2) ⟨row, by rw [number, Nat.mod_eq_of_lt (show seq + 1 < 65536 by omega)], parts⟩
  case bad => exact does_unit rfl ok (floeFrame_bad rfl)
  case lost => exact does_onMod rfl rfl (floeStateLoss_laws standby whole healthy first past)
  case mac => exact does_unit rfl ok (cirqueMacFail_third hlen two)
  case tls => exact does_onMod rfl rfl (tlsRecordFail_laws isOpen)

end Sys2Proof.Machine
end

section
/-!
SUPPORT. What every step keeps: the queue, the readings of the seals beside the two commands that read them (R361, R362), and the
counters of Cirque, which no step lowers (R458). One lemma for each way in which a command answers, and from them one over all.
-/
namespace Sys2Proof.Machine

/-! ### Counters that only rise (R458) -/

/-- From `a` to `b` no counter falls, and each stays within its 0 to 1023. -/
structure CountersRise (a b : List Nat) : Prop where
  length : b.length = a.length
  within : (∀ v ∈ a, v ≤ 1023) → ∀ v ∈ b, v ≤ 1023
  rises  : ∀ c, a.getD c 0 ≤ b.getD c 0

theorem CountersRise.refl (a : List Nat) : CountersRise a a := ⟨rfl, fun h => h, fun _ => le_refl _⟩

theorem CountersRise.trans {a b c : List Nat} (h : CountersRise a b) (g : CountersRise b c) : CountersRise a c :=
  ⟨g.length.trans h.length, fun w => g.within (h.within w), fun k => (h.rises k).trans (g.rises k)⟩

theorem getD_raiseCounter (c v k : Nat) (l : List Nat) :
    (raiseCounter (some (c, v)) l).getD k 0 = if k = c ∧ k < l.length then max (l.getD k 0) v else l.getD k 0 := by
  show (l.modify c (fun x => max x v)).getD k 0 = _
  simp only [List.getD_eq_getElem?_getD, List.getElem?_modify]
  by_cases hk : k < l.length
  · by_cases hc : c = k <;> simp [hk, hc, eq_comm]
  · simp [hk]

/-- A step of a counter to a value within its range. -/
theorem raiseCounter_rises {step : Option (Nat × Nat)} (l : List Nat) (h : ∀ x, step = some x → x.2 ≤ 1023) :
    CountersRise l (raiseCounter step l) := by
  cases step with
  | none => exact CountersRise.refl l
  | some x =>
    refine ⟨List.length_modify .., fun w v hv => ?_, fun k => ?_⟩
    · obtain ⟨k, hk, rfl⟩ := List.getElem_of_mem hv
      have hw := h x rfl
      have e : (raiseCounter (some x) l)[k] = (raiseCounter (some (x.1, x.2)) l).getD k 0 := by
        simp [List.getD_eq_getElem?_getD, hk]
      have hl : k < l.length := by simpa [raiseCounter] using hk
      have hg : l.getD k 0 ≤ 1023 := by
        rw [List.getD_eq_getElem?_getD, List.getElem?_eq_getElem hl]
        exact w _ (List.getElem_mem hl)
      rw [e, getD_raiseCounter]
      split <;> omega
    · rw [show x = (x.1, x.2) from rfl, getD_raiseCounter]
      split <;> omega

theorem counterStep_within (kp : Kept) (m : Mod) (x : Nat × Nat) (h : m.counterStep kp = some x) : x.2 ≤ 1023 := by
  unfold Mod.counterStep at h
  split at h
  · cases h
  · split at h
    · cases h; exact Nat.min_le_left _ _
    · cases h

theorem commitStep_within (kp : Kept) (m : Mod) (x : Nat × Nat) (h : m.commitStep kp = some x) : x.2 ≤ 1023 := by
  unfold Mod.commitStep at h
  split at h
  · cases h
  · exact counterStep_within kp m x h

theorem counterOf_within {kp : Kept} {f : Frame} {r : Outcome} {m : Mod} (x : Nat × Nat) (h : m.counterOf kp f r = some x) :
    x.2 ≤ 1023 := by
  unfold Mod.counterOf at h
  split at h
  · exact counterStep_within kp m x h
  · cases h

/-- The step of the counters that a new command makes stays in their range. -/
theorem fresh_within {kp : Kept} {gen : Nat} {bad : Bool} {f : Frame} {m : Mod} (x : Nat × Nat) (h : (m.fresh kp gen bad f).2 = some x) :
    x.2 ≤ 1023 := by
  unfold Mod.fresh at h
  dsimp only at h
  split at h
  · exact counterOf_within x h
  · split at h
    · cases h
    · exact counterOf_within x h

theorem incoming_within {kp : Kept} {gen : Nat} {bad : Bool} {f : Frame} {m : Mod} (x : Nat × Nat) (h : (m.incoming kp gen bad f).2 = some x) :
    x.2 ≤ 1023 := by
  unfold Mod.incoming at h
  dsimp only at h
  split at h
  · cases h
  · split at h
    · cases h
    · split at h
      · exact fresh_within x h
      · cases h
      · cases h

/-! ### A state that follows another -/

/-- From `a` to `b` the queue and the seal readings stay, and no counter falls. -/
structure Onward (a b : State) : Prop where
  queue     : b.pending = a.pending
  sealA     : b.kept.sealA = a.kept.sealA
  sealB     : b.kept.sealB = a.kept.sealB
  sealState : b.kept.sealState = a.kept.sealState
  counters  : CountersRise a.kept.rollback b.kept.rollback

namespace Onward
variable {a b c : State}

theorem refl (a : State) : Onward a a := ⟨rfl, rfl, rfl, rfl, CountersRise.refl _⟩

theorem trans (h : Onward a b) (g : Onward b c) : Onward a c :=
  ⟨g.queue.trans h.queue, g.sealA.trans h.sealA, g.sealB.trans h.sealB, g.sealState.trans h.sealState, h.counters.trans g.counters⟩

/-- A change of the module. -/
theorem setMod (a : State) (m : Mod) : Onward a { a with m := m } := ⟨rfl, rfl, rfl, rfl, CountersRise.refl _⟩

/-- A change of the module and a step of the counters. -/
theorem setCounters (a : State) (m : Mod) {step : Option (Nat × Nat)} (h : ∀ x, step = some x → x.2 ≤ 1023) :
    Onward a { a with m := m, kept := { a.kept with rollback := raiseCounter step a.kept.rollback } } :=
  ⟨rfl, rfl, rfl, rfl, raiseCounter_rises _ h⟩

theorem ite (h : Onward a b) (g : Onward a c) {p : Prop} [Decidable p] : Onward a (if p then b else c) := by
  split <;> assumption

theorem foldl {α : Type} {f : State → α → State} (hf : ∀ s x, Onward s (f s x)) (l : List α) (a : State) : Onward a (l.foldl f a) := by
  induction l generalizing a with
  | nil => exact refl a
  | cons x l ih => exact (hf a x).trans (ih _)

/-! ### Frames and windows -/

theorem takes (gen : Nat) (bad : Bool) (f : Frame) (s : State) : Onward s (State.takes gen bad f s) :=
  setCounters s _ incoming_within

theorem takesAt (n : Nat) (bad : Bool) (f : Frame) (s : State) : Onward s (State.takesAt n bad f s) :=
  ((setMod s _).trans (takes _ _ _ _)).trans (setMod _ _)

theorem mailboxFrame (n : Nat) (f : Frame) (s : State) : Onward s (State.mailboxFrame n f s) :=
  (refl s).ite <| .ite
    ((setMod s _).ite <| .ite (setMod s _) (takes _ _ _ _))
    ((setMod s _).ite <| (refl s).ite <| (takesAt _ _ _ _).ite <| (setMod s _).ite (takesAt _ _ _ _))

theorem sessionFrame (k : Nat) (f : Frame) (s : State) : Onward s (State.sessionFrame k f s) := by
  unfold State.sessionFrame
  split
  · exact refl s
  · exact (refl s).ite <| (setMod s _).ite ((setMod s _).trans (takes _ _ _ _))

theorem doorbell (n : Nat) (s : State) : Onward s (State.doorbell n s) :=
  (refl s).ite <| (setMod s _).ite <| (refl s).ite <| (takesAt _ _ _ _).ite <| (takesAt _ _ _ _).ite (setMod s _)

theorem doorbells (mask : Nat) (s : State) : Onward s (State.doorbells mask s) := foldl (fun s n => doorbell n s) _ s

theorem fifoTakes (n : Nat) (s : State) : Onward s (State.fifoTakes n s) :=
  (refl s).ite <| (setMod s _).ite <| (refl s).ite <| (setMod s _).ite ((setMod s _).trans (takes _ _ _ _))

theorem fifoByte (n : Nat) (s : State) (b : Byte) : Onward s (State.fifoByte n s b) :=
  (setMod s _).ite ((setMod s _).trans (fifoTakes n _))

theorem fifoIn (n : Nat) (data : List Byte) (s : State) : Onward s (State.fifoIn n data s) :=
  (refl s).ite <| (setMod s _).ite (foldl (fifoByte n) data s)

theorem windowWrite (n offset : Nat) (data : List Byte) (s : State) : Onward s (State.windowWrite n offset data s) :=
  (fifoIn n data s).ite <| (refl s).ite (setMod s _)

/-- A write of a register, where the transaction fills it. -/
theorem onRegister (v : Option Nat) (f : Nat → State → Mod) (s : State) :
    Onward s (match v with | some v => { s with m := f v s } | none => s) := by
  cases v with
  | none => exact refl s
  | some v => exact setMod s _

theorem linkWrites (addr : Nat) (data : List Byte) (s : State) : Onward s (State.linkWrites addr data s) := by
  unfold State.linkWrites
  split
  · exact refl s
  · dsimp only
    have registers := (onRegister (regWritten 4 4 (writtenAt (addr % 65536) data)) (fun v s => s.m.writeConfig v) s).trans
      (onRegister (regWritten 8 4 (writtenAt (addr % 65536) data)) (fun v s => s.m.clearSticky v) _)
    have bells := registers.trans
      (foldl (fun s (p : Nat × Byte) => doorbells p.2.toNat s) ((writtenAt (addr % 65536) data).filter (fun p => p.1 = 0x10)) _)
    have released := bells.trans (foldl (f := fun s (p : Nat × Byte) => { s with m := s.m.release p.2.toNat })
      (fun s p => setMod s (s.m.release p.2.toNat)) ((writtenAt (addr % 65536) data).filter (fun p => p.1 = 0x11)) _)
    split
    · exact released
    · exact released.trans (windowWrite _ _ _ _)

end Onward

/-! ### How a command answers -/

/-- An outcome of a command on `s`: a state that it answers follows `s`, and it answers one where `ok` holds. -/
structure Follows (ok : Prop) (s : State) (o : Host.Outcome State Fault Refusal) : Prop where
  onward  : ∀ t, o = .next t → Onward s t
  answers : ok → ∃ t, o = .next t

namespace Follows
variable {ok : Prop} {s t : State}

theorem next (h : Onward s t) : Follows ok s (.next t) :=
  ⟨fun u hu => by injection hu with hu; exact hu ▸ h, fun _ => ⟨t, rfl⟩⟩

theorem fault (r : Fault) (h : ¬ ok) : Follows ok s (.fault r) := ⟨fun _ e => (by cases e), fun hk => absurd hk h⟩

theorem ite {o q : Host.Outcome State Fault Refusal} {p : Prop} [Decidable p] (h : Follows ok s o) (g : ¬ p → Follows ok s q) :
    Follows ok s (if p then o else q) := by
  split
  · exact h
  · exact g ‹_›

theorem fromMod (m : Mod) : Follows ok s (onMod s m) := next (Onward.setMod s m)

theorem fromUnit {b : Bool} (m : Mod) (h : ok → b = true) : Follows ok s (onUnit b s m) :=
  (next (Onward.setMod s m)).ite (fun hb => fault _ (fun hk => hb (h hk)))

theorem fromFrame {f : Frame} (h : ok → f.h.snd.wf = true) : Follows ok s (State.frame f s) := by
  unfold State.frame
  split
  · rename_i n hs
    exact (next (Onward.mailboxFrame n _ s)).ite (fun hn => fault _ (fun hk => hn (by have := h hk; rw [hs] at this; simpa [Sender.wf] using this)))
  · exact next (Onward.sessionFrame _ _ s)
  · rename_i h1 h2
    refine fault _ (fun hk => ?_)
    have hw := h hk
    cases hs : f.h.snd with
    | mbx n => exact h1 n hs
    | session k => exact h2 k hs
    | modbus _ | dnp3 _ | localSafety => simp [hs, Sender.wf] at hw

/-- A frame whose ACTION names one of four units. -/
theorem fromUnitFrame {f : Frame} {u : Nat} (h : ok → f.h.snd.wf = true ∧ u < 4) :
    Follows ok s (if u < 4 then State.frame f s else .fault .noSuchUnit) :=
  (fromFrame (fun hk => (h hk).1)).ite (fun hu => fault _ (fun hk => hu (h hk).2))

end Follows

/-! ### The commands -/

theorem follows_commitDelay {ok : Prop} (s : State) : Follows ok s (execCommitDelayExpiry s) := by
  unfold execCommitDelayExpiry
  split
  · exact .next (Onward.refl s)
  · exact .next (Onward.setCounters s _ (commitStep_within s.kept s.m))

/-- A well-formed estimate names objects that exist. -/
theorem estimateOk_of_wf (e : Estimate) (h : e.wf = true) : estimateOk e = true := by
  cases e <;> simp_all [Estimate.wf, estimateOk, isMeasChannel, isPair, isLane]

/-- Every command but the two that read the seals answers a state that follows, and a well-formed one answers. -/
theorem exec_follows (c : Instr) (s : State) (hB : ∀ t r, c ≠ .powerOn t r) (hA : ∀ t r, c ≠ .safetyDieRunning t r) :
    Follows (c.wf = true) s (exec c s) := by
  cases c
  case read | write | writeCommit | groupBegin | groupCommit | streamOpen | streamClose | eventAck | tickStatsClear | calZero |
      calDcSpan | calAcSpan | calApply | calAbort | ctxReset | traceArm | traceStop | traceForce | injStart | injStop |
      pwmTripClear | pwmDirectStart | pwmDirectStop | retire | reinstate | integrityClear | laneSwitchover | laneResync |
      sdcFaultClear | timeSet | timeReacquire | schedCancel | sensorRestore | cdFaultClear | hkUrgent | sessionOpen |
      keyInstall | certInstall | trustAnchor | crlInstall | fwUpload | fwStage | fwActivate | fwCommit | certModeEnter |
      certModeLeave | debugUnlock | debugResponse | planNow | ageingRebase => exact .fromFrame (by simp_all [Instr.wf, Hdr.wf])
  case gfStart | gfStop | idRun | dcStart | dcStop | scanRun =>
    exact .fromUnitFrame (by simp_all [Instr.wf, Hdr.wf, isSection, isDcChannel])
  case linkRead | linkModeReset | quadEnWrite | hlStatusClear | rspRelease | groupDiscarded | evtNPulse | eventFrameRelease |
      tickBoundary | samplesReady | commitDeadline | focTrip | focAlert | mclkLost | calPointDone | notchUpdate |
      tracePreFilled | traceDone | sweepSettled | sweepPointMeasured | injectionDone | fltTrip | recoveryDelayEnd |
      clearRecheck | retryTimeout | holdMaxReached | floeStateLoss | safetyLinkLoss | tlsRecordFail | laneClaim |
      standbyReady | claimWithdrawn | takeoverInstant | splitClaim | noGrantTimeout | mirrorDiagnosis | carrierAlign |
      fullTestStart | selfTestDone | redundancyRestored | sdcSample | safetyCrosslinkFrame | connectionRequest |
      sdcStepConfirmed | relayTimeout | discrepancyFault | weldTestDue | weldTestOverdue | seracOscFault | sealRecheck |
      resetAsserted | resetHeld | resetReleased | ptpMessage | timeSourceLost | holdoverLimitExpiry | ppsInEdge | ppsOutPulse |
      tcpConnect | tlsHandshake | sessionIdleTimeout | modbusReadHolding | modbusReadInput | modbusWriteSingle |
      modbusWriteMultiple | dnp3Request | chatterWindowEnd | throttleStepTimer | graceTimeEnd | cdFault | cdBootstrapRefresh |
      cdEnableLow | cdRetryDelayEnd | cdSpeedUpdate | tcxoLost | tcxoRestored | hkUrgentDone | authBlockEnd | fwStaged |
      powerDip | lanesReleased | floeTraining | baselineComplete | planCompute | planStep | sessionClose | delayReq |
      hallEdge => exact .fromMod _
  case deadConfirmExpiry | backoffExpiry | busLive | closeTimeout | rampComplete | rampTimeout | enterServiceDelayEnd |
      syncHoldMet | syncTimeout | stopPowerLow | stopComplete | idSlotStart | idInjectionEnd | idResult | islandingCheck |
      rtCurveCheck | recovTimeMet | rtRecoveryComplete | lossOfSync | losBlankEnd | currentLimitRelease |
      dcEntryConditionsMet | pvLowPower | batteryOutOfWindow | dcStopComplete | dcLimitsExpired | mpptStep | scanDue |
      scanDwellEnd | scanCheckEnd =>
    exact .fromUnit _ (fun h => h)
  case plausibility => exact .fromUnit _ (by simp +contextual [Instr.wf, isSection, secOk, isMeasChannel])
  case estimateBlock e => exact .fromUnit _ (estimateOk_of_wf e)
  case responseFifoRead | mclkLostInLane | streamLost | channelSettled | meterBlockEnd | offsetTrackUpdate | gridFreqUpdate |
      freqTripStage | laneTripRequest | interlockViolation | safeDtExpiry | legMapReport | trimBlockDone | comfbMissing |
      comfbRestored | dclinkTrip | dclinkWarning | scrubPass | memoryUncorrectable | flashUncorrectable | parityError |
      floeFrame | cirqueMacFail | claimTimeout | claimPairBroken | lockstepMismatch | watchdogExpiry | floeLoopbackFail |
      knownAnswerTestFail | trigPulse | scheduledEntry | linkState | rimeFrame | rimeLoss | fieldSample | inputMaxActive |
      outputOverload | outputThermal | fieldLoadWarning | fsupOutOfRange | fsupLost | fsupBack | hkRound | lockWindow |
      certExpiring | bootLoaderVerified | firmwareImageVerified | rimeTraining | selfTestComplete =>
    exact .fromUnit _ (by simp +contextual [Instr.wf, MeterBlock.wf, HkRound.wf, isLane, laneOk, isSection, secOk, isGroup, isPair, isMeasChannel,
      isFieldChannel, isFieldGroup])
  case powerOn t r => exact absurd rfl (hB t r)
  case safetyDieRunning t r => exact absurd rfl (hA t r)
  case commitDelayExpiry => exact follows_commitDelay s
  case linkWrite => exact .next (Onward.linkWrites _ _ s)
  case mbxDoorbell => exact .next ((Onward.doorbells _ s).ite (Onward.refl s))
  case commandWindowWrite =>
    exact Follows.ite (.next ((Onward.windowWrite _ _ _ s).ite (Onward.refl s)))
      (fun h => .fault _ (by simpa [Instr.wf] using h))

/-! ### The two commands that read the seals (R361, R362) -/

theorem powerOn_keeps (tcxo : Bool) (r : List Nat) (s : State) :
    (powerOn tcxo r s).pending = s.pending ∧ (powerOn tcxo r s).kept.rollback = s.kept.rollback
    ∧ (powerOn tcxo r s).kept.sealA = s.kept.sealA ∧ (powerOn tcxo r s).kept.sealState = s.kept.sealState
    ∧ (s.m.power.power = true → (powerOn tcxo r s).kept.sealB = s.kept.sealB) := by
  unfold powerOn
  split
  · exact ⟨rfl, rfl, rfl, rfl, fun _ => rfl⟩
  · exact ⟨rfl, rfl, rfl, rfl, fun h => absurd h ‹_›⟩

/-- Once the verdict is reached, a restart of the safety die keeps channel A's reading and the verdict. -/
theorem safetyDie_keeps (started : Bool) (r : List Nat) (s : State) :
    (safetyDieRunning started r s).pending = s.pending ∧ (safetyDieRunning started r s).kept.rollback = s.kept.rollback
    ∧ (safetyDieRunning started r s).kept.sealB = s.kept.sealB
    ∧ (s.m.power.sealDone = true → (safetyDieRunning started r s).kept.sealA = s.kept.sealA
        ∧ (safetyDieRunning started r s).kept.sealState = s.kept.sealState) := by
  unfold safetyDieRunning
  dsimp only
  split
  · exact ⟨rfl, rfl, rfl, fun _ => ⟨rfl, rfl⟩⟩
  · split
    · exact ⟨rfl, rfl, rfl, fun _ => ⟨rfl, rfl⟩⟩
    · exact ⟨rfl, rfl, rfl, fun h => ⟨if_pos h, if_pos h⟩⟩

/-! ### The statements -/

/-- What a command leaves of the queue, the seals and the counters, whichever it is. -/
structure Leaves (c : Instr) (s t : State) : Prop where
  queue     : t.pending = s.pending
  counters  : CountersRise s.kept.rollback t.kept.rollback
  serac     : (∀ tcxo r, c ≠ .powerOn tcxo r) ∨ s.m.power.power = true → t.kept.sealB = s.kept.sealB
  channelA  : (∀ st r, c ≠ .safetyDieRunning st r) ∨ s.m.power.sealDone = true →
    t.kept.sealA = s.kept.sealA ∧ t.kept.sealState = s.kept.sealState

theorem exec_leaves {c : Instr} {s t : State} (h : exec c s = .next t) : Leaves c s t := by
  by_cases hB : ∀ tcxo r, c ≠ .powerOn tcxo r
  · by_cases hA : ∀ st r, c ≠ .safetyDieRunning st r
    · have o := (exec_follows c s hB hA).onward t h
      exact ⟨o.queue, o.counters, fun _ => o.sealB, fun _ => ⟨o.sealA, o.sealState⟩⟩
    · simp only [ne_eq, not_forall, not_not] at hA
      obtain ⟨st, r, rfl⟩ := hA
      obtain ⟨queue, counters, sealB, kept⟩ := safetyDie_keeps st r s
      cases h
      exact ⟨queue, counters ▸ .refl _, fun _ => sealB, fun hs => kept (hs.resolve_left (fun hn => hn st r rfl))⟩
  · simp only [ne_eq, not_forall, not_not] at hB
    obtain ⟨tcxo, r, rfl⟩ := hB
    obtain ⟨queue, counters, sealA, verdict, kept⟩ := powerOn_keeps tcxo r s
    cases h
    exact ⟨queue, counters ▸ .refl _, fun hs => kept (hs.resolve_left (fun hn => hn tcxo r rfl)), fun _ => ⟨sealA, verdict⟩⟩

/-- A step idles on an empty queue, and otherwise leaves what its command leaves. -/
theorem step_cases {s t : State} (h : step s = .next t) :
    (s.pending = [] ∧ t = s) ∨ ∃ c cs, s.pending = c :: cs ∧ Leaves c { s with pending := cs } t := by
  unfold step at h
  split at h
  · cases h; exact .inl ⟨‹_›, rfl⟩
  · exact .inr ⟨_, _, ‹_›, exec_leaves h⟩

/-- Settles O60: an idle step keeps all, and a command reads a seal only where it is the one that reads it, before the verdict. -/
theorem sealsHoldUntilPowerUp : Obligations.SealsHoldUntilPowerUp := by
  intro s t h
  rcases step_cases h with ⟨-, rfl⟩ | ⟨c, cs, hq, l⟩
  · exact ⟨fun _ => rfl, fun _ => ⟨rfl, rfl⟩, fun _ => ⟨rfl, rfl⟩, fun _ => rfl⟩
  · rw [hq]
    exact ⟨fun hn => l.serac (.inl fun tcxo r e => hn tcxo r (congrArg some e)),
      fun hn => l.channelA (.inl fun st r e => hn st r (congrArg some e)), fun hs => l.channelA (.inr hs), fun hs => l.serac (.inr hs)⟩

/-- Settles O59: every step leaves the counters as they are, or steps one of them up within its range. -/
theorem countersNeverFall : Obligations.CountersNeverFall := by
  intro s t hl hw h
  rcases step_cases h with ⟨-, rfl⟩ | ⟨c, cs, -, l⟩
  · exact ⟨hl, hw, fun _ => le_refl _⟩
  · exact ⟨l.counters.length.trans hl, l.counters.within hw, l.counters.rises⟩

/-! ### Every well-formed command completes -/

/-- A well-formed command answers a state, with the queue as it was. -/
theorem exec_completes (c : Instr) (s : State) (hw : c.wf = true) : ∃ t, exec c s = .next t ∧ t.pending = s.pending := by
  have answers : ∃ t, exec c s = .next t := by
    by_cases hB : ∀ tcxo r, c ≠ .powerOn tcxo r
    · by_cases hA : ∀ st r, c ≠ .safetyDieRunning st r
      · exact (exec_follows c s hB hA).answers hw
      · simp only [ne_eq, not_forall, not_not] at hA
        obtain ⟨st, r, rfl⟩ := hA
        exact ⟨_, rfl⟩
    · simp only [ne_eq, not_forall, not_not] at hB
      obtain ⟨tcxo, r, rfl⟩ := hB
      exact ⟨_, rfl⟩
  obtain ⟨t, ht⟩ := answers
  exact ⟨t, ht, (exec_leaves ht).queue⟩

theorem framed_of {c : Instr} {f : Frame} (h : ∀ s, exec c s = State.frame f s) : Framed c f := by
  refine fun s => ⟨fun n hs hn => ?_, fun k hs => ?_⟩
  · rw [h, State.frame, hs]; exact if_pos hn
  · rw [h, State.frame, hs]

/-- An event of a unit that exists. -/
theorem onUnit_of {b : Bool} {s : State} {m : Mod} (h : b = true) : onUnit b s m = .next { s with m := m } := if_pos h

/-- An event of a unit whose number lies below a bound. -/
theorem onUnit_below {p : Prop} [Decidable p] {s : State} {m : Mod} (h : p) : onUnit (decide p) s m = .next { s with m := m } :=
  onUnit_of (decide_eq_true h)

theorem exec_windowWrite {n offset : Nat} (hn : n < 4) (ho : offset < 1024) (data : List Byte) (s : State) :
    exec (.commandWindowWrite n offset data) s = .next (if s.m.linkUp then State.windowWrite n offset data s else s) :=
  if_pos (by simp [hn, ho])

theorem exec_loadWarning {g : Bool} {n : Nat} (h : if g then n < 4 else n < 32) (present : Bool) (s : State) :
    exec (.fieldLoadWarning g n present) s = .next { s with m := s.m.loadWarning g n present } :=
  onUnit_of (by cases g <;> simpa using h)

theorem exec_commitDelay {p : Nat} {s : State} (h : s.m.commitDue = some p) : exec .commitDelayExpiry s = .next { s with
    m := (s.m.reach p).rollbackEvent (s.m.commitStep s.kept)
    kept := { s.kept with rollback := raiseCounter (s.m.commitStep s.kept) s.kept.rollback } } := by
  show execCommitDelayExpiry s = _
  unfold execCommitDelayExpiry
  rw [h]

/-- Settles O2: a frame's command is given to its way as it stands, any other is its operation on a unit that exists. -/
theorem wellFormedCommandsComplete : Obligations.WellFormedCommandsComplete := by
  refine ⟨exec_completes, ?_⟩
  and_intros
  pick_goal -1
  · intro s
    and_intros
    all_goals intros
    all_goals first
      | rfl
      | exact onUnit_of ‹_›
      | exact onUnit_below ‹_›
      | exact exec_windowWrite ‹_› ‹_› _ s
      | exact exec_loadWarning ‹_› _ s
      | exact exec_commitDelay ‹_›
  all_goals intros
  all_goals first
    | exact framed_of fun _ => rfl
    | exact framed_of fun _ => if_pos ‹_›

/-! ### Before READY (R478), and after a reset (R471 to R474) -/

theorem doorbell_notReady (n : Nat) {s : State} (h : s.m.link.ready = false) : State.doorbell n s = s := by
  unfold State.doorbell
  simp [h]

theorem doorbells_notReady (mask : Nat) {s : State} (h : s.m.link.ready = false) : State.doorbells mask s = s := by
  unfold State.doorbells
  generalize bitsOf 4 mask = l
  induction l with
  | nil => rfl
  | cons n l ih => rw [List.foldl_cons, doorbell_notReady n h, ih]

theorem windowWrite_notReady {n : Nat} (offset : Nat) (data : List Byte) {s : State} (h : s.m.link.ready = false)
    (hg : (s.m.mbx.getD n {}).gen = 3) : State.windowWrite n offset data s = s := by
  unfold State.windowWrite State.fifoIn
  simp only [hg, h, Bool.not_false, if_true]

theorem mailboxFrame_notReady (n : Nat) (f : Frame) {s : State} (h : s.m.link.ready = false) : State.mailboxFrame n f s = s := by
  unfold State.mailboxFrame
  simp [h]

/-- Settles O7: each way into a mailbox asks for READY first. -/
theorem nothingIsTakenBeforeReady : Obligations.NothingIsTakenBeforeReady := by
  refine fun s h => ⟨fun mask => ?_, fun k off d hk ho hg => ?_, fun hd k i j hs hk => ?_⟩
  · show Host.Outcome.next (if s.m.linkUp then State.doorbells mask s else s) = _
    rw [doorbells_notReady mask h, ite_self]
  · rw [exec_windowWrite hk ho, windowWrite_notReady off d h hg, ite_self]
  · have framed : Framed (.read hd i j) ⟨hd, 1, i, j, []⟩ := framed_of fun _ => rfl
    rw [(framed s).1 k hs hk, mailboxFrame_notReady k _ h]

/-- Settles O58: the reset state holds no cell, so every entry reads as its default. -/
theorem resetHoldsDefaults : Obligations.ResetHoldsDefaults := by
  refine ⟨rfl, rfl, rfl, rfl, rfl, rfl, fun _ => rfl, rfl, rfl, rfl, fun v hv => List.eq_of_mem_replicate hv, fun s h => ?_⟩
  unfold step
  rw [h]

end Sys2Proof.Machine
end


section
/-!
PROOFS. The actions on time, the scheduled-action table, the sensors, the cooling drive, the housekeeping converters and the plan of
ageing (R378, R380, R382, R419, R430, R447, R489, R492, R493): what each operation does, and the statements on them (O21, O22).
-/
namespace Sys2Proof.Machine

/-! ### Updates of single parts -/

theorem only_modTime (m : Mod) (f : TimeRt → TimeRt) : Only [.time] m (m.modTime f) := by
  intro p hp; cases p <;> first | (exact absurd (by decide) hp) | rfl

theorem only_modTherm (m : Mod) (f : ThermRt → ThermRt) : Only [.therm] m (m.modTherm f) := by
  intro p hp; cases p <;> first | (exact absurd (by decide) hp) | rfl

theorem only_modCd (m : Mod) (f : CdRt → CdRt) : Only [.cd] m (m.modCd f) := by
  intro p hp; cases p <;> first | (exact absurd (by decide) hp) | rfl

theorem only_modAge (m : Mod) (f : AgeRt → AgeRt) : Only [.age] m (m.modAge f) := by
  intro p hp; cases p <;> first | (exact absurd (by decide) hp) | rfl

theorem only_schedTo (m : Mod) (l : List Sched) : Only [.sched] m { m with sched := l } := by
  intro p hp; cases p <;> first | (exact absurd (by decide) hp) | rfl

theorem only_stagedTo (m : Mod) (l : List Staged) : Only [.staged] m { m with staged := l } := by
  intro p hp; cases p <;> first | (exact absurd (by decide) hp) | rfl

/-! ### Numbers in bytes (R4) -/

theorem length_leBytes (n v : Nat) : (leBytes n v).length = n := by
  induction n generalizing v with
  | zero => rfl
  | succ n ih => exact congrArg (· + 1) (ih _)

theorem leNat_leBytes (n v : Nat) (h : v < 256 ^ n) : leNat (leBytes n v) = v := by
  induction n generalizing v with
  | zero => simp at h; subst h; rfl
  | succ n ih =>
    have less : v / 256 < 256 ^ n := Nat.div_lt_of_lt_mul (by rwa [Nat.pow_succ, Nat.mul_comm] at h)
    show (BitVec.ofNat 8 v).toNat + 256 * leNat (leBytes n (v / 256)) = v
    rw [ih _ less, BitVec.toNat_ofNat]
    omega

/-- The answer of an operation that gives a status. -/
theorem answers {r : Mod × Nat} {M : Mod} {st : Nat} (h : r = (M, st)) : answerOf r = (M, st, []) := congrArg answerOf h

/-! ### The timebase (R370, R378, R382) -/

theorem timeSet_sets {t : Nat} {m : Mod} (hs : m.get Ob.timeSource = 1) (ha : m.get Ob.stepAllowed = 1) :
    m.timeSet t = (m.modTime (fun x => { x with secondsOk := true, ppsRun := 0, ppsPs := none, masterTo := some ((t : Int) - m.tai) }), 0) := by
  unfold Mod.timeSet
  exact if_pos (by simp [hs, ha])

/-- A state of time is entered with EV098, told only where it is new (R370). -/
theorem timeTo_laws (new : Nat) (m : Mod) :
    Only (.obj :: evParts) m (m.timeTo new) ∧ OnlyEntries [Ob.timeState] m (m.timeTo new) ∧ (m.timeTo new).get Ob.timeState = new
    ∧ (m.timeSt ≠ new → 98 ∈ (m.timeTo new).seenEv) ∧ ∀ snd, ((m.timeTo new).chanOf snd).kept = (m.chanOf snd).kept := by
  unfold Mod.timeTo
  dsimp only
  by_cases h : m.timeSt = new
  · rw [if_pos h]
    exact ⟨Only.refl _ _, onlyEntries_refl _ _, h, fun g => absurd h g, fun _ => rfl⟩
  · rw [if_neg h]
    refine ⟨((Only.refl _ _).oput (by decide)).oraise _ _ _ _ (by decide), ((onlyEntries_refl _ _).oput (by decide)).raise _ _ _ _, ?_,
      fun _ => seen_raised _ _ _ _ _, fun snd => ?_⟩
    · rw [get_raised, get_put_same]
    · rw [kept_raise, kept_put]

/-! ### The scheduled-action table (R380, R382) -/

/-- The entries that show one entry of the table. -/
def entryKeys (e : Nat) : List Nat := [Ob.entryState e, Ob.applyTime e, Ob.entrySeq e, Ob.entrySource e, Ob.entryWrites e]

theorem showEntry_laws (e : Nat) (m : Mod) :
    Only [.obj] m (m.showEntry e) ∧ OnlyEntries (Ob.schedUsed :: entryKeys e) m (m.showEntry e)
    ∧ (m.sched.find? (fun x => x.entry = e) = none → (m.showEntry e).get (Ob.entryState e) = 0) := by
  unfold Mod.showEntry
  dsimp only
  split
  · refine ⟨?_, ?_, fun _ => ?_⟩
    · iterate 6 refine Only.oput ?_ (by decide)
      exact Only.refl _ _
    · iterate 6 refine OnlyEntries.oput ?_ (by simp [entryKeys])
      exact onlyEntries_refl _ _
    · rw [get_put_other _ (by unfold Ob.entryState Ob.entryWrites; omega), get_put_other _ (by unfold Ob.entryState Ob.entrySource; omega),
        get_put_other _ (by unfold Ob.entryState Ob.entrySeq; omega), get_put_other _ (by unfold Ob.entryState Ob.applyTime; omega), get_put_same]
  · rename_i x hx
    refine ⟨?_, ?_, fun h => absurd h (by rw [hx]; simp)⟩
    · iterate 6 refine Only.oput ?_ (by decide)
      exact Only.refl _ _
    · iterate 6 refine OnlyEntries.oput ?_ (by simp [entryKeys])
      exact onlyEntries_refl _ _

/-- An entry that its sender cancels goes with EV097. -/
theorem schedCancel_laws {snd : Sender} {e : Nat} {x : Sched} {m : Mod} (hx : m.sched.find? (fun y => y.entry = e) = some x)
    (hs : x.snd = snd) (hn : m.entryStaged e = false) :
    ∃ M, m.schedCancel snd e = (M, 0) ∧ Only ([.obj, .sched] ++ evParts) m M ∧ OnlyEntries (Ob.schedUsed :: entryKeys e) m M
    ∧ M.sched = m.sched.filter (fun y => y.entry ≠ e) ∧ M.get (Ob.entryState e) = 0 ∧ Tells 97 sevWarn 0x5001 (x.seq + 65536 * 0x12) m M
    ∧ ∀ snd, (M.chanOf snd).kept = (m.chanOf snd).kept := by
  unfold Mod.schedCancel Mod.schedFree Mod.schedDone
  rw [hx]
  dsimp only
  rw [if_neg (by simp [hs]), if_neg (by simp [hn])]
  generalize hA : ({ m with sched := m.sched.filter (fun y => y.entry ≠ e) } : Mod) = A
  have freed : Only [.sched] m A := by subst hA; exact only_schedTo _ _
  have none : A.sched.find? (fun y => y.entry = e) = .none := by
    subst hA
    simp [List.find?_eq_none]
  have left : A.sched = m.sched.filter (fun y => y.entry ≠ e) := by subst hA; rfl
  clear hA
  obtain ⟨shown, keys, zero⟩ := showEntry_laws e A
  have both : Only [.obj, .sched] m (A.showEntry e) := (freed.mono (by decide)).to shown (by decide)
  refine ⟨_, rfl, (both.mono (by decide)).oraise _ _ _ _ (by decide),
    (OnlyEntries.trans (onlyEntries_obj (onlyEntries_refl _ _) (freed .obj (by decide))) keys).raise _ _ _ _, ?_, ?_, ?_, fun snd => ?_⟩
  · rw [show Mod.sched _ = _ from raise_part _ _ _ _ _ .sched (by decide), shown .sched (by decide), left]
  · rw [get_raised, zero none]
  · exact both.tells_raise 97 sevWarn 0x5001 (x.seq + 65536 * 0x12 + 16777216 * 0) (by decide) (by decide) (by decide)
  · rw [kept_raise, both.kept (by decide) (by decide)]

/-- The entries that TIME_REACQUIRE may write: one step allowed, the state of time, and the entries of the table, suspended. -/
def reacquireKeys (l : List Sched) : List Nat :=
  [Ob.schedUsed, Ob.stepAllowed, Ob.timeState] ++ l.flatMap (fun x => entryKeys x.entry)

theorem reacquire_laws (m : Mod) :
    Only ([.obj, .time, .sched, .staged] ++ evParts) m m.reacquire ∧ OnlyEntries (reacquireKeys m.sched) m m.reacquire
    ∧ m.reacquire.get Ob.stepAllowed = 1 ∧ m.reacquire.get Ob.timeState = (if m.time.qualified then timeAcquiring else timeFreerun)
    ∧ m.reacquire.sched = m.sched.map (fun x => { x with suspended := true }) ∧ m.reacquire.staged = m.staged.filter (fun w => w.entry.isNone)
    ∧ m.reacquire.time.trig = m.time.trig.map (fun x => { x with suspended := true })
    ∧ ∀ snd, (m.reacquire.chanOf snd).kept = (m.chanOf snd).kept := by
  unfold Mod.reacquire
  dsimp only
  generalize hA : ({ m with sched := _, staged := _ } : Mod) = A
  have suspended : Only [.sched, .staged] m A := by
    subst hA
    intro p hp; cases p <;> first | (exact absurd (by decide) hp) | rfl
  have sched : A.sched = m.sched.map (fun x => { x with suspended := true }) := by subst hA; rfl
  have staged : A.staged = m.staged.filter (fun w => w.entry.isNone) := by subst hA; rfl
  clear hA
  have numbers : (m.sched.map (fun x => { x with suspended := true })).map (·.entry) = m.sched.map (·.entry) := by rw [List.map_map]; rfl
  rw [numbers]
  have shown := only_each (m.sched.map (·.entry)) Mod.showEntry A (fun e x => (showEntry_laws e x).1)
  have keys : OnlyEntries (reacquireKeys m.sched) A (A.each (m.sched.map (·.entry)) Mod.showEntry) := by
    refine entries_each _ _ A (fun e he x => (showEntry_laws e x).2.1.mono (fun k hk => ?_))
    obtain ⟨y, hy, rfl⟩ := List.mem_map.1 he
    rcases List.mem_cons.1 hk with rfl | h
    · exact List.mem_append_left _ (by simp)
    · exact List.mem_append_right _ (List.mem_flatMap.2 ⟨y, hy, h⟩)
  generalize A.each _ _ = B at shown keys
  have before : Only [.obj, .sched, .staged] m B := (suspended.mono (by decide)).to shown (by decide)
  have time : B.time = m.time := before .time (by decide)
  have allowed : Ob.stepAllowed ∈ reacquireKeys m.sched := List.mem_append_left _ (by decide)
  generalize hC : Mod.modTime _ B = C
  have cleared : Only [.time] B C := by subst hC; exact only_modTime _ _
  have trig : C.time.trig = m.time.trig.map (fun x => { x with suspended := true }) := by subst hC; rw [← time]; rfl
  clear hC
  generalize hD : Mod.raise 103 _ _ _ _ = D
  have all : Only ([.obj, .time, .sched, .staged] ++ evParts) m D := by
    subst hD
    exact (((before.mono (by decide)).to cleared (by decide)).oput (by decide)).oraise _ _ _ _ (by decide)
  have told : Only (.obj :: evParts) C D := by subst hD; exact ((Only.refl _ _).oput (by decide)).oraise _ _ _ _ (by decide)
  have written : OnlyEntries (reacquireKeys m.sched) m D := by
    subst hD
    refine OnlyEntries.raise (OnlyEntries.oput ?_ allowed) _ _ _ _
    exact onlyEntries_obj (OnlyEntries.trans (onlyEntries_obj (onlyEntries_refl _ _) (suspended .obj (by decide))) keys) (cleared .obj (by decide))
  have step : D.get Ob.stepAllowed = 1 := by subst hD; rw [get_raised, get_put_same]
  have kept : ∀ snd, (D.chanOf snd).kept = (m.chanOf snd).kept := by
    intro snd
    subst hD
    rw [kept_raise, kept_put, cleared.kept (by decide) (by decide), before.kept (by decide) (by decide)]
  clear hD
  generalize (if m.time.qualified then timeAcquiring else timeFreerun) = new
  obtain ⟨only, entry, state, -, chan⟩ := timeTo_laws new D
  refine ⟨all.to only (by decide), written.trans (entry.mono (by simp [reacquireKeys])), ?_, state, ?_, ?_, ?_, fun snd => (chan snd).trans (kept snd)⟩
  · rw [entry _ (by decide), step]
  · rw [show Mod.sched _ = _ from only .sched (by decide), show D.sched = _ from told .sched (by decide), show C.sched = _ from cleared .sched (by decide),
      show B.sched = _ from shown .sched (by decide), sched]
  · rw [show Mod.staged _ = _ from only .staged (by decide), show D.staged = _ from told .staged (by decide),
      show C.staged = _ from cleared .staged (by decide), show B.staged = _ from shown .staged (by decide), staged]
  · rw [show Mod.time _ = _ from only .time (by decide), show D.time = _ from told .time (by decide), trig]

/-! ### Sensors, the drive and the converters (R419, R430, R447) -/

theorem sensorRestore_starts {x : Nat} {m : Mod} (hx : x < 16) (h1 : 1 ≤ m.sensorSt x) (h3 : m.sensorSt x ≤ 3) :
    m.sensorRestore x = (m.modTherm (fun t => { t with restore := t.restore.set x (some 0) }), 0) := by
  unfold Mod.sensorRestore
  rw [if_neg (by omega), if_pos (by simp [h1, h3])]

/-- CD_STATE is shown, and the phases follow. -/
theorem cdShow_laws (m : Mod) :
    Only [.obj, .cd] m m.cdShow ∧ OnlyEntries [Ob.cdState] m m.cdShow ∧ m.cdShow.cd.waiting = m.cd.waiting
    ∧ m.cdShow.cd.retries = m.cd.retries := by
  unfold Mod.cdShow
  dsimp only
  exact ⟨((Only.refl _ _).oput (by decide)).to (only_modCd _ _) (by decide),
    onlyEntries_obj ((onlyEntries_refl _ _).oput (by decide)) rfl, rfl, rfl⟩

theorem cdClears_laws (m : Mod) :
    Only [.obj, .cd] m m.cdClears ∧ OnlyEntries [Ob.cdFault, Ob.cdState] m m.cdClears ∧ m.cdClears.get Ob.cdFault = 0
    ∧ m.cdClears.cd.waiting = false ∧ m.cdClears.cd.retries = m.cd.retries := by
  unfold Mod.cdClears
  generalize hA : Mod.modCd _ _ = A
  have only : Only [.obj, .cd] m A := by subst hA; exact ((Only.refl _ _).oput (by decide)).to (only_modCd _ _) (by decide)
  have entries : OnlyEntries [Ob.cdFault] m A := by
    subst hA; exact onlyEntries_obj (onlyEntries_put (onlyEntries_refl _ m) (k := Ob.cdFault) (v := 0) (by decide)) rfl
  have fault : A.get Ob.cdFault = 0 := by subst hA; rw [(only_modCd _ _).get (by decide), get_put_same]
  have cd : A.cd.waiting = false ∧ A.cd.retries = m.cd.retries := by subst hA; exact ⟨rfl, rfl⟩
  clear hA
  obtain ⟨shown, state, waiting, retries⟩ := cdShow_laws A
  exact ⟨only.trans shown, (entries.mono (by decide)).trans (state.mono (by decide)), (state _ (by decide)).trans fault, waiting.trans cd.1,
    retries.trans cd.2⟩

theorem cdAllowance_laws (m : Mod) :
    Only [.obj, .cd] m m.cdAllowance ∧ OnlyEntries [Ob.cdRetries, Ob.derateRequest] m m.cdAllowance ∧ m.cdAllowance.get Ob.cdRetries = 0
    ∧ m.cdAllowance.cd = { m.cd with retries := [] } := by
  unfold Mod.cdAllowance
  refine ⟨((((Only.refl _ _).to (only_modCd _ _) (by decide)).oput (by decide)).oputB (by decide)),
    ((onlyEntries_obj (onlyEntries_refl _ m) rfl).oput (by decide)).oputB (by decide), ?_, rfl⟩
  unfold Mod.putBit
  rw [get_put_other _ (by decide), get_put_same]

/-- CD_FAULT_CLEAR clears the fault and returns the retries. -/
theorem cdFaultClear_laws (m : Mod) :
    Only [.obj, .cd] m m.cdFaultClear ∧ OnlyEntries [Ob.cdFault, Ob.cdState, Ob.cdRetries, Ob.derateRequest] m m.cdFaultClear
    ∧ m.cdFaultClear.get Ob.cdFault = 0 ∧ m.cdFaultClear.get Ob.cdRetries = 0 ∧ m.cdFaultClear.cd.retries = []
    ∧ m.cdFaultClear.cd.waiting = false := by
  obtain ⟨clears, keys, fault, waiting, -⟩ := cdClears_laws m
  obtain ⟨allows, keys', retries, cd⟩ := cdAllowance_laws m.cdClears
  unfold Mod.cdFaultClear
  refine ⟨clears.trans allows, (keys.mono (by simp)).trans (keys'.mono (by simp)), (keys' _ (by decide)).trans fault, retries, ?_, ?_⟩ <;> rw [cd]
  exact waiting

theorem hkUrgent_takes {seq i : Nat} {m : Mod} (hi : i < 32) (hf : m.hk.urgentIn.getD m.lane false = false) :
    m.hkUrgent seq i = (m.modHk (fun h => { h with urgent := some (seq, i, m.lane), urgentIn := h.urgentIn.set m.lane true }), 3) := by
  unfold Mod.hkUrgent
  rw [if_neg (by omega), if_neg (by simp only [hf]; decide)]

/-! ### The plan (R489, R492) -/

/-- A frozen plan is logged only. -/
theorem planCompute_frozen {byHost : Bool} {m : Mod} (hd : m.differs m.planTargets m.age.target = true) (hf : m.get Ob.planFreeze = 1) :
    ∃ r, r.state = 0 ∧ r.time = m.t64 ∧ Only [.age] m (m.planCompute byHost)
      ∧ (m.planCompute byHost).age = { m.age with log := keepPlan r m.age.log, frozen := some (r, m.planTargets) } := by
  unfold Mod.planCompute
  dsimp only
  rw [if_pos hd, if_pos hf]
  exact ⟨_, rfl, rfl, only_modAge _ _, rfl⟩

theorem mem_keepPlan (r : PlanRec) (l : List PlanRec) : r ∈ keepPlan r l := by
  unfold keepPlan
  rw [List.drop_append_of_le_length (by omega)]
  exact List.mem_append_right _ (by simp)

/-- EV126 of a plan that reaches a limit. -/
theorem planLimited_laws (m : Mod) : Only evParts m m.planLimited := by
  unfold Mod.planLimited
  split
  · exact (Only.refl _ _).oraise _ _ _ _ (by decide)
  · split
    · exact (Only.refl _ _).oraise _ _ _ _ (by decide)
    · exact Only.refl _ _

theorem kept_planLimited (m : Mod) (snd : Sender) : (m.planLimited.chanOf snd).kept = (m.chanOf snd).kept := by
  unfold Mod.planLimited
  split
  · exact kept_raise _ _ _ _ _ _
  · split
    · exact kept_raise _ _ _ _ _ _
    · rfl

/-- The entries that the adoption of a plan writes. -/
def planKeys : List Nat := [Ob.planGen, Ob.planTime, Ob.planFlags, Ob.planState] ++ (List.range 24).map Ob.kI

theorem kI_mem_planKeys {n : Nat} (h : n ∈ List.range 24) : Ob.kI n ∈ planKeys := List.mem_append_right _ (List.mem_map_of_mem h)

theorem kI_ne_planTime (n : Nat) : Ob.kI n ≠ Ob.planTime ∧ Ob.kI n ≠ Ob.planGen := by unfold Ob.kI Ob.planTime Ob.planGen; omega

/-- The record of ageing after the adoption of a plan: the plan logged and in motion, one still in motion superseded (R489, R492). -/
def AgeRt.adopts (r : PlanRec) (t : Targets) (a : AgeRt) : AgeRt :=
  { a with log := keepPlan { r with state := 1 } (a.log.map (fun x => if x.state = 1 then { x with state := 3 } else x))
           target := t, frozen := none, rebased := false, moving := true }

/-- An adopted plan is the target at once, with its generation, its time and EV124 (R489). -/
theorem planAdopt_laws (r : PlanRec) (t : Targets) (m : Mod) :
    Only ([.obj, .sto, .age] ++ evParts) m (m.planAdopt r t) ∧ OnlyEntries planKeys m (m.planAdopt r t)
    ∧ (m.planAdopt r t).age = m.age.adopts r t
    ∧ (m.planAdopt r t).get Ob.planGen = r.gen ∧ (m.planAdopt r t).get Ob.planTime = m.t64
    ∧ (m.planAdopt r t).seenEv.head? = some 124 ∧ ∀ snd, ((m.planAdopt r t).chanOf snd).kept = (m.chanOf snd).kept := by
  unfold Mod.planAdopt Mod.showPlan
  dsimp only
  generalize hA : Mod.modAge _ m = A
  have adopted : Only [.age] m A := by subst hA; exact only_modAge _ _
  have age : A.age = m.age.adopts r t := by subst hA; rfl
  have time : A.t64 = m.t64 := by subst hA; rfl
  clear hA
  generalize hB : Mod.put Ob.planFlags _ _ = B
  have shown : Only [.obj, .sto] A B := by
    subst hB; exact (((Only.refl _ _).okeep (by decide) (by decide)).okeep (by decide) (by decide)).oput (by decide)
  have written : OnlyEntries planKeys A B := by
    subst hB; exact (((onlyEntries_refl _ _).okeep (by decide)).okeep (by decide)).oput (by decide)
  have gen : B.get Ob.planGen = r.gen := by
    subst hB; rw [get_put_other _ (by decide), get_keep_other _ (by decide), get_keep_same]
  have at_ : B.get Ob.planTime = m.t64 := by subst hB; rw [get_put_other _ (by decide), get_keep_same, time]
  clear hB
  generalize hC : Mod.each (List.range 24) _ B = C
  have gains : Only [.obj] B C := by subst hC; exact only_each _ _ _ (fun n x => (Only.refl _ _).oput (by decide))
  have each : OnlyEntries ((List.range 24).map Ob.kI) B C := by
    subst hC; exact entries_each _ _ _ (fun n hn x => (onlyEntries_refl _ _).oput (List.mem_map_of_mem hn))
  have other : ∀ k, (∀ n, Ob.kI n ≠ k) → C.get k = B.get k := fun k hk => each k (fun h => by
    obtain ⟨n, -, e⟩ := List.mem_map.1 h
    exact hk n e)
  clear hC
  have limited := planLimited_laws C
  have before : Only ([.obj, .sto, .age] ++ evParts) m C.planLimited :=
    ((((adopted.mono (by decide)).to shown (by decide)).to gains (by decide))).to limited (by decide)
  have entries : OnlyEntries planKeys m C.planLimited :=
    onlyEntries_obj ((onlyEntries_obj (onlyEntries_refl _ _) (adopted .obj (by decide))).trans
      (written.trans (each.mono (List.subset_append_right _ _)))) (limited .obj (by decide))
  have kept : C.planLimited.age = A.age := by
    rw [show Mod.age _ = _ from limited .age (by decide), show C.age = _ from gains .age (by decide), show B.age = _ from shown .age (by decide)]
  refine ⟨(before.oinform _ _ (by decide)).oput (by decide), (entries.oinform _ _).oput (by decide), ?_, ?_, ?_, ?_, fun snd => ?_⟩
  · rw [put_age, show Mod.age _ = _ from inform_part _ _ _ .age (by decide), kept, age]
  · rw [get_put_other _ (by decide), get_informed, limited.get (by decide), other _ (fun n => (kI_ne_planTime n).2), gen]
  · rw [get_put_other _ (by decide), get_informed, limited.get (by decide), other _ (fun n => (kI_ne_planTime n).1), at_]
  · exact congrArg List.head? (tells_raiseAt C.planLimited C.planLimited.t32 124 sevInfo 0 r.gen (by decide)).1
  · rw [kept_put, show Mod.inform _ _ _ = Mod.raise _ _ _ _ _ from rfl, kept_raise, kept_planLimited, gains.kept (by decide) (by decide),
      shown.kept (by decide) (by decide), adopted.kept (by decide) (by decide)]

/-- A plan that differs is adopted while plans are not frozen and none is logged only. -/
theorem planCompute_adopts {byHost : Bool} {m : Mod} (hd : m.differs m.planTargets m.age.target = true) (hf : m.get Ob.planFreeze ≠ 1)
    (hn : m.age.frozen = none) :
    ∃ r, (r.gen = (m.get Ob.planGen + 1) % 4294967296 ∧ r.time = m.t64 ∧ r.prev = m.get Ob.planGen)
      ∧ m.planCompute byHost = m.planAdopt r m.planTargets := by
  unfold Mod.planCompute
  dsimp only
  rw [if_pos hd, if_neg hf, hn]
  exact ⟨_, ⟨rfl, rfl, rfl⟩, rfl⟩

/-! ### The statements -/

/-- Settles O21: each action by the law of its operation, on the module as the command finds it; the coarse offset of TIME_SET is the
model's choice of log entry 68. -/
theorem timeAndCoolingActions : Obligations.TimeAndCoolingActions := by
  unfold Obligations.TimeAndCoolingActions
  intro s h
  refine ⟨fun f t hf ht hr hs ha => ?set, fun f hf hr => ?reacquire, fun f e x hf he hr hx hsnd hn => ?cancel,
    fun f x hf hx hr h1 h3 hlen => ?restore, fun f hf hr => ?drive, fun f i hf hi hr hfree => ?urgent⟩ <;> subst hf
  case set =>
    generalize hT : s.m.taken _ = T
    have source : T.get Ob.timeSource = 1 := (taken_get hT (by decide)).trans hs
    have allowed : T.get Ob.stepAllowed = 1 := (taken_get hT (by decide)).trans ha
    have clk : T.tai = s.m.tai := by unfold Mod.tai; rw [show T.clk = _ from taken_part hT .clk (by decide)]
    have bytes : answerOf (T.timeSet (leNat (leBytes 8 t))) = answerOf (T.timeSet t) := by rw [leNat_leBytes 8 t (by omega)]
    refine done_plain 8 (by decide) (length_leBytes 8 t) rfl hr hT (bytes.trans (answers (timeSet_sets source allowed)))
      (only_modTime _ _) ((only_modTime _ _).onlyEntries (by decide) _)
      ((only_modTime _ _).kept (by decide) (by decide) _) (fun n hn => ?_)
    rw [show n.time = _ from hn .time (by decide), ← clk]
    exact ⟨rfl, rfl⟩
  case reacquire =>
    generalize hT : s.m.taken _ = T
    have sched : T.sched = s.m.sched := taken_part hT .sched (by decide)
    have time : T.time = s.m.time := taken_part hT .time (by decide)
    obtain ⟨only, entries, step, state, suspended, staged, trig, kept⟩ := reacquire_laws T
    rw [sched] at entries suspended
    rw [time] at state trig
    refine done_plain 0 (by decide) rfl rfl hr hT rfl only entries (kept _) (fun n hn => ⟨?_, ?_, ?_, ?_, ?_⟩)
    · rw [hn.get (by decide), step]
    · rw [hn.get (by decide), state]
    · rw [show n.sched = _ from hn .sched (by decide), suspended]
    · rw [show n.staged = _ from hn .staged (by decide), staged]
      exact fun w hw => Option.isNone_iff_eq_none.1 (List.mem_filter.1 hw).2
    · rw [show n.time = _ from hn .time (by decide), trig]
      intro x hx
      obtain ⟨y, -, rfl⟩ := List.mem_map.1 hx
      rfl
  case cancel =>
    generalize hT : s.m.taken _ = T
    have sched : T.sched = s.m.sched := taken_part hT .sched (by decide)
    have staged : T.staged = s.m.staged := taken_part hT .staged (by decide)
    obtain ⟨M, cancels, only, entries, left, state, tells, kept⟩ := schedCancel_laws (m := T) (by rw [sched]; exact hx) hsnd
      (by unfold Mod.entryStaged at hn ⊢; rwa [staged])
    rw [sched] at left
    refine done_plain 1 (by decide) rfl rfl hr hT ?_ only entries (kept _) (fun n hn => ⟨?_, ?_, tells_taken hT tells hn⟩)
    · show (if 64 ≤ argAt (leBytes 1 e) 0 then refuse 0x11 T else answerOf (T.schedCancel h.snd (argAt (leBytes 1 e) 0))) = _
      rw [argAt_leBytes e (by omega), if_neg (by omega), cancels]
      rfl
    · rw [show n.sched = _ from hn .sched (by decide), left]
    · rw [hn.get (by decide), state]
  case restore =>
    generalize hT : s.m.taken _ = T
    have state : T.sensorSt x = s.m.sensorSt x := taken_get hT (by unfold Ob.sensorState Ob.framesOk; omega)
    have therm : T.therm = s.m.therm := taken_part hT .therm (by decide)
    have number : answerOf (T.sensorRestore (argAt (leBytes 1 x) 0)) = answerOf (T.sensorRestore x) := by rw [argAt_leBytes x (by omega)]
    refine done_plain 1 (by decide) rfl rfl hr hT (number.trans (answers (sensorRestore_starts hx (by rwa [state]) (by rwa [state]))))
      (only_modTherm _ _) ((only_modTherm _ _).onlyEntries (by decide) _) ((only_modTherm _ _).kept (by decide) (by decide) _) (fun n hn => ?_)
    rw [show n.therm = _ from hn .therm (by decide)]
    show (T.therm.restore.set x (some 0))[x]? = _ ∧ ∀ y, y ≠ x → (T.therm.restore.set x (some 0))[y]? = _
    rw [therm]
    exact ⟨List.getElem?_set_self (by omega), fun y hy => List.getElem?_set_ne (Ne.symm hy)⟩
  case drive =>
    obtain ⟨only, entries, fault, retries, none, waiting⟩ := cdFaultClear_laws (s.m.taken ⟨h, 4, 0x5858, 0, []⟩)
    refine done_plain 0 (by decide) rfl rfl hr rfl rfl only entries (only.kept (by decide) (by decide) _) (fun n hn => ?_)
    rw [hn.get (by decide), hn.get (by decide), show n.cd = _ from hn .cd (by decide)]
    exact ⟨fault, retries, none, waiting⟩
  case urgent =>
    generalize hT : s.m.taken _ = T
    have hk : T.hk = s.m.hk := taken_part hT .hk (by decide)
    have lane : T.lane = s.m.lane := taken_get hT (by decide)
    have number : answerOf (T.hkUrgent h.seq (argAt (leBytes 1 i) 0)) = answerOf (T.hkUrgent h.seq i) := by rw [argAt_leBytes i (by omega)]
    refine done_plain 1 (by decide) rfl rfl hr hT (number.trans (answers (hkUrgent_takes hi (by rw [hk, lane]; exact hfree))))
      (only_modHk _ _) ((only_modHk _ _).onlyEntries (by decide) _) ((only_modHk _ _).kept (by decide) (by decide) _) (fun n hn => ?_)
    rw [show n.hk = _ from hn .hk (by decide), ← lane]
    rfl

/-- Settles O22: a plan that does not differ leaves everything, a frozen one is logged, another is adopted; a rebase waits for its boundary. -/
theorem ageingActions : Obligations.AgeingActions := by
  unfold Obligations.AgeingActions
  intro s h f hf
  subst hf
  refine ⟨fun hr hd => ?same, fun hr hd hf => ?frozen, fun hr hd hf hn => ?adopted, fun g kind unit hg hk hu hr href => ?rebase⟩
  case same =>
    generalize hT : s.m.taken _ = T at hd
    have age : T.age = s.m.age := taken_part hT .age (by decide)
    refine done_plain 0 (by decide) rfl rfl hr hT (congrArg okay ?_) (Only.refl _ T) (onlyEntries_refl _ _) rfl (fun _ _ => trivial)
    show T.planCompute true = T
    unfold Mod.planCompute
    exact if_neg (by simp [age, hd])
  case frozen =>
    generalize hT : s.m.taken _ = T at hd ⊢
    have age : T.age = s.m.age := taken_part hT .age (by decide)
    obtain ⟨r, state, -, only, logs⟩ := planCompute_frozen (m := T) (byHost := true) (by rwa [age]) (by rw [taken_get hT (by decide), hf])
    refine done_plain 0 (by decide) rfl rfl hr hT rfl only (only.onlyEntries (by decide) _) (only.kept (by decide) (by decide) _) (fun n hn => ?_)
    have logged : n.age = _ := (hn .age (by decide)).trans logs
    rw [logged, ← age]
    dsimp only
    exact ⟨rfl, r, rfl, state, mem_keepPlan r T.age.log⟩
  case adopted =>
    generalize hT : s.m.taken _ = T at hd ⊢
    have age : T.age = s.m.age := taken_part hT .age (by decide)
    have time : T.t64 = s.m.t64 := by unfold Mod.t64 Mod.tai; rw [show T.clk = _ from taken_part hT .clk (by decide)]
    have gen : T.get Ob.planGen = s.m.get Ob.planGen := taken_get hT (by decide)
    obtain ⟨r, ⟨hgen, -, -⟩, adopts⟩ := planCompute_adopts (m := T) (byHost := true) (by rwa [age]) (by rwa [taken_get hT (by decide)]) (by rwa [age])
    obtain ⟨only, entries, target, shown, at_, told, kept⟩ := planAdopt_laws r T.planTargets T
    refine done_plain 0 (by decide) rfl rfl hr hT (congrArg okay adopts) only entries (kept _) (fun n hn => ⟨?_, ?_, ?_, ?_⟩)
    · rw [show n.age = _ from hn .age (by decide), target]
      rfl
    · rw [hn.get (by decide), shown, hgen, gen]
    · rw [hn.get (by decide), at_, time]
    · rw [show n.seenEv = _ from hn .seenEv (by decide), told]
  case rebase =>
    subst hg
    have kindArg : argAt (leBytes 1 kind ++ leBytes 1 unit) 0 = kind := argAt_leBytes kind hk
    have unitArg : argAt (leBytes 1 kind ++ leBytes 1 unit) 1 = unit := argAt_leBytes unit hu
    refine done_later (.ageingRebase kind unit) 2 (by decide) rfl rfl hr ?_
    generalize s.m.taken _ = T at href
    show (match T.rebaseRefusal (argAt (leBytes 1 kind ++ leBytes 1 unit) 0) (argAt (leBytes 1 kind ++ leBytes 1 unit) 1) with
      | some st => refuse st T
      | none    => T.actLater (.ageingRebase (argAt (leBytes 1 kind ++ leBytes 1 unit) 0) (argAt (leBytes 1 kind ++ leBytes 1 unit) 1))) = _
    rw [kindArg, unitArg, href]

end Sys2Proof.Machine
end


section
/-!
PROOFS. Certificates, anchors, revocations and keys, the firmware upload, certified mode and the debug port (R456, R459, R460, R463,
R466, R467): what each operation does, and the statements on them (O23, O24).
-/
namespace Sys2Proof.Machine

/-! ### Actions with arguments that their own rule judges -/

theorem plainAction_of_free {idx sub len : Nat} (hn : argBytes idx = none) (hp : plainAction idx sub 0 = true) : plainAction idx sub len = true := by
  unfold plainAction at hp ⊢
  simpa [hn] using hp

/-- Cirque serves the command of a frame as it served before. -/
theorem cirqueOk_taken {f : Frame} {m T : Mod} (hT : m.taken f = T) : T.cirqueOk = m.cirqueOk := by
  unfold Mod.cirqueOk Mod.cirqueUp Mod.lane
  rw [taken_get hT (by decide), laneAt_eq (taken_part hT .lanes (by decide))]

/-- A frame is taken without a session that opens or takes another certificate. -/
theorem sess_modSess {k : Nat} {f : Session → Session} {m : Mod} {p : Nat × Session} (hp : p ∈ (m.modSess k f).sess)
    (hf : ∀ x, (f x).isOpen = x.isOpen ∧ (f x).serial = x.serial) : ∃ q ∈ m.sess, q.2.isOpen = p.2.isOpen ∧ q.2.serial = p.2.serial := by
  obtain ⟨q, hq, rfl⟩ := List.mem_map.1 hp
  refine ⟨q, hq, ?_⟩
  split
  · exact ⟨(hf q.2).1.symm, (hf q.2).2.symm⟩
  · exact ⟨rfl, rfl⟩

theorem sess_modChan {snd : Sender} {f : Chan → Chan} {m : Mod} {p : Nat × Session} (hp : p ∈ (m.modChan snd f).sess) :
    ∃ q ∈ m.sess, q.2.isOpen = p.2.isOpen ∧ q.2.serial = p.2.serial := by
  cases snd with
  | session k => exact sess_modSess hp (fun _ => ⟨rfl, rfl⟩)
  | _ => exact ⟨p, hp, rfl, rfl⟩

theorem sess_heard {f : Frame} {m : Mod} {p : Nat × Session} (hp : p ∈ (m.heard f).sess) :
    ∃ q ∈ m.sess, q.2.isOpen = p.2.isOpen ∧ q.2.serial = p.2.serial := by
  unfold Mod.heard at hp
  split at hp
  · refine ⟨p, ?_, rfl, rfl⟩
    split at hp <;> exact hp
  · exact sess_modSess hp (fun _ => ⟨rfl, rfl⟩)
  · exact ⟨p, hp, rfl, rfl⟩

theorem sess_taken {f : Frame} {m : Mod} {p : Nat × Session} (hp : p ∈ (m.taken f).sess) :
    ∃ q ∈ m.sess, q.2.isOpen = p.2.isOpen ∧ q.2.serial = p.2.serial := by
  rw [taken_eq] at hp
  obtain ⟨q1, hq1, o1, s1⟩ := sess_modChan hp
  obtain ⟨q2, hq2, o2, s2⟩ := sess_modChan hq1
  obtain ⟨q3, hq3, o3, s3⟩ := sess_heard (m := m) (f := f) hq2
  exact ⟨q3, hq3, o3.trans (o2.trans o1), s3.trans (s2.trans s1)⟩

/-! ### Certificates, anchors and revocations (R459, R460) -/

theorem certInstall_judges {der : List Byte} {m : Mod} (hc : m.cirqueOk = true) (hd : der ≠ []) (hl : der.length ≤ 974) :
    m.certInstall der = (if Config.certOk der = true
      then (m.modSecu (fun x => { x with opCert := der, opKey := true, told := x.told.filter (· ≠ 0) }), 0, []) else (m, 0x11, [])) := by
  unfold Mod.certInstall
  rw [if_neg (by simp [hc]), if_neg (by simp [hd]; omega)]
  rfl

/-- Trust anchor `k` as TRUST_ANCHORk takes it. -/
def Mod.setAnchor (k : Nat) (der : List Byte) (m : Mod) : Mod :=
  m.modSecu (fun x => { x with anchors := x.anchors.set k der, told := x.told.filter (· ≠ k + 1) })

theorem trustAnchor_judges {k : Nat} {der : List Byte} {m : Mod} (hk : k < 4) (hc : der = [] ∨ m.cirqueOk = true) :
    m.trustAnchor k der = (if der = [] ∨ Config.certOk der = true then (m.setAnchor k der, 0, []) else (m, 0x11, [])) := by
  unfold Mod.trustAnchor
  rw [if_neg (by omega)]
  by_cases hd : der = []
  · subst hd
    rw [if_pos (show ([] : List Byte).isEmpty = true from rfl), if_pos (.inl rfl)]
    rfl
  · rw [if_neg (by simp [hd]), if_neg (by simp [hc.resolve_left hd])]
    by_cases ho : Config.certOk der = true
    · rw [if_pos ho, if_pos (.inr ho)]
      rfl
    · rw [if_neg ho, if_neg (by simp [hd, ho])]
      rfl

/-- A chunk that follows joins the CRL, and no session closes where none shows a serial that it lists. -/
theorem crlInstall_joins {off : Nat} {chunk : List Byte} {m : Mod} (hc : m.cirqueOk = true) (ho : off = 0 ∨ off = m.secu.crl.length)
    (hl : chunk.length ≤ 252) (ht : off + chunk.length ≤ 65536)
    (hs : ∀ p ∈ m.sess, p.2.isOpen = true → (Config.crlSerials ((if off = 0 then [] else m.secu.crl) ++ chunk)).contains p.2.serial = false) :
    m.crlInstall off chunk = (m.modSecu (fun x => { x with
      crl := (if off = 0 then [] else m.secu.crl) ++ chunk
      revoked := Config.crlSerials ((if off = 0 then [] else m.secu.crl) ++ chunk) }), 0, []) := by
  unfold Mod.crlInstall
  have follows : off = (if off = 0 then [] else m.secu.crl).length := by
    split
    · assumption
    · exact ho.resolve_left ‹_›
  dsimp only
  generalize (if off = 0 then [] else m.secu.crl) = old at hs follows
  rw [if_neg (by simp [hc, follows]), if_neg (by simp; omega)]
  generalize hM : Mod.modSecu _ m = M
  have none : M.sess.filter (fun p => p.2.isOpen && M.secu.revoked.contains p.2.serial) = [] := by
    subst hM
    refine List.filter_eq_nil_iff.2 (fun p hp h => ?_)
    obtain ⟨o, r⟩ := Bool.and_eq_true_iff.1 h
    exact absurd (r.symm.trans (hs p hp o)) (by decide)
  rw [none]
  rfl

theorem actionOf_crlInstall (kp : Kept) (snd : Sender) (slot seq sub : Nat) (a : List Byte) (m : Mod) :
    m.actionOf kp snd slot seq 0x6405 sub a = if a.length < 4 then refuse 0x11 m else m.crlInstall (leNat (a.take 4)) (a.drop 4) := rfl

/-! ### Keys (R463) -/

theorem endSlot_laws (slot : Nat) (m : Mod) :
    Only [.mbx] m (m.endSlot slot) ∧ ∀ snd, ((m.endSlot slot).chanOf snd).kept = (m.chanOf snd).kept := by
  refine ⟨fun p hp => by cases p <;> first | (exact absurd (by decide) hp) | rfl, fun snd => ?_⟩
  cases snd with
  | mbx n =>
    unfold Mod.chanOf Mod.endSlot
    simp only [List.getD_eq_getElem?_getD, List.getElem?_map]
    cases m.mbx[n]? with
    | none => rfl
    | some x =>
      show (if _ then _ else x : Mailbox).chan.kept = x.chan.kept
      split <;> rfl
  | _ => rfl

/-- The module with the key and the role of a slot replaced, and the slot's sessions ended. -/
def Mod.setKey (slot role : Nat) (key : List Byte) (m : Mod) : Mod :=
  ((m.modSecu (fun x => { x with keys := x.keys.set slot key })).keep (Ob.slotRole slot) role).endSlot slot

theorem setKey_laws (slot role : Nat) (key : List Byte) (m : Mod) :
    Only [.obj, .sto, .secu, .mbx] m (m.setKey slot role key) ∧ OnlyEntries [Ob.slotRole slot] m (m.setKey slot role key)
    ∧ (m.setKey slot role key).secu.keys = m.secu.keys.set slot key ∧ (m.setKey slot role key).get (Ob.slotRole slot) = role
    ∧ ∀ snd, ((m.setKey slot role key).chanOf snd).kept = (m.chanOf snd).kept := by
  unfold Mod.setKey
  generalize hA : Mod.keep _ role _ = A
  have stored : Only [.obj, .sto, .secu] m A := by
    subst hA; exact ((only_modSecu m _).mono (by decide)).okeep (by decide) (by decide)
  have entries : OnlyEntries [Ob.slotRole slot] m A := by
    subst hA; exact (((only_modSecu m _).onlyEntries (by decide) _).okeep (by simp))
  have keys : A.secu.keys = m.secu.keys.set slot key := by subst hA; rfl
  have shown : A.get (Ob.slotRole slot) = role := by subst hA; exact get_keep_same _
  clear hA
  obtain ⟨ended, kept⟩ := endSlot_laws slot A
  refine ⟨(stored.mono (by decide)).to ended (by decide), onlyEntries_obj entries (ended .obj (by decide)), ?_, ?_, fun snd => ?_⟩
  · rw [show Mod.secu _ = _ from ended .secu (by decide), keys]
  · rw [ended.get (by decide), shown]
  · rw [kept, stored.kept (by decide) (by decide)]

theorem keyInstall_judges {data : List Byte} {slot role : Byte} {m : Mod} (hc : m.cirqueOk = true) (hl : data.length = 159)
    (h0 : data[0]? = some slot) (h1 : data[1]? = some role) (hs : slot.toNat < 16) (hr1 : 1 ≤ role.toNat) (hr3 : role.toNat ≤ 3) :
    m.keyInstall data = (match Config.unwrapKey data with
      | none     => (m, 0x11, [])
      | some key => (m.setKey slot.toNat role.toNat key, 0, [])) := by
  have d0 : data.getD 0 0 = slot := by rw [List.getD_eq_getElem?_getD, h0]; rfl
  have d1 : data.getD 1 0 = role := by rw [List.getD_eq_getElem?_getD, h1]; rfl
  unfold Mod.keyInstall
  dsimp only
  rw [d0, d1, if_neg (by simp [hc]), if_neg (by simp [hl]; omega)]
  cases Config.unwrapKey data <;> rfl

/-! ### The statement -/

theorem certInstall_plain (len : Nat) : plainAction 0x6403 0 len = true := plainAction_of_free rfl (by decide)

theorem trustAnchor_plain {k : Nat} (hk : k < 4) (len : Nat) : plainAction 0x6404 (k + 1) len = true :=
  plainAction_of_free rfl ((by decide : ∀ k < 4, plainAction 0x6404 (k + 1) 0 = true) k hk)

theorem crlInstall_plain (len : Nat) : plainAction 0x6405 0 len = true := plainAction_of_free rfl (by decide)

theorem keyInstall_plain (len : Nat) : plainAction 0x6420 0 len = true := plainAction_of_free rfl (by decide)

/-- Settles O23: each action by what Cirque answers; BAD_RANGE for what it refuses is the model's choice of log entry 77. -/
theorem certificatesAndKeysAreInstalled : Obligations.CertificatesAndKeysAreInstalled := by
  unfold Obligations.CertificatesAndKeysAreInstalled
  intro s h
  refine ⟨fun f der hf hr hc hd hl => ?certificate, fun f k der hf hk hlen hr hc => ?anchor, fun f off chunk hf hr hc ho hl ht hs => ?crl,
    fun f data slot role hf hr hc hl h0 h1 hs hr1 hr3 hlen => ?key⟩ <;> subst hf
  case certificate =>
    generalize hT : s.m.taken _ = T
    have secu : T.secu = s.m.secu := taken_part hT .secu (by decide)
    have judged := certInstall_judges (m := T) ((cirqueOk_taken hT).trans hc) hd hl
    by_cases ok : Config.certOk der = true
    · rw [if_pos ok] at judged ⊢
      refine done_plain der.length (certInstall_plain _) rfl rfl hr hT judged (only_modSecu _ _)
        ((only_modSecu _ _).onlyEntries (by decide) _) ((only_modSecu _ _).kept (by decide) (by decide) _) (fun n hn => ?_)
      rw [show n.secu = _ from hn .secu (by decide), ← secu]
      exact ⟨rfl, fun _ => ⟨rfl, rfl⟩, fun bad => absurd ok (by simp [bad])⟩
    · rw [if_neg ok] at judged ⊢
      refine done_plain der.length (certInstall_plain _) rfl rfl hr hT judged (Only.refl _ _) (onlyEntries_refl _ _) rfl
        (fun n hn => ?_)
      rw [show n.secu = _ from hn .secu (by decide), secu]
      exact ⟨rfl, fun good => absurd good ok, fun _ => rfl⟩
  case anchor =>
    generalize hT : s.m.taken _ = T
    have secu : T.secu = s.m.secu := taken_part hT .secu (by decide)
    have judged := trustAnchor_judges (m := T) hk (hc.imp id (fun c => (cirqueOk_taken hT).trans c))
    by_cases ok : der = [] ∨ Config.certOk der = true
    · rw [if_pos ok] at judged
      simp only [if_pos ok]
      refine done_plain der.length (trustAnchor_plain hk _) rfl rfl hr hT judged (only_modSecu T _) ((only_modSecu T _).onlyEntries (by decide) _)
        ((only_modSecu T _).kept (by decide) (by decide) _) (fun n hn => ?_)
      rw [show n.secu = _ from hn .secu (by decide), ← secu]
      exact ⟨List.getElem?_set_self (by rw [secu]; omega), fun j hj => List.getElem?_set_ne (Ne.symm hj)⟩
    · rw [if_neg ok] at judged
      simp only [if_neg ok]
      refine done_plain der.length (trustAnchor_plain hk _) rfl rfl hr hT judged (Only.refl _ _) (onlyEntries_refl _ _) rfl (fun n hn => ?_)
      rw [show n.secu = _ from hn .secu (by decide), secu]
      exact ⟨rfl, fun _ _ => rfl⟩
  case crl =>
    generalize hT : s.m.taken ⟨h, 4, 0x6405, 0, leBytes 4 off ++ chunk⟩ = T
    have secu : T.secu = s.m.secu := taken_part hT .secu (by decide)
    have joins := crlInstall_joins (m := T) ((cirqueOk_taken hT).trans hc) (by rwa [secu]) hl ht (fun p hp open_ => by
      rw [secu]
      obtain ⟨q, hq, o, r⟩ := sess_taken (hT ▸ hp)
      rw [← r]
      exact hs q hq (o.trans open_))
    have acts : T.actionOf s.kept h.snd h.slot h.seq 0x6405 0 (leBytes 4 off ++ chunk) = T.crlInstall off chunk := by
      rw [actionOf_crlInstall, if_neg (by rw [List.length_append, length_leBytes]; omega), List.take_left' (length_leBytes 4 off),
        List.drop_left' (length_leBytes 4 off), leNat_leBytes 4 off (by omega)]
    refine done_plain _ (crlInstall_plain _) rfl rfl hr hT (acts.trans joins) (only_modSecu T _)
      ((only_modSecu T _).onlyEntries (by decide) _) ((only_modSecu T _).kept (by decide) (by decide) _) (fun n hn => ?_)
    rw [show n.secu = _ from hn .secu (by decide), ← secu]
    exact ⟨rfl, rfl⟩
  case key =>
    generalize hT : s.m.taken _ = T
    have secu : T.secu = s.m.secu := taken_part hT .secu (by decide)
    have judged := keyInstall_judges (m := T) ((cirqueOk_taken hT).trans hc) hl h0 h1 hs hr1 hr3
    cases unwrapped : Config.unwrapKey data with
    | none =>
      rw [unwrapped] at judged
      refine done_plain 159 (keyInstall_plain _) hl rfl hr hT judged (Only.refl _ _) (onlyEntries_refl _ _) rfl (fun n hn => ?_)
      rw [show n.secu = _ from hn .secu (by decide), secu]
      exact ⟨fun _ _ => rfl, fun _ c => absurd c (by simp), fun _ => ⟨rfl, (hn.get (by decide) _).trans
        (taken_get hT (by unfold Ob.slotRole Ob.framesOk; omega))⟩⟩
    | some key =>
      rw [unwrapped] at judged
      obtain ⟨only, entries, keys, role', kept⟩ := setKey_laws slot.toNat role.toNat key T
      refine done_plain 159 (keyInstall_plain _) hl rfl hr hT judged only entries (kept _) (fun n hn => ?_)
      rw [show n.secu = _ from hn .secu (by decide), keys, hn.get (by decide), role', secu]
      refine ⟨fun j hj => List.getElem?_set_ne (Ne.symm hj), fun k hk => ?_, fun c => absurd c (by simp)⟩
      obtain rfl : key = k := Option.some.inj hk
      exact ⟨List.getElem?_set_self (by omega), rfl⟩

end Sys2Proof.Machine
end


section
/-!
PROOFS. The firmware upload and its staging, certified mode and the debug port (R456, R466, R467): what each operation does, and the
statement on them (O24).
-/
namespace Sys2Proof.Machine

/-! ### A write that waits for its boundary (R48, R72) -/

/-- Staging adds one item, and beyond the cutoff counts its writes. -/
theorem stage_laws (w : Staged) (n : Nat) (m : Mod) :
    Only [.obj, .staged, .order] m (m.stage w n) ∧ OnlyEntries [Ob.writesDeferred] m (m.stage w n)
    ∧ ∃ x : Staged, (m.stage w n).staged = m.staged ++ [x] ∧ x.work = w.work ∧ x.snd = w.snd ∧ x.seq = w.seq
        ∧ x.late = decide (m.clk.phase = .staging) := by
  unfold Mod.stage
  dsimp only
  generalize hA : ({ m with staged := _, order := _ } : Mod) = A
  have only : Only [.staged, .order] m A := by
    subst hA
    intro p hp; cases p <;> first | (exact absurd (by decide) hp) | rfl
  have staged : ∃ x : Staged, A.staged = m.staged ++ [x] ∧ x.work = w.work ∧ x.snd = w.snd ∧ x.seq = w.seq
      ∧ x.late = decide (m.clk.phase = .staging) := by subst hA; exact ⟨_, rfl, rfl, rfl, rfl, rfl⟩
  clear hA
  split
  · exact ⟨(only.mono (by decide)).oput (by decide), (only.onlyEntries (by decide) _).oput (by simp), staged⟩
  · exact ⟨only.mono (by decide), only.onlyEntries (by decide) _, staged⟩

/-- A write outside a group that no check refuses is staged. -/
theorem writeCommand_stages {snd : Sender} {seq op idx sub : Nat} {data : List Byte} {m : Mod} (hg : (m.chanOf snd).group = none)
    (hc : m.checkWrite snd (m.roleOf snd) false false false m.stagedWrites (idx * 256 + sub, data) = none) :
    m.writeCommand snd seq op idx sub data false
      = (m.stage { snd := snd, seq := seq, op := op, idx := idx, sub := sub, work := .writes [(idx * 256 + sub, data)] } 1, none) := by
  unfold Mod.writeCommand
  dsimp only
  rw [hg]
  dsimp only [Option.map, Option.getD, Option.isSome]
  rw [List.append_nil, hc]

/-! ### The upload (R456) -/

theorem fwUpload_joins {off : Nat} {chunk : List Byte} {m : Mod} (ho : off = 0 ∨ off = m.secu.upload.length) (hl : chunk.length ≤ 252)
    (ht : off + chunk.length ≤ 6291456) :
    m.fwUpload off chunk = okay (m.modSecu (fun x => { x with
      upload := (if off = 0 then [] else m.secu.upload) ++ chunk, staged := if off = 0 then none else x.staged
      badImg := if off = 0 then x.badImg.filter (fun p => (m.laneAt p.1).imageB = (p.2 = 1)) else x.badImg })) := by
  unfold Mod.fwUpload
  have follows : off = (if off = 0 then [] else m.secu.upload).length := by
    split
    · assumption
    · exact ho.resolve_left ‹_›
  dsimp only
  rw [if_neg (fun h => h follows), if_neg (by simp; omega)]

/-- The write of a chunk is its upload. -/
theorem applyWrite_fwUpload {snd : Sender} {off : Nat} {chunk : List Byte} {m : Mod} (hoff : off < 4294967296) :
    m.applyWrite snd (Ob.fwUpload, leBytes 4 off ++ chunk) = (m.fwUpload off chunk).1 := by
  unfold Mod.applyWrite
  dsimp only
  rw [if_pos rfl, List.take_left' (length_leBytes 4 off), List.drop_left' (length_leBytes 4 off), leNat_leBytes 4 off (by omega)]

theorem fwStage_starts {seq : Nat} {m : Mod} (hs : m.secu.staging = none) (hu : m.secu.upload ≠ []) (hc : m.cirqueOk = true) :
    m.fwStage seq = (m.modSecu (fun x => { x with staging := some seq }), 3, []) := by
  unfold Mod.fwStage
  rw [if_neg (by simp [hs]), if_neg (by simp [hu, hc])]
  rfl

/-! ### The debug port (R466) -/

theorem only_randomBytes (n : Nat) (m : Mod) : Only [.free] m (m.randomBytes n).2 := by
  induction n generalizing m with
  | zero => exact Only.refl _ _
  | succ n ih =>
    have drawn : Only [.free] m m.drawRandom.2 := fun p hp => by cases p <;> first | (exact absurd (by decide) hp) | rfl
    exact drawn.trans (ih _)

theorem length_randomBytes (n : Nat) (m : Mod) : (m.randomBytes n).1.length = n := by
  induction n generalizing m with
  | zero => rfl
  | succ n ih => exact congrArg (· + 1) (ih _)

/-- A challenge begins with the serial number. -/
theorem debugUnlock_challenges {m : Mod} (hc : m.get Ob.certifiedMode ≠ 1) (hr : m.isRedundant = true) :
    ∃ c M, m.debugUnlock = (M, 0, c) ∧ c.take 8 = leBytes 8 Config.serialNumber ∧ Only [.secu, .free] m M
      ∧ M.secu.debug = some (m.now, c) := by
  unfold Mod.debugUnlock
  rw [if_neg hc, if_neg (by simp [hr])]
  refine ⟨_, _, rfl, ?_, ?_, rfl⟩
  · rw [List.append_assoc, List.append_assoc, List.append_assoc, List.append_assoc]
    exact List.take_left' (length_leBytes 8 _)
  · exact ((only_randomBytes 32 m).mono (by decide)).to (only_modSecu _ _) (by decide)

theorem kept_autoResync (b : Nat) (m : Mod) (snd : Sender) : ((m.autoResync b).chanOf snd).kept = (m.chanOf snd).kept :=
  (autoResync_laws b m).1.kept (by decide) (by decide) snd

/-- A standby lane that fails leaves the command channels but for their event frames. -/
theorem kept_standbyUnhealthy (cause : Nat) (m : Mod) (snd : Sender) : ((m.standbyUnhealthy cause).chanOf snd).kept = (m.chanOf snd).kept := by
  unfold Mod.standbyUnhealthy
  dsimp only
  split
  · rfl
  · split
    · rw [kept_put, kept_put]
      exact ((Only.refl [.arb] m).oArb (by decide)).kept (by decide) (by decide) snd
    · generalize hA : Mod.showRedundant _ = A
      have only : Only [.obj, .arb] m A := by
        subst hA; exact (((Only.refl _ _).oArb (by decide)).oput (by decide)).to (only_showRedundant _) (by decide)
      have same : (A.chanOf snd).kept = (m.chanOf snd).kept := only.kept (by decide) (by decide) snd
      clear hA
      split
      · rw [kept_put, same]
      · split
        · rw [kept_autoResync, kept_raise, kept_put, ((Only.refl [.arb] A).oArb (by decide)).kept (by decide) (by decide), same]
        · rw [kept_autoResync, kept_raise, kept_put, same]

/-- A good signature in time unlocks the standby lane, with EV109, and the lane is unhealthy. -/
theorem debugResponse_good {sig c : List Byte} {t : Nat} {m : Mod} (hc : m.get Ob.certifiedMode ≠ 1) (hd : m.secu.debug = some (t, c))
    (ht : m.now ≤ t + sPs 60) (hr : m.isRedundant = true) (hl : sig.length = 96) (ok : Config.debugSigOk c sig = true) :
    ∃ M, m.debugResponse sig = (M, 0, []) ∧ Only ([.obj, .lanes, .arb, .secu] ++ evParts) m M ∧ OnlyEntries (laneKeys m.standby) m M
      ∧ M.secu.debug = none ∧ 109 ∈ M.seenEv ∧ (M.healthOf m.standby = 2 ∨ M.healthOf m.standby = 3)
      ∧ ∀ snd, (M.chanOf snd).kept = (m.chanOf snd).kept := by
  unfold Mod.debugResponse
  rw [if_neg hc, hd]
  dsimp only
  rw [if_neg (by simp [hr]; omega), if_pos (by simp [hl, ok])]
  generalize hA : Mod.raise 109 _ _ _ _ = A
  have only : Only (.secu :: evParts) m A := by
    subst hA; exact (((only_modSecu _ _).trans (only_modSecu _ _)).mono (by decide)).oraise _ _ _ _ (by decide)
  have debug : A.secu.debug = none := by subst hA; exact congrArg SecuRt.debug (raise_part _ _ _ _ _ .secu (by decide))
  have told : 109 ∈ A.seenEv := by subst hA; exact seen_raised _ _ _ _ _
  have kept : ∀ snd, (A.chanOf snd).kept = (m.chanOf snd).kept := fun snd => by
    subst hA
    rw [kept_raise, (only_modSecu _ _).kept (by decide) (by decide), (only_modSecu _ _).kept (by decide) (by decide)]
  clear hA
  have standby : A.standby = m.standby := by unfold Mod.standby Mod.lane; rw [only.get (by decide)]
  obtain ⟨fails, keys, ⟨l, events⟩, health⟩ := standbyUnhealthy_laws A 0x6405
  rw [standby] at keys health
  generalize hB : A.standbyUnhealthy 0x6405 = B at fails keys events health
  have same : ∀ snd, (B.chanOf snd).kept = (m.chanOf snd).kept := fun snd => by rw [← hB, kept_standbyUnhealthy, kept]
  have all : Only ([.obj, .lanes, .arb, .secu] ++ evParts) m B := (only.mono (by decide)).to fails (by decide)
  have entries : OnlyEntries (laneKeys m.standby) m B := (only.onlyEntries (by decide) _).trans keys
  have none : B.secu.debug = none := (congrArg SecuRt.debug (fails .secu (by decide))).trans debug
  have seen : 109 ∈ B.seenEv := by rw [events]; exact List.mem_append_right _ told
  split
  · exact ⟨_, rfl, all.to (only_modSecu _ _) (by decide), onlyEntries_obj entries rfl, none, seen, health,
      fun snd => ((only_modSecu _ _).kept (by decide) (by decide) snd).trans (same snd)⟩
  · exact ⟨_, rfl, all, entries, none, seen, health, same⟩

/-- A bad signature uses the challenge up. -/
theorem debugResponse_bad {sig c : List Byte} {t : Nat} {m : Mod} (hc : m.get Ob.certifiedMode ≠ 1) (hd : m.secu.debug = some (t, c))
    (ht : m.now ≤ t + sPs 60) (hr : m.isRedundant = true) (bad : Config.debugSigOk c sig = false) :
    m.debugResponse sig = (m.modSecu (fun x => { x with debug := none }), 0x11, []) := by
  unfold Mod.debugResponse
  rw [if_neg hc, hd]
  dsimp only
  rw [if_neg (by simp [hr]; omega), if_neg (by simp [bad])]

/-! ### The statement -/

theorem uncertified_of_runs {m : Mod} {f : Frame} (h : m.runs f = true) : m.get Ob.certifiedMode ≠ 1 := by
  unfold Mod.runs at h
  simp only [Bool.and_eq_true, decide_eq_true_eq] at h
  exact h.2

/-- Settles O24: each action by the law of its operation; the chunk's order, the signature's status and the state of the other lane at
once are the model's choices of log entries 77 and 81. -/
theorem updateAndModeActions : Obligations.UpdateAndModeActions := by
  unfold Obligations.UpdateAndModeActions
  intro s h
  refine ⟨fun _ _ => rfl, fun m off chunk hoff ho hl ht => ?upload, fun f off chunk hf ha hg hc => ?write, fun f hf hr hs hu hc => ?stage,
    fun f hf hr => ?enter, fun f hf hr => ?leave, fun f hf hr hred => ?unlock, fun f sig t c hf hr hred hd ht hl hh hi => ?response⟩
  case upload =>
    rw [applyWrite_fwUpload hoff, fwUpload_joins ho hl ht]
    rfl
  case write =>
    have opens : f.opensSession = false := by subst hf; rfl
    have fields : f.op = 2 ∧ f.idx = 0x6450 ∧ f.sub = 0 := by subst hf; exact ⟨rfl, rfl, rfl⟩
    obtain ⟨n, next, ran⟩ := frame_ran ha (by omega) (by omega) (by omega) opens (by omega) (by omega)
    have snd : f.h = h := by subst hf; rfl
    have group : ((s.m.taken f).chanOf h.snd).group = none := by rw [← snd, chanOf_taken ha, snd]; exact hg
    have role : (s.m.taken f).roleOf h.snd = s.m.roleOf h.snd := by rw [← snd]; exact roleOf_taken ha
    have waits : (s.m.taken f).staged = s.m.staged := taken_part rfl .staged (by decide)
    have clk : (s.m.taken f).clk = s.m.clk := taken_part rfl .clk (by decide)
    have stages : (s.m.ran s.kept f).1 = (s.m.taken f).stage
        { snd := h.snd, seq := h.seq, op := 2, idx := 0x6450, sub := 0, work := .writes [(Ob.fwUpload, leBytes 4 off ++ chunk)] } 1 := by
      have same : (s.m.taken f).stagedWrites = s.m.stagedWrites := by unfold Mod.stagedWrites; rw [waits]
      have command : s.m.ran s.kept f = (s.m.taken f).writeCommand h.snd h.seq 2 0x6450 0 (leBytes 4 off ++ chunk) false := by
        unfold Mod.ran
        rw [hf]
        rfl
      rw [command, writeCommand_stages group (by rw [role, same]; exact hc)]
      rfl
    have rest := ran.rest
    rw [stages] at rest
    obtain ⟨only, entries, x, item, work, from_, seq, late⟩ := stage_laws
      { snd := h.snd, seq := h.seq, op := 2, idx := 0x6450, sub := 0, work := .writes [(Ob.fwUpload, leBytes 4 off ++ chunk)] } 1 (s.m.taken f)
    refine ⟨n, ?_, ⟨x, ?_, work, from_, seq, by rw [late, clk]⟩, ?_, ?_⟩
    · rw [← next, hf]
      rfl
    · rw [show n.staged = _ from rest .staged (by decide), item, waits]
    · exact (((only_taken f s.m).mono (by decide)).to only (by decide)).to rest (by decide)
    · exact ((entries_taken f s.m).mono (by decide)).trans ((entries.mono (by decide)).trans (rest.onlyEntries (by decide) _))
  case stage =>
    subst hf
    generalize hT : s.m.taken ⟨h, 4, 0x6451, 0, []⟩ = T
    have secu : T.secu = s.m.secu := taken_part hT .secu (by decide)
    refine done_plain 0 (by decide) rfl rfl hr hT (fwStage_starts (by rwa [secu]) (by rwa [secu]) ((cirqueOk_taken hT).trans hc))
      (only_modSecu T _) ((only_modSecu T _).onlyEntries (by decide) _) ((only_modSecu T _).kept (by decide) (by decide) _) (fun n hn => ?_)
    rw [show n.secu = _ from hn .secu (by decide)]
    rfl
  case enter =>
    subst hf
    generalize hT : s.m.taken ⟨h, 4, 0x6454, 0, [1]⟩ = T
    refine done_plain 1 (by decide) rfl rfl hr hT rfl (only_modSecu T _) ((only_modSecu T _).onlyEntries (by decide) _)
      ((only_modSecu T _).kept (by decide) (by decide) _) (fun n hn => ?_)
    rw [show n.secu = _ from hn .secu (by decide)]
    rfl
  case leave =>
    subst hf
    generalize hT : s.m.taken ⟨h, 4, 0x6454, 0, [0]⟩ = T
    refine done_plain 1 (by decide) rfl rfl hr hT rfl (only_modSecu T _) ((only_modSecu T _).onlyEntries (by decide) _)
      ((only_modSecu T _).kept (by decide) (by decide) _) (fun n hn => ?_)
    rw [show n.secu = _ from hn .secu (by decide)]
    rfl
  case unlock =>
    subst hf
    generalize hT : s.m.taken ⟨h, 4, 0x6470, 0, []⟩ = T
    have mode : T.get Ob.certifiedMode ≠ 1 := by rw [taken_get hT (by decide)]; exact uncertified_of_runs hr
    have redundant : T.isRedundant = true := by rw [← hred]; unfold Mod.isRedundant; rw [taken_get hT (by decide)]
    have now : T.now = s.m.now := congrArg Clock.upPs (taken_part hT .clk (by decide))
    obtain ⟨c, M, challenge, serial, only, debug⟩ := debugUnlock_challenges mode redundant
    refine ⟨c, serial, done_plain 0 (by decide) rfl rfl hr hT challenge only (only.onlyEntries (by decide) _) (only.kept (by decide) (by decide) _)
      (fun n hn => ?_)⟩
    rw [show n.secu = _ from hn .secu (by decide), debug, now]
  case response =>
    subst hf
    generalize hT : s.m.taken ⟨h, 4, 0x6471, 0, sig⟩ = T
    have mode : T.get Ob.certifiedMode ≠ 1 := by rw [taken_get hT (by decide)]; exact uncertified_of_runs hr
    have redundant : T.isRedundant = true := by rw [← hred]; unfold Mod.isRedundant; rw [taken_get hT (by decide)]
    have now : T.now = s.m.now := congrArg Clock.upPs (taken_part hT .clk (by decide))
    have standby : T.standby = s.m.standby := by unfold Mod.standby Mod.lane; rw [taken_get hT (by decide)]
    have secu : T.secu = s.m.secu := taken_part hT .secu (by decide)
    cases ok : Config.debugSigOk c sig with
    | true =>
      obtain ⟨M, answers, only, entries, debug, told, health, kept⟩ := debugResponse_good mode (by rw [secu]; exact hd) (by rw [now]; exact ht)
        redundant hl ok
      rw [standby] at entries health
      refine done_plain 96 (by decide) hl rfl hr hT answers only entries (kept _) (fun n hn => ⟨?_, fun _ => ⟨?_, ?_⟩, fun bad => absurd bad (by simp)⟩)
      · rw [show n.secu = _ from hn .secu (by decide), debug]
      · rw [show n.seenEv = _ from hn .seenEv (by decide)]
        exact told
      · unfold Mod.healthOf at health ⊢
        rwa [hn.get (by decide)]
    | false =>
      refine done_plain 96 (by decide) hl rfl hr hT (debugResponse_bad mode (by rw [secu]; exact hd) (by rw [now]; exact ht) redundant ok)
        ((only_modSecu T _).mono (by decide)) ((only_modSecu T _).onlyEntries (by decide) _) ((only_modSecu T _).kept (by decide) (by decide) _)
        (fun n hn => ⟨?_, fun good => absurd good (by simp), fun _ => ?_⟩)
      · rw [show n.secu = _ from hn .secu (by decide)]
        rfl
      · unfold Mod.healthOf at hh ⊢
        rw [hn.get (by decide), (only_modSecu T _).get (by decide), taken_get hT (by unfold Ob.health Ob.framesOk; omega), hh]

end Sys2Proof.Machine
end


section
/-!
PROOFS. The commands whose frames go their own way: SESSION_OPEN, after which the sequence numbers start anew (R462), FW_ACTIVATE, whose
resets take its response (R457), and FW_COMMIT, which steps a counter (R458, R468); the statements on them (O25, O26, O27).
-/
namespace Sys2Proof.Machine

/-! ### FW_COMMIT (R458, R468) -/

/-- The counter step of an FW_COMMIT that is answered OK. -/
theorem fresh_counterStep {kp : Kept} {f : Frame} {m m1 : Mod} (h : m.accepts f = true) (hu : m.unbound f = false)
    (hop : f.op = 4) (hi : f.idx = 0x6453) (hs : f.sub = 0)
    (hm : m1.modChan f.h.snd (fun c => { c with kept := some f.h.seq, stored := none }) = m.taken f)
    (hr : (m.ran kp f).2 = some (0, [])) : (m1.fresh kp (m.genOf f.h.snd) false f).2 = (m.taken f).counterStep kp := by
  rw [fresh_eq (by simp [Frame.opensSession, hi])]
  simp only [hm]
  rw [execute_eq (by rw [unbound_taken, hu]) (out_taken h)]
  rw [show (m.taken f).command kp (m.genOf f.h.snd) false f = m.ran kp f from rfl, hr]
  dsimp only
  rw [if_neg (by simp [hi])]
  unfold Mod.counterOf
  exact if_pos (by simp [hop, hi, hs, hr, unbound_taken, hu])

theorem fwCommit_commits {kp : Kept} {m : Mod} {a : ImageInfo} (hf : m.laneFailing = false) (hc : m.cirqueOk = true)
    (ha : m.secu.running.getD m.lane none = some a) : m.fwCommit kp = okay (m.rollbackEvent (m.counterStep kp)) := by
  unfold Mod.fwCommit
  refine if_neg ?_
  unfold Mod.commitRefused
  simp only [hf, hc, ha]
  simp

/-- The step raises the counter of the running image to its SEC_VERSION where that is higher. -/
theorem counterStep_of_running {kp : Kept} {m : Mod} {a : ImageInfo} (ha : m.secu.running.getD m.lane none = some a) (hc : a.counter < 64)
    (hv : a.secVersion ≤ 1023) :
    m.counterStep kp = if kp.rollback.getD a.counter 0 < a.secVersion then some (a.counter, a.secVersion) else none := by
  unfold Mod.counterStep
  rw [ha]
  dsimp only
  rw [Nat.min_eq_right hv]
  simp only [hc, decide_true, Bool.and_true, decide_eq_true_eq]

/-- After the step the counter is the larger of its value and SEC_VERSION, and the others stand. -/
theorem raiseCounter_running (c v : Nat) {l : List Nat} (hc : c < l.length) :
    (raiseCounter (if l.getD c 0 < v then some (c, v) else none) l).getD c 0 = max (l.getD c 0) v
    ∧ ∀ k, k ≠ c → (raiseCounter (if l.getD c 0 < v then some (c, v) else none) l)[k]? = l[k]? := by
  split
  · refine ⟨by rw [getD_raiseCounter, if_pos ⟨rfl, hc⟩], fun k hk => ?_⟩
    show (l.modify c _)[k]? = l[k]?
    simp [Ne.symm hk]
  · exact ⟨by show l.getD c 0 = _; omega, fun _ _ => rfl⟩

theorem rollbackEvent_laws (step : Option (Nat × Nat)) (m : Mod) :
    Only evParts m (m.rollbackEvent step) ∧ (∀ c v, step = some (c, v) → Tells 107 sevInfo 0 (c + 256 * v) m (m.rollbackEvent step))
    ∧ ∀ snd, ((m.rollbackEvent step).chanOf snd).kept = (m.chanOf snd).kept := by
  cases step with
  | none => exact ⟨Only.refl _ _, fun _ _ h => absurd h (by simp), fun _ => rfl⟩
  | some x =>
    obtain ⟨c, v⟩ := x
    refine ⟨(Only.refl _ _).oinform _ _ (by decide), fun _ _ h => ?_, fun snd => kept_raise _ _ _ _ _ _⟩
    obtain ⟨rfl, rfl⟩ := Prod.mk.inj (Option.some.inj h)
    exact tells_raiseAt m m.t32 107 sevInfo 0 _ (by decide)

/-- Settles O27: the step of the running image's counter, told with EV107; the counter stands in what Cirque keeps. -/
theorem fwCommitRaisesTheCounter : Obligations.FwCommitRaisesTheCounter := by
  unfold Obligations.FwCommitRaisesTheCounter
  intro s h f a hf hr hfail hc ha hcount hv hlen
  have fields : f.op = 4 ∧ f.idx = 0x6453 ∧ f.sub = 0 := by subst hf; exact ⟨rfl, rfl, rfl⟩
  obtain ⟨op, idx, sub⟩ := fields
  have accepted := accepts_of_runs hr
  obtain ⟨m1, n, unbound, hm, hn, next⟩ := frame_fresh accepted (by omega) (by omega) (by omega)
  have action : isAction f.idx f.sub = true ∧ isUnitAction f.idx = false ∧ argBytes f.idx = some 0 := by rw [idx, sub]; decide
  have running : (s.m.taken f).secu.running.getD (s.m.taken f).lane none = some a := by
    rw [show (s.m.taken f).secu = _ from taken_part rfl .secu (by decide),
      show (s.m.taken f).lane = s.m.lane from taken_get rfl (by decide), ha]
  have acts : s.m.ran s.kept f = answered (okay ((s.m.taken f).rollbackEvent ((s.m.taken f).counterStep s.kept))) := by
    rw [ran_action hr op action.1 action.2.1 (by omega) (.inr (by rw [action.2.2, hf]; rfl)), idx, ← fwCommit_commits hfail
      ((cirqueOk_taken rfl).trans hc) running]
    rfl
  have step := counterStep_of_running (kp := s.kept) running hcount hv
  have ran : Ran s.kept f s.m n := by
    have fresh := fresh_ran (kp := s.kept) accepted unbound (by simp [Frame.opensSession, idx]) (by omega) hm
    rcases hn with rfl | ⟨k, rfl⟩
    · exact fresh
    · exact ran_trans fresh (only_freeMbx _ _) rfl (by rw [freeMbx_chan]) (by rw [freeMbx_chan])
  rw [fresh_counterStep accepted unbound op idx sub hm (by rw [acts]; rfl), step] at next
  rw [step] at acts
  obtain ⟨only, tells, kept⟩ := rollbackEvent_laws (if s.kept.rollback.getD a.counter 0 < a.secVersion then some (a.counter, a.secVersion) else none)
    (s.m.taken f)
  have rest := ran.rest
  rw [acts] at rest
  have snd : f.h = h := by subst hf; rfl
  obtain ⟨raised, others⟩ := raiseCounter_running a.counter a.secVersion (l := s.kept.rollback) (by omega)
  have way : exec (.fwCommit h) s = State.frame f s := by subst hf; rfl
  refine ⟨_, way.trans next, rfl, ?_, raised, others, fun less => ?_, ?_, ?_⟩
  · unfold Mod.answer
    rw [← snd, ran.stored (0, []) (by rw [acts]; rfl) (by rw [acts]; exact (kept f.h.snd).trans (kept_taken accepted))]
    rfl
  · exact tells_taken rfl (tells a.counter a.secVersion (if_pos less)) rest
  · exact (((only_taken f s.m).mono (by decide)).to only (by decide)).to rest (by decide)
  · exact (entries_taken f s.m).trans ((only.onlyEntries (by decide) _).trans (rest.onlyEntries (by decide) _))

/-! ### FW_ACTIVATE (R457) -/

/-- An entry that a pass over some keys puts as it stands elsewhere. -/
theorem get_putEach (l : List Nat) (g : Nat → Nat) (m : Mod) (k : Nat) :
    (m.each l (fun j n => n.put j (g j))).get k = if k ∈ l then g k else m.get k := by
  unfold Mod.each
  induction l generalizing m with
  | nil => rfl
  | cons j l ih =>
    rw [List.foldl_cons, ih, get_put]
    by_cases h : k ∈ l
    · simp [h]
    · by_cases e : k = j <;> simp [h, e]

/-- What every die but Serac loses, and what it keeps, in a reset. -/
theorem diesReset_laws (m : Mod) :
    (∀ k, m.diesReset.get k = if k ∈ resetHeldKeys then m.get k else ({ obj := m.sto } : Mod).get k)
    ∧ m.diesReset.clk = { upPs := m.clk.upPs } ∧ m.diesReset.sto = m.sto ∧ m.diesReset.gens = m.gens ∧ m.diesReset.sess = []
    ∧ m.diesReset.staged = [] ∧ m.diesReset.secu = m.secu.kept ∧ m.diesReset.power.released = none ∧ m.diesReset.prot.log = m.prot.log := by
  unfold Mod.diesReset
  dsimp only
  generalize hA : ({ m.dark with clk := _, power := _, grp := _, prot := _, hk := _ } : Mod) = A
  have put : Only [.obj] A (A.each resetHeldKeys (fun k n => n.put k (m.get k))) :=
    only_each _ _ _ (fun _ _ => (Only.refl _ _).oput (by decide))
  have stored : (A.sto, A.gens) = (m.sto, m.gens) := by subst hA; rfl
  have kept := (put .sto (by decide)).trans stored
  refine ⟨fun k => ?_, ?_, congrArg Prod.fst kept, congrArg Prod.snd kept, ?_, ?_, ?_, ?_, ?_⟩
  · rw [get_putEach]
    subst hA
    rfl
  · rw [show Mod.clk _ = _ from put .clk (by decide)]; subst hA; rfl
  · rw [show Mod.sess _ = _ from put .sess (by decide)]; subst hA; rfl
  · rw [show Mod.staged _ = _ from put .staged (by decide)]; subst hA; rfl
  · rw [show Mod.secu _ = _ from put .secu (by decide)]; subst hA; rfl
  · rw [show Mod.power _ = _ from put .power (by decide)]; subst hA; rfl
  · rw [show Mod.prot _ = _ from put .prot (by decide)]; subst hA; rfl

/-- FW_ACTIVATE at rest with both relays open resets the dies into the staged image. -/
theorem fwActivate_resets {m : Mod} {a b : ImageInfo} (hr : m.allAtRest = true) (ho : m.bothOpen = true) (hs : m.secu.staged = some (a, b)) :
    ∃ M, m.fwActivate = okay M ∧ Only [.secu, .sdc] m.diesReset M ∧ M.secu.staged = none ∧ (a.target = 2 → M.secu.safety = some a)
      ∧ M.secu.keys = m.diesReset.secu.keys := by
  unfold Mod.fwActivate
  rw [if_pos (by simp [hr, ho, hs]), hs]
  refine ⟨_, rfl, fun p hp => ?_, rfl, fun ht => if_pos ht, rfl⟩
  cases p <;> first | (exact absurd (by decide) hp) | rfl

/-- The resets take the response of FW_ACTIVATE with them. -/
theorem fresh_fwActivate {kp : Kept} {f : Frame} {m m1 M : Mod} (h : m.accepts f = true) (hu : m.unbound f = false)
    (hop : f.op = 4) (hi : f.idx = 0x6452)
    (hm : m1.modChan f.h.snd (fun c => { c with kept := some f.h.seq, stored := none }) = m.taken f)
    (hr : m.ran kp f = answered (okay M)) : m1.fresh kp (m.genOf f.h.snd) false f = (M, none) := by
  rw [fresh_eq (by simp [Frame.opensSession, hi])]
  simp only [hm]
  rw [execute_eq (by rw [unbound_taken, hu]) (out_taken h)]
  rw [show (m.taken f).command kp (m.genOf f.h.snd) false f = m.ran kp f from rfl, hr]
  exact if_pos (by simp [hop, hi, okay])

/-- Settles O26: the dies reset into the staged image, and the response goes with the resets (log entries 18, 76 and 119). -/
theorem fwActivateResetsTheModule : Obligations.FwActivateResetsTheModule := by
  unfold Obligations.FwActivateResetsTheModule
  intro s h f a b hf hr hrest hopen hst
  have fields : f.op = 4 ∧ f.idx = 0x6452 ∧ f.sub = 0 := by subst hf; exact ⟨rfl, rfl, rfl⟩
  obtain ⟨op, idx, sub⟩ := fields
  have accepted := accepts_of_runs hr
  obtain ⟨m1, n, unbound, hm, hn, next⟩ := frame_fresh accepted (by omega) (by omega) (by omega)
  have action : isAction f.idx f.sub = true ∧ isUnitAction f.idx = false ∧ argBytes f.idx = some 0 := by rw [idx, sub]; decide
  obtain ⟨M, activates, only, staged, safety, keys⟩ := fwActivate_resets (a := a) (b := b) hrest
    (by unfold Mod.bothOpen Mod.readsOpen at hopen ⊢; rw [taken_sdc]; exact hopen)
    (by rw [show (s.m.taken f).secu = _ from taken_part rfl .secu (by decide)]; exact hst)
  have acts : s.m.ran s.kept f = answered (okay M) := by
    rw [ran_action hr op action.1 action.2.1 (by omega) (.inr (by rw [action.2.2, hf]; rfl)), idx, ← activates]
    rfl
  rw [fresh_fwActivate accepted unbound op idx hm acts] at hn next
  have way : Only [.mbx] M n := by
    rcases hn with rfl | ⟨k, rfl⟩
    · exact Only.refl _ _
    · intro p hp; cases p <;> first | (exact absurd (by decide) hp) | rfl
  obtain ⟨entries, clk, sto, gens, sess, waiting, secu, released, log⟩ := diesReset_laws (s.m.taken f)
  have all : Only [.secu, .sdc, .mbx] (s.m.taken f).diesReset n := (only.mono (by decide)).to way (by decide)
  have taken : Only frameParts s.m (s.m.taken f) := only_taken f s.m
  have store : ((s.m.taken f).sto, (s.m.taken f).gens) = (s.m.sto, s.m.gens) := taken .sto (by decide)
  have kept : (n.sto, n.gens) = _ := all .sto (by decide)
  have own : n.secu = M.secu := way .secu (by decide)
  have runs : exec (.fwActivate h) s = State.frame f s := by subst hf; rfl
  refine ⟨n, runs.trans next, ?_, fun k => ?_, ?_, ?_, ?_, ?_, ?_, fun ht => ?_, ?_, ?_, ?_⟩
  · rw [show n.clk = _ from all .clk (by decide), clk, show (s.m.taken f).clk = _ from taken .clk (by decide)]
  · rw [all.get (by decide), entries, show (s.m.taken f).sto = s.m.sto from congrArg Prod.fst store]
    by_cases held : k ∈ resetHeldKeys
    · rw [if_pos held, if_pos held, taken_get rfl (fun e => absurd (e ▸ held) (by decide))]
    · rw [if_neg held, if_neg held]
  · rw [show n.sto = _ from congrArg Prod.fst kept, sto, show (s.m.taken f).sto = _ from congrArg Prod.fst store]
  · rw [show n.gens = _ from congrArg Prod.snd kept, gens, show (s.m.taken f).gens = _ from congrArg Prod.snd store]
  · rw [show n.sess = _ from all .sess (by decide), sess]
  · rw [show n.staged = _ from all .staged (by decide), waiting]
  · rw [own, staged]
  · rw [own, safety ht]
  · rw [own, keys, secu, show (s.m.taken f).secu = _ from taken .secu (by decide)]
    rfl
  · rw [show n.power = _ from all .power (by decide), released]
  · rw [show n.prot = _ from all .prot (by decide), log, show (s.m.taken f).prot = _ from taken .prot (by decide)]

/-! ### SESSION_OPEN (R462) -/

/-- What a session has once it is open: its slot, its key, its role and the counter of what comes in. -/
def Chan.session (c : Chan) : Option Nat × List Byte × Nat × Option Nat := (c.slot, c.key, c.role, c.ctrIn)

theorem steady_session : Steady Chan.session :=
  ⟨fun r c => by unfold Chan.sign; split <;> first | rfl | (split <;> rfl), fun _ _ => rfl⟩

/-- The channel of a session that opens under a slot. -/
def Chan.opened (slot role : Nat) (key : List Byte) (c : Chan) : Chan :=
  { c with slot := some slot, key := key, role := role, ctrIn := some 0, ctrOut := some 0 }

theorem sessionOpen_opens {n slot : Nat} {nonce : List Byte} {m : Mod} (hg : (m.mbx.getD n {}).gen = 3) (hc : m.cirqueOk = true)
    (hl : nonce.length = 16) :
    m.sessionOpen (.mbx n) slot nonce = ((m.randomBytes 16).2.modChan (.mbx n) (Chan.opened slot (m.get (Ob.slotRole slot))
      (Config.hmacSha256 (m.secu.keys.getD slot []) (ghp3Label ++ nonce ++ (m.randomBytes 16).1))), 0, (m.randomBytes 16).1) := by
  unfold Mod.sessionOpen
  dsimp only
  rw [if_neg (by simp only [hg, hc]; decide), if_neg (by simp [hl])]
  rfl

/-- An ACTION SESSION_OPEN comes to its operation, whatever role its sender has yet. -/
theorem command_sessionOpen {kp : Kept} {gen : Nat} {h : Hdr} {nonce : List Byte} {m : Mod} (hl : m.sdc.lockout = false)
    (hg : (m.chanOf h.snd).group = none) :
    m.command kp gen false ⟨h, 4, 0x6421, 0, nonce⟩ = answered (m.sessionOpen h.snd h.slot nonce) := by
  have action : isAction 0x6421 0 = true := by decide
  have runs : m.runAction kp h.snd h.slot h.seq 0x6421 0 nonce = m.sessionOpen h.snd h.slot nonce := by
    unfold Mod.runAction
    rw [if_neg (by simp), if_neg (by simp [hl]), if_neg (by simp [argBytes, inBlock])]
    rfl
  unfold Mod.command
  dsimp only
  rw [if_neg (by simp), if_neg (by simp), if_pos rfl]
  unfold Mod.actionCommand
  dsimp only
  rw [if_neg (by simp [actionRole, Ob.sessionOpen]), if_neg (by simp [action]), if_neg (by simp), if_neg (by simp [hg]),
    if_neg (by decide), runs]

/-- A frame's SESSION_OPEN that is done: the sequence numbers start anew, and its response leaves. -/
theorem fresh_opens {kp : Kept} {f : Frame} {m M : Mod} {d : List Byte} (ho : f.opensSession = true)
    (hr : m.execute kp 3 false f = (M, some (0, d))) :
    m.fresh kp 3 false f = ((M.modChan f.h.snd (fun c => { c with out := c.out ++ [(f.h.seq, none)], kept := none })).respond f.h.snd (f.rsp (0, d)),
      none) := by
  have idx : f.idx = 0x6421 := by
    unfold Frame.opensSession at ho
    simp only [Bool.and_eq_true, decide_eq_true_eq] at ho
    exact ho.1.1.2
  unfold Mod.fresh
  dsimp only
  rw [ho, Bool.true_and, decide_eq_true rfl, if_pos rfl, hr]
  dsimp only
  rw [if_neg (by simp [idx]), counterOf_none (by omega)]
  rfl

theorem gen_taken (n : Nat) (f : Frame) (m : Mod) : ((m.taken f).mbx.getD n {}).gen = (m.mbx.getD n {}).gen := by
  rw [taken_eq, gen_modChan, gen_modChan]
  exact gen_heard n f m

/-- A channel stands where it stands after a change of channels. -/
theorem hasChan_of_modChan {k : Nat} {f : Chan → Chan} {m : Mod} (h : (m.modChan (.mbx k) f).hasChan (.mbx k)) : m.hasChan (.mbx k) := by
  simpa [Mod.hasChan, Mod.modChan] using h

/-- What SESSION_OPEN leaves of the channel of its mailbox, its response included. -/
theorem session_respond (snd : Sender) (r : Rsp) (o : Chan → List (Nat × Option Rsp)) (m : Mod) :
    (((m.modChan snd (fun c => { c with out := o c, kept := none })).respond snd r).chanOf snd).session = (m.chanOf snd).session := by
  unfold Mod.respond
  refine (deliver_proj steady_session snd _).trans ((modChan_proj Chan.session snd _ _ ?_).trans (modChan_proj Chan.session snd _ m ?_)) <;>
    exact fun _ => rfl

section
variable {f : Frame} {m m1 : Mod} (hm : m1.modChan f.h.snd (fun c => { c with kept := some f.h.seq, stored := none }) = m.taken f)
include hm

/-- The module on which a frame comes to `Mod.fresh` differs from the one its command finds by the frame's own channel. -/
theorem only_reached : Only rspParts (m.taken f) m1 := fun p hp => by
  have way : Only rspParts m1 (m.taken f) := hm ▸ only_modChan _ _ _
  have same := way p hp
  cases p <;> exact same.symm

theorem cirqueOk_reached : m1.cirqueOk = m.cirqueOk := by
  rw [← cirqueOk_taken (f := f) (m := m) rfl]
  unfold Mod.cirqueOk Mod.cirqueUp Mod.lane
  rw [(only_reached hm).get (by decide), laneAt_eq (only_reached hm .lanes (by decide))]

theorem gen_reached (k : Nat) : (m1.mbx.getD k {}).gen = (m.mbx.getD k {}).gen := by
  rw [← gen_modChan k f.h.snd (fun c => { c with kept := some f.h.seq, stored := none }), hm, gen_taken]

/-- The channel of its mailbox has no group open and room for a response where it had so before. -/
theorem chan_reached {k : Nat} (ha : m.accepts f = true) (hs : f.h.snd = .mbx k) :
    m1.hasChan (.mbx k) ∧ (m1.chanOf (.mbx k)).group = (m.chanOf (.mbx k)).group ∧ (m1.chanOf (.mbx k)).out.length < 8 := by
  rw [hs] at hm
  have has : m1.hasChan (.mbx k) := hasChan_of_modChan (f := fun c => { c with kept := some f.h.seq, stored := none })
    (hm ▸ hs ▸ hasChan_taken (hasChan_of_accepts ha))
  have chan := chanOf_modChan_has (fun c : Chan => { c with kept := some f.h.seq, stored := none }) has
  rw [hm] at chan
  have group := congrArg Chan.group (chan.symm.trans (hs ▸ chanOf_taken ha))
  have out : ((m.taken f).chanOf f.h.snd).out.length < 8 := out_taken ha
  rw [hs, chan] at out
  exact ⟨has, group, out⟩

end

/-- The command of a SESSION_OPEN that comes to `Mod.fresh`. -/
theorem execute_sessionOpen {kp : Kept} {h : Hdr} {nonce : List Byte} {k : Nat} {m : Mod} (hs : h.snd = .mbx k)
    (hg : (m.mbx.getD k {}).gen = 3) (hc : m.cirqueOk = true) (hl : nonce.length = 16) (hlock : m.sdc.lockout = false)
    (hgr : (m.chanOf (.mbx k)).group = none) (ho : (m.chanOf (.mbx k)).out.length < 8) :
    m.execute kp 3 false ⟨h, 4, 0x6421, 0, nonce⟩ = ((m.randomBytes 16).2.modChan (.mbx k) (Chan.opened h.slot (m.get (Ob.slotRole h.slot))
      (Config.hmacSha256 (m.secu.keys.getD h.slot []) (ghp3Label ++ nonce ++ (m.randomBytes 16).1))), some (0, (m.randomBytes 16).1)) := by
  rw [execute_eq (by unfold Mod.unbound; rw [hs]) (by rw [hs]; exact ho), command_sessionOpen hlock (by rw [hs]; exact hgr), hs,
    sessionOpen_opens hg hc hl]
  rfl

/-- Settles O25: the session of the slot starts with the key of both nonces; the sequence numbers that start anew are log entry 19. -/
theorem sessionOpenStartsASession : Obligations.SessionOpenStartsASession := by
  unfold Obligations.SessionOpenStartsASession
  intro s h nonce f hf hmbx hgen ha hl hc hlock hg
  obtain ⟨k, hk⟩ := hmbx
  rw [hk] at hgen hg ⊢
  have fields : f.op = 4 ∧ f.idx = 0x6421 ∧ f.sub = 0 ∧ f.h.snd = .mbx k := by subst hf; exact ⟨rfl, rfl, rfl, hk⟩
  obtain ⟨op, idx, sub, snd⟩ := fields
  have opens : f.opensSession = true := by unfold Frame.opensSession; rw [op, idx, sub, snd]; rfl
  obtain ⟨m1, n, unbound, hm, hn, next⟩ := frame_fresh ha (by omega) (by omega) (by omega)
  have back := only_reached hm
  have entry : m1.get (Ob.slotRole h.slot) = s.m.get (Ob.slotRole h.slot) :=
    (back.get (by decide) _).trans (taken_get rfl (by unfold Ob.slotRole Ob.framesOk; omega))
  have secu : m1.secu = s.m.secu := (back .secu (by decide)).trans (taken_part (f := f) rfl .secu (by decide))
  have sdc : m1.sdc = s.m.sdc := (back .sdc (by decide)).trans (taken_part (f := f) rfl .sdc (by decide))
  obtain ⟨has, group, out⟩ := chan_reached hm ha snd
  have acts : m1.execute s.kept 3 false f = _ := hf ▸ execute_sessionOpen hk ((gen_reached hm k).trans hgen) ((cirqueOk_reached hm).trans hc) hl
    (by rw [sdc]; exact hlock) (group.trans hg) out
  rw [entry, secu] at acts
  generalize hR : m1.randomBytes 16 = R at acts
  have drawn : Only [.free] m1 R.2 := hR ▸ only_randomBytes 16 m1
  have hasR : R.2.hasChan (.mbx k) := by
    unfold Mod.hasChan at has ⊢
    rwa [show R.2.mbx = _ from drawn .mbx (by decide)]
  have length : R.1.length = 16 := hR ▸ length_randomBytes 16 m1
  clear hR
  rw [snd, hgen, fresh_opens opens acts, snd] at hn
  rw [snd, hgen, fresh_opens opens acts] at next
  generalize hF : Mod.respond _ _ _ = F at hn
  have answered : Only rspParts R.2 F := by
    subst hF
    exact (only_modChan _ _ _).trans ((only_modChan _ _ _).trans (only_respond _ _ _))
  have session : (F.chanOf (.mbx k)).session = (some h.slot, Config.hmacSha256 (s.m.secu.keys.getD h.slot []) (ghp3Label ++ nonce ++ R.1),
      s.m.get (Ob.slotRole h.slot), some 0) := by
    subst hF
    rw [session_respond, chanOf_modChan_has _ hasR]
    rfl
  clear hF
  have last : Only rspParts F n ∧ n.chanOf (.mbx k) = F.chanOf (.mbx k) := by
    rcases hn with rfl | ⟨j, rfl⟩
    · exact ⟨Only.refl _ _, rfl⟩
    · exact ⟨only_freeMbx _ _, freeMbx_chan _ _ _⟩
  obtain ⟨freed, chan⟩ := last
  rw [← chan] at session
  have runs : exec (.sessionOpen h nonce) s = State.frame f s := by subst hf; rfl
  refine ⟨n, runs.trans next, ?_, ?_, congrArg (fun x => x.1) session, congrArg (fun x => x.2.2.1) session, congrArg (fun x => x.2.2.2) session,
    R.1, length, congrArg (fun x => x.2.1) session⟩
  · exact (((((only_taken f s.m).mono (by decide)).to back (by decide)).to drawn (by decide)).to answered (by decide)).to freed (by decide)
  · exact (((((entries_taken f s.m).trans (back.onlyEntries (by decide) _)).trans (drawn.onlyEntries (by decide) _)).trans
      (answered.onlyEntries (by decide) _)).trans (freed.onlyEntries (by decide) _))

end Sys2Proof.Machine
end


section
/-!
PROOFS. Security events (R456, R458, R460, R464): what each does, and the statement on them (O55).
-/
namespace Sys2Proof.Machine

/-! ### The end of a block (R464) -/

theorem authBlockEnd_address {a p q : Nat} {snd : Sender} {m : Mod} (h : m.net.banned.find? (fun x => x.1 = a) = some (q, p)) :
    m.authBlockEnd (some a) snd = { m.reach p with net := { m.net with
      banned := m.net.banned.filter (fun p => p.1 ≠ a), fails := m.net.fails.filter (fun p => p.1 ≠ a) } } := by
  unfold Mod.authBlockEnd
  dsimp only
  rw [h]
  rfl

/-- A mailbox or a session without a block stays as it is. -/
theorem authBlockEnd_free {snd : Sender} {m : Mod} (h : (m.chanOf snd).blocked = none) : m.authBlockEnd none snd = m := by
  unfold Mod.authBlockEnd
  dsimp only
  rw [h]

theorem authBlockEnd_mailbox {n p : Nat} {m : Mod} (hn : n < m.mbx.length) (h : (m.chanOf (.mbx n)).blocked = some p) :
    ((m.authBlockEnd none (.mbx n)).chanOf (.mbx n)).blocked = none ∧ ((m.authBlockEnd none (.mbx n)).chanOf (.mbx n)).authFails = []
    ∧ (m.authBlockEnd none (.mbx n)).now = max m.now p ∧ Only [.clk, .mbx] m (m.authBlockEnd none (.mbx n))
    ∧ ∀ k, k ≠ n → (m.authBlockEnd none (.mbx n)).mbx.getD k {} = m.mbx.getD k {} := by
  unfold Mod.authBlockEnd
  dsimp only
  rw [h]
  dsimp only
  have has : (m.reach p).hasChan (.mbx n) := hn
  refine ⟨?_, ?_, rfl, ?_, fun k hk => ?_⟩
  · rw [chanOf_modChan_has _ has]
  · rw [chanOf_modChan_has _ has]
  · intro p hp; cases p <;> first | (exact absurd (by decide) hp) | rfl
  · show (m.mbx.modify n _).getD k {} = _
    simp [List.getD_eq_getElem?_getD, Ne.symm hk]

/-! ### A certificate near its end (R460) -/

theorem certExpiring_warns {w d : Nat} {m : Mod} (h0 : w = 0 → m.secu.opCert ≠ []) (h1 : w ≠ 0 → m.secu.anchors.getD (w - 1) [] ≠ [])
    (hd : d ≤ 30) (hw : w ∉ m.secu.told) :
    m.certExpiring w d = (m.modSecu (fun x => { x with told := x.told ++ [w] })).raise 111 sevWarn 0x6406 d := by
  have held : (if w = 0 then !m.secu.opCert.isEmpty else !(m.secu.anchors.getD (w - 1) []).isEmpty) = true := by
    split
    · rw [List.isEmpty_eq_false_iff.2 (h0 ‹_›)]; rfl
    · rw [List.isEmpty_eq_false_iff.2 (h1 ‹_›)]; rfl
  unfold Mod.certExpiring
  dsimp only
  rw [held]
  exact if_pos (by simp [hd, hw])

/-! ### The verification of an image (R453, R456) -/

/-- The verification ends with EV106 by its verdict on both images. -/
theorem fwStaged_ends {kp : Kept} {a b : ImageInfo} {sq : Nat} {m : Mod} {ok : Bool} (hs : m.secu.staging = some sq)
    (hok : (a.target ≤ 2 && imageOk kp m a.target a && imageOk kp m a.target b) = ok) (hq : sq < 65536) :
    (m.fwStaged kp a b).secu = { m.secu with staging := none, staged := if ok then some (a, b) else m.secu.staged }
    ∧ Tells 106 (if ok then sevInfo else sevWarn) (if ok then 0 else 0x6403) sq m (m.fwStaged kp a b)
    ∧ Only (.secu :: evParts) m (m.fwStaged kp a b) := by
  unfold Mod.fwStaged
  rw [hs]
  dsimp only
  rw [hok, Nat.mod_eq_of_lt hq]
  generalize hA : Mod.modSecu _ m = A
  have only : Only [.secu] m A := by subst hA; exact only_modSecu _ _
  have secu : A.secu = { m.secu with staging := none, staged := if ok then some (a, b) else m.secu.staged } := by subst hA; rfl
  clear hA
  refine ⟨?_, only.tells_raise _ _ _ _ (by decide) (by decide) (by cases ok <;> decide), (only.mono (by decide)).oraise _ _ _ _ (by decide)⟩
  rw [show Mod.secu _ = _ from raise_part _ _ _ _ _ .secu (by decide), secu]

theorem imageOk_production {kp : Kept} {m : Mod} {a : ImageInfo} {t : Nat} (ht : a.target = t)
    (h : a.magicOk = true ∧ a.digestOk = true ∧ kp.rollback.getD a.counter 0 ≤ a.secVersion ∧ a.dev = false ∧ a.hashFused = true
      ∧ a.revoked = false ∧ a.sigOk = true) : imageOk kp m t a = true := by
  obtain ⟨magic, digest, version, dev, fused, revoked, signed⟩ := h
  unfold imageOk
  simp only [magic, digest, version, dev, fused, revoked, signed, ht]
  simp

/-- An image of a lower version than its counter, or of another digest than it names, is refused. -/
theorem imageOk_refused {kp : Kept} {m : Mod} {a : ImageInfo} {t : Nat} (h : a.secVersion < kp.rollback.getD a.counter 0 ∨ a.digestOk = false) :
    imageOk kp m t a = false := by
  unfold imageOk
  rcases h with h | h
  · rw [decide_eq_false (show ¬ kp.rollback.getD a.counter 0 ≤ a.secVersion by omega)]
    simp
  · simp [h]

/-! ### The end of COMMIT_DELAY (R458, R468) -/

theorem commitDue_redundant {m : Mod} (h : m.isRedundant = true) : m.commitDue = some (m.arb.bothPs + sPs (m.get Ob.commitDelay)) := if_pos h

/-- The step made is that of the running image while no lane fails. -/
theorem commitStep_of_running {kp : Kept} {m : Mod} {a : ImageInfo} (hf : m.laneFailing = false) (hc : m.cirqueOk = true)
    (ha : m.secu.running.getD m.lane none = some a) : m.commitStep kp = m.counterStep kp := by
  unfold Mod.commitStep Mod.commitRefused
  rw [hf, hc, ha]
  rfl

theorem commitStep_failing {kp : Kept} {m : Mod} (hf : m.laneFailing = true) : m.commitStep kp = none := by
  unfold Mod.commitStep Mod.commitRefused
  rw [hf]
  rfl

/-! ### The statement -/

/-- Settles O55: each event by the law of its operation. -/
theorem securityGoesOn : Obligations.SecurityGoesOn := by
  unfold Obligations.SecurityGoesOn
  intro s a n w d sq c v p q ia ib img hn hw hsq hmbx hlen hrun hlane
  refine ⟨fun h => ?address, fun h => ?mailbox, fun h => ?free, fun h0 h1 hd ht => ?certificate, fun hs ht hb hx => ?good, fun hs hx => ?bad,
    fun ha hc hc64 hv hv1023 hlow hok hred => ⟨fun hf => ?step, fun hf => ?failing⟩, fun hred => ?alone⟩
  case address =>
    refine does_onMod rfl (authBlockEnd_address h) ⟨rfl, rfl, rfl, fun p hp => ?_⟩
    cases p <;> first | (exact absurd (by decide) hp) | rfl
  case mailbox =>
    obtain ⟨blocked, fails, now, only, others⟩ := authBlockEnd_mailbox (by omega) h
    exact does_onMod rfl rfl ⟨blocked, fails, now, only, fun k _ hk => others k hk⟩
  case free => exact does_onMod rfl (authBlockEnd_free h) rfl
  case certificate =>
    have warned : Only [.secu] s.m (s.m.modSecu (fun x => { x with told := x.told ++ [w] })) := only_modSecu _ _
    refine does_unit rfl (decide_eq_true hw) ?_
    rw [certExpiring_warns h0 h1 hd ht]
    refine ⟨?_, warned.tells_raise _ _ _ _ (by decide) (by decide) (by decide), (warned.mono (by decide)).oraise _ _ _ _ (by decide)⟩
    rw [show Mod.secu _ = _ from raise_part _ _ _ _ _ .secu (by decide)]
    exact List.mem_append_right _ (List.mem_singleton.2 rfl)
  case good =>
    have verdict : (ia.target ≤ 2 && imageOk s.kept s.m ia.target ia && imageOk s.kept s.m ia.target ib) = true := by
      rw [imageOk_production rfl (hx ia (by simp)), imageOk_production hb (hx ib (by simp)), decide_eq_true (by omega)]
      rfl
    obtain ⟨secu, tells, only⟩ := fwStaged_ends hs verdict hsq
    exact does_onMod rfl rfl ⟨by rw [secu], by rw [secu]; rfl, tells, only⟩
  case bad =>
    have verdict : (ia.target ≤ 2 && imageOk s.kept s.m ia.target ia && imageOk s.kept s.m ia.target ib) = false := by
      rcases hx with h | h | h
      · rw [imageOk_refused (.inl h)]; simp
      · rw [imageOk_refused (.inr h)]; simp
      · rw [imageOk_refused (a := ib) (.inr h)]; simp
    obtain ⟨secu, tells, only⟩ := fwStaged_ends hs verdict hsq
    exact does_onMod rfl rfl ⟨by rw [secu], by rw [secu]; rfl, tells, only⟩
  case step =>
    subst hc
    subst hv
    have made : s.m.commitStep s.kept = some (img.counter, img.secVersion) := by
      rw [commitStep_of_running hf hok ha, counterStep_of_running ha hc64 hv1023, if_pos hlow]
    have next := exec_commitDelay (commitDue_redundant hred)
    rw [made] at next
    generalize hp : s.m.arb.bothPs + _ = p at next
    have reached : Only [.clk] s.m (s.m.reach p) := (Only.refl _ _).oReach (by decide)
    refine ⟨_, next, rfl, ?_, fun j hj => ?_, rfl, rfl, rfl, ?_, ?_, (reached.mono (by decide)).oinform _ _ (by decide)⟩
    · rw [getD_raiseCounter, if_pos ⟨rfl, by omega⟩, Nat.max_eq_right (by omega)]
    · rw [getD_raiseCounter, if_neg (by omega)]
    · exact congrArg Clock.upPs (inform_part (s.m.reach p) 107 (img.counter + 256 * img.secVersion) .clk (by decide))
    · exact reached.tells_raise 107 sevInfo 0 (img.counter + 256 * img.secVersion) (by decide) (by decide) (by decide)
  case failing =>
    have next := exec_commitDelay (commitDue_redundant hred)
    rw [commitStep_failing hf] at next
    exact ⟨_, next, rfl, rfl, (Only.refl _ _).oReach (by decide)⟩
  case alone =>
    show execCommitDelayExpiry s = _
    unfold execCommitDelayExpiry
    rw [show s.m.commitDue = none from if_neg (by simp [hred])]

end Sys2Proof.Machine
end


section
/-!
PROOFS. Self-measured ageing (R484 to R492): what the estimates, the baseline, a plan and its steps do, and the statement on them (O57).
-/
namespace Sys2Proof.Machine

/-! ### Estimates (R484 to R486) -/

theorem nowValid_laws (kind unit : Nat) (m : Mod) : Only [.age] m (m.nowValid kind unit) ∧ (kind, unit) ∈ (m.nowValid kind unit).age.valid := by
  unfold Mod.nowValid
  split
  · exact ⟨Only.refl _ _, List.contains_iff_mem.1 ‹_›⟩
  · exact ⟨only_modAge _ _, List.mem_append_right _ (List.mem_singleton.2 rfl)⟩

theorem linkBlock_light {n : Nat} {load : Int} {c e : Nat} {m : Mod} (h : load < 161061274) : m.linkBlock n load c e = m := by
  unfold Mod.linkBlock
  exact if_pos (by simp [h])

/-- A block that counts, while fewer than 100 do. -/
theorem linkBlock_counts {n : Nat} {load : Int} {c e : Nat} {m : Mod} (hl : 161061274 ≤ load) (he : m.estimates (m.linkGroups n) = true)
    (hr : m.retired 2 n = false) (hc : c < 4294967296) (h32 : e < 4294967296) (hb : (m.age.blocks.getD n []).length < 99) :
    m.linkBlock n load c e = m.modAge (fun a => { a with blocks := a.blocks.set n (m.age.blocks.getD n [] ++ [(c, e)]) }) := by
  have few : lastOf 100 (m.age.blocks.getD n []) (c % 4294967296, e % 4294967296) = m.age.blocks.getD n [] ++ [(c, e)] := by
    unfold lastOf
    rw [Nat.mod_eq_of_lt hc, Nat.mod_eq_of_lt h32, show (m.age.blocks.getD n []).length + 1 - 100 = 0 by omega, List.drop_zero]
  unfold Mod.linkBlock
  rw [if_neg (by simp only [he, hr]; simp; omega)]
  dsimp only
  rw [few, if_pos (by rw [List.length_append, List.length_singleton]; omega)]

/-- The mean of one value of the last 100 blocks. -/
def blockMean (l : List (Nat × Nat)) (v : Nat × Nat → Nat) : Nat := f32Raw ((l.foldl (fun a p => a + (f32Val (v p)).getD 0) 0) / 100)

/-- The hundredth block shows the means and makes the estimate valid. -/
theorem linkBlock_shows {n : Nat} {load : Int} {c e : Nat} {m : Mod} (hl : 161061274 ≤ load) (he : m.estimates (m.linkGroups n) = true)
    (hr : m.retired 2 n = false) (hc : c < 4294967296) (h32 : e < 4294967296) (hb : 99 ≤ (m.age.blocks.getD n []).length) :
    let l := lastOf 100 (m.age.blocks.getD n []) (c, e)
    let M := m.linkBlock n load c e
    M.get (Ob.cEst n) = blockMean l Prod.fst ∧ M.get (Ob.esrEst n) = blockMean l Prod.snd ∧ M.get (Ob.estValid n) = 1 ∧ (0, n) ∈ M.age.valid
      ∧ Only [.obj, .age] m M ∧ OnlyEntries [Ob.cEst n, Ob.esrEst n, Ob.estValid n] m M := by
  dsimp only
  have full : ∀ x, (lastOf 100 (m.age.blocks.getD n []) x).length = 100 := fun x => by
    unfold lastOf
    rw [List.length_drop, List.length_append, List.length_singleton]
    omega
  unfold Mod.linkBlock
  rw [if_neg (by simp only [he, hr]; simp; omega), Nat.mod_eq_of_lt hc, Nat.mod_eq_of_lt h32]
  dsimp only
  rw [if_neg (by rw [full]; omega)]
  generalize hl : lastOf 100 (m.age.blocks.getD n []) (c, e) = l
  generalize hA : Mod.put (Ob.estValid n) 1 _ = A
  have only : Only [.obj, .age] m A := by
    subst hA
    exact ((((only_modAge _ _).mono (by decide)).oput (by decide)).oput (by decide)).oput (by decide)
  have entries : OnlyEntries [Ob.cEst n, Ob.esrEst n, Ob.estValid n] m A := by
    subst hA
    exact ((((only_modAge _ _).onlyEntries (by decide) _).oput (by simp)).oput (by simp)).oput (by simp)
  have shown : A.get (Ob.cEst n) = blockMean l Prod.fst ∧ A.get (Ob.esrEst n) = blockMean l Prod.snd ∧ A.get (Ob.estValid n) = 1 := by
    subst hA
    refine ⟨?_, ?_, get_put_same _⟩
    · rw [get_put_other _ (by unfold Ob.cEst Ob.estValid; omega), get_put_other _ (by unfold Ob.cEst Ob.esrEst; omega), get_put_same]
      rfl
    · rw [get_put_other _ (by unfold Ob.esrEst Ob.estValid; omega), get_put_same]
      rfl
  clear hA
  obtain ⟨valid, here⟩ := nowValid_laws 0 n A
  rw [valid.get (by decide), valid.get (by decide), valid.get (by decide)]
  exact ⟨shown.1, shown.2.1, shown.2.2, here, only.to valid (by decide), entries.trans (valid.onlyEntries (by decide) _)⟩

theorem hourEnds_second {m : Mod} (h1 : 8500 ≤ m.getS16 Ob.dieTemp) (h2 : m.getS16 Ob.dieTemp < 10500) :
    m.hourEnds = ((m.reach (m.age.hourPs + sPs 3600)).modAge (fun a => { a with
      hourPs := max (m.age.hourPs + sPs 3600) m.now, opHours := if m.get Ob.moduleState = 2 then a.opHours + 1 else a.opHours })).keep
      (Ob.dieHours 1) ((m.get (Ob.dieHours 1) + 1) % 4294967296) := by
  unfold Mod.hourEnds
  dsimp only
  rw [if_neg (by omega), if_pos h2]

theorem ageWarn_new {code lane : Nat} {present : Bool} {m : Mod} (hp : present = true) (h : ∀ x ∈ m.age.warned, x ≠ 2 * code + lane) :
    m.ageWarn code lane present = (m.modAge (fun a => { a with warned := a.warned ++ [2 * code + lane] })).raise 127 sevWarn code lane := by
  unfold Mod.ageWarn
  dsimp only
  rw [if_pos hp, if_neg (by simpa using fun hm => h _ hm rfl)]

/-- The most erased block of a lane's regions. -/
theorem worstErased {l r k : Nat} {e : List Nat} (hr : r < 4) (hl : l < 2) (hlen : e.length = 8) (h : ∀ j, j < 4 → e.getD (4 * l + j) 0 ≤ k) :
    (List.range 4).foldl (fun a r' => max a ((e.modify (4 * l + r) (fun x => max x k)).getD (4 * l + r') 0)) 0 = k := by
  have at_ : ∀ j, j < 4 → (e.modify (4 * l + r) (fun x => max x k)).getD (4 * l + j) 0 = if j = r then k else e.getD (4 * l + j) 0 := by
    intro j hj
    have bound := h j hj
    have inside : 4 * l + j < e.length := by omega
    rw [List.getD_eq_getElem?_getD, List.getD_eq_getElem?_getD] at *
    by_cases he : j = r
    · subst he
      simp only [List.getElem?_modify_eq, List.getElem?_eq_getElem inside, if_true] at bound ⊢
      simpa using bound
    · rw [if_neg he, List.getElem?_modify_ne _ _ (show 4 * l + r ≠ 4 * l + j by omega)]
  have b0 := h 0 (by omega)
  have b1 := h 1 (by omega)
  have b2 := h 2 (by omega)
  have b3 := h 3 (by omega)
  show max (max (max (max 0 _) _) _) _ = k
  rw [at_ 0 (by omega), at_ 1 (by omega), at_ 2 (by omega), at_ 3 (by omega)]
  split <;> split <;> split <;> split <;> omega

/-- A flash worn to 80 % of its erases warns once with EV127. -/
theorem flashWorn_warns {l r k : Nat} {m : Mod} (hr : r < 4) (hl : l < 2) (hlen : m.age.erases.length = 8)
    (h : ∀ j, j < 4 → m.age.erases.getD (4 * l + j) 0 ≤ k) (hk : 80000 ≤ k) (hw : ∀ x ∈ m.age.warned, x ≠ 2 * 0x6004 + l) :
    (m.flashWorn l r k).get (Ob.flashWear l) = min (k / 1000) 255 ∧ Tells 127 sevWarn 0x6004 l m (m.flashWorn l r k)
    ∧ Only ([.obj, .age] ++ evParts) m (m.flashWorn l r k) ∧ OnlyEntries [Ob.flashWear l] m (m.flashWorn l r k) := by
  unfold Mod.flashWorn
  dsimp only
  generalize hA : Mod.modAge _ m = A
  have counted : Only [.age] m A := by subst hA; exact only_modAge _ _
  have worst : (List.range 4).foldl (fun a r' => max a (A.age.erases.getD (4 * l + r') 0)) 0 = k := by subst hA; exact worstErased hr hl hlen h
  have warned : A.age.warned = m.age.warned := by subst hA; rfl
  clear hA
  rw [worst, ageWarn_new (decide_eq_true hk) (by rw [put_age, warned]; exact hw)]
  generalize hB : Mod.modAge _ _ = B
  have only : Only [.obj, .age] m B := by subst hB; exact ((counted.mono (by decide)).oput (by decide)).to (only_modAge _ _) (by decide)
  have entries : OnlyEntries [Ob.flashWear l] m B := by
    subst hB; exact onlyEntries_obj ((counted.onlyEntries (by decide) _).oput (by simp)) rfl
  have wear : B.get (Ob.flashWear l) = satAt 255 (k / 1000) := by subst hB; rw [(only_modAge _ _).get (by decide), get_put_same]
  clear hB
  refine ⟨?_, only.tells_raise _ _ _ _ (by decide) (by decide) (by decide), (only.mono (by decide)).oraise _ _ _ _ (by decide), entries.raise _ _ _ _⟩
  rw [get_raised, wear]
  unfold satAt
  split <;> omega

/-! ### The baseline (R485) -/

theorem baselineComplete_learns {n : Nat} {m : Mod} (hn : n < 24) (ho : m.baselineOver 0 n = true) (hv : (0, n) ∈ m.age.valid)
    (hl : ∀ x ∈ m.age.learned, x.1 ≠ n) :
    (n, m.get (Ob.cEst n), m.get (Ob.esrEst n)) ∈ m.baselineComplete.age.learned ∧ (0, n) ∈ m.baselineComplete.age.based := by
  have valid : m.age.valid.contains (0, n) = true := List.contains_iff_mem.2 hv
  refine ⟨List.mem_append_right _ (List.mem_map.2 ⟨n, List.mem_filter.2 ⟨List.mem_range.2 hn, ?_⟩, rfl⟩), List.mem_filter.2 ⟨?_, ?_⟩⟩
  · simp only [ho, valid, Bool.true_and]
    exact List.all_eq_true.2 (fun x hx => decide_eq_true (hl x hx))
  · iterate 3 refine List.mem_append_left _ ?_
    exact List.mem_map.2 ⟨n, List.mem_range.2 hn, rfl⟩
  · simp [ho, hv]

theorem only_baselineComplete (m : Mod) : Only [.age] m m.baselineComplete := by
  unfold Mod.baselineComplete
  exact only_modAge _ _

/-! ### The plan (R489, R492) -/

/-- The module at the instant `p` at which a plan falls due. -/
def Mod.atPlan (p : Nat) (m : Mod) : Mod := (m.reach p).modAge (fun a => { a with planPs := max p m.now })

/-- When the next plan falls due. -/
def Mod.planAt (m : Mod) : Nat := m.age.planPs + sPs (3600 * m.get Ob.planPeriod)

theorem planDue_eq (m : Mod) : m.planDue = (m.atPlan m.planAt).planCompute false := rfl

section
variable (p : Nat) (m : Mod)

theorem only_atPlan : Only [.clk, .age] m (m.atPlan p) := ((Only.refl _ _).oReach (by decide)).to (only_modAge _ _) (by decide)

theorem atPlan_now : (m.atPlan p).now = max m.now p := rfl

theorem atPlan_age : (m.atPlan p).age = { m.age with planPs := (m.atPlan p).now } :=
  congrArg (fun x => ({ m.age with planPs := x } : AgeRt)) (Nat.max_comm p m.now)

/-- The targets are those of the estimates, whenever they are computed. -/
theorem atPlan_planTargets : (m.atPlan p).planTargets = m.planTargets := rfl

theorem atPlan_differs (a b : Targets) : (m.atPlan p).differs a b = m.differs a b := rfl

end

theorem getLast_keepPlan (r : PlanRec) (l : List PlanRec) : (keepPlan r l).getLast? = some r := by
  unfold keepPlan
  rw [List.drop_append_of_le_length (by omega), List.getLast?_concat]

theorem adopts_last (r : PlanRec) (t : Targets) (a : AgeRt) : (a.adopts r t).log.getLast? = some { r with state := 1 } := by
  unfold AgeRt.adopts
  dsimp only
  exact getLast_keepPlan _ _

/-! ### Steps (R490) -/

/-- Adjustments move: the entries of the plan itself stand, and those of the module as a whole and its lanes (below 200000h). -/
structure Adjusts (a b : Mod) : Prop where
  only : Only [.obj, .grp, .idle] a b
  plan : ∀ j, j < 0x200000 ∨ (0x600000 ≤ j ∧ j < 0x600200) → b.get j = a.get j

namespace Adjusts
variable {a b : Mod}

theorem refl (a : Mod) : Adjusts a a := ⟨Only.refl _ _, fun _ _ => rfl⟩

theorem put (h : Adjusts a b) {k v : Nat} (hk : (0x200000 ≤ k ∧ k < 0x600000) ∨ 0x600200 ≤ k) : Adjusts a (b.put k v) :=
  ⟨h.only.oput (by decide), fun j hj => (get_put_other _ (by omega)).trans (h.plan j hj)⟩

theorem manage (h : Adjusts a b) {k : Nat} (hk : (0x200000 ≤ k ∧ k < 0x600000) ∨ 0x600200 ≤ k) : Adjusts a (b.manage k) := by
  unfold Mod.manage
  split
  · exact h
  · exact h.put hk

theorem loadMap (h : Adjusts a b) (g : Nat) : Adjusts a (b.loadMap g) :=
  ⟨h.only.to (only_loadMap g b) (by decide), fun j hj => ((only_loadMap g b).get (by decide) j).trans (h.plan j hj)⟩

theorem moveDead (h : Adjusts a b) {p : Nat} (hp : p < 32) (sideB : Bool) : Adjusts a (b.moveDead p sideB) := by
  have key : 0x200000 ≤ (if sideB then Ob.dtOnB p else Ob.dtOnA p) ∧ (if sideB then Ob.dtOnB p else Ob.dtOnA p) < 0x600000 := by
    unfold Ob.dtOnA Ob.dtOnB; split <;> omega
  have shown : 0x200000 ≤ (if sideB then Ob.dtOnBEff p else Ob.dtOnAEff p) ∧ (if sideB then Ob.dtOnBEff p else Ob.dtOnAEff p) < 0x600000 := by
    unfold Ob.dtOnAEff Ob.dtOnBEff; split <;> omega
  unfold Mod.moveDead
  dsimp only
  generalize (if sideB then Ob.dtOnB p else Ob.dtOnA p) = k at key ⊢
  generalize (if sideB then Ob.dtOnBEff p else Ob.dtOnAEff p) = e at shown ⊢
  have managed := h.manage (.inl key)
  split
  · exact managed
  · generalize hx : Mod.put e _ _ = x
    have moved : Adjusts a x := by subst hx; exact managed.put (.inl shown)
    split
    · exact moved
    · split
      · exact moved
      · exact moved.loadMap _

theorem showAdjust (h : Adjusts a b) : Adjusts a b.showAdjust := by
  unfold Mod.showAdjust
  refine each_invariant (each_invariant h (fun p _ x hx => ?_)) (fun i _ x hx => ?_)
  · exact (hx.put (.inr (by unfold Ob.dtIncA; omega))).put (.inr (by unfold Ob.dtIncB; omega))
  · exact hx.put (.inr (by unfold Ob.ntcShift; omega))

theorem manageAll (h : Adjusts a b) : Adjusts a b.manageAll := by
  unfold Mod.manageAll
  refine showAdjust (put ?_ (.inl (by decide)))
  refine each_invariant (each_invariant (each_invariant (each_invariant (each_invariant h ?_) ?_) ?_) ?_) ?_
  · exact fun s hs x hx => hx.manage (.inl (by have := List.mem_range.1 hs; unfold Ob.iMax; omega))
  · exact fun n hn x hx => hx.manage (.inl (by have := List.mem_range.1 hn; unfold Ob.focAlert; omega))
  · exact fun n hn x hx => hx.manage (.inl (by have := List.mem_range.1 hn; unfold Ob.focTrip; omega))
  · exact fun p hp x hx => (hx.moveDead (List.mem_range.1 hp) false).moveDead (List.mem_range.1 hp) true
  · exact fun i hi x hx => (hx.manage (.inl (by have := List.mem_range.1 hi; unfold Ob.ntcDerate; omega))).manage
      (.inl (by have := List.mem_range.1 hi; unfold Ob.ntcStop; omega))

end Adjusts

/-- The module at the instant `p` of a step with its adjustments one step on, before the managed entries take their values. -/
def Mod.atStep (p : Nat) (m : Mod) : Mod := (m.reach p).modAge (fun _ => { (m.reach p).stepped with stepPs := max p m.now })

section
variable (p : Nat) (m : Mod)

theorem only_atStep : Only [.clk, .age] m (m.atStep p) := ((Only.refl _ _).oReach (by decide)).to (only_modAge _ _) (by decide)

theorem atStep_now : (m.atStep p).now = max m.now p := rfl

theorem atStep_age : (m.atStep p).age = { m.stepped with stepPs := (m.atStep p).now } :=
  congrArg (fun x => ({ m.stepped with stepPs := x } : AgeRt)) (Nat.max_comm p m.now)

end

/-- The end of a plan whose adjustments have all reached their targets (R490). -/
def Mod.planArrives (m : Mod) : Mod :=
  ((m.modAge (fun a => { a with
    moving := false, log := a.log.map (fun x => if x.state = 1 then { x with state := 2 } else x) })).inform 125 (m.get Ob.planGen)).showPlan

theorem planStep_eq {m : Mod} (h : m.get Ob.planFreeze ≠ 1) :
    m.planStep = if (m.atStep (m.age.stepPs + sPs 60)).manageAll.age.moving && (m.atStep (m.age.stepPs + sPs 60)).manageAll.age.done
      then (m.atStep (m.age.stepPs + sPs 60)).manageAll.planArrives else (m.atStep (m.age.stepPs + sPs 60)).manageAll := by
  unfold Mod.planStep
  rw [if_neg h]
  dsimp only
  generalize m.age.stepPs + sPs 60 = p
  generalize hB : Mod.modAge _ (m.reach p) = B
  rw [show m.atStep p = B from hB]
  generalize B.manageAll = n
  rfl

/-- A step while plans are not frozen: the adjustments one step on, the entries of the plan as they stand. -/
theorem planStep_moves {m : Mod} (hf : m.get Ob.planFreeze = 0) :
    ∃ d, d.age = { m.stepped with stepPs := d.now } ∧ d.now = max m.now (m.age.stepPs + sPs 60) ∧ d.get Ob.planFreeze = 0
      ∧ d.get Ob.planGen = m.get Ob.planGen
      ∧ m.planStep = if d.age.moving && d.age.done then d.planArrives else d := by
  have step := planStep_eq (m := m) (by omega)
  have reached := only_atStep (m.age.stepPs + sPs 60) m
  have now := atStep_now (m.age.stepPs + sPs 60) m
  have age := atStep_age (m.age.stepPs + sPs 60) m
  generalize m.atStep _ = B at reached now age step
  obtain ⟨only, plan⟩ := (Adjusts.refl B).manageAll
  have clk : B.manageAll.now = B.now := congrArg Clock.upPs (only .clk (by decide))
  refine ⟨B.manageAll, ?_, ?_, ?_, ?_, step⟩
  · rw [show B.manageAll.age = _ from only .age (by decide), age, clk]
  · rw [clk, now]
  · rw [plan _ (.inr (by decide)), reached.get (by decide), hf]
  · rw [plan _ (.inr (by decide)), reached.get (by decide)]

/-- A step that brings every adjustment to its target ends the plan with EV125. -/
theorem planStep_arrives {m : Mod} (hf : m.get Ob.planFreeze = 0) (hm : m.age.moving = true) (hd : m.stepped.done = true) :
    m.planStep.age.moving = false ∧ 125 ∈ m.planStep.seenEv ∧ m.planStep.get Ob.planState = (if m.get Ob.planGen = 0 then 0 else 2)
    ∧ m.planStep.now = max m.now (m.age.stepPs + sPs 60) ∧ m.planStep.age.stepPs = m.planStep.now ∧ ∀ x ∈ m.planStep.age.log, x.state ≠ 1 := by
  obtain ⟨d, age, now, freeze, gen, step⟩ := planStep_moves hf
  have arrived : (d.age.moving && d.age.done) = true := by rw [age]; exact Bool.and_eq_true_iff.2 ⟨hm, hd⟩
  rw [step, if_pos arrived]
  unfold Mod.planArrives Mod.showPlan
  generalize hA : Mod.modAge _ d = A
  have only : Only [.age] d A := by subst hA; exact only_modAge _ _
  have ended : A.age.moving = false ∧ A.age.stepPs = d.now ∧ A.age.log = d.age.log.map (fun x => if x.state = 1 then { x with state := 2 } else x) := by
    subst hA
    exact ⟨rfl, by show d.age.stepPs = _; rw [age], rfl⟩
  clear hA
  obtain ⟨moving, stepPs, log⟩ := ended
  have told := inform_part A 125 (d.get Ob.planGen) .age (by decide)
  have clk : (A.inform 125 (d.get Ob.planGen)).now = d.now :=
    congrArg Clock.upPs ((inform_part A 125 (d.get Ob.planGen) .clk (by decide)).trans (only .clk (by decide)))
  refine ⟨?_, ?_, ?_, ?_, ?_, ?_⟩
  · rw [put_age, show Mod.age _ = _ from told, moving]
  · rw [put_seenEv]
    exact seen_raised _ _ _ _ _
  · rw [get_put_same, show Mod.age _ = _ from told, moving, get_informed, only.get (by decide), freeze, if_neg (by decide), get_informed,
      only.get (by decide), gen]
    rfl
  · rw [← now, ← clk]
    rfl
  · rw [put_age, show Mod.age _ = _ from told, stepPs, ← clk]
    rfl
  · rw [put_age, show Mod.age _ = _ from told, log]
    intro x hx
    obtain ⟨y, -, rfl⟩ := List.mem_map.1 hx
    split
    · exact Nat.succ_ne_self 1
    · assumption

/-- At rest the derating takes its target in one step. -/
theorem planStep_derates {m : Mod} (hf : m.get Ob.planFreeze = 0) (hr : m.allAtRest = true) : m.planStep.age.derate = m.age.target.derate := by
  obtain ⟨d, age, now, freeze, gen, step⟩ := planStep_moves hf
  have derate : d.age.derate = m.age.target.derate := by
    rw [age]
    show stepTo m.allAtRest _ _ _ = _
    rw [hr]
    rfl
  rw [step]
  split
  · unfold Mod.planArrives Mod.showPlan
    rw [put_age, show Mod.age _ = _ from inform_part _ _ _ .age (by decide)]
    exact derate
  · exact derate

/-! ### The statement -/

/-- Settles O57: each event by the law of its operation; the hundred blocks of an estimate are the model's choice of log entry 74. -/
theorem ageingGoesOn : Obligations.AgeingGoesOn := by
  unfold Obligations.AgeingGoesOn
  intro s n c e l k r load hn hl hc he hr hblocks herases
  have link : decide (n < 24) = true := decide_eq_true hn
  refine ⟨fun h => ?light, fun h hest hret => ⟨fun hb => ?counts, fun hb => ?shows⟩, fun h1 h2 => ?hour, fun hk hall hw => ?worn, ?baseline,
    fun hd => ?same, fun hd hf => ?frozen, fun hd hf hn => ?adopted, fun hf => ?held, fun hf hm hd => ?arrives, fun hf hrest => ?derates⟩
  case light => exact does_unit rfl link (linkBlock_light h)
  case counts =>
    have counted : s.m.estimate (.linkCap n load c e) = _ := linkBlock_counts h hest hret hc he hb
    refine does_unit rfl link ?_
    rw [counted]
    refine ⟨?_, only_modAge _ _⟩
    show (s.m.age.blocks.set n _).getD n [] = _
    rw [List.getD_eq_getElem?_getD, List.getElem?_set_self (by omega)]
    rfl
  case shows => exact does_unit rfl link (linkBlock_shows h hest hret hc he hb)
  case hour =>
    have counted : s.m.estimate .dieHour = _ := hourEnds_second h1 h2
    refine does_unit rfl rfl ?_
    rw [counted]
    generalize s.m.age.hourPs + sPs 3600 = p
    refine ⟨get_keep_same _, rfl, rfl, ?_, ?_⟩
    · exact (((Only.refl _ _).oReach (by decide)).to (only_modAge _ _) (by decide)).okeep (by decide) (by decide)
    · exact (((Only.refl [.clk, .age] _).oReach (by decide)).to (only_modAge _ _) (by decide)).onlyEntries (by decide) _ |>.okeep (by decide)
  case worn =>
    refine does_unit rfl (by simp [estimateOk, hl, hr]) ?_
    obtain ⟨wear, tells, only, entries⟩ := flashWorn_warns hr hl herases hall hk hw
    exact ⟨wear, tells, only, entries⟩
  case baseline =>
    exact does_onMod rfl rfl ⟨baselineComplete_learns hn, fun x hx => List.mem_append_left _ hx, only_baselineComplete _⟩
  case same =>
    have due : s.m.planDue = s.m.atPlan s.m.planAt := by
      rw [planDue_eq]
      unfold Mod.planCompute
      exact if_neg (by rw [atPlan_differs, atPlan_planTargets, atPlan_age]; simp [hd])
    exact does_onMod rfl due ⟨atPlan_now _ _, atPlan_age _ _, only_atPlan _ _⟩
  case frozen =>
    refine does_onMod rfl (planDue_eq _) ?_
    generalize s.m.planAt = p
    obtain ⟨r, state, time, computed, logs⟩ := planCompute_frozen (byHost := false) (m := s.m.atPlan p)
      (by rw [atPlan_differs, atPlan_planTargets, atPlan_age]; exact hd) (((only_atPlan p s.m).get (by decide) _).trans hf)
    have clk : ((s.m.atPlan p).planCompute false).t64 = (s.m.atPlan p).t64 := by
      unfold Mod.t64 Mod.tai; rw [show Mod.clk _ = _ from computed .clk (by decide)]
    rw [logs, clk]
    dsimp only
    rw [atPlan_age, atPlan_planTargets]
    exact ⟨rfl, ⟨r, rfl, getLast_keepPlan r _, state, time⟩, (only_atPlan p s.m).to computed (by decide)⟩
  case adopted =>
    refine does_onMod rfl (planDue_eq _) ?_
    generalize s.m.planAt = p
    have only := only_atPlan p s.m
    obtain ⟨r, ⟨gen, time, prev⟩, adopts⟩ := planCompute_adopts (byHost := false) (m := s.m.atPlan p)
      (by rw [atPlan_differs, atPlan_planTargets, atPlan_age]; exact hd) (by rw [only.get (by decide)]; omega) (by rw [atPlan_age]; exact hn)
    rw [atPlan_planTargets] at adopts
    obtain ⟨adopted, -, record, shown, -, told, -⟩ := planAdopt_laws r s.m.planTargets (s.m.atPlan p)
    have clk : ((s.m.atPlan p).planAdopt r s.m.planTargets).t64 = (s.m.atPlan p).t64 := by
      unfold Mod.t64 Mod.tai; rw [show Mod.clk _ = _ from adopted .clk (by decide)]
    rw [adopts, record, shown, gen, clk, only.get (by decide)]
    refine ⟨rfl, rfl, rfl, List.mem_of_mem_head? told, ⟨_, adopts_last _ _ _, rfl, time, prev.trans (only.get (by decide) _)⟩,
      (only.mono (by decide)).to adopted (by decide)⟩
  case held =>
    show onMod s s.m.planStep = _
    unfold Mod.planStep
    rw [if_pos hf]
    rfl
  case arrives => exact does_onMod rfl rfl (planStep_arrives hf hm hd)
  case derates => exact does_onMod rfl rfl (planStep_derates hf hrest)

end Sys2Proof.Machine
end

section
/-!
PROOFS. Thermal management and the cooling drive (R422 to R431): what each event of the throttle timer, of the grace time and of
the cooling drive does, and the statement on them (O53).
-/
namespace Sys2Proof.Machine

/-! ### Thermal management -/

/-- The clock and the timer of the throttle step moved on. -/
theorem throttled_laws (q : Nat) (f : ThermRt → ThermRt) (v : Nat) (m : Mod) :
    let A := ((m.reach q).modTherm f).put Ob.throttleStep v
    Only [.clk, .therm, .obj] m A ∧ OnlyEntries [Ob.throttleStep] m A ∧ A.get Ob.throttleStep = v
    ∧ A.get Ob.thermalState = m.get Ob.thermalState ∧ A.therm = f m.therm ∧ A.now = max m.now q :=
  ⟨((Only.refl _ m).oReach (by decide)).to (only_modTherm _ _) (by decide) |>.oput (by decide),
    onlyEntries_put (onlyEntries_obj (onlyEntries_refl _ m) rfl) (by decide), get_put_same _, get_put_other _ (by decide), rfl, rfl⟩

/-- EV120 with the states as they stand. -/
theorem thermEvent_laws {l : List Part} {ks : List Nat} {a b : Mod} (h : Only l a b) (hk : OnlyEntries ks a b) (h1 : Part.hostQ ∉ l)
    (h2 : Part.seenEv ∉ l) (old : Nat) :
    Only (l ++ evParts) a (b.thermEvent old) ∧ OnlyEntries ks a (b.thermEvent old)
    ∧ Tells 120 sevInfo 0 (b.get Ob.thermalState + 256 * old + 65536 * b.get Ob.throttleStep) a (b.thermEvent old)
    ∧ Only evParts b (b.thermEvent old) :=
  ⟨(h.mono (List.subset_append_left _ _)).oraise _ _ _ _ (List.subset_append_right _ _), hk.raise _ _ _ _,
    h.tells_raise _ _ _ _ h1 h2 (by decide), (Only.refl _ b).oraise _ _ _ _ (List.Subset.refl _)⟩

/-- The step rises while the level stands. -/
theorem throttleTimer_rises {p : Nat} {m : Mod} (hl : m.levelOn 0 = true) (hn : m.get Ob.throttleStep < 3) (hp : m.therm.throtPs = some p) :
    m.throttleTimer = (((m.reach (p + sPs 1)).modTherm (fun t => { t with throtPs := some (max m.now (p + sPs 1)) })).put
      Ob.throttleStep (m.get Ob.throttleStep + 1)).thermEvent (m.get Ob.thermalState) := by
  unfold Mod.throttleTimer
  simp only [hp, hl, if_true]
  generalize p + sPs 1 = q
  generalize hA : Mod.modTherm _ _ = A
  have level : A.levelOn 0 = true := by subst hA; exact hl
  have step : A.get Ob.throttleStep = m.get Ob.throttleStep := by subst hA; rfl
  have state : A.get Ob.thermalState = m.get Ob.thermalState := by subst hA; rfl
  rw [step, state, if_pos level, if_pos hn]
  have level' : ((A.put Ob.throttleStep (m.get Ob.throttleStep + 1)).thermEvent (m.get Ob.thermalState)).levelOn 0 = true := by
    unfold Mod.levelOn at level ⊢
    rwa [show ((A.put Ob.throttleStep (m.get Ob.throttleStep + 1)).thermEvent (m.get Ob.thermalState)).therm = A.therm from
      raise_part _ _ _ _ _ .therm (by decide)]
  exact if_neg (by simp [level'])

/-- The step falls once the level is left. -/
theorem throttleTimer_falls {p : Nat} {m : Mod} (hl : m.levelOn 0 = false) (hn : 1 < m.get Ob.throttleStep) (hp : m.therm.throtPs = some p) :
    m.throttleTimer = (((m.reach (p + sPs 10)).modTherm (fun t => { t with throtPs := some (max m.now (p + sPs 10)) })).put
      Ob.throttleStep (m.get Ob.throttleStep - 1)).thermEvent (m.get Ob.thermalState) := by
  unfold Mod.throttleTimer
  simp only [hp, hl, Bool.false_eq_true, if_false]
  generalize p + sPs 10 = q
  generalize hA : Mod.modTherm _ _ = A
  have level : A.levelOn 0 = false := by subst hA; exact hl
  have step : A.get Ob.throttleStep = m.get Ob.throttleStep := by subst hA; rfl
  have state : A.get Ob.thermalState = m.get Ob.thermalState := by subst hA; rfl
  rw [step, state, if_neg (show ¬ A.levelOn 0 = true by simp [level]), if_pos (show 0 < m.get Ob.throttleStep by omega)]
  have left : ((A.put Ob.throttleStep (m.get Ob.throttleStep - 1)).thermEvent (m.get Ob.thermalState)).get Ob.throttleStep ≠ 0 := by
    unfold Mod.thermEvent Mod.inform
    rw [get_raised, get_put_same _]
    omega
  exact if_neg (by simp [left])

/-- The enforcement starts where the level still stands. -/
theorem graceEnds_enforces {g : Nat} {m : Mod} (hs : m.get Ob.thermalState = 2) (hd : m.derateOn = true) (hg : m.therm.gracePs = some g) :
    m.graceEnds = (((m.reach g).modTherm (fun t => { t with gracePs := none, starts := true })).put Ob.thermalState 3).thermEvent 2 := by
  unfold Mod.graceEnds
  simp only [hg, hs, hd]
  unfold Mod.thermTo
  dsimp only
  have state : ((m.reach g).modTherm (fun t => { t with gracePs := none, starts := true })).get Ob.thermalState = 2 := hs
  rw [if_pos (by decide), state]
  exact if_neg (by decide)

/-! ### The cooling drive -/

/-- CD_STATE by the fault and the enable, and the phases by the Hall code. -/
theorem cdShow_shows (m : Mod) :
    m.cdShow.get Ob.cdState = (if m.get Ob.cdFault ≠ 0 then (if m.cd.waiting then 2 else 3) else b2n m.cdRuns)
    ∧ m.cdShow.cd = m.cd.drives m.now m.cd.duty (if m.cdRuns then hallPhases (m.get Ob.cdHall) (m.get Ob.cdDir) else none)
    ∧ m.cdShow.cdRuns = m.cdRuns := by
  obtain ⟨-, entries, -, -⟩ := cdShow_laws m
  have shown : m.cdShow.cd = m.cd.drives m.now m.cd.duty (if m.cdRuns then hallPhases (m.get Ob.cdHall) (m.get Ob.cdDir) else none) := rfl
  refine ⟨?_, shown, ?_⟩
  · unfold Mod.cdShow
    exact ((only_modCd _ _).get (by decide) _).trans (get_put_same _)
  · unfold Mod.cdRuns
    rw [entries Ob.cdFault (by decide), shown]
    rfl

/-- The stage as a fault leaves it. -/
def Mod.cdTrips (code : Nat) (again : Bool) (m : Mod) : Mod :=
  ((m.put Ob.cdFault code).put Ob.cdRetries m.cdRecent.length).modCd (fun c =>
    { c.drives m.now 0 none with waiting := again, retries := m.cdRecent, integ := 0, faultPs := m.now })

theorem cdTrips_laws (code : Nat) (again : Bool) (m : Mod) (hc : code ≠ 0) :
    Only [.obj, .cd] m (m.cdTrips code again).cdShow
    ∧ OnlyEntries [Ob.cdFault, Ob.cdRetries, Ob.cdState] m (m.cdTrips code again).cdShow
    ∧ (m.cdTrips code again).cdShow.get Ob.cdFault = code ∧ (m.cdTrips code again).cdShow.get Ob.cdRetries = m.cdRecent.length
    ∧ (m.cdTrips code again).cdShow.get Ob.cdState = (if again then 2 else 3) ∧ (m.cdTrips code again).cdShow.cd.phases = none
    ∧ (m.cdTrips code again).cdShow.cd.duty = 0 ∧ (m.cdTrips code again).cdShow.cd.faultPs = m.now
    ∧ (m.cdTrips code again).cdShow.cd.waiting = again := by
  generalize hA : m.cdTrips code again = A
  have only : Only [.obj, .cd] m A := by
    subst hA; exact (((Only.refl _ _).oput (by decide)).oput (by decide)).to (only_modCd _ _) (by decide)
  have entries : OnlyEntries [Ob.cdFault, Ob.cdRetries] m A := by
    subst hA
    exact onlyEntries_obj (onlyEntries_put (k := Ob.cdRetries) (v := m.cdRecent.length)
      (onlyEntries_put (k := Ob.cdFault) (v := code) (onlyEntries_refl _ m) (by decide)) (by decide)) rfl
  have fault : A.get Ob.cdFault = code := by
    subst hA; exact ((only_modCd _ _).get (by decide) _).trans ((get_put_other _ (by decide)).trans (get_put_same _))
  have retries : A.get Ob.cdRetries = m.cdRecent.length := by
    subst hA; exact ((only_modCd _ _).get (by decide) _).trans (get_put_same _)
  have cd : A.cd.duty = 0 ∧ A.cd.faultPs = m.now ∧ A.cd.waiting = again := by subst hA; exact ⟨rfl, rfl, rfl⟩
  clear hA
  obtain ⟨duty, faultPs, waiting⟩ := cd
  have stands : A.cdRuns = false := by unfold Mod.cdRuns; simp [fault, hc]
  obtain ⟨shown, keys, -, -⟩ := cdShow_laws A
  obtain ⟨state, drives, -⟩ := cdShow_shows A
  rw [fault, if_pos hc, waiting] at state
  rw [stands, duty] at drives
  refine ⟨only.trans shown, (entries.mono (by decide)).trans (keys.mono (by decide)), (keys _ (by decide)).trans fault,
    (keys _ (by decide)).trans retries, state, ?_, ?_, ?_, ?_⟩ <;> rw [drives]
  · rfl
  · rfl
  · exact faultPs
  · exact waiting

theorem cdFaultDue_nonzero {code p : Nat} {m : Mod} (h : m.cdFaultDue code = some p) : code ≠ 0 := by
  rintro rfl
  exact absurd h (by unfold Mod.cdFaultDue; simp)

/-- A fault of the stage: what is done of it, with a retry left or with none. -/
theorem cdFaulted_eq {code p : Nat} {m : Mod} (h0 : m.get Ob.cdFault = 0) (hd : m.cdFaultDue code = some p) :
    let again := decide ((m.reach p).cdRecent.length < m.get Ob.cdRetryMax)
    let M := ((m.reach p).cdTrips code again).cdShow.raise 122 sevFault code code
    m.cdFaulted code = if again then M
      else (M.putBit Ob.derateRequest 1 true).raise 123 sevFault 0x5818 (m.reach p).cdRecent.length := by
  unfold Mod.cdFaulted
  simp only [hd, h0, ne_eq, not_true_eq_false, if_false]
  simp only [decide_eq_true_eq]
  rfl

theorem cdFaulted_laws {code p : Nat} {m : Mod} (h0 : m.get Ob.cdFault = 0) (hd : m.cdFaultDue code = some p) :
    (m.cdFaulted code).get Ob.cdFault = code ∧ (m.cdFaulted code).cd.phases = none ∧ (m.cdFaulted code).cd.duty = 0
    ∧ 122 ∈ (m.cdFaulted code).seenEv ∧ (m.cdFaulted code).now = max m.now p ∧ (m.cdFaulted code).cd.faultPs = (m.cdFaulted code).now
    ∧ (m.cdFaulted code).get Ob.cdRetries = (m.reach p).cdRecent.length
    ∧ ((m.reach p).cdRecent.length < m.get Ob.cdRetryMax → (m.cdFaulted code).cd.waiting = true ∧ (m.cdFaulted code).get Ob.cdState = 2)
    ∧ (m.get Ob.cdRetryMax ≤ (m.reach p).cdRecent.length → (m.cdFaulted code).cd.waiting = false ∧ (m.cdFaulted code).get Ob.cdState = 3
        ∧ 123 ∈ (m.cdFaulted code).seenEv ∧ bit ((m.cdFaulted code).get Ob.derateRequest) 1 = true)
    ∧ Only ([.clk, .obj, .cd] ++ evParts) m (m.cdFaulted code)
    ∧ OnlyEntries [Ob.cdFault, Ob.cdRetries, Ob.cdState, Ob.derateRequest] m (m.cdFaulted code) := by
  rw [cdFaulted_eq h0 hd]
  generalize hr : (m.reach p).cdRecent.length = r
  generalize ha : decide (r < m.get Ob.cdRetryMax) = again
  obtain ⟨only, entries, fault, retries, state, phases, duty, faultPs, waiting⟩ := cdTrips_laws code again (m.reach p) (cdFaultDue_nonzero hd)
  generalize ((m.reach p).cdTrips code again).cdShow = B at *
  rw [hr] at retries
  have only : Only [.clk, .obj, .cd] m B := ((Only.refl _ m).oReach (by decide)).trans (only.mono (by decide))
  have entries : OnlyEntries [Ob.cdFault, Ob.cdRetries, Ob.cdState, Ob.derateRequest] m B :=
    (onlyEntries_obj (onlyEntries_refl _ m) rfl).trans (entries.mono (by decide))
  have now : B.now = max m.now p := by rw [show B.now = (m.reach p).now from Only.now ‹Only [.obj, .cd] _ B› (by decide)]; rfl
  clear hr hd
  generalize hM : (if again = true then _ else _) = M
  have goes : Only ([.obj] ++ evParts) B M ∧ OnlyEntries [Ob.derateRequest] B M ∧ 122 ∈ M.seenEv
      ∧ (again = false → 123 ∈ M.seenEv ∧ bit (M.get Ob.derateRequest) 1 = true) := by
    have fault : Only ([.obj] ++ evParts) B (B.raise 122 sevFault code code) := (Only.refl _ B).oraise _ _ _ _ (List.subset_append_right _ _)
    have same : OnlyEntries [Ob.derateRequest] B (B.raise 122 sevFault code code) := (onlyEntries_refl _ B).raise _ _ _ _
    subst hM
    cases again with
    | true => exact ⟨fault, same, seen_raised _ _ _ _ _, fun h => absurd h (by decide)⟩
    | false =>
      refine ⟨(fault.oputB (by decide)).oraise _ _ _ _ (List.subset_append_right _ _), (same.oputB (by decide)).raise _ _ _ _,
        (SeenGrows.raise _ _ _ _ _).mem (seen_raised B _ _ _ _), fun _ => ⟨seen_raised _ _ _ _ _, ?_⟩⟩
      exact (congrArg (bit · 1) ((get_raised _ _ _ _ _ _).trans (get_put_same _))).trans (bit_setBit _ _ _)
  clear hM
  obtain ⟨goes, keys, seen, lost⟩ := goes
  have cd : M.cd = B.cd := goes .cd (by decide)
  have now' : M.now = max m.now p := (goes.now (by decide)).trans now
  have state' : M.get Ob.cdState = if again then 2 else 3 := (keys _ (by decide)).trans state
  rw [cd, now', faultPs]
  refine ⟨(keys _ (by decide)).trans fault, phases, duty, seen, rfl, rfl, (keys _ (by decide)).trans retries, fun h => ?_, fun h => ?_,
    (only.mono (by decide)).trans (goes.mono (by decide)), entries.trans (keys.mono (by decide))⟩
  · obtain rfl : again = true := ha ▸ decide_eq_true h
    exact ⟨waiting, state'⟩
  · obtain rfl : again = false := ha ▸ decide_eq_false (by omega)
    exact ⟨waiting, state', lost rfl⟩

theorem cdRefreshes_eq {p : Nat} {m : Mod} (h : m.cd.heldPs = some p) :
    m.cdRefreshes = (m.reach (p + msPs 1)).modCd (fun c => { c with
      refresh := c.refresh + 1
      heldPs := some ((m.reach (p + msPs 1)).now + 1000 * (m.get Ob.cdRefresh + 2 * m.get Ob.cdDt)) }) := by
  unfold Mod.cdRefreshes
  rw [h]
  rfl

/-- A low of CD_EN that clears. -/
theorem cdCleared_laws (byPin : Bool) (m : Mod) :
    let M := if byPin then m.cdClears.cdAllowance else m.cdClears
    Only [.obj, .cd] m M ∧ OnlyEntries [Ob.cdFault, Ob.cdRetries, Ob.cdState, Ob.derateRequest] m M ∧ M.get Ob.cdFault = 0
    ∧ M.cd.waiting = false
    ∧ (byPin = true → M.cd.retries = [] ∧ M.get Ob.cdRetries = 0 ∧ bit (M.get Ob.derateRequest) 1 = false) := by
  cases byPin with
  | false =>
    obtain ⟨only, entries, fault, waiting, -⟩ := cdClears_laws m
    exact ⟨only, entries.mono (by decide), fault, waiting, fun h => absurd h (by decide)⟩
  | true =>
    obtain ⟨only, entries, fault, retries, none, waiting⟩ := cdFaultClear_laws m
    refine ⟨only, entries.mono (by decide), fault, waiting, fun _ => ⟨none, retries, ?_⟩⟩
    exact (congrArg (bit · 1) (get_put_same _)).trans (bit_setBit _ _ _)

/-- A low of CD_EN between the two limits. -/
theorem cdLow_between (byPin : Bool) {ns : Nat} {m : Mod} (h8 : 8000 ≤ ns) (h10 : ns < 10000) :
    m.cdLow byPin ns = (let X := { m with free := m.free + 1 }
      if Config.cdLowClears m.free = true then (if byPin then X.cdClears.cdAllowance else X.cdClears) else X) := by
  unfold Mod.cdLow
  simp [h8, h10, show ¬ 10000 ≤ ns by omega]

theorem cdRetry_laws {m : Mod} (hw : m.cd.waiting = true) :
    let q := m.cd.faultPs + msPs (m.get Ob.cdRetryDelay) + 20000000
    m.cdRetry.get Ob.cdFault = 0 ∧ m.cdRetry.cd.waiting = false ∧ m.cdRetry.now = max m.now q
    ∧ m.cdRetry.get Ob.cdRetries = (m.reach q).cdRecent.length + 1 ∧ Only [.clk, .obj, .cd] m m.cdRetry
    ∧ OnlyEntries [Ob.cdFault, Ob.cdRetries, Ob.cdState] m m.cdRetry := by
  unfold Mod.cdRetry
  rw [if_pos hw]
  generalize m.cd.faultPs + msPs (m.get Ob.cdRetryDelay) + 20000000 = q
  dsimp only
  generalize hA : Mod.put Ob.cdRetries _ _ = A
  have only : Only [.clk, .obj, .cd] m A := by
    subst hA; exact (((Only.refl _ m).oReach (by decide)).to (only_modCd _ _) (by decide)).oput (by decide)
  have entries : OnlyEntries [Ob.cdRetries] m A := by
    subst hA; exact onlyEntries_put (onlyEntries_obj (onlyEntries_refl _ m) rfl) (by decide)
  have now : A.now = max m.now q := by subst hA; rfl
  have retries : A.get Ob.cdRetries = (m.reach q).cdRecent.length + 1 := by subst hA; rw [get_put_same, List.length_append]; rfl
  clear hA
  obtain ⟨clears, keys, fault, waiting, -⟩ := cdClears_laws A
  exact ⟨fault, waiting, (clears.now (by decide)).trans now, (keys _ (by decide)).trans retries, only.trans (clears.mono (by decide)),
    (entries.mono (by decide)).trans (keys.mono (by decide))⟩

/-- The duty of the drive: off while it does not run, CD_DUTY by hand. -/
theorem cdDrive_laws (rpm : Nat) (m : Mod) :
    Only [.cd, .free] m (m.cdDrive rpm) ∧ (m.cdDrive rpm).cd.busGood = m.cd.busGood ∧ (m.cdDrive rpm).cd.goodPs = m.cd.goodPs
    ∧ (m.cdDrive rpm).cdRuns = m.cdRuns ∧ (m.cdRuns = true → m.get Ob.cdMode = 0 → (m.cdDrive rpm).cd.duty = (m.get Ob.cdDuty : Rat) / 100)
    ∧ (m.cdRuns = false → (m.cdDrive rpm).cd.duty = 0) := by
  unfold Mod.cdDrive
  dsimp only
  split
  next stands =>
    have stands : m.cdRuns = false := by simpa using stands
    exact ⟨(only_modCd _ _).mono (by decide), rfl, rfl, rfl, fun h => absurd h (by simp [stands]), fun _ => rfl⟩
  next runs =>
    have runs : m.cdRuns = true := by simpa using runs
    split
    next byHand =>
      exact ⟨(only_modCd _ _).mono (by decide), rfl, rfl, rfl, fun _ _ => rfl, fun h => absurd h (by simp [runs])⟩
    next bySpeed =>
      have target : Only [.free] m m.cdTarget.1 := by
        unfold Mod.cdTarget
        split
        · exact Only.refl _ _
        · dsimp only
          split
          · intro p hp; cases p <;> first | (exact absurd (by decide) hp) | rfl
          · exact Only.refl _ _
      have cd : m.cdTarget.1.cd = m.cd := target .cd (by decide)
      refine ⟨(target.mono (by decide)).to (only_modCd _ _) (by decide), (show m.cdTarget.1.cd.busGood = _ by rw [cd]),
        (show m.cdTarget.1.cd.goodPs = _ by rw [cd]), ?_,
        fun _ h => absurd h bySpeed, fun h => absurd h (by simp [runs])⟩
      show (m.cdTarget.1.cd.enable && m.cdTarget.1.cd.busGood && _) = _
      rw [cd, (only_modCd _ _).get (by decide), target.get (by decide)]
      rfl

theorem cdSpeedUpdate_laws {rpm ma cv : Nat} (m : Mod) (hr : rpm ≤ 65535) (hm : ma ≤ 65535) (hv : cv ≤ 65535) :
    let M := m.cdSpeedUpdate rpm ma cv
    M.get Ob.cdSpeed = rpm ∧ M.get Ob.cdCurrent = ma ∧ M.get Ob.cdVbus = cv ∧ M.now = max m.now (m.cd.updPs + msPs 10)
    ∧ M.cd.busGood = (m.cd.bus M.now cv).busGood ∧ M.cd.goodPs = (m.cd.bus M.now cv).goodPs
    ∧ (M.cdRuns = true → m.get Ob.cdMode = 0 → M.cd.duty = (m.get Ob.cdDuty : Rat) / 100) ∧ (M.cdRuns = false → M.cd.duty = 0)
    ∧ Only [.clk, .obj, .cd, .free] m M ∧ OnlyEntries [Ob.cdSpeed, Ob.cdCurrent, Ob.cdVbus, Ob.cdState] m M := by
  dsimp only
  unfold Mod.cdSpeedUpdate
  generalize m.cd.updPs + msPs 10 = q
  dsimp only
  rw [show satAt 65535 rpm = rpm from Nat.min_eq_left hr, show satAt 65535 ma = ma from Nat.min_eq_left hm,
    show satAt 65535 cv = cv from Nat.min_eq_left hv]
  generalize hA : Mod.modCd _ (Mod.put Ob.cdVbus cv _) = A
  have only : Only [.clk, .obj, .cd] m A := by
    subst hA
    exact (((((Only.refl _ m).oReach (by decide)).oput (by decide)).oput (by decide)).oput (by decide)).to (only_modCd _ _) (by decide)
  have entries : OnlyEntries [Ob.cdSpeed, Ob.cdCurrent, Ob.cdVbus] m A := by
    subst hA
    exact onlyEntries_obj (onlyEntries_put (k := Ob.cdVbus) (v := cv) (onlyEntries_put (k := Ob.cdCurrent) (v := ma)
      (onlyEntries_put (k := Ob.cdSpeed) (v := rpm) (onlyEntries_obj (c := m.reach q) (onlyEntries_refl _ m) rfl) (by decide)) (by decide))
      (by decide)) rfl
  have speed : A.get Ob.cdSpeed = rpm := by
    subst hA; rw [(only_modCd _ _).get (by decide), get_put_other _ (by decide), get_put_other _ (by decide), get_put_same]
  have current : A.get Ob.cdCurrent = ma := by subst hA; rw [(only_modCd _ _).get (by decide), get_put_other _ (by decide), get_put_same]
  have vbus : A.get Ob.cdVbus = cv := by subst hA; rw [(only_modCd _ _).get (by decide), get_put_same]
  have now : A.now = max m.now q := by subst hA; rfl
  have good : A.cd.busGood = (m.cd.bus A.now cv).busGood ∧ A.cd.goodPs = (m.cd.bus A.now cv).goodPs := by subst hA; exact ⟨rfl, rfl⟩
  clear hA
  obtain ⟨shows, state, -, -⟩ := cdShow_laws A
  obtain ⟨-, shown, -⟩ := cdShow_shows A
  have good' : A.cdShow.cd.busGood = A.cd.busGood ∧ A.cdShow.cd.goodPs = A.cd.goodPs := by rw [shown]; exact ⟨rfl, rfl⟩
  generalize A.cdShow = B at shows state good'
  obtain ⟨drives, bus, goodPs, runs, byHand, off⟩ := cdDrive_laws rpm B
  generalize B.cdDrive rpm = C at drives bus goodPs runs byHand off
  have keys : OnlyEntries [Ob.cdSpeed, Ob.cdCurrent, Ob.cdVbus, Ob.cdState] m B := (entries.mono (by decide)).trans (state.mono (by decide))
  have nowC : C.now = A.now := (drives.now (by decide)).trans (shows.now (by decide))
  have through : ∀ k, k ≠ Ob.cdState → C.get k = A.get k := fun k hk => (drives.get (by decide) k).trans (state k (by simpa using hk))
  rw [nowC, bus, goodPs, runs, good'.1, good'.2]
  refine ⟨(through _ (by decide)).trans speed, (through _ (by decide)).trans current, (through _ (by decide)).trans vbus, now, good.1, good.2,
    fun hR hM => ?_, off, (only.mono (by decide)).trans ((shows.mono (by decide)).trans (drives.mono (by decide))),
    keys.trans (drives.onlyEntries (by decide) _)⟩
  rw [byHand hR ((keys _ (by decide)).trans hM), keys Ob.cdDuty (by decide)]

/-- The drive after a Hall edge: the phases by the new code. -/
theorem hallEdge_laws {h : Nat} (m : Mod) (hh : h < 8) :
    (m.hallEdge h).get Ob.cdHall = h ∧ (m.hallEdge h).cd.hallPs = m.now
    ∧ (m.hallEdge h).cd.phases = (if m.cdRuns then hallPhases h (m.get Ob.cdDir) else none)
    ∧ Only [.obj, .cd] m (m.hallEdge h) ∧ OnlyEntries [Ob.cdHall, Ob.cdState] m (m.hallEdge h) := by
  unfold Mod.hallEdge
  rw [Nat.mod_eq_of_lt hh]
  generalize hA : Mod.modCd _ _ = A
  have only : Only [.obj, .cd] m A := by subst hA; exact ((Only.refl _ m).oput (by decide)).to (only_modCd _ _) (by decide)
  have entries : OnlyEntries [Ob.cdHall] m A := by
    subst hA; exact onlyEntries_obj (onlyEntries_put (k := Ob.cdHall) (v := h) (onlyEntries_refl _ m) (by decide)) rfl
  have hall : A.get Ob.cdHall = h := by subst hA; exact ((only_modCd _ _).get (by decide) _).trans (get_put_same _)
  have cd : A.cd = { m.cd with hallPs := m.now } := by subst hA; rfl
  clear hA
  have runs : A.cdRuns = m.cdRuns := by unfold Mod.cdRuns; rw [cd, entries Ob.cdFault (by decide)]
  obtain ⟨shows, state, -, -⟩ := cdShow_laws A
  obtain ⟨-, shown, -⟩ := cdShow_shows A
  rw [runs, hall, entries Ob.cdDir (by decide)] at shown
  rw [shown, cd]
  exact ⟨(state _ (by decide)).trans hall, rfl, rfl, only.trans shows, (entries.mono (by decide)).trans (state.mono (by decide))⟩

/-- The table of R426. -/
theorem hallPhases_table {h hi lo : Nat} (dir : Nat) (ht : (h, hi, lo) ∈ [(4, 0, 1), (6, 0, 2), (2, 1, 2), (3, 1, 0), (1, 2, 0), (5, 2, 1)]) :
    h < 8 ∧ hallPhases h dir = if dir = 1 then some (lo, hi) else some (hi, lo) := by
  simp only [List.mem_cons, Prod.mk.injEq, List.not_mem_nil, or_false] at ht
  rcases ht with ⟨rfl, rfl, rfl⟩ | ⟨rfl, rfl, rfl⟩ | ⟨rfl, rfl, rfl⟩ | ⟨rfl, rfl, rfl⟩ | ⟨rfl, rfl, rfl⟩ | ⟨rfl, rfl, rfl⟩ <;>
    exact ⟨by decide, rfl⟩

theorem hallPhases_invalid {h : Nat} (dir : Nat) (hh : h = 0 ∨ h = 7) : hallPhases h dir = none := by
  rcases hh with rfl | rfl <;> exact ite_self none

/-- Settles O53. The instant of the first throttle step is log entry 71, retries used up are decided at the fault (log entry 72), and what
a low of CD_EN between 8 µs and 10 µs does is free (log entry 117). -/
theorem thermalAndCoolingAct : Obligations.ThermalAndCoolingAct := by
  unfold Obligations.ThermalAndCoolingAct
  intro s code ns rpm ma cv h hi lo p byPin
  refine ⟨fun hl hn hp => ?rises, fun hl hn hp => ?falls, fun hs hd hg => ?grace, fun h0 hd => ?fault, fun hd => ?noFault, fun hh => ?refresh,
    fun hn => ?low, fun h8 h10 => ?between, fun hn => ?short, fun hw => ?retry, fun hr hm hv => ?speed, fun hr ht => ?hall, fun hh => ?invalid⟩
  case rises =>
    refine does_onMod rfl (throttleTimer_rises hl hn hp) ?_
    generalize p + sPs 1 = q
    obtain ⟨only, entries, step, state, therm, now⟩ := throttled_laws q (fun t => { t with throtPs := some (max s.m.now q) })
      (s.m.get Ob.throttleStep + 1) s.m
    generalize Mod.put Ob.throttleStep _ _ = A at *
    obtain ⟨goes, keys, tells, quiet⟩ := thermEvent_laws only entries (by decide) (by decide) (s.m.get Ob.thermalState)
    rw [step, state] at tells
    rw [quiet.get (by decide), quiet.now (by decide), show (A.thermEvent _).therm = _ from quiet .therm (by decide), therm, now]
    exact ⟨step, tells, rfl, rfl, goes, keys⟩
  case falls =>
    refine does_onMod rfl (throttleTimer_falls hl hn hp) ?_
    generalize p + sPs 10 = q
    obtain ⟨only, entries, step, state, therm, now⟩ := throttled_laws q (fun t => { t with throtPs := some (max s.m.now q) })
      (s.m.get Ob.throttleStep - 1) s.m
    generalize Mod.put Ob.throttleStep _ _ = A at *
    obtain ⟨goes, keys, tells, quiet⟩ := thermEvent_laws only entries (by decide) (by decide) (s.m.get Ob.thermalState)
    rw [step, state] at tells
    rw [quiet.get (by decide), quiet.now (by decide), show (A.thermEvent _).therm = _ from quiet .therm (by decide), therm, now]
    exact ⟨step, tells, rfl, rfl, goes, keys⟩
  case grace =>
    refine does_onMod rfl (graceEnds_enforces hs hd hg) ?_
    generalize hA : Mod.put Ob.thermalState _ _ = A
    have only : Only [.clk, .obj, .therm] s.m A := by
      subst hA; exact (((Only.refl _ s.m).oReach (by decide)).to (only_modTherm _ _) (by decide)).oput (by decide)
    have entries : OnlyEntries [Ob.thermalState] s.m A := by
      subst hA; exact onlyEntries_put (onlyEntries_obj (onlyEntries_refl _ s.m) rfl) (by decide)
    have state : A.get Ob.thermalState = 3 := by subst hA; exact get_put_same _
    have therm : A.therm.starts = true ∧ A.therm.gracePs = none := by subst hA; exact ⟨rfl, rfl⟩
    have now : A.now = max s.m.now p := by subst hA; rfl
    clear hA
    obtain ⟨goes, keys, tells, quiet⟩ := thermEvent_laws only entries (by decide) (by decide) 2
    rw [state, entries Ob.throttleStep (by decide)] at tells
    rw [quiet.get (by decide), quiet.now (by decide), show (A.thermEvent _).therm = _ from quiet .therm (by decide)]
    exact ⟨state, therm.1, therm.2, tells, now, goes, keys⟩
  case fault => exact does_onMod rfl rfl (cdFaulted_laws h0 hd)
  case noFault => exact does_onMod rfl (by unfold Mod.cdFaulted; rw [hd]) rfl
  case refresh =>
    refine does_onMod rfl (cdRefreshes_eq hh) ?_
    generalize p + msPs 1 = q
    exact ⟨rfl, rfl, rfl, ((Only.refl _ s.m).oReach (by decide)).to (only_modCd _ _) (by decide)⟩
  case low =>
    obtain ⟨only, entries, fault, waiting, allowance⟩ := cdCleared_laws byPin s.m
    refine does_onMod rfl ?_ ⟨fault, waiting, allowance, only, entries⟩
    unfold Mod.cdLow
    simp only [decide_eq_true hn, Bool.true_or, if_true, decide_eq_false (show ¬ ns < 10000 by omega), Bool.and_false, Bool.false_eq_true, if_false]
  case between =>
    refine does_onMod rfl (cdLow_between byPin h8 h10) ?_
    have counts : Only [.free] s.m { s.m with free := s.m.free + 1 } := by
      intro p hp; cases p <;> first | (exact absurd (by decide) hp) | rfl
    generalize hX : ({ s.m with free := s.m.free + 1 } : Mod) = X at *
    have free : X.free = s.m.free + 1 := by subst hX; rfl
    split
    next =>
      obtain ⟨only, -, fault, -⟩ := cdCleared_laws byPin X
      exact ⟨(only .free (by decide)).trans free, fault, (counts.mono (by decide)).trans (only.mono (by decide))⟩
    next => exact ⟨free, counts.get (by decide) _, counts.mono (by decide)⟩
  case short =>
    refine does_onMod rfl ?_ rfl
    unfold Mod.cdLow
    simp [show ¬ 8000 ≤ ns by omega, show ¬ 10000 ≤ ns by omega]
  case retry =>
    obtain ⟨fault, waiting, now, retries, only, entries⟩ := cdRetry_laws hw
    exact does_onMod rfl rfl ⟨fault, waiting, now, retries, only, entries⟩
  case speed => exact does_onMod rfl rfl (cdSpeedUpdate_laws s.m hr hm hv)
  case hall =>
    obtain ⟨hh, table⟩ := hallPhases_table (s.m.get Ob.cdDir) ht
    obtain ⟨hall, at', phases, only, entries⟩ := hallEdge_laws s.m hh
    rw [if_pos hr, table] at phases
    exact does_onMod rfl rfl ⟨hall, at', phases, only, entries⟩
  case invalid =>
    obtain ⟨hall, -, phases, only, -⟩ := hallEdge_laws s.m (h := h) (by omega)
    rw [hallPhases_invalid _ hh, ite_self] at phases
    exact does_onMod rfl rfl ⟨hall, phases, only⟩

end Sys2Proof.Machine
end

section
/-!
PROOFS. What a change leaves, in one bundle; and the safe stop (R304), which every chapter may bring about.
-/
namespace Sys2Proof.Machine

/-! ### Parts, entries and events of a change together -/

/-- A change touches some parts and some entries at most, and forgets no event. -/
def Within (l : List Part) (ks : List Nat) (a b : Mod) : Prop := Only l a b ∧ OnlyEntries ks a b ∧ SeenGrows a b

namespace Within

variable {l l' : List Part} {ks ks' : List Nat} {a b c : Mod}

theorem refl (l : List Part) (ks : List Nat) (a : Mod) : Within l ks a a := ⟨Only.refl _ _, onlyEntries_refl _ _, SeenGrows.refl _⟩

theorem mono (h : Within l ks a b) (hl : l ⊆ l') (hk : ks ⊆ ks') : Within l' ks' a b := ⟨h.1.mono hl, h.2.1.mono hk, h.2.2⟩

theorem trans (h : Within l ks a b) (g : Within l ks b c) : Within l ks a c :=
  ⟨h.1.trans g.1, h.2.1.trans g.2.1, h.2.2.trans g.2.2⟩

/-- A change that follows and touches no more. -/
theorem andThen (h : Within l ks a b) (g : Within l' ks' b c) (hl : l' ⊆ l) (hk : ks' ⊆ ks) : Within l ks a c := h.trans (g.mono hl hk)

/-- A change beside the entries and the events. -/
theorem of_only (g : Only l a b) (h1 : Part.obj ∉ l) (h2 : Part.seenEv ∉ l) : Within l ks a b :=
  ⟨g, g.onlyEntries h1 _, SeenGrows.of_eq (g .seenEv h2)⟩

theorem only (h : Within l ks a b) (g : Only l' b c) (hl : l' ⊆ l) (h1 : Part.obj ∉ l') (h2 : Part.seenEv ∉ l') : Within l ks a c :=
  h.trans ((of_only (ks := ks) g h1 h2).mono hl (List.Subset.refl _))

theorem put (h : Within l ks a b) (k v : Nat) (hl : Part.obj ∈ l) (hk : k ∈ ks) : Within l ks a (b.put k v) :=
  h.trans ⟨(Only.refl _ _).oput hl, onlyEntries_put (onlyEntries_refl _ _) hk, SeenGrows.of_eq (put_seenEv _ _ _)⟩

theorem raise (h : Within l ks a b) (ev sev fault arg : Nat) (hl : evParts ⊆ l) : Within l ks a (b.raise ev sev fault arg) :=
  h.trans ⟨(Only.refl _ _).oraise _ _ _ _ hl, (onlyEntries_refl _ _).raise _ _ _ _, SeenGrows.raise _ _ _ _ _⟩

theorem each (h : Within l ks a b) (ns : List Nat) (F : Nat → Mod → Mod) (hF : ∀ n ∈ ns, ∀ m, Within l ks m (F n m)) :
    Within l ks a (b.each ns F) :=
  h.trans (each_invariant (I := Within l ks b) (refl _ _ _) (fun n hn _ hx => hx.trans (hF n hn _)))

theorem get (h : Within l ks a b) {k : Nat} (hk : k ∉ ks) : b.get k = a.get k := h.2.1 k hk

theorem seen (h : Within l ks a b) {ev : Nat} (he : ev ∈ a.seenEv) : ev ∈ b.seenEv := h.2.2.mem he

end Within

/-! ### A unit goes to REST -/

theorem within_gfToRest (s fault : Nat) (m : Mod) :
    Within (.sec :: unitParts) [Ob.gfState s, Ob.rtState s, Ob.outState s] m (m.gfToRest s fault) ∧ (m.gfToRest s fault).gf s = gfRest := by
  unfold Mod.gfToRest
  generalize hA : Mod.modSec s _ m = A
  have timers : Only [.sec] m A := by subst hA; exact (Only.refl _ _).oSec (by decide)
  clear hA
  generalize (if fault = 0 then (m.secAt s).failCode else fault) = v
  obtain ⟨i1, i2, i3, -⟩ := endIdRun_laws s A
  generalize A.endIdRun s = B at i1 i2 i3
  obtain ⟨r1, r2, -, r3⟩ := rtTo_laws s 0 B
  generalize B.rtTo s 0 = C at r1 r2 r3
  have ctx := only_stopCtx s C
  generalize C.stopCtx s = D at ctx
  obtain ⟨p1, p2, -⟩ := pwmOff_laws s D
  generalize D.pwmOff s = E at p1 p2
  obtain ⟨g1, g2, state, g3⟩ := gfTo_laws s gfRest E
  generalize E.gfTo s gfRest = F at g1 g2 g3 state
  obtain ⟨e1, e2, -, e3, -⟩ := gfStartEnd_laws s true v F
  refine ⟨?_, (e2 _ (List.not_mem_nil)).trans state⟩
  exact (((((((Within.refl _ _ m).only timers (by decide) (by decide) (by decide)).andThen ⟨i1, i2, i3⟩ (by decide) (by simp)).andThen
    ⟨r1, r2, r3⟩ (by decide) (by simp)).only ctx (by decide) (by decide) (by decide)).andThen
    ⟨p1, p2, SeenGrows.of_eq (p1 .seenEv (by decide))⟩ (by decide) (by simp)).andThen ⟨g1, g2, g3⟩ (by decide) (by simp)).andThen
    ⟨e1, e2, e3⟩ (by decide) (by simp)

theorem within_dcToRest (c sev fault : Nat) (m : Mod) :
    Within (.dc :: unitParts) [Ob.dcState c, Ob.outState (4 + c)] m (m.dcToRest c sev fault) := by
  unfold Mod.dcToRest Mod.dcRested
  obtain ⟨p1, p2, -⟩ := pwmOff_laws (4 + c) m
  generalize m.pwmOff (4 + c) = A at p1 p2
  have ctx := only_stopCtx (4 + c) A
  generalize A.stopCtx (4 + c) = B at ctx
  obtain ⟨d1, d2, -, d3⟩ := dcTo_laws c dcRest sev fault B
  generalize B.dcTo c dcRest sev fault = C at d1 d2 d3
  exact ((((Within.refl _ _ m).andThen ⟨p1, p2, SeenGrows.of_eq (p1 .seenEv (by decide))⟩ (by decide) (by simp)).only ctx (by decide)
    (by decide) (by decide)).andThen ⟨d1, d2, d3⟩ (by decide) (by simp)).only ((Only.refl [.dc] C).oDc (by decide)) (by decide) (by decide)
    (by decide)

theorem within_unitToRest {g : Nat} (fault : Nat) (m : Mod) (h8 : g < 8) :
    Within (.sec :: .dc :: unitParts) (stopKeys g) m (m.unitToRest g fault) := by
  unfold Mod.unitToRest
  split
  · split
    · obtain ⟨parts, entries, -⟩ := pwmOff_laws g m
      exact ⟨parts.mono (by decide), entries.mono (by simp [stopKeys]), SeenGrows.of_eq (parts .seenEv (by decide))⟩
    · exact Within.refl _ _ _
  · split
    · exact (within_gfToRest g fault m).1.mono (by decide) (by simp [stopKeys])
    · have rests := within_dcToRest (g - 4) sevInfo 0 m
      rw [show 4 + (g - 4) = g by omega] at rests
      exact rests.mono (by decide) (by simp [stopKeys])

/-! ### A group that a trip has latched -/

/-- A group is latched with its outputs off. -/
def Mod.Tripped (m : Mod) (h : Nat) : Prop := (m.grpAt h).latched = true ∧ (m.grpAt h).on = false

theorem Mod.Tripped.of_grp {a b : Mod} {h : Nat} (t : a.Tripped h) (e : b.grp = a.grp) : b.Tripped h := by
  unfold Mod.Tripped
  rwa [grpAt_eq e]

/-- A change of a group that leaves the latch and turns nothing on. -/
theorem Mod.Tripped.modGrp {m : Mod} {h : Nat} (t : m.Tripped h) (g : Nat) {f : GrpRt → GrpRt}
    (hf : ∀ x, x.latched = true ∧ x.on = false → (f x).latched = true ∧ (f x).on = false) : (m.modGrp g f).Tripped h := by
  by_cases hl : h < m.grp.length
  · unfold Mod.Tripped Mod.grpAt Mod.modGrp
    by_cases hg : g = h
    · subst hg
      have here : (m.grp.modify g f).getD g {} = f (m.grpAt g) := grpAt_modGrp m g f hl
      rw [here]
      exact hf _ t
    · have here : (m.grp.modify g f).getD h {} = m.grpAt h := by unfold Mod.grpAt; simp [List.getD_eq_getElem?_getD, hg]
      rw [here]
      exact t
  · have none : m.grpAt h = {} := by unfold Mod.grpAt; simp [List.getD_eq_getElem?_getD, Nat.le_of_not_lt hl]
    exact absurd t.1 (by rw [none]; decide)

theorem Mod.Tripped.pwmOff {m : Mod} {h : Nat} (t : m.Tripped h) (g : Nat) : (m.pwmOff g).Tripped h := by
  unfold Mod.pwmOff
  refine Mod.Tripped.of_grp ?_ (only_showOut g _ .grp (by decide))
  exact t.modGrp g (fun _ hx => ⟨hx.1, rfl⟩)

theorem Mod.Tripped.unitToRest {m : Mod} {h : Nat} (t : m.Tripped h) (g fault : Nat) : (m.unitToRest g fault).Tripped h := by
  unfold Mod.unitToRest
  split
  · split
    · exact t.pwmOff g
    · exact t
  · split
    · unfold Mod.gfToRest
      generalize hA : Mod.modSec g _ m = A
      have a : A.grp = m.grp := by subst hA; rfl
      have b : (A.endIdRun g).grp = A.grp := (endIdRun_laws g A).1 .grp (by decide)
      generalize A.endIdRun g = B at b
      have c : (B.rtTo g 0).grp = B.grp := (rtTo_laws g 0 B).1 .grp (by decide)
      generalize B.rtTo g 0 = C at c
      have d : (C.stopCtx g).grp = C.grp := only_stopCtx g C .grp (by decide)
      generalize C.stopCtx g = D at d
      have tD : (D.pwmOff g).Tripped h := (t.of_grp (d.trans (c.trans (b.trans a)))).pwmOff g
      have e : ((D.pwmOff g).gfTo g gfRest).grp = (D.pwmOff g).grp := (gfTo_laws g gfRest _).1 .grp (by decide)
      exact (tD.of_grp e).of_grp ((gfStartEnd_laws g true _ _).1 .grp (by decide))
    · unfold Mod.dcToRest Mod.dcRested
      have tB : ((m.pwmOff (4 + (g - 4))).stopCtx (4 + (g - 4))).Tripped h :=
        (t.pwmOff _).of_grp (only_stopCtx _ _ .grp (by decide))
      generalize (m.pwmOff (4 + (g - 4))).stopCtx (4 + (g - 4)) = B at tB
      have rests : (B.dcTo (g - 4) dcRest sevInfo 0).grp = B.grp := (dcTo_laws (g - 4) dcRest sevInfo 0 B).1 .grp (by decide)
      generalize B.dcTo (g - 4) dcRest sevInfo 0 = C at rests
      exact tB.of_grp (((Only.refl [.dc] C).oDc (by decide) .grp (by decide)).trans rests)

/-! ### The safe stop (R304) -/

/-- What a safe stop touches beside the entries. -/
def safeStopParts : List Part := [.obj, .sto, .grp, .sec, .dc, .eng, .fld, .prot, .sdc] ++ evParts

/-- The entries that a safe stop writes. -/
def safeStopKeys : List Nat :=
  [Ob.fieldOutState, Ob.moduleState, Ob.safeStopCause, Ob.recordCount, Ob.lastFault]
    ++ (List.range 8).flatMap (fun g => tripKeys g ++ stopKeys g)

theorem unitKeys_sub (g : Nat) (h8 : g < 8) : tripKeys g ⊆ safeStopKeys ∧ stopKeys g ⊆ safeStopKeys := by
  have here : tripKeys g ++ stopKeys g ⊆ safeStopKeys :=
    fun _ hk => List.mem_append_right _ (List.mem_flatMap.2 ⟨g, List.mem_range.2 h8, hk⟩)
  exact ⟨fun _ hk => here (List.mem_append_left _ hk), fun _ hk => here (List.mem_append_right _ hk)⟩

theorem seen_tripGroup (src g : Nat) (m : Mod) : SeenGrows m (m.tripGroup src g) :=
  SeenGrows.of_eq (only_tripGroup src g m .seenEv (by decide))

theorem within_driveOutputs (m : Mod) : Within [.fld, .obj] [Ob.fieldOutState] m m.driveOutputs := by
  unfold Mod.driveOutputs
  refine (Within.refl _ _ m).each _ _ (fun n _ x => ?_)
  unfold Mod.driveOutput Mod.putBit
  dsimp only
  refine Within.put ?_ _ _ (by decide) (by decide)
  refine ⟨?_, onlyEntries_obj (onlyEntries_refl _ x) rfl, SeenGrows.of_eq rfl⟩
  intro p hp
  cases p <;> first | (exact absurd (by decide) hp) | rfl

theorem within_dropRequests (m : Mod) : Within [.sec] [] m m.dropRequests := by
  unfold Mod.dropRequests
  split
  · exact Within.refl _ _ m
  · exact (Within.refl _ _ m).each _ _ (fun n _ x => Within.of_only ((Only.refl [.sec] x).oSec (by decide)) (by decide) (by decide))

theorem within_moduleRecord (fault : Nat) (m : Mod) : Within [.obj, .sto, .prot] [Ob.recordCount, Ob.lastFault] m (m.moduleRecord fault) := by
  unfold Mod.moduleRecord
  generalize FaultRec.mk .. = record
  obtain ⟨parts, entries, -⟩ := writeRecord_laws record m
  exact ⟨parts, entries, SeenGrows.of_eq (parts .seenEv (by decide))⟩

/-- The units of a safe stop: the groups in use tripped, then their units at rest. -/
def Mod.stopUnits (m : Mod) : Mod := (m.each m.groupsInUse (Mod.tripGroup 0)).each m.groupsInUse (Mod.unitToRest · 0x440C)

theorem within_stopUnits (m : Mod) : Within safeStopParts safeStopKeys m m.stopUnits := by
  have h8 : ∀ g ∈ m.groupsInUse, g < 8 := fun g hg => (mem_groupsInUse.1 hg).1
  unfold Mod.stopUnits
  refine ((Within.refl _ _ m).each _ _ (fun g hg x => ?_)).each _ _ (fun g hg x => ?_)
  · exact Within.mono ⟨only_tripGroup 0 g x, entries_tripGroup 0 g x, seen_tripGroup 0 g x⟩ (by decide) (unitKeys_sub g (h8 g hg)).1
  · exact (within_unitToRest 0x440C x (h8 g hg)).mono (by decide) (unitKeys_sub g (h8 g hg)).2

theorem tripped_stopUnits {m : Mod} (hl : m.grp.length = 8) {g : Nat} (h8 : g < 8) (hi : m.inUse g = true) : m.stopUnits.Tripped g := by
  unfold Mod.stopUnits
  refine each_invariant (I := (Mod.Tripped · g)) ?_ (fun n _ x hx => hx.unitToRest n _)
  exact (each_trips 0 _ m (fun n hn => (mem_groupsInUse.1 hn).1) g h8 (by omega)).1 (mem_groupsInUse.2 ⟨h8, hi⟩) hi

/-- A safe stop, whether it is the first or not. -/
theorem within_safeStop (cause : Nat) (m : Mod) : Within safeStopParts safeStopKeys m (m.safeStop cause) := by
  unfold Mod.safeStop
  split
  · exact Within.refl _ _ m
  · have units := within_stopUnits m
    have drop := within_dropRequests m.stopUnits
    show Within safeStopParts safeStopKeys m (Mod.raise 63 sevStop 0x440C cause (Mod.moduleRecord 0x440C (Mod.put Ob.safeStopCause cause
      (Mod.put Ob.moduleState 4 (Mod.driveOutputs { m.stopUnits.dropRequests with
        prot := { m.stopUnits.dropRequests.prot with safeStop := true }
        sdc := { m.stopUnits.dropRequests.sdc with laneDemand := true } })))))
    generalize m.stopUnits = A at units drop
    generalize A.dropRequests = B at drop
    have marks : Only [.prot, .sdc] B { B with prot := { B.prot with safeStop := true }, sdc := { B.sdc with laneDemand := true } } := by
      intro p hp; cases p <;> first | (exact absurd (by decide) hp) | rfl
    generalize ({ B with prot := { B.prot with safeStop := true }, sdc := { B.sdc with laneDemand := true } } : Mod) = C at marks
    refine ((((((units.andThen drop (by decide) (by simp)).only marks (by decide) (by decide) (by decide)).andThen (within_driveOutputs C)
      (by decide) (by decide)).put _ _ (by decide) (by decide)).put _ _ (by decide) (by decide)).andThen
      (within_moduleRecord 0x440C _) (by decide) (by decide)).raise _ _ _ _ (by decide)

/-- The first safe stop: every group in use trips, and the module shows why it stopped. -/
theorem safeStop_stops {cause : Nat} {m : Mod} (hs : m.prot.safeStop = false) (hl : m.grp.length = 8) :
    (m.safeStop cause).prot.safeStop = true ∧ (m.safeStop cause).get Ob.moduleState = 4 ∧ (m.safeStop cause).get Ob.safeStopCause = cause
    ∧ 63 ∈ (m.safeStop cause).seenEv ∧ ∀ g, g < 8 → m.inUse g = true → (m.safeStop cause).Tripped g := by
  have eq : m.safeStop cause = Mod.raise 63 sevStop 0x440C cause (Mod.moduleRecord 0x440C (Mod.put Ob.safeStopCause cause
      (Mod.put Ob.moduleState 4 (Mod.driveOutputs { m.stopUnits.dropRequests with
        prot := { m.stopUnits.dropRequests.prot with safeStop := true }
        sdc := { m.stopUnits.dropRequests.sdc with laneDemand := true } })))) := by
    unfold Mod.safeStop
    exact if_neg (by simp [hs])
  rw [eq]
  have tripped := fun g h8 hi => tripped_stopUnits hl (g := g) h8 hi
  generalize m.stopUnits = A at tripped
  have drop := (within_dropRequests A).1 .grp (by decide)
  generalize A.dropRequests = B at drop
  generalize hC : ({ B with prot := { B.prot with safeStop := true }, sdc := { B.sdc with laneDemand := true } } : Mod) = C
  have stop : C.prot.safeStop = true := by subst hC; rfl
  have grp : C.grp = B.grp := by subst hC; rfl
  clear hC
  obtain ⟨outs, -⟩ := within_driveOutputs C
  generalize C.driveOutputs = D at outs
  generalize hE : Mod.put Ob.safeStopCause cause _ = E
  have state : E.get Ob.moduleState = 4 := by subst hE; rw [get_put_other _ (by decide), get_put_same]
  have why : E.get Ob.safeStopCause = cause := by subst hE; exact get_put_same _
  have parts : Only [.obj] D E := by subst hE; exact ((Only.refl _ _).oput (by decide)).oput (by decide)
  clear hE
  unfold Mod.moduleRecord
  generalize FaultRec.mk .. = record
  obtain ⟨wParts, wKeys, -, log, prot⟩ := writeRecord_laws record E
  refine ⟨?_, ?_, ?_, seen_raised _ _ _ _ _, fun g h8 hi => ?_⟩
  · rw [show (Mod.raise _ _ _ _ _).prot = _ from raise_part _ _ _ _ _ .prot (by decide), prot]
    show E.prot.safeStop = true
    rw [show E.prot = D.prot from parts .prot (by decide), show D.prot = C.prot from outs .prot (by decide)]
    exact stop
  · rw [get_raised, wKeys _ (by decide), state]
  · rw [get_raised, wKeys _ (by decide), why]
  · refine (tripped g h8 hi).of_grp ?_
    rw [show (Mod.raise _ _ _ _ _).grp = _ from raise_part _ _ _ _ _ .grp (by decide), show (E.writeRecord record).grp = E.grp from wParts .grp (by decide),
      show E.grp = D.grp from parts .grp (by decide), show D.grp = C.grp from outs .grp (by decide), grp, drop]

end Sys2Proof.Machine
end

section
/-!
PROOFS. Clocks and the housekeeping converters (R438 to R447): the windows of the lock detector, the reference, a round and an
urgent conversion, and the statement on them (O54).
-/
namespace Sys2Proof.Machine

/-! ### What a round does beside the housekeeping entries -/

/-- The clock stays, no event is forgotten, and the housekeeping entries from one on keep their values. -/
structure HkLeft (lo : Nat) (a b : Mod) : Prop where
  clk  : b.clk = a.clk
  seen : SeenGrows a b
  get  : ∀ k, lo ≤ k → k < 0x5E0000 → b.get k = a.get k

namespace HkLeft

variable {lo : Nat} {a b c : Mod}

theorem refl (lo : Nat) (a : Mod) : HkLeft lo a a := ⟨rfl, SeenGrows.refl _, fun _ _ _ => rfl⟩

theorem trans (h : HkLeft lo a b) (g : HkLeft lo b c) : HkLeft lo a c :=
  ⟨g.clk.trans h.clk, h.seen.trans g.seen, fun k h1 h2 => (g.get k h1 h2).trans (h.get k h1 h2)⟩

theorem of_within {l : List Part} {ks : List Nat} (h : Within l ks a b) (hl : Part.clk ∉ l) (hk : ∀ k ∈ ks, k < lo) : HkLeft lo a b :=
  ⟨h.1 .clk hl, h.2.2, fun k h1 _ => h.2.1 k (fun hm => absurd (hk k hm) (by omega))⟩

theorem of_only {l : List Part} (h : Only l a b) (h1 : Part.clk ∉ l) (h2 : Part.obj ∉ l) (h3 : Part.seenEv ∉ l) : HkLeft lo a b :=
  of_within (Within.of_only (ks := []) h h2 h3) h1 (fun _ hk => absurd hk List.not_mem_nil)

theorem put (h : HkLeft lo a b) {k : Nat} (v : Nat) (hk : k < lo) : HkLeft lo a (b.put k v) :=
  h.trans (of_within ((Within.refl [.obj] [k] b).put k v (by decide) List.mem_cons_self) (by decide) (by simpa using hk))

theorem raise (h : HkLeft lo a b) (ev sev fault arg : Nat) : HkLeft lo a (b.raise ev sev fault arg) :=
  h.trans (of_within ((Within.refl evParts [] b).raise ev sev fault arg (List.Subset.refl _)) (by decide) (fun _ hk => absurd hk List.not_mem_nil))

theorem each (h : HkLeft lo a b) (ns : List Nat) (F : Nat → Mod → Mod) (hF : ∀ n ∈ ns, ∀ m, HkLeft lo m (F n m)) : HkLeft lo a (b.each ns F) :=
  h.trans (each_invariant (I := HkLeft lo b) (refl _ _) (fun n hn _ hx => hx.trans (hF n hn _)))

theorem now (h : HkLeft lo a b) : b.now = a.now := by unfold Mod.now; rw [h.clk]

end HkLeft

theorem only_modMeas (m : Mod) (f : MeasRt → MeasRt) : Only [.meas] m (m.modMeas f) := by
  intro p hp; cases p <;> first | (exact absurd (by decide) hp) | rfl

theorem hkLeft_therm {lo : Nat} (m : Mod) (f : ThermRt → ThermRt) : HkLeft lo m (m.modTherm f) :=
  .of_only (only_modTherm m f) (by decide) (by decide) (by decide)

theorem hkLeft_meas {lo : Nat} (m : Mod) (f : MeasRt → MeasRt) : HkLeft lo m (m.modMeas f) :=
  .of_only (only_modMeas m f) (by decide) (by decide) (by decide)

theorem hkLeft_hk {lo : Nat} (m : Mod) (f : HkRt → HkRt) : HkLeft lo m (m.modHk f) :=
  .of_only (only_modHk m f) (by decide) (by decide) (by decide)

theorem hkLeft_judgeRail (c i : Nat) (mv : Int) (m : Mod) : HkLeft 0x5D4000 m (m.judgeRail c i mv) := by
  unfold Mod.judgeRail
  dsimp only
  split
  · split
    · exact ((hkLeft_hk m _).trans (hkLeft_hk _ _)).raise _ _ _ _
    · exact hkLeft_hk m _
  · exact hkLeft_hk m _

theorem hkLeft_refDisagree (lane : Nat) (v : Int) (m : Mod) : HkLeft 0x5D4000 m (m.refDisagree lane v) := by
  unfold Mod.refDisagree
  dsimp only
  generalize hA : Mod.putS _ _ _ = A
  have shows : HkLeft 0x5D4000 m A := by
    subst hA
    exact (hkLeft_meas m _).put _ (by split <;> decide)
  split
  · exact (shows.trans (hkLeft_meas A _)).raise _ _ _ _
  · split
    · exact shows.trans (hkLeft_meas A _)
    · exact shows

theorem hkLeft_exclude {x : Nat} (st : Nat) (m : Mod) (hx : x < 16) : HkLeft 0x5D4000 m (m.exclude x st) := by
  unfold Mod.exclude
  exact (((HkLeft.refl _ m).put _ (by unfold Ob.sensorState; omega)).trans (hkLeft_therm _ _)).raise _ _ _ _

theorem hkLeft_takeTemps (ohms : List Nat) (dies : List Int) (fix : Int → Int) (m : Mod) : HkLeft 0x5D4000 m (m.takeTemps ohms dies fix) := by
  unfold Mod.takeTemps
  refine (HkLeft.refl _ m).each _ _ (fun x hx y => ?_)
  have h16 : x < 16 := List.mem_range.1 hx
  have temp : ∀ v, HkLeft 0x5D4000 y (y.putS16 (Ob.thermTemp x) v) :=
    fun v => (HkLeft.refl _ y).put _ (by unfold Ob.thermTemp; omega)
  have state : Ob.sensorState x < 0x5D4000 := by unfold Ob.sensorState; omega
  split
  · split
    · exact (HkLeft.refl _ y).put _ state
    · dsimp only
      generalize hB : (if y.sensorSt x = 4 then _ else _ : Mod) = B
      have reads : HkLeft 0x5D4000 y B := by
        subst hB
        split
        · exact (temp _).put _ state
        · exact temp _
      split
      · split
        · exact reads
        · exact reads.trans (hkLeft_exclude 2 B h16)
      · split
        · split
          · exact reads
          · exact reads.trans (hkLeft_exclude 3 B h16)
        · exact reads
  · exact temp _

theorem hkLeft_checkSensor (m0 : Mod) {x : Nat} (m : Mod) (hx : x < 16) : HkLeft 0x5D4000 m (m0.checkSensor x m) := by
  have dev : ∀ v, HkLeft 0x5D4000 m (m.putS16 (Ob.medianDev x) v) := fun v => (HkLeft.refl _ m).put _ (by unfold Ob.medianDev; omega)
  unfold Mod.checkSensor
  dsimp only
  split
  · exact HkLeft.refl _ m
  · split
    · exact HkLeft.refl _ m
    · split
      · split
        · split
          · exact (dev _).trans (hkLeft_exclude 1 _ hx)
          · exact (dev _).trans (hkLeft_therm _ _)
        · exact (dev _).trans (hkLeft_therm _ _)
      · split
        · exact dev _
        · split
          · exact (dev _).trans (hkLeft_therm _ _)
          · split
            · exact ((dev _).put _ (by unfold Ob.sensorState; omega)).trans (hkLeft_therm _ _)
            · exact (dev _).trans (hkLeft_therm _ _)

theorem hkLeft_checkSensors (m : Mod) : HkLeft 0x5D4000 m m.checkSensors :=
  (HkLeft.refl _ m).each (List.range 16) (fun x m' => m.checkSensor x m') (fun _ hx y => hkLeft_checkSensor m y (List.mem_range.1 hx))

theorem hkLeft_dieTemp (usable : Bool) (m : Mod) : HkLeft 0x5D4000 m (m.dieTemp usable) := by
  have temp : ∀ v, HkLeft 0x5D4000 m (m.putS16 Ob.dieTemp v) := fun v => (HkLeft.refl _ m).put _ (by decide)
  unfold Mod.dieTemp
  dsimp only
  generalize (if usable = true then _ else _ : List Nat) = ok
  split
  · split
    · exact temp _
    · exact ((temp _).trans (hkLeft_therm _ _)).raise _ _ _ _
  · exact ((temp _).put _ (by decide)).trans (hkLeft_therm _ _)

theorem hkLeft_thermTo (new : Nat) (m : Mod) : HkLeft 0x5D4000 m (m.thermTo new) := by
  unfold Mod.thermTo
  dsimp only
  split
  · exact HkLeft.refl _ m
  · exact ((HkLeft.refl _ m).put _ (by decide)).raise _ _ _ _

theorem hkLeft_safeStop (cause : Nat) (m : Mod) : HkLeft 0x5D4000 m (m.safeStop cause) :=
  .of_within (within_safeStop cause m) (by decide) (by decide)

theorem hkLeft_judgeThermal (m : Mod) : HkLeft 0x5D4000 m m.judgeThermal := by
  unfold Mod.judgeThermal
  dsimp only
  split
  · exact HkLeft.refl _ m
  split
  · exact (hkLeft_thermTo _ m).trans (hkLeft_safeStop _ _)
  split
  · split
    · exact HkLeft.refl _ m
    · exact ((hkLeft_therm m _).put _ (by decide)).trans (hkLeft_thermTo _ _)
  split
  · exact HkLeft.refl _ m
  split
  · unfold Mod.derateRequest
    dsimp only
    exact (((hkLeft_thermTo _ m).put _ (by decide)).trans (hkLeft_therm _ _)).raise _ _ _ _
  split
  · exact hkLeft_thermTo _ m
  split
  · exact hkLeft_thermTo _ m
  · exact HkLeft.refl _ m

theorem hkLeft_formProducts (m : Mod) : HkLeft 0x5D4000 m m.formProducts := by
  unfold Mod.formProducts
  exact (HkLeft.refl _ m).each _ _ (fun n _ x => .of_only (only_modCh x n _) (by decide) (by decide) (by decide))

/-- What the module does of the readings of a round: sensors, temperatures, levels and products; the neighbour checks pause where the
converter was in another state before. -/
def Mod.hkActs (r : HkRound) (before : Nat) (m : Mod) : Mod :=
  match m.hkActing with
  | none   => ((m.dieTemp false).judgeLevels).judgeThermal
  | some a =>
    if a = r.conv then
      let t := m.takeTemps r.ohms r.dies (m.corrected r.conv)
      let u := if before = m.get (Ob.hkState r.conv) then t.checkSensors else t
      (((u.dieTemp true).judgeLevels).judgeThermal).formProducts
    else m

theorem hkLeft_levels (m : Mod) : HkLeft 0x5D4000 m m.judgeLevels.judgeThermal :=
  HkLeft.trans (hkLeft_therm m _) (hkLeft_judgeThermal _)

theorem hkLeft_hkActs (r : HkRound) (before : Nat) (m : Mod) : HkLeft 0x5D4000 m (m.hkActs r before) := by
  unfold Mod.hkActs
  split
  · exact (hkLeft_dieTemp _ m).trans (hkLeft_levels _)
  · split
    · dsimp only
      have temps := hkLeft_takeTemps r.ohms r.dies (m.corrected r.conv) m
      generalize m.takeTemps r.ohms r.dies (m.corrected r.conv) = A at temps
      refine (HkLeft.trans ?_ ((hkLeft_dieTemp _ _).trans (hkLeft_levels _))).trans (hkLeft_formProducts _)
      split
      · exact temps.trans (hkLeft_checkSensors A)
      · exact temps
    · exact HkLeft.refl _ m

/-! ### A round -/

/-- The entry with the value of an input from a converter. -/
def hkValueKey (c i : Nat) : Nat := if c = 0 then Ob.hkValue0 i else Ob.hkValue1 i

theorem hkKeys_apart (c n i : Nat) :
    hkValueKey c n ≠ Ob.hkValid i ∧ hkValueKey c n ≠ Ob.hkTime i ∧ Ob.hkValid n ≠ Ob.hkTime i ∧ (n ≠ i → hkValueKey c n ≠ hkValueKey c i)
    ∧ (n ≠ i → Ob.hkValid n ≠ Ob.hkValid i) := by
  unfold hkValueKey Ob.hkValue0 Ob.hkValue1 Ob.hkValid Ob.hkTime
  split <;> omega

theorem putHk_laws (c i v : Nat) (m : Mod) :
    Within [.obj] [hkValueKey c i, Ob.hkValid i, Ob.hkTime i] m (m.putHk c i v) ∧ (m.putHk c i v).get (hkValueKey c i) = v
    ∧ bit ((m.putHk c i v).get (Ob.hkValid i)) c = true := by
  obtain ⟨valid, time, shown, -, -⟩ := hkKeys_apart c i i
  unfold Mod.putHk Mod.putBit
  rw [show (if c = 0 then Ob.hkValue0 i else Ob.hkValue1 i) = hkValueKey c i from rfl]
  refine ⟨(((Within.refl _ _ m).put _ _ (by decide) (by simp)).put _ _ (by decide) (by simp)).put _ _ (by decide) (by simp), ?_, ?_⟩
  · rw [get_put_other _ time, get_put_other _ valid, get_put_same]
  · rw [get_put_other _ shown, get_put_same]
    exact bit_setBit _ _ _

theorem hkLeft_putHk (c : Nat) {i : Nat} (v : Nat) (m : Mod) (hi : i < 32) : HkLeft 0x5D8000 m (m.putHk c i v) := by
  refine .of_within (putHk_laws c i v m).1 (by decide) ?_
  unfold hkValueKey Ob.hkValue0 Ob.hkValue1 Ob.hkValid Ob.hkTime
  simp only [List.mem_cons, List.not_mem_nil, or_false]
  rintro k (rfl | rfl | rfl)
  · split <;> omega
  · omega
  · omega

theorem hkLeft_putValid (c : Nat) {i : Nat} (v : Bool) (m : Mod) (hi : i < 32) : HkLeft 0x5D8000 m (m.putBit (Ob.hkValid i) c v) :=
  (HkLeft.refl _ m).put _ (by unfold Ob.hkValid; omega)

/-- The readings of a round are taken: the values, the inputs not converted, the rails and the references. -/
def Mod.hkReads (r : HkRound) (on off : List Nat) (m : Mod) : Mod :=
  (((m.each on (fun i m => m.putHk r.conv i (r.vals.getD i 0))).each off (fun i m => m.putBit (Ob.hkValid i) r.conv false)).each
    (on.filter (0x13 ≤ ·)) (fun i m => m.judgeRail r.conv i (r.rails.getD (i - 0x13) 0))).refDisagree r.conv r.disagree

theorem hkReads_laws (r : HkRound) {on off : List Nat} (m : Mod) (hon : ∀ n ∈ on, n < 32) (hoff : ∀ n ∈ off, n < 32) :
    HkLeft 0x5D8000 m (m.hkReads r on off)
    ∧ ∀ i ∈ on, i ∉ off → (m.hkReads r on off).get (hkValueKey r.conv i) = r.vals.getD i 0
        ∧ bit ((m.hkReads r on off).get (Ob.hkValid i)) r.conv = true := by
  unfold Mod.hkReads
  generalize hA : m.each on _ = A
  have left : HkLeft 0x5D8000 m A := by subst hA; exact (HkLeft.refl _ m).each _ _ (fun n hn x => hkLeft_putHk _ _ x (hon n hn))
  have shown : ∀ i ∈ on, A.get (hkValueKey r.conv i) = r.vals.getD i 0 ∧ bit (A.get (Ob.hkValid i)) r.conv = true := by
    intro i hi
    subst hA
    refine each_establishes (I := fun _ => True) (P := fun x => x.get (hkValueKey r.conv i) = r.vals.getD i 0
      ∧ bit (x.get (Ob.hkValid i)) r.conv = true) hi trivial (fun _ _ _ _ => trivial) (fun n _ x _ hx => ?_) (fun x _ => (putHk_laws _ _ _ x).2)
    obtain ⟨within, here⟩ := putHk_laws r.conv n (r.vals.getD n 0) x
    by_cases hn : n = i
    · subst hn; exact here
    · obtain ⟨v1, v2, -, v3, -⟩ := hkKeys_apart r.conv i n
      obtain ⟨w1, -, -, -, w2⟩ := hkKeys_apart r.conv n i
      obtain ⟨-, -, w3, -⟩ := hkKeys_apart r.conv i n
      rw [within.get (by simp [v1, v2, v3 (Ne.symm hn)]), within.get (by simp [Ne.symm w1, w3, Ne.symm (w2 hn)])]
      exact hx
  clear hA
  generalize hB : A.each off _ = B
  have drops : HkLeft 0x5D8000 A B := by subst hB; exact (HkLeft.refl _ A).each _ _ (fun n hn x => hkLeft_putValid _ _ x (hoff n hn))
  have kept : ∀ i, i ∉ off → B.get (hkValueKey r.conv i) = A.get (hkValueKey r.conv i) ∧ B.get (Ob.hkValid i) = A.get (Ob.hkValid i) := by
    intro i hi
    subst hB
    refine each_invariant (I := fun x => x.get (hkValueKey r.conv i) = A.get (hkValueKey r.conv i) ∧ x.get (Ob.hkValid i) = A.get (Ob.hkValid i))
      ⟨rfl, rfl⟩ (fun n hn x hx => ?_)
    have apart : i ≠ n := fun h => hi (h ▸ hn)
    unfold Mod.putBit
    rw [get_put_other _ (hkKeys_apart r.conv i n).1, get_put_other _ ((hkKeys_apart r.conv i n).2.2.2.2 apart)]
    exact hx
  clear hB
  generalize hC : B.each _ _ = C
  have rails : HkLeft 0x5D4000 B C := by subst hC; exact (HkLeft.refl _ B).each _ _ (fun n _ x => hkLeft_judgeRail _ _ _ x)
  clear hC
  have rest := rails.trans (hkLeft_refDisagree r.conv r.disagree C)
  refine ⟨(left.trans drops).trans ⟨rest.clk, rest.seen, fun k h1 h2 => rest.get k (by omega) h2⟩, fun i hi hn => ?_⟩
  have h32 := hon i hi
  have value : (0x5D4000 ≤ hkValueKey r.conv i ∧ hkValueKey r.conv i < 0x5E0000) ∧ 0x5D4000 ≤ Ob.hkValid i ∧ Ob.hkValid i < 0x5E0000 := by
    unfold hkValueKey Ob.hkValue0 Ob.hkValue1 Ob.hkValid
    split <;> omega
  rw [rest.get _ value.1.1 value.1.2, rest.get _ value.2.1 value.2.2, (kept i hn).1, (kept i hn).2]
  exact shown i hi

/-- A round begins: it counts, and shows its ground reading. -/
def Mod.hkBegins (c : Nat) (ground : Int) (m : Mod) : Mod :=
  let p := m.hk.roundPs.getD c 0 + msPs 10
  ((((m.reach p).modHk (fun h => { h with roundPs := h.roundPs.set c (max p m.now) })).bump (Ob.roundCount c)).putS (Ob.groundRead c) ground).modHk
    (fun h => { h with urgentIn := h.urgentIn.set c false })

theorem hkBegins_laws (c : Nat) (ground : Int) (m : Mod) :
    (m.hkBegins c ground).get (Ob.roundCount c) = (m.get (Ob.roundCount c) + 1) % 4294967296
    ∧ (m.hkBegins c ground).getS (Ob.groundRead c) = clampI (-2147483648) 2147483647 ground
    ∧ (m.hkBegins c ground).get (Ob.hkState c) = m.get (Ob.hkState c)
    ∧ (m.hkBegins c ground).now = max m.now (m.hk.roundPs.getD c 0 + msPs 10)
    ∧ (m.hkBegins c ground).hk.groundBad = m.hk.groundBad ∧ (m.hkBegins c ground).hk.refBad = m.hk.refBad := by
  unfold Mod.hkBegins
  generalize m.hk.roundPs.getD c 0 + msPs 10 = p
  dsimp only
  have apart : Ob.roundCount c ≠ Ob.groundRead c ∧ Ob.hkState c ≠ Ob.roundCount c ∧ Ob.hkState c ≠ Ob.groundRead c := by
    unfold Ob.roundCount Ob.groundRead Ob.hkState; omega
  refine ⟨?_, ?_, ?_, rfl, rfl, rfl⟩
  · rw [(only_modHk _ _).get (by decide)]
    exact (get_put_other _ apart.1).trans (get_put_same _)
  · exact getS_putS _ _ _
  · rw [(only_modHk _ _).get (by decide)]
    exact (get_put_other _ apart.2.2).trans ((get_put_other _ apart.2.1))

/-- A round as its four parts. -/
theorem hkRound_eq (r : HkRound) (m : Mod) :
    ∃ on off : List Nat, (∀ n ∈ on, n < 32) ∧ (∀ n ∈ off, n < 32)
      ∧ (∀ n, 8 ≤ n → n < 0x13 → n ∈ on ∧ n ∉ off)
      ∧ m.hkRound r =
          (let m1 := (m.hkBegins r.conv r.groundUv).selfCheck r.conv (100 < absI r.groundUv) (r.refUv < 1248750 || 1251250 < r.refUv)
           (if m1.get (Ob.hkState r.conv) = 1 then m1 else m1.hkReads r on off).hkActs r (m.get (Ob.hkState r.conv))) := by
  let p := m.hk.roundPs.getD r.conv 0 + msPs 10
  let x := (m.reach p).modHk (fun h => { h with roundPs := h.roundPs.set r.conv (max p m.now) })
  refine ⟨(List.range 32).filter (fun i => x.converted (x.get (Ob.roundCount r.conv)) i), (List.range 32).filter (fun i => x.hkRateOf i = 0),
    fun n hn => List.mem_range.1 (List.mem_filter.1 hn).1, fun n hn => List.mem_range.1 (List.mem_filter.1 hn).1, fun n h8 h13 => ?_, rfl⟩
  have rate : x.hkRateOf n = 2 := by
    unfold Mod.hkRateOf
    rw [if_neg (by omega), if_pos (by omega)]
  refine ⟨List.mem_filter.2 ⟨List.mem_range.2 (by omega), ?_⟩, fun hm => ?_⟩
  · unfold Mod.converted
    simp [rate]
  · have zero : x.hkRateOf n = 0 := of_decide_eq_true (List.mem_filter.1 hm).2
    omega

/-- A good round of a converter leaves it as it was. -/
theorem selfCheck_good (c : Nat) (m : Mod) : HkLeft 0x5D4000 m (m.selfCheck c false false) := by
  unfold Mod.selfCheck
  simp only [Bool.false_eq_true, if_false, show decide ((0 : Nat) = 3) = false from rfl, Bool.or_self, Bool.false_and]
  exact hkLeft_hk m _

/-- The third bad ground in a row. -/
theorem selfCheck_fails {c : Nat} (refBad : Bool) {m : Mod} (h0 : m.get (Ob.hkState c) = 0) (h2 : m.hk.groundBad.getD c 0 = 2) :
    (m.selfCheck c true refBad).get (Ob.hkState c) = 1 ∧ 29 ∈ (m.selfCheck c true refBad).seenEv
    ∧ ∀ i, i < 32 → bit ((m.selfCheck c true refBad).get (Ob.hkValid i)) c = false := by
  unfold Mod.selfCheck
  generalize hr : (if refBad = true then satAt 3 (m.hk.refBad.getD c 0 + 1) else 0) = r
  simp only [h2, if_true, show satAt 3 (2 + 1) = 3 from rfl, Bool.true_or, decide_true, Bool.true_and]
  rw [if_pos (decide_eq_true (by exact h0))]
  generalize hA : Mod.put (Ob.hkState c) 1 _ = A
  have state : A.get (Ob.hkState c) = 1 := by subst hA; exact get_put_same _
  clear hA
  have drops : Within [.obj] ((List.range 32).map Ob.hkValid) A (A.dropReadings c) :=
    (Within.refl _ _ A).each _ _ (fun n hn x => (Within.refl _ _ x).put _ _ (by decide) (List.mem_map_of_mem hn))
  refine ⟨?_, seen_raised _ _ _ _ _, fun i hi => ?_⟩
  · rw [get_raised, drops.get, state]
    intro hm
    obtain ⟨n, hn, hk⟩ := List.mem_map.1 hm
    have := List.mem_range.1 hn
    unfold Ob.hkValid Ob.hkState at hk
    omega
  · rw [get_raised]
    refine each_establishes (I := fun _ => True) (P := fun x => bit (x.get (Ob.hkValid i)) c = false) (List.mem_range.2 hi) trivial
      (fun _ _ _ _ => trivial) (fun n _ x _ hx => ?_) (fun x _ => (congrArg (bit · c) (get_put_same _)).trans (bit_setBit _ _ _))
    by_cases hn : n = i
    · subst hn; exact (congrArg (bit · c) (get_put_same _)).trans (bit_setBit _ _ _)
    · exact (congrArg (bit · c) (get_put_other _ ((hkKeys_apart c i n).2.2.2.2 (Ne.symm hn)))).trans hx

theorem natAbs_absI (x : Int) : absI x = x.natAbs := by unfold absI; split <;> omega

/-- A round of a good converter. -/
theorem hkRound_good {r : HkRound} {m : Mod} (hc : r.conv < 2) (h0 : m.get (Ob.hkState r.conv) = 0) (hlo : 1248750 ≤ r.refUv) (hhi : r.refUv ≤ 1251250)
    (hg : r.groundUv.natAbs ≤ 100) :
    (m.hkRound r).get (Ob.roundCount r.conv) = (m.get (Ob.roundCount r.conv) + 1) % 4294967296
    ∧ (m.hkRound r).getS (Ob.groundRead r.conv) = r.groundUv ∧ (m.hkRound r).get (Ob.hkState r.conv) = 0
    ∧ (m.hkRound r).now = max m.now (m.hk.roundPs.getD r.conv 0 + msPs 10)
    ∧ ∀ i, 8 ≤ i → i < 0x13 → (m.hkRound r).get (hkValueKey r.conv i) = r.vals.getD i 0
        ∧ bit ((m.hkRound r).get (Ob.hkValid i)) r.conv = true := by
  obtain ⟨on, off, hon, hoff, hi, eq⟩ := hkRound_eq r m
  rw [eq]
  obtain ⟨count, ground, state, now, -, -⟩ := hkBegins_laws r.conv r.groundUv m
  generalize m.hkBegins r.conv r.groundUv = A at count ground state now
  rw [show decide (100 < absI r.groundUv) = false from decide_eq_false (by rw [natAbs_absI]; omega),
    show (decide (r.refUv < 1248750) || decide (1251250 < r.refUv)) = false by
      rw [decide_eq_false (by omega), decide_eq_false (by omega)]; rfl]
  have good := selfCheck_good r.conv A
  generalize A.selfCheck r.conv false false = B at good
  have keys : 0x5D8000 ≤ Ob.roundCount r.conv ∧ Ob.roundCount r.conv < 0x5E0000 ∧ 0x5D8000 ≤ Ob.groundRead r.conv ∧ Ob.groundRead r.conv < 0x5E0000
      ∧ 0x5D8000 ≤ Ob.hkState r.conv ∧ Ob.hkState r.conv < 0x5E0000 := by
    unfold Ob.roundCount Ob.groundRead Ob.hkState; omega
  obtain ⟨c1, c2, g1, g2, s1, s2⟩ := keys
  dsimp only
  rw [if_neg (by rw [good.get _ (by omega) s2, state, h0]; decide)]
  obtain ⟨reads, shown⟩ := hkReads_laws r B hon hoff
  generalize B.hkReads r on off = C at reads shown
  have acts := hkLeft_hkActs r (m.get (Ob.hkState r.conv)) C
  generalize C.hkActs r (m.get (Ob.hkState r.conv)) = D at acts
  have through : ∀ k, 0x5D8000 ≤ k → k < 0x5E0000 → D.get k = A.get k := fun k h1 h2 =>
    ((acts.get k (by omega) h2).trans (reads.get k h1 h2)).trans (good.get k (by omega) h2)
  refine ⟨(through _ c1 c2).trans count, ?_, ((through _ s1 s2).trans state).trans h0, ((acts.now.trans reads.now).trans good.now).trans now, fun i h8 h13 => ?_⟩
  · unfold Mod.getS at ground ⊢
    rw [through _ g1 g2, ground]
    unfold clampI
    split <;> [omega; split <;> omega]
  · have value : (0x5D4000 ≤ hkValueKey r.conv i ∧ hkValueKey r.conv i < 0x5E0000) ∧ 0x5D4000 ≤ Ob.hkValid i ∧ Ob.hkValid i < 0x5E0000 := by
      unfold hkValueKey Ob.hkValue0 Ob.hkValue1 Ob.hkValid
      split <;> omega
    rw [acts.get _ value.1.1 value.1.2, acts.get _ value.2.1 value.2.2]
    exact shown i (hi i h8 h13).1 (hi i h8 h13).2

/-- A round with the third bad ground in a row. -/
theorem hkRound_fails {r : HkRound} {m : Mod} (hc : r.conv < 2) (h0 : m.get (Ob.hkState r.conv) = 0) (h2 : m.hk.groundBad.getD r.conv 0 = 2)
    (hg : 100 < r.groundUv.natAbs) :
    (m.hkRound r).get (Ob.hkState r.conv) = 1 ∧ 29 ∈ (m.hkRound r).seenEv
    ∧ ∀ i, i < 32 → bit ((m.hkRound r).get (Ob.hkValid i)) r.conv = false := by
  obtain ⟨on, off, -, -, -, eq⟩ := hkRound_eq r m
  rw [eq]
  obtain ⟨-, -, state, -, bad, -⟩ := hkBegins_laws r.conv r.groundUv m
  generalize m.hkBegins r.conv r.groundUv = A at state bad
  rw [show decide (100 < absI r.groundUv) = true from decide_eq_true (by rw [natAbs_absI]; omega)]
  obtain ⟨faulty, seen, valid⟩ := selfCheck_fails (c := r.conv) (decide (r.refUv < 1248750) || decide (1251250 < r.refUv)) (state.trans h0) (by rw [bad, h2])
  generalize A.selfCheck r.conv true _ = B at faulty seen valid
  dsimp only
  rw [if_pos faulty]
  have acts := hkLeft_hkActs r (m.get (Ob.hkState r.conv)) B
  have keys : 0x5D4000 ≤ Ob.hkState r.conv ∧ Ob.hkState r.conv < 0x5E0000 := by unfold Ob.hkState; omega
  refine ⟨(acts.get _ keys.1 keys.2).trans faulty, acts.seen.mem seen, fun i hi => ?_⟩
  rw [acts.get _ (by unfold Ob.hkValid; omega) (by unfold Ob.hkValid; omega)]
  exact valid i hi

/-! ### The lock detector and the reference (R438 to R441) -/

/-- The keys of a loop are different entries. -/
theorem loopKeys_apart (l : Nat) : Ob.adpllState l ≠ Ob.lockDev l ∧ Ob.adpllState l ≠ Ob.lockMargin l ∧ Ob.lockDev l ≠ Ob.lockMargin l
    ∧ Ob.adpllState l ≠ Ob.xoRatio l ∧ Ob.xoRatio l ≠ Ob.lockDev l ∧ Ob.xoRatio l ≠ Ob.lockMargin l := by
  unfold Ob.adpllState Ob.lockDev Ob.lockMargin Ob.xoRatio; omega

/-- The end of a window, before it is judged. -/
theorem windowAt_laws (l : Nat) (xo : Int) (m : Mod) :
    let W := (m.windowAt l).xoSeen l xo
    Only [.clk, .hk, .obj] m W ∧ OnlyEntries [Ob.xoRatio l] m W ∧ W.now = max m.now (m.hk.winPs.getD l 0 + 10000000)
    ∧ W.hk.moving = m.hk.moving ∧ W.hk.refMoved = m.hk.refMoved
    ∧ (m.hk.tcxoLost = false → W.getS (Ob.xoRatio l) = clampI (-2147483648) 2147483647 xo)
    ∧ (m.hk.tcxoLost = true → W.get (Ob.xoRatio l) = m.get (Ob.xoRatio l)) := by
  unfold Mod.windowAt
  generalize m.hk.winPs.getD l 0 + 10000000 = p
  dsimp only
  generalize hA : Mod.modHk _ _ = A
  have only : Only [.clk, .hk] m A := by subst hA; exact ((Only.refl _ m).oReach (by decide)).to (only_modHk _ _) (by decide)
  have now : A.now = max m.now p := by subst hA; rfl
  have hk : A.hk.moving = m.hk.moving ∧ A.hk.refMoved = m.hk.refMoved ∧ A.hk.tcxoLost = m.hk.tcxoLost := by subst hA; exact ⟨rfl, rfl, rfl⟩
  clear hA
  obtain ⟨moving, moved, lost⟩ := hk
  unfold Mod.xoSeen
  rw [lost]
  split
  next h =>
    exact ⟨only.mono (by decide), only.onlyEntries (by decide) _, now, moving, moved, fun h' => absurd h (by simp [h']), fun _ => only.get (by decide) _⟩
  next h =>
    exact ⟨(only.mono (by decide)).oputS (by decide), (only.onlyEntries (by decide) _).oputS (by simp), now, moving, moved, fun _ => getS_putS _ _ _,
      fun h' => absurd h' h⟩

/-- What a window that counts shows: the deviation, the largest of the last second, and the lane's counts. -/
def Mod.windowCounts (l : Nat) (dev : Int) (good bad : Nat) (m : Mod) : Mod :=
  let ms := keepMargins m.now (absI dev).toNat (m.hk.margins.getD l [])
  (((m.modHk (fun h => { h with margins := h.margins.set l ms })).putS (Ob.lockDev l) dev).put (Ob.lockMargin l)
    (ms.foldl (fun a p => max a p.2) 0)).modLane l (fun y => { y with good := good, bad := bad })

theorem windowCounts_laws (l : Nat) (dev : Int) (good bad : Nat) (m : Mod) :
    Only [.hk, .obj, .lanes] m (m.windowCounts l dev good bad) ∧ OnlyEntries [Ob.lockDev l, Ob.lockMargin l] m (m.windowCounts l dev good bad)
    ∧ (m.windowCounts l dev good bad).getS (Ob.lockDev l) = clampI (-2147483648) 2147483647 dev
    ∧ (l < m.lanes.length → ((m.windowCounts l dev good bad).laneAt l).bad = bad) := by
  unfold Mod.windowCounts
  dsimp only
  generalize List.foldl _ _ _ = margin
  generalize hA : Mod.put (Ob.lockMargin l) _ _ = A
  have only : Only [.hk, .obj] m A := by subst hA; exact (((Only.refl _ m).to (only_modHk _ _) (by decide)).oputS (by decide)).oput (by decide)
  have entries : OnlyEntries [Ob.lockDev l, Ob.lockMargin l] m A := by
    subst hA; exact (((only_modHk m _).onlyEntries (by decide) _).oputS (by simp)).oput (by simp)
  have shown : A.getS (Ob.lockDev l) = clampI (-2147483648) 2147483647 dev := by
    subst hA
    unfold Mod.getS
    rw [get_put_other _ (loopKeys_apart l).2.2.1]
    exact getS_putS _ _ _
  have lanes : A.lanes = m.lanes := only .lanes (by decide)
  clear hA
  exact ⟨(only.mono (by decide)).oLane (by decide), onlyEntries_obj entries rfl, shown, fun hl => by rw [laneAt_modLane _ _ _ (by rw [lanes]; exact hl)]⟩

/-- A window that is judged. -/
theorem lockWindow_judges {l : Nat} {dev xo : Int} {m : Mod} (hm : m.hk.moving = 0) (hr : m.hk.refMoved.getD l false = false) :
    let W := (m.windowAt l).xoSeen l xo
    let good := if absI dev ≤ 1000 then satAt 8 ((W.laneAt l).good + 1) else 0
    let bad := if 10000 < absI dev then (W.laneAt l).bad + 1 else 0
    let C := W.windowCounts l dev good bad
    let D := if good = 8 && W.get (Ob.adpllState l) = 0 then C.put (Ob.adpllState l) 1 else C
    m.lockWindow l dev xo = if 2 ≤ bad then D.unlocked l dev else D := by
  obtain ⟨-, -, -, moving, moved, -, -⟩ := windowAt_laws l xo m
  unfold Mod.lockWindow
  dsimp only
  rw [moving, moved, hm, hr]
  exact if_neg (by decide)

/-- A window while N moves is not judged. -/
theorem lockWindow_moves {l : Nat} {dev xo : Int} {m : Mod} (hm : m.hk.moving ≠ 0) :
    Only [.clk, .hk, .obj] m (m.lockWindow l dev xo) ∧ OnlyEntries [Ob.xoRatio l] m (m.lockWindow l dev xo) := by
  obtain ⟨only, entries, -, moving, -⟩ := windowAt_laws l xo m
  unfold Mod.lockWindow
  dsimp only
  generalize (m.windowAt l).xoSeen l xo = W at only entries moving
  rw [if_pos (by simp [moving, hm])]
  exact ⟨only.to (only_modHk _ _) (by decide), onlyEntries_obj entries rfl⟩

/-- A loop that is locked no longer. -/
theorem unlocked_laws {l : Nat} (dev : Int) {m : Mod} (hl : l < 2) (h : m.get (Ob.adpllState l) ≠ 2) :
    (m.unlocked l dev).get (Ob.adpllState l) = 2 ∧ 27 ∈ (m.unlocked l dev).seenEv := by
  unfold Mod.unlocked
  rw [if_neg h]
  generalize hA : Mod.raise 27 sevFault _ _ _ = A
  have state : A.get (Ob.adpllState l) = 2 := by subst hA; rw [get_raised, get_put_same]
  have seen : 27 ∈ A.seenEv := by subst hA; exact seen_raised _ _ _ _ _
  clear hA
  obtain ⟨-, entries, grows, -⟩ := laneFails_laws l 0x2003 A
  have apart : Ob.adpllState l ∉ laneKeys A.standby := by
    have h2 := standby_le A
    unfold laneKeys Ob.adpllState Ob.health Ob.unhealthyCause Ob.redundant Ob.roleNow Ob.resync24h
    simp only [List.mem_cons, List.not_mem_nil, or_false]
    omega
  exact ⟨(entries _ apart).trans state, SeenGrows.mem grows seen⟩

theorem hkUrgentDone_laws {sq i c : Nat} (v : Nat) {m : Mod} (h : m.hk.urgent = some (sq, i, c)) :
    (m.hkUrgentDone v).hk.urgent = none ∧ (m.hkUrgentDone v).get (hkValueKey c i) = v ∧ bit ((m.hkUrgentDone v).get (Ob.hkValid i)) c = true
    ∧ Tells 30 sevInfo 0 (sq + 65536 * i) m (m.hkUrgentDone v) ∧ Only ([.hk, .obj] ++ evParts) m (m.hkUrgentDone v)
    ∧ OnlyEntries [hkValueKey c i, Ob.hkValid i, Ob.hkTime i] m (m.hkUrgentDone v) := by
  unfold Mod.hkUrgentDone
  simp only [h]
  generalize hA : m.modHk (fun h => { h with urgent := none }) = A
  have takes : Only [.hk] m A := by subst hA; exact only_modHk _ _
  have done : A.hk.urgent = none := by subst hA; rfl
  clear hA
  obtain ⟨puts, value, valid⟩ := putHk_laws c i v A
  generalize A.putHk c i v = B at puts value valid
  have only : Only [.hk, .obj] m B := (takes.mono (by decide)).trans (puts.1.mono (by decide))
  unfold Mod.inform
  rw [get_raised, get_raised, show (Mod.raise _ _ _ _ B).hk = _ from raise_part _ _ _ _ _ .hk (by decide), show B.hk = A.hk from puts.1 .hk (by decide)]
  exact ⟨done, value, valid, only.tells_raise _ _ _ _ (by decide) (by decide) (by decide),
    (only.mono (by decide)).oraise _ _ _ _ (by decide), ((takes.onlyEntries (by decide) _).trans puts.2.1).raise _ _ _ _⟩

/-! ### The statement -/

/-- Settles O54: each event by the law of its operation; REF returns 60 s after the loss of the TCXO (log entry 73). -/
theorem clocksAndHousekeepingAct : Obligations.ClocksAndHousekeepingAct := by
  unfold Obligations.ClocksAndHousekeepingAct
  intro s l i sq v dev xo r hl hi hlanes hmoved hmargins hground hconv
  refine ⟨fun hm hr hd hg h0 => ?locks, fun hm hr hd hb h1 => ?unlocks, fun hm => ?moves, fun h0 ha hb => ?lost, fun h1 ha hb => ?returns,
    fun h0 hlo hhi hg => ?round, fun h0 h2 hg => ?faulty, fun hu => ?urgent⟩
  case locks =>
    obtain ⟨only, entries, now, -, -, seen, held⟩ := windowAt_laws l xo s.m
    have eq := lockWindow_judges (dev := dev) (xo := xo) hm hr
    dsimp only at eq
    generalize (s.m.windowAt l).xoSeen l xo = W at only entries now seen held eq
    obtain ⟨a1, a2, a3, a4, a5, a6⟩ := loopKeys_apart l
    have lane : (W.laneAt l).good = 7 := by rw [laneAt_eq (only .lanes (by decide))]; exact hg
    have off : W.get (Ob.adpllState l) = 0 := (entries _ (by simpa using a4)).trans h0
    rw [if_pos (show absI dev ≤ 1000 by rw [natAbs_absI]; omega), if_neg (show ¬ 10000 < absI dev by rw [natAbs_absI]; omega), lane, off,
      show satAt 8 (7 + 1) = 8 from rfl, if_neg (by decide), if_pos (by decide)] at eq
    obtain ⟨counts, keys, shown, bad⟩ := windowCounts_laws l dev 8 0 W
    have len : l < W.lanes.length := by rw [show W.lanes = s.m.lanes from only .lanes (by decide)]; omega
    generalize W.windowCounts l dev 8 0 = C at counts keys shown bad eq
    have xoKey : (C.put (Ob.adpllState l) 1).get (Ob.xoRatio l) = W.get (Ob.xoRatio l) :=
      (get_put_other _ a4.symm).trans (keys _ (by simp [a5, a6]))
    refine does_lane rfl hl eq ⟨get_put_same _, ?_, ?_, ?_, fun hx h1 h2 => ?_, fun hx => xoKey.trans (held hx), ?_, ?_⟩
    · unfold Mod.getS at shown ⊢
      rw [get_put_other _ (Ne.symm a1), shown]
      unfold clampI
      split <;> [omega; split <;> omega]
    · rw [laneAt_eq (put_lanes _ _ _)]
      exact bad len
    · exact (counts.now (by decide)).trans now
    · have shownXo := seen hx
      unfold Mod.getS at shownXo ⊢
      rw [xoKey, shownXo]
      unfold clampI
      split <;> [omega; split <;> omega]
    · exact ((only.mono (by decide)).trans (counts.mono (by decide))).oput (by decide)
    · exact ((entries.mono (by simp)).trans (keys.mono (by simp))).oput (by simp)
  case unlocks =>
    obtain ⟨only, entries, -⟩ := windowAt_laws l xo s.m
    have eq := lockWindow_judges (dev := dev) (xo := xo) hm hr
    dsimp only at eq
    generalize (s.m.windowAt l).xoSeen l xo = W at only entries eq
    obtain ⟨a1, a2, -, a4, -, -⟩ := loopKeys_apart l
    have lane : (W.laneAt l).bad = (s.m.laneAt l).bad := by rw [laneAt_eq (only .lanes (by decide))]
    rw [if_neg (show ¬ absI dev ≤ 1000 by rw [natAbs_absI]; omega), if_pos (show 10000 < absI dev by rw [natAbs_absI]; omega), lane,
      if_neg (show ¬ (decide (0 = 8) && _) = true by simp), if_pos (by omega)] at eq
    obtain ⟨-, keys, -, -⟩ := windowCounts_laws l dev 0 ((s.m.laneAt l).bad + 1) W
    generalize W.windowCounts l dev 0 ((s.m.laneAt l).bad + 1) = C at keys eq
    have state : C.get (Ob.adpllState l) = 1 := ((keys _ (by simp [a1, a2])).trans (entries _ (by simpa using a4))).trans h1
    exact does_lane rfl hl eq (unlocked_laws dev hl (by rw [state]; decide))
  case moves => exact does_lane rfl hl rfl (lockWindow_moves hm)
  case lost =>
    refine does_onMod rfl (N := (s.m.refTo 1).modHk (fun h => { h with lossPs := s.m.now })) ?_ ?_
    · unfold Mod.tcxoLost
      exact if_neg (by simp [h0])
    · obtain ⟨only, entries, r0, r1, seen⟩ := refTo_laws 1 s.m
      exact ⟨r0, r1, seen (by rw [ha]; decide), only.to (only_modHk _ _) (by decide), onlyEntries_obj entries rfl⟩
  case returns =>
    refine does_onMod rfl (N := (s.m.reach (s.m.hk.lossPs + sPs 60)).refTo 0) ?_ ?_
    · unfold Mod.tcxoRestored
      exact if_pos h1
    · generalize s.m.hk.lossPs + sPs 60 = q
      have reach : Only [.clk] s.m (s.m.reach q) := (Only.refl _ s.m).oReach (by decide)
      have source : (s.m.reach q).get (Ob.refSource 0) ≠ 0 := by
        rw [reach.get (by decide), ha]; decide
      have now : (s.m.reach q).now = max s.m.now q := rfl
      obtain ⟨only, entries, r0, r1, seen⟩ := refTo_laws 0 (s.m.reach q)
      exact ⟨r0, r1, seen source, (only.now (by decide)).trans now, (reach.mono (by decide)).trans (only.mono (by decide)),
        (reach.onlyEntries (by decide) _).trans entries⟩
  case round =>
    subst hconv
    obtain ⟨count, ground, state, now, values⟩ := hkRound_good hl h0 hlo hhi hg
    exact does_unit rfl (by simpa using hl) ⟨count, ground, state, now, fun h8 => values i h8 hi⟩
  case faulty =>
    subst hconv
    obtain ⟨state, seen, valid⟩ := hkRound_fails hl h0 h2 hg
    exact does_unit rfl (by simpa using hl) ⟨state, seen, valid i (by omega)⟩
  case urgent =>
    obtain ⟨done, value, valid, tells, only, entries⟩ := hkUrgentDone_laws v hu
    refine does_onMod rfl rfl ⟨done, value, valid, tells, only, entries.mono ?_⟩
    unfold hkValueKey
    split <;> simp

end Sys2Proof.Machine
end

section
/-!
PROOFS. The safe state (R346 to R359): what enters it, whatever the cause, and the statement on its causes (O48).
-/
namespace Sys2Proof.Machine

/-! ### The demand on groups and sections -/

/-- The entries that a demand writes of the AC groups and sections. -/
def demandKeys : List Nat := (List.range 4).flatMap (fun g => tripKeys g ++ stopKeys g)

theorem demandKeys_sub (g : Nat) (h4 : g < 4) : tripKeys g ⊆ demandKeys ∧ stopKeys g ⊆ demandKeys := by
  have here : tripKeys g ++ stopKeys g ⊆ demandKeys := fun _ hk => List.mem_flatMap.2 ⟨g, List.mem_range.2 h4, hk⟩
  exact ⟨fun _ hk => here (List.mem_append_left _ hk), fun _ hk => here (List.mem_append_right _ hk)⟩

/-- What the demand of the safe state touches. -/
def demandParts : List Part := [.sec, .dc] ++ unitParts

theorem gf_unitToRest (s fault : Nat) (m : Mod) (h4 : s < 4) : (m.unitToRest s fault).gf s = gfRest := by
  have state : m.unitState s = m.gf s := if_pos h4
  unfold Mod.unitToRest
  rw [state]
  split
  next rests =>
    split
    · exact ((pwmOff_laws s m).2.1 _ (by unfold Ob.gfState Ob.outState; simp)).trans rests
    · exact rests
  next => exact (within_gfToRest s fault m).2

theorem gfKey_apart (u n : Nat) (hu : u < 4) (hn : n < 4) (h : n ≠ u) : Ob.gfState u ∉ stopKeys n := by
  unfold stopKeys Ob.gfState Ob.rtState Ob.islState Ob.dcState Ob.outState
  simp only [List.mem_cons, List.not_mem_nil, or_false]
  omega

/-- Every AC group in use trips, and every section goes to REST. -/
theorem demandTrip_laws (m : Mod) :
    Within demandParts demandKeys m m.demandTrip ∧ (∀ u, u < 4 → m.demandTrip.gf u = gfRest)
    ∧ (m.grp.length = 8 → ∀ g, g < 4 → m.inUse g = true → m.demandTrip.Tripped g) := by
  have low : ∀ g ∈ (List.range 4).filter m.inUse, g < 4 := fun g hg => List.mem_range.1 (List.mem_filter.1 hg).1
  unfold Mod.demandTrip
  dsimp only
  generalize hA : m.each _ _ = A
  have trips : Within demandParts demandKeys m A := by
    subst hA
    refine (Within.refl _ _ m).each _ _ (fun g hg x => ?_)
    have trip : Within demandParts demandKeys x (x.tripGroup 0 g) :=
      Within.mono ⟨only_tripGroup 0 g x, entries_tripGroup 0 g x, seen_tripGroup 0 g x⟩ (by decide) (demandKeys_sub g (low g hg)).1
    exact trip.only ((Only.refl [.grp] _).oGrp (by decide)) (by decide) (by decide) (by decide)
  have groups : m.grp.length = 8 → ∀ g, g < 4 → m.inUse g = true → A.Tripped g := by
    intro hl g h4 hi
    subst hA
    refine each_establishes (I := fun x => x.grp.length = 8 ∧ x.inUse g = true) (P := (Mod.Tripped · g))
      (List.mem_filter.2 ⟨List.mem_range.2 h4, hi⟩) ⟨hl, hi⟩ (fun n hn x hx => ?_) (fun n _ x hx ht => ?_) (fun x hx => ?_)
    · obtain ⟨len, used⟩ := hx
      refine ⟨?_, (inUse_tripGroup 0 n g x (by have := low n hn; omega) (by omega)).trans used⟩
      show ((x.tripGroup 0 n).grp.modify n _).length = 8
      rw [List.length_modify, grpLen_tripGroup, len]
    · have still : (x.tripGroup 0 n).Tripped g := tripped_stays 0 n g x ht (by omega)
      exact still.modGrp n (fun _ h => h)
    · have now : (x.tripGroup 0 g).Tripped g := grpAt_tripGroup 0 g x hx.2 (by omega)
      exact now.modGrp g (fun _ h => h)
  clear hA
  refine ⟨trips.each _ _ (fun s hs x => ?_), fun u hu => ?_, fun hl g h4 hi => ?_⟩
  · have hs4 := List.mem_range.1 hs
    exact (within_unitToRest 0 x (by omega)).mono (by decide) (demandKeys_sub s hs4).2
  · refine each_establishes (I := fun _ => True) (P := fun x => x.gf u = gfRest) (List.mem_range.2 hu) trivial (fun _ _ _ _ => trivial)
      (fun n hn x _ hx => ?_) (fun x _ => gf_unitToRest u 0 x hu)
    have hn4 := List.mem_range.1 hn
    by_cases h : n = u
    · subst h; exact gf_unitToRest n 0 x hn4
    · exact ((within_unitToRest 0 x (by omega)).get (gfKey_apart u n hu hn4 h)).trans hx
  · exact each_invariant (I := (Mod.Tripped · g)) (groups hl g h4 hi) (fun n _ _ hx => hx.unitToRest n 0)

/-! ### The safe state is entered -/

/-- What the causes of the safe state are judged by. -/
def SdcRt.judged (x : SdcRt) : SdcInputs × SdcInputs × Option Nat × Bool × Nat × Nat × Bool × Bool :=
  (x.a, x.b, x.relayFault, x.discFault, x.lostA, x.lostB, x.oscDemand, x.laneDemand)

theorem safeCauses_judged {a b : Mod} (h : b.sdc.judged = a.sdc.judged) : b.safeCauses = a.safeCauses := by
  unfold SdcRt.judged at h
  simp only [Prod.mk.injEq] at h
  obtain ⟨h1, h2, h3, h4, h5, h6, h7, h8⟩ := h
  unfold Mod.safeCauses
  dsimp only
  rw [h1, h2, h3, h4, h5, h6, h7, h8]

/-- What a drive of a relay leaves of Serac's state. -/
structure Driven (a b : Mod) : Prop where
  judged  : b.sdc.judged = a.sdc.judged
  request : b.sdc.request = a.sdc.request
  overdue : b.sdc.overdue = a.sdc.overdue
  second  : b.sdc.second = a.sdc.second

theorem driveK1_laws (v : Bool) (m : Mod) :
    Within [.sdc, .obj, .sto] [Ob.k1Operations] m (m.driveK1 v) ∧ (m.driveK1 v).sdc.k1 = v ∧ (m.driveK1 v).sdc.k2 = m.sdc.k2
    ∧ Driven m (m.driveK1 v) ∧ (v = false → Only [.sdc] m (m.driveK1 v)) := by
  unfold Mod.driveK1
  split
  next h => exact ⟨Within.refl _ _ m, h, rfl, ⟨rfl, rfl, rfl, rfl⟩, fun _ => Only.refl _ _⟩
  next =>
    dsimp only
    have marks : Within [.sdc] [] m (m.modSdc (fun x => { x with k1 := v, k1Edge := some m.now })) :=
      .of_only (only_modSdc _ _) (by decide) (by decide)
    split
    next hv =>
      refine ⟨(marks.mono (by decide) (by decide)).trans ⟨(Only.refl _ _).okeep (by decide) (by decide), (onlyEntries_refl _ _).okeep (by decide),
        SeenGrows.of_eq rfl⟩, rfl, rfl, ⟨rfl, rfl, rfl, rfl⟩, fun h => absurd (h ▸ hv) (by decide)⟩
    next => exact ⟨marks.mono (by decide) (by decide), rfl, rfl, ⟨rfl, rfl, rfl, rfl⟩, fun _ => marks.1⟩

theorem driveK2_laws (v : Bool) (m : Mod) :
    Within [.sdc, .obj, .sto] [Ob.k2Operations] m (m.driveK2 v) ∧ (m.driveK2 v).sdc.k2 = v ∧ (m.driveK2 v).sdc.k1 = m.sdc.k1
    ∧ Driven m (m.driveK2 v) ∧ (v = false → Only [.sdc] m (m.driveK2 v)) := by
  unfold Mod.driveK2
  split
  next h => exact ⟨Within.refl _ _ m, h, rfl, ⟨rfl, rfl, rfl, rfl⟩, fun _ => Only.refl _ _⟩
  next =>
    dsimp only
    have marks : Within [.sdc] [] m (m.modSdc (fun x => { x with k2 := v, k2Edge := some m.now })) :=
      .of_only (only_modSdc _ _) (by decide) (by decide)
    split
    next hv =>
      refine ⟨(marks.mono (by decide) (by decide)).trans ⟨(Only.refl _ _).okeep (by decide) (by decide), (onlyEntries_refl _ _).okeep (by decide),
        SeenGrows.of_eq rfl⟩, rfl, rfl, ⟨rfl, rfl, rfl, rfl⟩, fun h => absurd (h ▸ hv) (by decide)⟩
    next => exact ⟨marks.mono (by decide) (by decide), rfl, rfl, ⟨rfl, rfl, rfl, rfl⟩, fun _ => marks.1⟩

/-- Both drives go low, which closes nothing. -/
theorem drivesLow_laws (m : Mod) :
    Only [.sdc] m m.drivesLow ∧ m.drivesLow.sdc.k1 = false ∧ m.drivesLow.sdc.k2 = false ∧ Driven m m.drivesLow := by
  obtain ⟨-, low1, -, driven1, only1⟩ := driveK1_laws false m
  unfold Mod.drivesLow
  generalize m.driveK1 false = A at low1 driven1 only1
  obtain ⟨-, low2, still, driven2, only2⟩ := driveK2_laws false A
  exact ⟨(only1 rfl).trans (only2 rfl), still.trans low1, low2, driven2.judged.trans driven1.judged, driven2.request.trans driven1.request,
    driven2.overdue.trans driven1.overdue, driven2.second.trans driven1.second⟩

/-- A test that fails or is aborted. -/
theorem testEnds_laws {result : Nat} (fault : Nat) (m : Mod) (hr : result ≠ 1) :
    Within ([.obj, .sto] ++ evParts) [Ob.lastTest, Ob.lastResult] m (m.testEnds result fault) ∧ (m.testEnds result fault).sdc = m.sdc
    ∧ (m.testEnds result fault).get Ob.lastResult = result ∧ 84 ∈ (m.testEnds result fault).seenEv := by
  unfold Mod.testEnds
  dsimp only
  rw [if_neg hr]
  generalize hA : Mod.keep Ob.lastResult result _ = A
  have keeps : Within ([.obj, .sto] ++ evParts) [Ob.lastTest, Ob.lastResult] m A := by
    subst hA
    exact ⟨((Only.refl _ m).okeep (by decide) (by decide)).okeep (by decide) (by decide),
      ((onlyEntries_refl _ m).okeep (by decide)).okeep (by decide), SeenGrows.of_eq rfl⟩
  have sdc : A.sdc = m.sdc := by subst hA; rfl
  have shown : A.get Ob.lastResult = result := by subst hA; exact get_keep_same _
  clear hA
  exact ⟨keeps.raise _ _ _ _ (by decide), (raise_part _ _ _ _ _ .sdc (by decide)).trans sdc, (get_raised _ _ _ _ _ _).trans shown,
    seen_raised _ _ _ _ _⟩

/-- What the entry into the safe state touches. -/
def safeParts : List Part := [.sdc, .obj, .sto] ++ demandParts

/-- The entries that it writes. -/
def safeKeys : List Nat := [Ob.safeCause, Ob.sdcState, Ob.lastTest, Ob.lastResult] ++ demandKeys

/-- The module is in the safe state `st` for the causes of `a`: both drives low, the groups that `a` uses tripped, the sections at rest. -/
structure Secured (st : Nat) (a b : Mod) : Prop where
  state  : b.sdcSt = st
  k1     : b.sdc.k1 = false
  k2     : b.sdc.k2 = false
  judged : b.sdc.judged = a.sdc.judged
  cause  : b.get Ob.safeCause = a.safeCauses
  seen   : 81 ∈ b.seenEv
  rest   : ∀ u, u < 4 → b.gf u = gfRest
  trips  : a.grp.length = 8 → ∀ g, g < 4 → a.inUse g = true → b.Tripped g

theorem demandKeys_low : ∀ k ∈ demandKeys, k < 0x410000 := by decide

theorem layout_notSafe {a b : Mod} (h : ∀ k, k ∉ [Ob.safeCause, Ob.sdcState, Ob.lastTest, Ob.lastResult] → b.get k = a.get k) (g : Nat) (h4 : g < 4) :
    b.inUse g = a.inUse g := by
  unfold Mod.inUse Mod.layout
  rw [h]
  unfold Ob.grpLayout Ob.safeCause Ob.sdcState Ob.lastTest Ob.lastResult
  simp only [List.mem_cons, List.not_mem_nil, or_false]
  omega

/-- The safe state is entered from a state in which it does not stand. -/
theorem enterSafe_laws {new : Nat} {m : Mod} (hn : new = sdcSafe ∨ new = sdcFault) (hS : m.sdcSt ≠ sdcSafe) (hF : m.sdcSt ≠ sdcFault)
    (hL : m.sdcSt ≠ sdcLockout) :
    Within safeParts safeKeys m (m.enterSafe new) ∧ Secured new m (m.enterSafe new)
    ∧ (new = sdcFault → (m.enterSafe new).get Ob.lastResult = m.get Ob.lastResult) := by
  have other : m.sdcSt ≠ new := by rcases hn with rfl | rfl <;> assumption
  unfold Mod.enterSafe
  dsimp only
  rw [if_neg (by simp [hL, other, hF]), if_neg hS]
  obtain ⟨low, k1, k2, driven⟩ := drivesLow_laws m
  have judged := driven.judged
  generalize m.drivesLow = A at low k1 k2 judged
  generalize hB : (if (testing m.sdcSt && decide (new = sdcSafe)) = true then A.testEnds 3 0 else A) = B
  have ends : Within ([.obj, .sto] ++ evParts) [Ob.lastTest, Ob.lastResult] A B ∧ B.sdc = A.sdc
      ∧ (new = sdcFault → B = A) := by
    subst hB
    split
    next h =>
      obtain ⟨within, sdc, -⟩ := testEnds_laws 0 A (result := 3) (by decide)
      refine ⟨within, sdc, fun hf => ?_⟩
      rw [hf] at h
      simp [sdcFault, sdcSafe] at h
    next => exact ⟨Within.refl _ _ A, rfl, fun _ => rfl⟩
  clear hB
  obtain ⟨ends, sdcB, aborts⟩ := ends
  generalize hC : B.modSdc _ = C
  have marks : Only [.sdc] B C := by subst hC; exact only_modSdc _ _
  have sdcC : C.sdc.k1 = B.sdc.k1 ∧ C.sdc.k2 = B.sdc.k2 ∧ C.sdc.judged = B.sdc.judged := by subst hC; exact ⟨rfl, rfl, rfl⟩
  clear hC
  obtain ⟨c1, c2, c3⟩ := sdcC
  have judgedC : C.sdc.judged = m.sdc.judged := by rw [c3, sdcB, judged]
  have causes : C.safeCauses = m.safeCauses := safeCauses_judged judgedC
  generalize hD : C.put Ob.safeCause C.safeCauses = D
  have puts : Within [.obj] [Ob.safeCause] C D := by subst hD; exact (Within.refl _ _ C).put _ _ (by decide) (by decide)
  have shown : D.get Ob.safeCause = m.safeCauses := by subst hD; rw [get_put_same, causes]
  have sdcD : D.sdc = C.sdc := puts.1 .sdc (by decide)
  clear hD
  have toOnly := sdcTo_laws new D
  have toSdc : (D.sdcTo new).sdc.k1 = D.sdc.k1 ∧ (D.sdcTo new).sdc.k2 = D.sdc.k2 ∧ (D.sdcTo new).sdc.judged = D.sdc.judged
      ∧ SeenGrows D (D.sdcTo new) := by
    unfold Mod.sdcTo
    dsimp only
    split
    · exact ⟨rfl, rfl, rfl, SeenGrows.refl _⟩
    · rw [inform_eq, raiseAt_sdc]
      exact ⟨rfl, rfl, rfl, SeenGrows.later (by rfl) (SeenGrows.raise _ _ _ _ _)⟩
  generalize D.sdcTo new = E at toOnly toSdc
  obtain ⟨toOnly, toKeys, state, -⟩ := toOnly
  obtain ⟨e1, e2, e3, toSeen⟩ := toSdc
  generalize hF : E.raise 81 sevWarn 0 C.safeCauses = F
  have raises : Within evParts [] E F := by subst hF; exact (Within.refl _ _ E).raise _ _ _ _ (List.Subset.refl _)
  have seen : 81 ∈ F.seenEv := by subst hF; exact seen_raised _ _ _ _ _
  clear hF
  have sdcF : F.sdc = E.sdc := raises.1 .sdc (by decide)
  obtain ⟨demand, rest, trips⟩ := demandTrip_laws F
  have sdcG : F.demandTrip.sdc = F.sdc := demand.1 .sdc (by decide)
  have before : Within safeParts [Ob.safeCause, Ob.sdcState, Ob.lastTest, Ob.lastResult] m F :=
    ((((((Within.refl _ _ m).only low (by decide) (by decide) (by decide)).andThen ends (by decide) (by decide)).only marks (by decide)
      (by decide) (by decide)).andThen puts (by decide) (by decide)).andThen ⟨toOnly, toKeys, toSeen⟩ (by decide) (by decide)).andThen
      raises (by decide) (by decide)
  have apart : ∀ k, 0x410000 ≤ k → F.demandTrip.get k = F.get k := fun k hk =>
    demand.get (fun hm => absurd (demandKeys_low k hm) (by omega))
  refine ⟨(before.mono (List.Subset.refl _) (List.subset_append_left _ _)).andThen demand (by decide) (List.subset_append_right _ _), ⟨?_, ?_, ?_, ?_, ?_,
    demand.seen seen, rest, fun hl g h4 hi => trips ?_ g h4 ?_⟩, fun hf => ?_⟩
  · exact ((apart _ (by decide)).trans (raises.get List.not_mem_nil)).trans state
  · rw [sdcG, sdcF, e1, sdcD, c1, sdcB, k1]
  · rw [sdcG, sdcF, e2, sdcD, c2, sdcB, k2]
  · rw [sdcG, sdcF, e3, sdcD, judgedC]
  · exact (((apart _ (by decide)).trans (raises.get List.not_mem_nil)).trans (toKeys _ (by decide))).trans shown
  · have grpF : F.grp = E.grp := raises.1 .grp (by decide)
    have grpE : E.grp = D.grp := toOnly .grp (by decide)
    have grpD : D.grp = C.grp := puts.1 .grp (by decide)
    have grpC : C.grp = B.grp := marks .grp (by decide)
    have grpB : B.grp = A.grp := ends.1 .grp (by decide)
    have grpA : A.grp = m.grp := low .grp (by decide)
    rw [grpF, grpE, grpD, grpC, grpB, grpA, hl]
  · rw [layout_notSafe before.2.1 g h4, hi]
  · have lastA : A.get Ob.lastResult = m.get Ob.lastResult := low.get (by decide) _
    have lastC : C.get Ob.lastResult = B.get Ob.lastResult := marks.get (by decide) _
    rw [apart _ (by decide), raises.get List.not_mem_nil, toKeys _ (by decide), puts.get (by decide), lastC, aborts hf, lastA]

/-! ### A relay fault latches (R354, R356) -/

/-- The entries that a relay fault writes. -/
def latchKeys : List Nat := Ob.latchedFault :: safeKeys

theorem showLatched_laws (m : Mod) :
    Within [.obj] [Ob.latchedFault] m m.showLatched
    ∧ m.showLatched.get Ob.latchedFault = (match m.sdc.relayFault with | some c => c | none => if m.sdc.discFault then 0x4A01 else 0) := by
  unfold Mod.showLatched
  exact ⟨(Within.refl _ _ m).put _ _ (by decide) (by decide), get_put_same _⟩

/-- What a relay fault brings about. -/
structure Latched (code : Nat) (a b : Mod) : Prop where
  within : Within safeParts latchKeys a b
  state  : b.sdcSt = sdcFault
  k1     : b.sdc.k1 = false
  k2     : b.sdc.k2 = false
  judged : b.sdc.judged = { a.sdc with relayFault := some code }.judged
  shown  : b.get Ob.latchedFault = code
  tells  : 82 ∈ b.seenEv
  seen   : 81 ∈ b.seenEv
  rest   : ∀ u, u < 4 → b.gf u = gfRest
  trips  : a.grp.length = 8 → ∀ g, g < 4 → a.inUse g = true → b.Tripped g
  tested : testing a.sdcSt = true → 0x4A02 ≤ code → code ≤ 0x4A05 → 84 ∈ b.seenEv ∧ b.get Ob.lastResult = 2

/-- The sections that wait for a close, each with its entries, stop at a relay fault. -/
theorem waitKeys (s : Nat) (h4 : s < 4) : [Ob.gfState s, Ob.rtState s, Ob.outState s] ⊆ demandKeys := by
  refine fun _ hk => (demandKeys_sub s h4).2 ?_
  simp only [List.mem_cons, List.not_mem_nil, or_false] at hk
  unfold stopKeys
  rcases hk with rfl | rfl | rfl <;> simp

theorem grpLen_gfToRest (s fault : Nat) (m : Mod) : (m.gfToRest s fault).grp.length = m.grp.length := by
  unfold Mod.gfToRest
  generalize hA : Mod.modSec s _ m = A
  have a : A.grp = m.grp := by subst hA; rfl
  have b : (A.endIdRun s).grp = A.grp := (endIdRun_laws s A).1 .grp (by decide)
  generalize A.endIdRun s = B at b
  have c : (B.rtTo s 0).grp = B.grp := (rtTo_laws s 0 B).1 .grp (by decide)
  generalize B.rtTo s 0 = C at c
  have d : (C.stopCtx s).grp = C.grp := only_stopCtx s C .grp (by decide)
  generalize C.stopCtx s = D at d
  have p : (D.pwmOff s).grp.length = D.grp.length := by
    unfold Mod.pwmOff Mod.showOut
    rw [put_grp]
    exact List.length_modify _ _ _
  generalize D.pwmOff s = E at p
  have e : (E.gfTo s gfRest).grp = E.grp := (gfTo_laws s gfRest E).1 .grp (by decide)
  generalize E.gfTo s gfRest = F at e
  generalize (if fault = 0 then (m.secAt s).failCode else fault) = v
  have f : (F.gfStartEnd s true v).grp = F.grp := (gfStartEnd_laws s true v F).1 .grp (by decide)
  rw [f, e, p, d, c, b, a]

theorem layout_notLatch : ∀ g, g < 4 → Ob.grpLayout g ∉ Ob.latchedFault :: [Ob.lastTest, Ob.lastResult] ++ demandKeys := by decide

theorem latchRelay_laws (code : Nat) {m : Mod} (hn : m.sdc.relayFault = none) (hS : m.sdcSt ≠ sdcSafe) (hF : m.sdcSt ≠ sdcFault)
    (hL : m.sdcSt ≠ sdcLockout) : Latched code m (m.latchRelay code) := by
  unfold Mod.latchRelay
  dsimp only
  rw [if_neg (by simp [hn])]
  generalize hA : m.modSdc (fun x => { x with relayFault := some code }) = A
  have marks : Only [.sdc] m A := by subst hA; exact only_modSdc _ _
  have sdcA : A.sdc = { m.sdc with relayFault := some code } := by subst hA; rfl
  clear hA
  obtain ⟨shows, shown⟩ := showLatched_laws A
  rw [sdcA] at shown
  generalize A.showLatched = B at shows shown
  generalize hC : B.raise 82 sevFault code 3 = C
  have raises : Within evParts [] B C := by subst hC; exact (Within.refl _ _ B).raise _ _ _ _ (List.Subset.refl _)
  have tells : 82 ∈ C.seenEv := by subst hC; exact seen_raised _ _ _ _ _
  clear hC
  have sdcC : C.sdc = A.sdc := (raises.1 .sdc (by decide)).trans (shows.1 .sdc (by decide))
  generalize hD : (if testing m.sdcSt = true then _ else C) = D
  have ends : Within ([.obj, .sto] ++ evParts) [Ob.lastTest, Ob.lastResult] C D ∧ D.sdc = C.sdc
      ∧ (testing m.sdcSt = true → 0x4A02 ≤ code → code ≤ 0x4A05 → 84 ∈ D.seenEv ∧ D.get Ob.lastResult = 2) := by
    subst hD
    split
    next =>
      generalize hr : (if (decide (0x4A02 ≤ code) && decide (code ≤ 0x4A05)) = true then 2 else 3) = r
      obtain ⟨within, sdc, result, told⟩ := testEnds_laws (result := r) code C (by subst hr; split <;> decide)
      refine ⟨within, sdc, fun _ h1 h2 => ⟨told, result.trans ?_⟩⟩
      subst hr
      exact if_pos (by simp [h1, h2])
    next h => exact ⟨Within.refl _ _ C, rfl, fun ht => absurd ht h⟩
  clear hD
  obtain ⟨ends, sdcD, tested⟩ := ends
  generalize hE : D.each _ _ = E
  have stops : Within demandParts demandKeys D E := by
    subst hE
    refine (Within.refl _ _ D).each _ _ (fun s hs x => ?_)
    have h4 : s < 4 := List.mem_range.1 (List.mem_filter.1 hs).1
    exact ((Within.refl demandParts demandKeys x).raise _ _ _ _ (by decide)).andThen (within_gfToRest s 0x3005 _).1 (by decide) (waitKeys s h4)
  have grpE : E.grp.length = D.grp.length := by
    subst hE
    refine each_invariant (I := fun x => x.grp.length = D.grp.length) rfl (fun n _ x hx => ?_)
    rw [grpLen_gfToRest, show (Mod.raise 67 _ _ _ x).grp = x.grp from raise_part _ _ _ _ _ .grp (by decide), hx]
  clear hE
  have sdcE : E.sdc = A.sdc := (stops.1 .sdc (by decide)).trans (sdcD.trans sdcC)
  have grpD : D.grp = m.grp := ((((ends.1 .grp (by decide)).trans (raises.1 .grp (by decide))).trans (shows.1 .grp (by decide))).trans
    (marks .grp (by decide)))
  have upto : Within safeParts (Ob.latchedFault :: [Ob.lastTest, Ob.lastResult] ++ demandKeys) m E :=
    (((((Within.refl _ _ m).only marks (by decide) (by decide) (by decide)).andThen shows (by decide) (by simp)).andThen raises (by decide)
      (by simp)).andThen ends (by decide) (by simp)).andThen stops (by decide) (List.subset_append_right _ _)
  have stateE : E.sdcSt = m.sdcSt := upto.get (by decide)
  obtain ⟨enters, ⟨state, k1, k2, judged, -, seen, rest, trips⟩, last⟩ := enterSafe_laws (new := sdcFault) (m := E) (Or.inr rfl) (by rwa [stateE])
    (by rwa [stateE]) (by rwa [stateE])
  have past : ∀ k, 0x410000 ≤ k → E.get k = D.get k := fun k hk => stops.get (fun hm => absurd (demandKeys_low k hm) (by omega))
  refine ⟨(upto.mono (List.Subset.refl _) ?_).andThen enters (List.Subset.refl _) (by simp [latchKeys]), state, k1, k2, by rw [judged, sdcE, sdcA], ?_,
    enters.seen (stops.seen (ends.seen tells)), seen, rest, fun hl g h4 hi => trips (by rw [grpE, grpD, hl]) g h4 ?_, fun ht h1 h2 => ?_⟩
  · unfold latchKeys safeKeys
    intro k hk
    simp only [List.cons_append, List.nil_append, List.mem_cons] at hk ⊢
    tauto
  · rw [enters.get (by decide), past _ (by decide), ends.get (by decide), raises.get List.not_mem_nil, shown]
  · have used : E.inUse g = m.inUse g := by
      unfold Mod.inUse Mod.layout
      rw [upto.get (layout_notLatch g h4)]
    rw [used, hi]
  · obtain ⟨told, result⟩ := tested ht h1 h2
    exact ⟨enters.seen (stops.seen told), (last rfl).trans ((past _ (by decide)).trans result)⟩

theorem latchRelay_again (code : Nat) {m : Mod} (h : m.sdc.relayFault.isSome = true) : m.latchRelay code = m := by
  unfold Mod.latchRelay
  exact if_pos h

/-! ### A sample (R346 to R353) -/

/-- The safe state of `a`'s groups and sections stands, as SAFE or as FAULT. -/
structure Held (a b : Mod) : Prop where
  state : b.sdcSt = sdcSafe ∨ b.sdcSt = sdcFault
  k1    : b.sdc.k1 = false
  k2    : b.sdc.k2 = false
  seen  : 81 ∈ b.seenEv
  rest  : ∀ u, u < 4 → b.gf u = gfRest
  trips : ∀ g, g < 4 → a.inUse g = true → b.Tripped g

/-- The state of `a`, and the groups as they were, before anything is judged. -/
structure Unjudged (a b : Mod) : Prop where
  state : b.sdcSt = a.sdcSt
  grp   : b.grp = a.grp
  used  : ∀ g, g < 4 → b.inUse g = a.inUse g

/-- A sample under way: the inputs of channel A and the clock stay, and the safe state has been entered by a relay fault or not at all. -/
structure Sampled (a b : Mod) : Prop where
  clk   : b.clk = a.clk
  input : b.sdc.a = a.sdc.a
  phase : Unjudged a b ∨ (b.sdc.relayFault.isSome = true ∧ Held a b)

theorem Sampled.refl (a : Mod) : Sampled a a := ⟨rfl, rfl, Or.inl ⟨rfl, rfl, fun _ _ => rfl⟩⟩

/-- Entries of the findings, apart from the state, the sections and the layout. -/
theorem findingKeys_apart : ∀ k ∈ [Ob.latchedFault, Ob.discCount, Ob.discLast, Ob.safeCause], k ≠ Ob.sdcState ∧ 0x450000 ≤ k := by decide

/-- A finding that is shown and counted. -/
theorem Sampled.finds {a b c : Mod} (h : Sampled a b) {l : List Part} {ks : List Nat} (w : Within l ks b c) (hl : l ⊆ [.sdc, .obj] ++ evParts)
    (hk : ks ⊆ [Ob.latchedFault, Ob.discCount, Ob.discLast, Ob.safeCause]) (ha : c.sdc.a = b.sdc.a) (h1 : c.sdc.k1 = b.sdc.k1)
    (h2 : c.sdc.k2 = b.sdc.k2) (hr : c.sdc.relayFault = b.sdc.relayFault) : Sampled a c := by
  have w := w.mono hl hk
  have grp : c.grp = b.grp := w.1 .grp (by decide)
  have get : ∀ k, k = Ob.sdcState ∨ k < 0x450000 → c.get k = b.get k := fun k hk => w.get (fun hm => by
    obtain ⟨n1, n2⟩ := findingKeys_apart k hm
    omega)
  have state : c.sdcSt = b.sdcSt := get _ (Or.inl rfl)
  refine ⟨(w.1 .clk (by decide)).trans h.clk, ha.trans h.input, ?_⟩
  rcases h.phase with ⟨s, g, u⟩ | ⟨fault, ⟨s, r1, r2, seen, rest, trips⟩⟩
  · refine Or.inl ⟨state.trans s, grp.trans g, fun n h4 => ?_⟩
    have layout : c.layout n = b.layout n := get _ (Or.inr (by unfold Ob.grpLayout; omega))
    unfold Mod.inUse at u ⊢
    rw [layout, u n h4]
  · refine Or.inr ⟨hr ▸ fault, ⟨by rwa [state], h1.trans r1, h2.trans r2, w.seen seen, fun u h4 => ?_, fun g h4 hi => (trips g h4 hi).of_grp grp⟩⟩
    exact (get _ (Or.inr (by unfold Ob.gfState; omega))).trans (rest u h4)

/-- A relay fault found in a sample. -/
theorem Sampled.latches {a b : Mod} (h : Sampled a b) (code : Nat) (hl : a.grp.length = 8) (hS : a.sdcSt ≠ sdcSafe) (hF : a.sdcSt ≠ sdcFault)
    (hL : a.sdcSt ≠ sdcLockout) : Sampled a (b.latchRelay code) := by
  rcases h.phase with ⟨s, g, u⟩ | ⟨fault, -⟩
  · cases hr : b.sdc.relayFault with
    | some c => rw [latchRelay_again code (by rw [hr]; rfl)]; exact h
    | none =>
      obtain ⟨within, state, k1, k2, judged, -, -, seen, rest, trips, -⟩ := latchRelay_laws code (m := b) hr (by rwa [s]) (by rwa [s]) (by rwa [s])
      unfold SdcRt.judged at judged
      simp only [Prod.mk.injEq] at judged
      obtain ⟨input, -, relay, -⟩ := judged
      exact ⟨(within.1 .clk (by decide)).trans h.clk, input.trans h.input, Or.inr ⟨by rw [relay]; rfl, ⟨Or.inr state, k1, k2, seen, rest,
        fun n h4 hi => trips (by rw [g, hl]) n h4 (by rw [u n h4, hi])⟩⟩⟩
  · rw [latchRelay_again code fault]; exact h

theorem Sampled.marks {a b : Mod} (h : Sampled a b) {f : SdcRt → SdcRt} (hf : (f b.sdc).a = b.sdc.a ∧ (f b.sdc).k1 = b.sdc.k1
    ∧ (f b.sdc).k2 = b.sdc.k2 ∧ (f b.sdc).relayFault = b.sdc.relayFault) : Sampled a (b.modSdc f) :=
  h.finds (.of_only (ks := []) (only_modSdc b f) (by decide) (by decide)) (by decide) (by simp) hf.1 hf.2.1 hf.2.2.1 hf.2.2.2

theorem Sampled.shows {a b : Mod} (h : Sampled a b) : Sampled a b.showLatched :=
  h.finds (showLatched_laws b).1 (by decide) (by decide) rfl rfl rfl rfl

theorem Sampled.raise {a b : Mod} (h : Sampled a b) (ev sev fault arg : Nat) : Sampled a (b.raise ev sev fault arg) := by
  have sdc : (b.raise ev sev fault arg).sdc = b.sdc := raise_part _ _ _ _ _ .sdc (by decide)
  exact h.finds ((Within.refl evParts [] b).raise _ _ _ _ (List.Subset.refl _)) (by decide) (by simp) (by rw [sdc]) (by rw [sdc]) (by rw [sdc]) (by rw [sdc])

theorem Sampled.ite {a b c : Mod} {p : Prop} [Decidable p] (h : Sampled a b) (h' : Sampled a c) : Sampled a (if p then b else c) := by
  split <;> assumption

theorem Sampled.orClears {a b : Mod} {p : Prop} [Decidable p] {f : SdcRt → SdcRt} (h : Sampled a b) (hf : ∀ x : SdcRt, (f x).a = x.a
    ∧ (f x).k1 = x.k1 ∧ (f x).k2 = x.k2 ∧ (f x).relayFault = x.relayFault) : Sampled a (if p then (b.modSdc f).showLatched else b) :=
  (h.marks (hf b.sdc)).shows.ite h

theorem Sampled.orLatches {a b : Mod} {p : Prop} [Decidable p] (h : Sampled a b) (code : Nat) (hl : a.grp.length = 8) (hS : a.sdcSt ≠ sdcSafe)
    (hF : a.sdcSt ≠ sdcFault) (hL : a.sdcSt ≠ sdcLockout) : Sampled a (if p then b.latchRelay code else b) :=
  (h.latches code hl hS hF hL).ite h

theorem sampled_discrepancy {a b : Mod} (h : Sampled a b) : Sampled a b.discrepancy := by
  unfold Mod.discrepancy
  dsimp only
  split
  · split
    · exact (((h.marks ⟨rfl, rfl, rfl, rfl⟩).marks ⟨rfl, rfl, rfl, rfl⟩).shows).raise _ _ _ _
    · exact h.marks ⟨rfl, rfl, rfl, rfl⟩
  · have marked : Sampled a (b.modSdc (fun y => { y with discRun := 0, bothSeen := y.bothSeen || (y.discFault && !y.b.sdrA && !y.b.sdrB) })) :=
      h.marks ⟨rfl, rfl, rfl, rfl⟩
    refine Sampled.orClears (Sampled.ite ?_ marked) (fun _ => ⟨rfl, rfl, rfl, rfl⟩)
    generalize b.modSdc _ = C at marked
    exact (marked.finds (((Within.refl [.obj] [Ob.discCount, Ob.discLast] C).put _ _ (by decide) (by decide)).put _ _ (by decide)
      (by decide)) (by decide) (by decide) rfl rfl rfl rfl).raise _ _ _ _

section
variable {a b : Mod} (hl : a.grp.length = 8) (hS : a.sdcSt ≠ sdcSafe) (hF : a.sdcSt ≠ sdcFault) (hL : a.sdcSt ≠ sdcLockout)
include hl hS hF hL

theorem sampled_disagreements (h : Sampled a b) : Sampled a b.disagreements := by
  unfold Mod.disagreements
  dsimp only
  exact ((h.marks ⟨rfl, rfl, rfl, rfl⟩).orLatches _ hl hS hF hL).orLatches _ hl hS hF hL

theorem sampled_relayReadings (h : Sampled a b) : Sampled a b.relayReadings := by
  have latches := fun code => h.latches code hl hS hF hL
  unfold Mod.relayReadings
  dsimp only
  split
  · exact latches _
  split
  · exact latches _
  split
  · exact latches _
  split
  · exact latches _
  · exact h

/-- A sample with a demand ends in the safe state. -/
theorem sampled_judges (h : Sampled a b) (hd : demands b.sdc.a = true) :
    Held a b.sdcJudge ∧ b.sdcJudge.clk = a.clk ∧ b.sdcJudge.safeCauses ≠ 0 := by
  have caused : b.safeCauses ≠ 0 := by
    unfold Mod.safeCauses
    simp [hd, b2n]
  unfold Mod.sdcJudge
  rw [if_neg caused]
  rcases h.phase with ⟨s, g, u⟩ | ⟨-, ⟨s, r1, r2, seen, rest, trips⟩⟩
  · obtain ⟨within, ⟨state, k1, k2, judged, -, seen, rest, trips⟩, -⟩ := enterSafe_laws (new := sdcSafe) (m := b) (Or.inl rfl) (by rwa [s])
      (by rwa [s]) (by rwa [s])
    exact ⟨⟨Or.inl state, k1, k2, seen, rest, fun n h4 hi => trips (by rw [g, hl]) n h4 (by rw [u n h4, hi])⟩,
      (within.1 .clk (by decide)).trans h.clk, by rw [safeCauses_judged judged]; exact caused⟩
  · have stays : b.enterSafe sdcSafe = b.put Ob.safeCause b.safeCauses := by
      unfold Mod.enterSafe
      exact if_pos (by rcases s with s | s <;> simp [s])
    rw [stays]
    refine ⟨⟨?_, r1, r2, seen, fun v h4 => ?_, fun n h4 hi => (trips n h4 hi).of_grp rfl⟩, h.clk, caused⟩
    · unfold Mod.sdcSt at s ⊢
      rwa [get_put_other _ (by decide)]
    · exact (get_put_other _ (by unfold Ob.gfState Ob.safeCause; omega)).trans (rest v h4)

end

/-- A sample whose channel A demands. -/
theorem sdcSample_safe {x y : SdcInputs} {m : Mod} (hd : demands x = true) (hr : m.sdc.resetLow = false) (hlock : m.sdc.lockout = false)
    (hl : m.grp.length = 8) (hS : m.sdcSt ≠ sdcSafe) (hF : m.sdcSt ≠ sdcFault) (hL : m.sdcSt ≠ sdcLockout) :
    Held m (m.sdcSample x y) ∧ (m.sdcSample x y).now = max m.now (m.sdc.samplePs + msPs 1) := by
  unfold Mod.sdcSample
  generalize m.sdc.samplePs + msPs 1 = q
  dsimp only
  rw [if_neg (by simp [hr, hlock])]
  generalize hA : Mod.showLevels _ = A
  have begins : Within [.clk, .sdc, .obj] [Ob.sdrLevel, Ob.fbLevel] m A := by
    subst hA
    unfold Mod.showLevels
    exact (((Within.refl _ _ m).only ((Only.refl [.clk] m).oReach (by decide)) (by decide) (by decide) (by decide)).only (only_modSdc _ _) (by decide)
      (by decide) (by decide)).put _ _ (by decide) (by decide) |>.put _ _ (by decide) (by decide)
  have now : A.now = max m.now q := by subst hA; rfl
  have input : A.sdc.a = x := by subst hA; rfl
  clear hA
  have state : A.sdcSt = m.sdcSt := begins.get (by decide)
  have grp : A.grp = m.grp := begins.1 .grp (by decide)
  have used : ∀ g, g < 4 → A.inUse g = m.inUse g := by
    intro g h4
    unfold Mod.inUse Mod.layout
    rw [begins.get]
    unfold Ob.grpLayout Ob.sdrLevel Ob.fbLevel
    simp only [List.mem_cons, List.not_mem_nil, or_false]
    omega
  have lenA : A.grp.length = 8 := by rw [grp, hl]
  rw [← state] at hS hF hL
  have samples := sampled_relayReadings lenA hS hF hL (sampled_disagreements lenA hS hF hL (sampled_discrepancy (Sampled.refl A)))
  generalize A.discrepancy.disagreements.relayReadings = B at samples
  obtain ⟨held, clk, caused⟩ := sampled_judges lenA hS hF hL samples (by rw [samples.input, input, hd])
  generalize B.sdcJudge = C at held clk caused
  have noRelease : C.sdcRelease = C := by
    unfold Mod.sdcRelease
    exact if_neg (by simp [caused])
  rw [noRelease]
  obtain ⟨st, k1, k2, seen, rest, trips⟩ := held
  refine ⟨⟨st, k1, k2, seen, rest, fun g h4 hi => (trips g h4 (by rw [used g h4, hi])).of_grp rfl⟩, ?_⟩
  show C.now = _
  unfold Mod.now at now ⊢
  rw [clk, now]

/-! ### The other causes -/

theorem latchAfter_eq (edge : Option Nat) (ms code : Nat) (m : Mod) :
    ∃ q, m.latchAfter edge ms code = (m.reach q).latchRelay code ∧ ∀ t, edge = some t → t + msPs ms = q := by
  cases edge with
  | none => exact ⟨0, rfl, fun _ h => absurd h (by simp)⟩
  | some t => exact ⟨_, rfl, fun _ h => by rw [Option.some.inj h]⟩

theorem bit2_causes (a b d e : Bool) : bit (b2n a + 2 * b2n b + 4 * b2n true + 8 * b2n d + 16 * b2n e) 2 = true := by
  cases a <;> cases b <;> cases d <;> cases e <;> rfl

/-- A cause that is found while the safe state does not stand: it is judged at once. -/
theorem judges_safe {a b : Mod} {ks : List Nat} (w : Within ([.obj, .sdc] ++ evParts) ks a b) (hk : ∀ k ∈ ks, 0x450000 ≤ k ∧ k ≠ Ob.sdcState)
    (hc : b.safeCauses ≠ 0) (hl : a.grp.length = 8) (hS : a.sdcSt ≠ sdcSafe) (hF : a.sdcSt ≠ sdcFault) (hL : a.sdcSt ≠ sdcLockout) :
    Within safeParts safeKeys b b.sdcJudge ∧ b.sdcJudge.sdcSt = sdcSafe ∧ b.sdcJudge.sdc.k1 = false ∧ b.sdcJudge.sdc.k2 = false
    ∧ b.sdcJudge.sdc.judged = b.sdc.judged ∧ b.sdcJudge.get Ob.safeCause = b.safeCauses ∧ 81 ∈ b.sdcJudge.seenEv
    ∧ (∀ u, u < 4 → b.sdcJudge.gf u = gfRest) ∧ (∀ g, g < 4 → a.inUse g = true → b.sdcJudge.Tripped g) := by
  have state : b.sdcSt = a.sdcSt := w.get (fun hm => (hk _ hm).2 rfl)
  have grp : b.grp = a.grp := w.1 .grp (by decide)
  unfold Mod.sdcJudge
  rw [if_neg hc]
  obtain ⟨within, ⟨st, k1, k2, judged, cause, seen, rest, trips⟩, -⟩ := enterSafe_laws (new := sdcSafe) (m := b) (Or.inl rfl) (by rwa [state])
    (by rwa [state]) (by rwa [state])
  refine ⟨within, st, k1, k2, judged, cause, seen, rest, fun g h4 hi => trips (by rw [grp, hl]) g h4 ?_⟩
  have layout : b.layout g = a.layout g := w.get (fun hm => absurd (hk _ hm).1 (by unfold Ob.grpLayout; omega))
  unfold Mod.inUse at hi ⊢
  rw [layout, hi]

theorem within_statusLinkBad (bad : Nat) (m : Mod) :
    Within [.obj] [Ob.safetyLinkCrcFail 0, Ob.safetyLinkCrcFail 1] m (m.statusLinkBad bad)
    ∧ ∀ l, l < 2 → (m.statusLinkBad bad).get (Ob.safetyLinkCrcFail l)
        = (if bit bad l then (m.get (Ob.safetyLinkCrcFail l) + 1) % 4294967296 else m.get (Ob.safetyLinkCrcFail l)) := by
  unfold Mod.statusLinkBad
  constructor
  · refine (Within.refl _ _ m).each _ _ (fun l hl x => (Within.refl _ _ x).put _ _ (by decide) ?_)
    have h2 : l < 2 := List.mem_range.1 (List.mem_filter.1 hl).1
    have : l = 0 ∨ l = 1 := by omega
    rcases this with rfl | rfl <;> decide
  · intro l hl
    have bits : bitsOf 2 bad = (if bit bad 0 then [0] else []) ++ (if bit bad 1 then [1] else []) := by
      unfold bitsOf bit
      rw [show List.range 2 = [0, 1] from rfl, List.filter_cons, List.filter_cons, List.filter_nil]
      cases bad.testBit 0 <;> cases bad.testBit 1 <;> rfl
    rw [bits]
    have : l = 0 ∨ l = 1 := by omega
    rcases this with rfl | rfl
    · cases bit bad 0 <;> cases bit bad 1 <;>
        simp [Mod.each, Mod.bump, get_put_other _ (show Ob.safetyLinkCrcFail 0 ≠ Ob.safetyLinkCrcFail 1 by decide)]
    · cases bit bad 0 <;> cases bit bad 1 <;>
        simp [Mod.each, Mod.bump, get_put_other _ (show Ob.safetyLinkCrcFail 1 ≠ Ob.safetyLinkCrcFail 0 by decide)]

/-! ### The statement -/

/-- Settles O48: each cause is judged at once and enters the safe state; a relay that is late latches its fault. -/
theorem causesBringTheSafeState : Obligations.CausesBringTheSafeState := by
  unfold Obligations.CausesBringTheSafeState
  intro s a b chanB bad hgrp hsec hS hF hL
  refine ⟨fun hd hr hlock => ?sample, fun hlost hr => ?lostFrame, fun hc => ?goodFrames, fun hr => ?linkLoss, fun ho => ?osc,
    fun hdiff hd hr ht => ?discrepancy, fun hst hc hr => ?late⟩
  case sample =>
    obtain ⟨⟨state, k1, k2, seen, rest, trips⟩, now⟩ := sdcSample_safe (x := a) (y := b) (m := s.m)
      (by unfold demands; rcases hd with h | h <;> simp [h]) hr hlock hgrp hS hF hL
    exact does_onMod rfl rfl ⟨state, k1, k2, seen, now, trips, rest⟩
  case lostFrame =>
    obtain ⟨counts, -⟩ := within_statusLinkBad bad s.m
    refine does_onMod rfl rfl ?_
    unfold Mod.crosslinkFrame
    generalize s.m.statusLinkBad bad = A at counts
    have sdc : A.sdc = s.m.sdc := counts.1 .sdc (by decide)
    dsimp only
    rw [sdc, hr, if_neg (by decide)]
    generalize hB : A.modSdc _ = B
    have marks : Only [.sdc] A B := by subst hB; exact only_modSdc _ _
    have lost : B.sdc.lostA = 3 := by subst hB; show A.sdc.lostA + 1 = 3; rw [sdc, hlost]
    clear hB
    have caused : B.safeCauses ≠ 0 := by unfold Mod.safeCauses; simp [lost, b2n]
    obtain ⟨-, state, k1, k2, judged, -, seen, rest, trips⟩ := judges_safe
      ((counts.mono (by decide) (List.Subset.refl _)).only marks (by decide) (by decide) (by decide)) (by decide) caused hgrp hS hF hL
    unfold SdcRt.judged at judged
    simp only [Prod.mk.injEq] at judged
    obtain ⟨-, -, -, -, lostA, -⟩ := judged
    exact ⟨state, lostA.trans lost, k1, k2, seen, trips, rest⟩
  case goodFrames =>
    obtain ⟨counts, shown⟩ := within_statusLinkBad bad s.m
    refine does_onMod rfl rfl ?_
    unfold Mod.crosslinkFrame
    generalize s.m.statusLinkBad bad = A at counts shown
    have sdc : A.sdc = s.m.sdc := counts.1 .sdc (by decide)
    dsimp only
    simp only [if_true]
    generalize hB : A.modSdc _ = B
    have marks : Only [.sdc] A B := by subst hB; exact only_modSdc _ _
    have lost : B.sdc.lostA = 0 ∧ B.sdc.lostB = 0 := by subst hB; exact ⟨rfl, rfl⟩
    have causes : B.safeCauses = 0 := by
      refine (safeCauses_judged ?_).trans hc
      subst hB
      unfold SdcRt.judged
      simp only [modSdc_sdc, sdc]
    have same : (if A.sdc.resetLow = true then B else B.sdcJudge) = B := by
      unfold Mod.sdcJudge
      rw [if_pos causes, ite_self]
    rw [same]
    have keeps : ∀ k, B.get k = A.get k := marks.get (by decide)
    exact ⟨lost.1, lost.2, fun l hl => (keeps _).trans (shown l hl), (counts.1.mono (by decide)).to marks (by decide),
      fun k hk => (keeps k).trans (counts.get hk)⟩
  case linkLoss =>
    refine does_onMod rfl rfl ?_
    unfold Mod.safetyLinkLoss
    rw [hr, if_neg (by decide)]
    generalize hB : s.m.modSdc _ = B
    have marks : Only [.sdc] s.m B := by subst hB; exact only_modSdc _ _
    have lost : (3 ≤ B.sdc.lostA || 3 ≤ B.sdc.lostB) = true := by
      subst hB
      cases chanB <;> simp [modSdc_sdc]
    clear hB
    have cause : bit B.safeCauses 2 = true := by
      unfold Mod.safeCauses
      dsimp only
      rw [lost]
      exact bit2_causes _ _ _ _
    have caused : B.safeCauses ≠ 0 := by
      intro h
      rw [h] at cause
      exact absurd cause (by decide)
    obtain ⟨-, state, k1, k2, -, shown, seen, -, trips⟩ := judges_safe (ks := [])
      (Within.mono (.of_only (ks := []) marks (by decide) (by decide)) (by decide) (List.Subset.refl _)) (by simp) caused hgrp hS hF hL
    exact ⟨state, k1, k2, by rw [shown, cause], seen, trips⟩
  case osc =>
    refine does_onMod rfl rfl ?_
    unfold Mod.oscFault
    rw [ho, if_neg (by decide)]
    generalize hA : s.m.modSdc _ = A
    have marks : Only [.sdc] s.m A := by subst hA; exact only_modSdc _ _
    have osc : A.sdc.oscDemand = true := by subst hA; rfl
    clear hA
    generalize hB : A.raise 82 sevFault 0x4A0D 2 = B
    have raises : Within evParts [] A B := by subst hB; exact (Within.refl _ _ A).raise _ _ _ _ (List.Subset.refl _)
    have told : 82 ∈ B.seenEv := by subst hB; exact seen_raised _ _ _ _ _
    clear hB
    have oscB : B.sdc.oscDemand = true := by rw [show B.sdc = A.sdc from raises.1 .sdc (by decide)]; exact osc
    have caused : B.safeCauses ≠ 0 := by unfold Mod.safeCauses; simp [oscB, b2n]
    obtain ⟨enters, state, k1, k2, judged, -, -, -, trips⟩ := judges_safe (ks := [])
      ((Within.mono (.of_only (ks := []) marks (by decide) (by decide)) (by decide) (List.Subset.refl _)).andThen raises (by decide) (by simp))
      (by simp) caused hgrp hS hF hL
    unfold SdcRt.judged at judged
    simp only [Prod.mk.injEq] at judged
    obtain ⟨-, -, -, -, -, -, demand, -⟩ := judged
    exact ⟨state, demand.trans oscB, k1, k2, enters.seen told, trips⟩
  case discrepancy =>
    refine does_onMod rfl rfl ?_
    unfold Mod.discFault
    rw [if_pos (by simp [ht, hdiff, hd])]
    generalize hA : s.m.modSdc _ = A
    have marks : Only [.sdc] s.m A := by subst hA; exact only_modSdc _ _
    have faults : A.sdc.discFault = true ∧ A.sdc.relayFault = none := by subst hA; exact ⟨rfl, hr⟩
    clear hA
    obtain ⟨disc, relay⟩ := faults
    obtain ⟨shows, shown⟩ := showLatched_laws A
    rw [relay, disc] at shown
    generalize A.showLatched = B at shows shown
    generalize hC : B.raise 82 sevFault 0x4A01 2 = C
    have raises : Within evParts [] B C := by subst hC; exact (Within.refl _ _ B).raise _ _ _ _ (List.Subset.refl _)
    have told : 82 ∈ C.seenEv := by subst hC; exact seen_raised _ _ _ _ _
    clear hC
    have discC : C.sdc.discFault = true := by
      rw [show C.sdc = B.sdc from raises.1 .sdc (by decide), show B.sdc = A.sdc from shows.1 .sdc (by decide)]; exact disc
    have caused : C.safeCauses ≠ 0 := by unfold Mod.safeCauses; simp [discC, b2n]
    obtain ⟨enters, state, k1, k2, judged, -, -, -, -⟩ := judges_safe (ks := [Ob.latchedFault])
      (((Within.mono (.of_only (ks := []) marks (by decide) (by decide)) (by decide) (by simp)).andThen shows (by decide) (by simp)).andThen raises
      (by decide) (by simp)) (by decide) caused hgrp hS hF hL
    unfold SdcRt.judged at judged
    simp only [Prod.mk.injEq] at judged
    obtain ⟨-, -, -, discD, -⟩ := judged
    exact ⟨state, discD.trans discC, ((enters.get (by decide)).trans (raises.get List.not_mem_nil)).trans shown, k1, k2, enters.seen told⟩
  case late =>
    refine does_onMod rfl (N := s.m.latchAfter s.m.sdc.k1Edge (s.m.get Ob.operateMax) 0x4A02) ?_ ?_
    · unfold Mod.relayTimeout
      dsimp only
      rw [if_pos hst, hc]
      rfl
    · obtain ⟨q, eq, due⟩ := latchAfter_eq s.m.sdc.k1Edge (s.m.get Ob.operateMax) 0x4A02 s.m
      rw [eq]
      obtain ⟨within, state, k1, k2, judged, shown, told, -, -, -, tested⟩ := latchRelay_laws 0x4A02 (m := s.m.reach q) hr hS hF hL
      obtain ⟨ended, result⟩ := tested (by show testing s.m.sdcSt = true; rw [hst]; rfl) (by decide) (by decide)
      unfold SdcRt.judged at judged
      simp only [Prod.mk.injEq] at judged
      obtain ⟨-, -, relay, -⟩ := judged
      have now : ((s.m.reach q).latchRelay 0x4A02).now = max s.m.now q := within.1.now (by decide)
      refine ⟨fun t ht => ?_, state, relay, shown, k1, k2, told, ended, result⟩
      rw [due t ht, now]
      exact Nat.le_max_right _ _

end Sys2Proof.Machine
end

section
/-!
PROOFS. Connection, its weld test, the test interval, the seals and RESET_N (R354 to R363): the steps of the sequence and the
statement on them (O49).
-/
namespace Sys2Proof.Machine

/-! ### A step of the sequence -/

/-- SDC_STATE changes: EV080 tells it, and the timer of the step begins anew. -/
theorem sdcTo_changes {new : Nat} {m : Mod} (h : m.sdcSt ≠ new) :
    (m.sdcTo new).sdcSt = new ∧ (m.sdcTo new).sdc = { m.sdc with readyPs := none } ∧ 80 ∈ (m.sdcTo new).seenEv
    ∧ Within ([.sdc, .obj] ++ evParts) [Ob.sdcState] m (m.sdcTo new) := by
  obtain ⟨only, entries, state, -⟩ := sdcTo_laws new m
  have eq : m.sdcTo new = ((m.modSdc (fun x => { x with readyPs := none })).put Ob.sdcState new).inform 80 (new + 256 * m.sdcSt) := if_neg h
  have sdc : (m.sdcTo new).sdc = { m.sdc with readyPs := none } := by rw [eq, inform_eq, raiseAt_sdc]; rfl
  refine ⟨state, sdc, by rw [eq]; exact seen_raised _ _ _ _ _, only, entries, ?_⟩
  rw [eq]
  exact SeenGrows.later (by rfl) (SeenGrows.raise _ _ _ _ _)

/-- The state of the sequence is apart from the counts of the relays. -/
theorem sdcSt_driveK1 (v : Bool) (m : Mod) : (m.driveK1 v).sdcSt = m.sdcSt := (driveK1_laws v m).1.get (by decide)
theorem sdcSt_driveK2 (v : Bool) (m : Mod) : (m.driveK2 v).sdcSt = m.sdcSt := (driveK2_laws v m).1.get (by decide)

/-- K1 is driven and the sequence goes on. -/
theorem driveK1_sdcTo {v : Bool} {new : Nat} {m : Mod} (h : m.sdcSt ≠ new) :
    ((m.driveK1 v).sdcTo new).sdcSt = new ∧ ((m.driveK1 v).sdcTo new).sdc.k1 = v ∧ ((m.driveK1 v).sdcTo new).sdc.k2 = m.sdc.k2
    ∧ ((m.driveK1 v).sdcTo new).sdc.request = m.sdc.request ∧ 80 ∈ ((m.driveK1 v).sdcTo new).seenEv
    ∧ ((m.driveK1 v).sdcTo new).now = m.now := by
  obtain ⟨drives, k1, k2, driven, -⟩ := driveK1_laws v m
  obtain ⟨state, sdc, seen, goes⟩ := sdcTo_changes (new := new) (m := m.driveK1 v) (by rwa [sdcSt_driveK1])
  rw [sdc]
  exact ⟨state, k1, k2, driven.request, seen, (goes.1.now (by decide)).trans (drives.1.now (by decide))⟩

/-- K2 is driven and the sequence goes on. -/
theorem driveK2_sdcTo {v : Bool} {new : Nat} {m : Mod} (h : m.sdcSt ≠ new) :
    ((m.driveK2 v).sdcTo new).sdcSt = new ∧ ((m.driveK2 v).sdcTo new).sdc.k2 = v ∧ ((m.driveK2 v).sdcTo new).sdc.k1 = m.sdc.k1 := by
  obtain ⟨-, k2, k1, -, -⟩ := driveK2_laws v m
  obtain ⟨state, sdc, -, -⟩ := sdcTo_changes (new := new) (m := m.driveK2 v) (by rwa [sdcSt_driveK2])
  rw [sdc]
  exact ⟨state, k2, k1⟩

/-- A test that has passed. -/
theorem testPassed_laws (m : Mod) :
    (m.testEnds 1 0).sdc.k1 = m.sdc.k1 ∧ (m.testEnds 1 0).sdc.k2 = m.sdc.k2 ∧ (m.testEnds 1 0).sdcSt = m.sdcSt
    ∧ (m.testEnds 1 0).get Ob.lastResult = 1 ∧ 84 ∈ (m.testEnds 1 0).seenEv := by
  unfold Mod.testEnds
  dsimp only
  rw [if_pos rfl]
  generalize hA : Mod.keep Ob.lastResult 1 _ = A
  have sdc : A.sdc = m.sdc := by subst hA; rfl
  have state : A.sdcSt = m.sdcSt := by subst hA; exact (get_keep_other _ (by decide)).trans (get_keep_other _ (by decide))
  have result : A.get Ob.lastResult = 1 := by subst hA; exact get_keep_same _
  clear hA
  generalize hB : Mod.put Ob.testDue 0 _ = B
  have sdcB : B.sdc.k1 = A.sdc.k1 ∧ B.sdc.k2 = A.sdc.k2 := by subst hB; exact ⟨rfl, rfl⟩
  have getB : ∀ k, k ≠ Ob.testDue → B.get k = A.get k := by subst hB; exact fun k hk => get_put_other _ hk
  clear hB
  unfold Mod.sdcSt at state ⊢
  rw [get_raised, get_raised, show (Mod.raise _ _ _ _ B).sdc = _ from raise_part _ _ _ _ _ .sdc (by decide), sdcB.1, sdcB.2, sdc, getB _ (by decide),
    getB _ (by decide)]
  exact ⟨rfl, rfl, state, result, seen_raised _ _ _ _ _⟩

/-- A request that is withdrawn in a test, or that no section stands behind any longer. -/
theorem withdrawn_testing {m : Mod} (h : testing m.sdcSt = true) :
    (m.connectionRequest false).sdcSt = sdcOpen ∧ (m.connectionRequest false).sdc.k1 = false ∧ (m.connectionRequest false).sdc.k2 = false
    ∧ (m.connectionRequest false).sdc.request = false ∧ (m.connectionRequest false).get Ob.lastResult = 3 := by
  unfold Mod.connectionRequest
  rw [if_neg (by decide)]
  dsimp only
  rw [if_pos h]
  generalize hA : Mod.modSdc _ (Mod.modSdc _ m) = A
  have marks : Only [.sdc] m A := by subst hA; exact (only_modSdc _ _).to (only_modSdc _ _) (by decide)
  have request : A.sdc.request = false := by subst hA; rfl
  clear hA
  obtain ⟨low, k1, k2, driven⟩ := drivesLow_laws A
  have requestB := driven.request
  generalize A.drivesLow = B at low k1 k2 requestB
  obtain ⟨ends, sdc, result, -⟩ := testEnds_laws (result := 3) 0 B (by decide)
  generalize B.testEnds 3 0 = C at ends sdc result
  have state : C.sdcSt = m.sdcSt := (ends.get (by decide)).trans ((low.get (by decide) _).trans (marks.get (by decide) _))
  obtain ⟨stateD, sdcD, -, goes⟩ := sdcTo_changes (new := sdcOpen) (m := C) (by
    rw [state]
    intro h0
    rw [h0] at h
    exact absurd h (by decide))
  rw [sdcD, sdc]
  exact ⟨stateD, k1, k2, requestB.trans request, (goes.get (by decide)).trans result⟩

theorem withdrawn_closed {m : Mod} (h : m.sdcSt = sdcClosed) (ho : m.sdc.overdue = false) :
    (m.connectionRequest false).sdcSt = sdcOpening ∧ (m.connectionRequest false).sdc.k1 = false ∧ (m.connectionRequest false).sdc.k2 = false
    ∧ (m.connectionRequest false).sdc.request = false := by
  unfold Mod.connectionRequest
  rw [if_neg (by decide)]
  dsimp only
  rw [h, if_neg (by decide), if_pos rfl]
  generalize hA : Mod.modSdc _ m = A
  have marks : Only [.sdc] m A := by subst hA; exact only_modSdc _ _
  have sdcA : A.sdc.request = false ∧ A.sdc.overdue = false := by subst hA; exact ⟨rfl, ho⟩
  clear hA
  obtain ⟨low, k1, k2, driven⟩ := drivesLow_laws A
  have request := driven.request.trans sdcA.1
  have overdue := driven.overdue.trans sdcA.2
  generalize A.drivesLow = B at low k1 k2 request overdue
  have state : B.sdcSt = sdcClosed := ((low.get (by decide) _).trans (marks.get (by decide) _)).trans h
  obtain ⟨stateC, sdcC, -, -⟩ := sdcTo_changes (new := sdcOpening) (m := B) (by rw [state]; decide)
  generalize B.sdcTo sdcOpening = C at stateC sdcC
  have same : C.overdueEnds = C := by
    unfold Mod.overdueEnds
    exact if_neg (by simp [sdcC, overdue])
  rw [same, sdcC]
  exact ⟨stateC, k1, k2, request⟩

/-- A step whose readings have been held for 5 ms. -/
theorem stepConfirmed_takes {m : Mod} {t : Nat} (ht : m.sdc.readyPs = some t) (ha : m.asks = true) (hr : m.stepReady = true) :
    m.stepConfirmed = (m.reach (t + msPs 5)).stepTaken := by
  unfold Mod.stepConfirmed
  rw [if_neg (by simp [ha]), ht]
  exact if_pos hr

/-! ### The test interval and the seals (R357, R362) -/

theorem tai_reachTai (t : Int) (m : Mod) : t ≤ (m.reachTai t).tai := by
  unfold Mod.tai Mod.reachTai Mod.reach
  dsimp only
  omega

theorem weldDue_laws {m : Mod} (h : m.sdcSt = sdcClosed) (h0 : m.get Ob.testDue = 0) (hp : m.sdc.passedAt.isSome = true) :
    m.weldDue.get Ob.testDue = 1 ∧ 86 ∈ m.weldDue.seenEv ∧ m.testEnd 1 ≤ m.weldDue.tai ∧ Only (.clk :: .obj :: evParts) m m.weldDue
    ∧ OnlyEntries [Ob.testDue] m m.weldDue := by
  unfold Mod.weldDue
  rw [if_pos (by simp [h, h0, hp])]
  have due := tai_reachTai (m.testEnd 1) m
  have reach : Only [.clk] m (m.reachTai (m.testEnd 1)) := (Only.refl _ m).oReach (by decide)
  generalize m.reachTai (m.testEnd 1) = A at due reach
  dsimp only
  generalize ((A.tai - A.sdc.passedAt.getD A.tai) / 3600000000000).toNat = hours
  refine ⟨(get_raised _ _ _ _ _ _).trans (get_put_same _), seen_raised _ _ _ _ _, ?_,
    ((reach.mono (by decide)).oput (by decide)).oraise _ _ _ _ (by decide), ((reach.onlyEntries (by decide) _).oput (by simp)).raise _ _ _ _⟩
  unfold Mod.tai at due ⊢
  rw [show (Mod.raise 86 sevWarn 0x4A0C hours (A.put Ob.testDue 1)).clk = A.clk from raise_part _ _ _ _ _ .clk (by decide)]
  exact due

theorem within_gfStopNow (s : Nat) (noRamps : Bool) (m : Mod) :
    Within (.sec :: .obj :: evParts) [Ob.gfState s, Ob.rtState s, Ob.islState s] m (m.gfStopNow s noRamps)
    ∧ (m.gfStopNow s noRamps).gf s = gfStopping := by
  unfold Mod.gfStopNow
  dsimp only
  generalize hA : Mod.modSec s _ m = A
  have timers : Only [.sec] m A := by subst hA; exact (Only.refl _ m).oSec (by decide)
  clear hA
  obtain ⟨i1, i2, i3, -⟩ := endIdRun_laws s A
  generalize A.endIdRun s = B at i1 i2 i3
  have ends : Within (.sec :: .obj :: evParts) [Ob.gfState s, Ob.rtState s, Ob.islState s] m (B.put (Ob.islState s) 0) :=
    (((Within.refl _ _ m).only timers (by decide) (by decide) (by decide)).andThen ⟨i1, i2, i3⟩ (by decide) (by simp)).put _ _ (by decide) (by simp)
  generalize B.put (Ob.islState s) 0 = C at ends
  obtain ⟨r1, r2, -, r3⟩ := rtTo_laws s 0 C
  generalize C.rtTo s 0 = D at r1 r2 r3
  obtain ⟨g1, g2, state, g3⟩ := gfTo_laws s gfStopping D
  exact ⟨(ends.andThen ⟨r1, r2, r3⟩ (by decide) (by simp)).andThen ⟨g1, g2, g3⟩ (by decide) (by simp), state⟩

theorem gf_gfStopNow {n u : Nat} (x : Mod) (hn : n < 4) (hu : u < 4) (h : n ≠ u) : (x.gfStopNow n false).gf u = x.gf u := by
  refine (within_gfStopNow n false x).1.get ?_
  unfold Ob.gfState Ob.rtState Ob.islState
  simp only [List.mem_cons, List.not_mem_nil, or_false]
  omega

/-- A further interval: every section that is not at rest stops. -/
theorem weldOverdue_laws {m : Mod} (h : m.sdcSt = sdcClosed) (h1 : m.get Ob.testDue = 1) (ho : m.sdc.overdue = false) :
    m.weldOverdue.sdc.overdue = true ∧ ∀ u, u < 4 → m.gf u ≠ gfRest → m.weldOverdue.gf u = gfStopping := by
  unfold Mod.weldOverdue
  rw [if_pos (by simp [h, h1, ho])]
  dsimp only
  generalize hA : Mod.modSdc _ (m.reachTai (m.testEnd 2)) = A
  have marks : Only [.clk, .sdc] m A := by
    subst hA; exact (Only.mono (l := [.clk]) ((Only.refl _ m).oReach (by decide)) (by decide)).to (only_modSdc _ _) (by decide)
  have overdue : A.sdc.overdue = true := by subst hA; rfl
  clear hA
  generalize hB : A.put Ob.safeCause (A.safeCauses + 32) = B
  have puts : Only [.obj] A B := by subst hB; exact (Only.refl _ A).oput (by decide)
  have gfB : ∀ u, B.gf u = m.gf u := by
    intro u
    subst hB
    exact (get_put_other _ (by unfold Ob.gfState Ob.safeCause; omega)).trans (marks.get (by decide) _)
  clear hB
  have sdcB : B.sdc.overdue = true := by rw [show B.sdc = A.sdc from puts .sdc (by decide)]; exact overdue
  refine ⟨?_, fun u h4 hu => ?_⟩
  · refine each_invariant (I := fun x => x.sdc.overdue = true) sdcB (fun n _ x hx => ?_)
    split
    · exact hx
    · rw [show (x.gfStopNow n false).sdc = x.sdc from (within_gfStopNow n false x).1.1 .sdc (by decide)]; exact hx
  · refine each_establishes (I := fun x => x.gf u ≠ gfRest) (P := fun x => x.gf u = gfStopping) (List.mem_range.2 h4) (by rw [gfB]; exact hu)
      (fun n hn x hx => ?_) (fun n hn x _ hx => ?_) (fun x hx => ?_)
    · split
      · exact hx
      · by_cases hnu : n = u
        · rw [← hnu, (within_gfStopNow n false x).2]; decide
        · rwa [gf_gfStopNow x (List.mem_range.1 hn) h4 hnu]
    · split
      · exact hx
      · by_cases hnu : n = u
        · rw [← hnu]; exact (within_gfStopNow n false x).2
        · rwa [gf_gfStopNow x (List.mem_range.1 hn) h4 hnu]
    · split
      next h => simpa [hx] using h
      next => exact (within_gfStopNow u false x).2

theorem sealRecheck_differs {keptA keptB a b : Nat} {m : Mod} (h : a ≠ keptA ∨ b ≠ keptB) (h2 : m.sdc.sealDiff = 2) (h0 : m.get Ob.sealPending = 0) :
    (m.sealRecheck keptA keptB a b).get Ob.sealPending = 1 ∧ Tells 92 sevWarn 0 (a % 256 + 256 * (b % 256)) m (m.sealRecheck keptA keptB a b)
    ∧ (m.sealRecheck keptA keptB a b).now = max m.now (m.sdc.sealPs + sPs 1)
    ∧ Only ([.clk, .obj, .sdc] ++ evParts) m (m.sealRecheck keptA keptB a b)
    ∧ OnlyEntries [Ob.sealPending] m (m.sealRecheck keptA keptB a b) := by
  unfold Mod.sealRecheck
  generalize m.sdc.sealPs + sPs 1 = q
  dsimp only
  rw [show (if (decide (a ≠ keptA) || decide (b ≠ keptB)) = true then m.sdc.sealDiff + 1 else 0) = 3 by rw [if_pos (by simpa using h), h2],
    if_pos (by simp [h0])]
  generalize hA : Mod.put Ob.sealPending 1 _ = A
  have only : Only [.clk, .obj, .sdc] m A := by
    subst hA; exact (((Only.refl _ m).oReach (by decide)).to (only_modSdc _ _) (by decide)).oput (by decide)
  have entries : OnlyEntries [Ob.sealPending] m A := by
    subst hA; exact onlyEntries_put (onlyEntries_obj (onlyEntries_refl _ m) rfl) (by decide)
  have shown : A.get Ob.sealPending = 1 := by subst hA; exact get_put_same _
  have now : A.now = max m.now q := by subst hA; rfl
  clear hA
  generalize a % 256 + 256 * (b % 256) = arg
  have quiet : Only evParts A (A.raise 92 sevWarn 0 arg) := (Only.refl _ A).oraise _ _ _ _ (List.Subset.refl _)
  exact ⟨(quiet.onlyEntries (by decide) [] _ List.not_mem_nil).trans shown, only.tells_raise _ _ _ _ (by decide) (by decide) (by decide),
    (quiet.now (by decide)).trans now, (only.mono (by decide)).trans (quiet.mono (by decide)), entries.raise _ _ _ _⟩

theorem sealRecheck_agrees {keptA keptB : Nat} (m : Mod) :
    (m.sealRecheck keptA keptB keptA keptB).sdc.sealDiff = 0 ∧ Only [.clk, .sdc] m (m.sealRecheck keptA keptB keptA keptB) := by
  unfold Mod.sealRecheck
  generalize m.sdc.sealPs + sPs 1 = q
  dsimp only
  rw [if_neg (by simp), if_neg (by simp)]
  exact ⟨rfl, ((Only.refl _ m).oReach (by decide)).to (only_modSdc _ _) (by decide)⟩

/-! ### RESET_N (R363) -/

theorem grpAt_map (m : Mod) {f : GrpRt → GrpRt} (g : Nat) (hl : g < m.grp.length) : ({ m with grp := m.grp.map f } : Mod).grpAt g = f (m.grpAt g) := by
  unfold Mod.grpAt
  simp [List.getD_eq_getElem?_getD, hl]

theorem grpAt_diesReset {m : Mod} (g : Nat) (hl : g < m.grp.length) :
    m.diesReset.grpAt g = { latched := (m.grpAt g).latched, demand := (m.grpAt g).demand, map := (m.grpAt g).map, mapBad := (m.grpAt g).mapBad } := by
  unfold Mod.diesReset
  dsimp only
  generalize hA : ({ m.dark with clk := _, power := _, grp := _, prot := _, hk := _ } : Mod) = A
  have put : Only [.obj] A (A.each resetHeldKeys (fun k n => n.put k (m.get k))) :=
    only_each _ _ _ (fun _ _ => (Only.refl _ _).oput (by decide))
  rw [grpAt_eq (put .grp (by decide))]
  subst hA
  exact grpAt_map m g hl

/-- Serac's record as RESET_N low leaves it, with every other die in reset. -/
def Mod.resetSerac (m : Mod) : Mod :=
  { m.diesReset with
    sdc := { a := m.sdc.a, b := m.sdc.b, lockout := m.sdc.lockout, oscDemand := m.sdc.oscDemand, resetLow := true
             resetPs := m.now, samplePs := m.sdc.samplePs, sealPs := m.sdc.sealPs
             relayFault := m.sdc.relayFault, discFault := m.sdc.discFault, bothSeen := m.sdc.bothSeen
             k1Edge := if m.sdc.k1 then some m.now else m.sdc.k1Edge, k2Edge := if m.sdc.k2 then some m.now else m.sdc.k2Edge } }

theorem resetAsserted_eq {m : Mod} (hr : m.sdc.resetLow = false) (hp : m.power.power = true) :
    ∃ lost st, m.resetAsserted = (((m.resetSerac.each [0, 1] (fun l n => n.put (Ob.refSource l) lost)).showLatched).put Ob.sdcState st).fieldOff := by
  unfold Mod.resetAsserted
  rw [if_neg (by simp [hr, hp])]
  exact ⟨_, _, rfl⟩

theorem only_resetShows (lost st : Nat) (m : Mod) :
    Only [.obj, .fld] m (((m.each [0, 1] (fun l n => n.put (Ob.refSource l) lost)).showLatched).put Ob.sdcState st).fieldOff := by
  have refs : Only [.obj] m (m.each [0, 1] (fun l n => n.put (Ob.refSource l) lost)) :=
    only_each _ _ _ (fun _ _ => (Only.refl _ _).oput (by decide))
  generalize m.each _ _ = A at refs
  have shown : Only [.obj] A (A.showLatched.put Ob.sdcState st) := (showLatched_laws A).1.1.oput (by decide)
  generalize Mod.put Ob.sdcState _ _ = B at shown
  have off : Only [.obj, .fld] B B.fieldOff := by
    unfold Mod.fieldOff
    refine Only.oput ?_ (by decide)
    intro p hp
    cases p <;> first | (exact absurd (by decide) hp) | rfl
  exact ((refs.trans shown).mono (by decide)).trans off

theorem resetAsserted_laws {m : Mod} (hr : m.sdc.resetLow = false) (hp : m.power.power = true) (hl : m.grp.length = 8) :
    m.resetAsserted.sdc.resetLow = true ∧ m.resetAsserted.sdc.k1 = false ∧ m.resetAsserted.sdc.k2 = false ∧ m.resetAsserted.link.ready = false
    ∧ m.resetAsserted.arb.grant = none
    ∧ (∀ g, g < 8 → (m.resetAsserted.grpAt g).pins = .hiZ ∧ (m.resetAsserted.grpAt g).on = false
        ∧ (m.resetAsserted.grpAt g).latched = (m.grpAt g).latched)
    ∧ m.resetAsserted.now = m.now ∧ m.resetAsserted.sto = m.sto := by
  obtain ⟨lost, st, eq⟩ := resetAsserted_eq hr hp
  rw [eq]
  have shows := only_resetShows lost st m.resetSerac
  generalize Mod.fieldOff _ = C at shows
  obtain ⟨-, clk, sto, -⟩ := diesReset_laws m
  have groups := fun g h => grpAt_diesReset (m := m) g h
  have dies : m.diesReset.link = {} ∧ m.diesReset.arb = {} := by
    unfold Mod.diesReset
    dsimp only
    generalize hA : ({ m.dark with clk := _, power := _, grp := _, prot := _, hk := _ } : Mod) = A
    have put : Only [.obj] A (A.each resetHeldKeys (fun k n => n.put k (m.get k))) :=
      only_each _ _ _ (fun _ _ => (Only.refl _ _).oput (by decide))
    rw [show Mod.link _ = _ from put .link (by decide), show Mod.arb _ = _ from put .arb (by decide)]
    subst hA
    exact ⟨rfl, rfl⟩
  unfold Mod.resetSerac at shows
  generalize m.diesReset = D at clk sto groups dies shows
  generalize hB : ({ D with sdc := _ } : Mod) = B at shows
  have sdc : B.sdc.resetLow = true ∧ B.sdc.k1 = false ∧ B.sdc.k2 = false := by subst hB; exact ⟨rfl, rfl, rfl⟩
  have rest : B.link = D.link ∧ B.arb = D.arb ∧ B.grp = D.grp ∧ B.clk = D.clk ∧ B.sto = D.sto := by subst hB; exact ⟨rfl, rfl, rfl, rfl, rfl⟩
  clear hB
  obtain ⟨link, arb, grp, clkB, stoB⟩ := rest
  rw [show C.sdc = B.sdc from shows .sdc (by decide), show C.link = B.link from shows .link (by decide), show C.arb = B.arb from shows .arb (by decide),
    show C.sto = B.sto from congrArg Prod.fst (shows .sto (by decide)), link, arb, dies.1, dies.2, stoB, sto]
  refine ⟨sdc.1, sdc.2.1, sdc.2.2, rfl, rfl, fun g h8 => ?_, ?_, rfl⟩
  · rw [grpAt_eq (shows .grp (by decide)), grpAt_eq grp, groups g (by omega)]
    exact ⟨rfl, rfl, rfl⟩
  · unfold Mod.now
    rw [show C.clk = B.clk from shows .clk (by decide), clkB, clk]

/-! ### The statement -/

/-- Settles O49: each step of the sequence by its drive and its change of state. The finding of a withdrawn request is log entry 61, what
Serac keeps while RESET_N is low log entry 76. -/
theorem connectionIsSequenced : Obligations.ConnectionIsSequenced := by
  unfold Obligations.ConnectionIsSequenced
  intro s seconds dt ns a b hgrp hsec
  refine ⟨fun hst hreq hc hr ha hi => ?request, fun t ht ha => ⟨fun hst h1 h2 => ?k1On, fun hst h1 => ?k1Off, fun hst h1 h2 => ?k2On,
      fun hst h1 => ?k2Off, fun hst hs h1 => ?first, fun hst hs h1 h2 => ?second⟩, fun ht ha => ?unasked, fun hst ho => ?opens, fun ht => ?aborts,
    fun hst h0 hp => ?due, fun hst h1 ho => ?overdue, fun hd h2 h0 => ?seals, fun ha hb => ?sealsAgree, fun hr hp hn => ?reset,
    fun hn => ?glitch, fun hr h10 => ?held, fun hr => ?released⟩
  case request =>
    refine does_onMod rfl rfl ?_
    unfold Mod.connectionRequest
    dsimp only
    rw [if_pos rfl, if_neg (by simp [hreq, ha])]
    have free : (decide (s.m.sdcSt = sdcSafe) || decide (s.m.sdcSt = sdcFault) || decide (s.m.sdcSt = sdcLockout) || decide (s.m.safeCauses ≠ 0)) = false := by
      rw [hst, hc]; rfl
    rw [free]
    generalize hA : s.m.modSdc _ = A
    have marks : Only [.sdc] s.m A := by subst hA; exact only_modSdc _ _
    have sdc : A.sdc.request = true ∧ A.sdc.ignored = false ∧ A.sdc.k2 = s.m.sdc.k2 ∧ A.sdc.resetLow = false ∧ A.sdc.judged = s.m.sdc.judged := by
      subst hA
      refine ⟨rfl, ?_, rfl, hr, rfl⟩
      show (s.m.sdc.ignored || false) = false
      rw [hi]; rfl
    clear hA
    obtain ⟨request, notIgnored, k2, up, judged⟩ := sdc
    have state : A.sdcSt = sdcOpen := (marks.get (by decide) _).trans hst
    have starts : A.startTest = (A.driveK1 true).sdcTo sdcTestK1 := by
      unfold Mod.startTest
      exact if_pos (by simp [state, request, notIgnored, up, (safeCauses_judged judged).trans hc])
    rw [starts]
    obtain ⟨st, k1, k2', request', seen, -⟩ := driveK1_sdcTo (v := true) (new := sdcTestK1) (m := A) (by rw [state]; decide)
    exact ⟨st, k1, k2'.trans k2, request'.trans request, seen⟩
  case k1On =>
    have ready : s.m.stepReady = true := by unfold Mod.stepReady; dsimp only; rw [hst, if_pos rfl, h1, h2]; rfl
    refine does_onMod rfl (stepConfirmed_takes ht ha ready) ?_
    generalize t + msPs 5 = q
    have state : (s.m.reach q).sdcSt = sdcTestK1 := hst
    unfold Mod.stepTaken
    dsimp only
    rw [state, if_pos rfl]
    obtain ⟨st, k1, k2, -, -, now⟩ := driveK1_sdcTo (v := false) (new := sdcTestK1Off) (m := s.m.reach q) (by rw [state]; decide)
    exact ⟨st, k1, k2, now⟩
  case k1Off =>
    have ready : s.m.stepReady = true := by unfold Mod.stepReady; dsimp only; rw [hst, if_neg (by decide), if_pos rfl, h1]
    refine does_onMod rfl (stepConfirmed_takes ht ha ready) ?_
    generalize t + msPs 5 = q
    have state : (s.m.reach q).sdcSt = sdcTestK1Off := hst
    unfold Mod.stepTaken
    dsimp only
    rw [state, if_neg (by decide), if_pos rfl]
    exact driveK2_sdcTo (v := true) (new := sdcTestK2) (m := s.m.reach q) (by rw [state]; decide)
  case k2On =>
    have ready : s.m.stepReady = true := by
      unfold Mod.stepReady; dsimp only; rw [hst, if_neg (by decide), if_neg (by decide), if_pos rfl, h1, h2]; rfl
    refine does_onMod rfl (stepConfirmed_takes ht ha ready) ?_
    generalize t + msPs 5 = q
    have state : (s.m.reach q).sdcSt = sdcTestK2 := hst
    unfold Mod.stepTaken
    dsimp only
    rw [state, if_neg (by decide), if_neg (by decide), if_pos rfl]
    exact driveK2_sdcTo (v := false) (new := sdcTestK2Off) (m := s.m.reach q) (by rw [state]; decide)
  case k2Off =>
    have ready : s.m.stepReady = true := by
      unfold Mod.stepReady; dsimp only; rw [hst, if_neg (by decide), if_neg (by decide), if_neg (by decide), if_pos rfl, h1]
    refine does_onMod rfl (stepConfirmed_takes ht ha ready) ?_
    generalize t + msPs 5 = q
    have state : (s.m.reach q).sdcSt = sdcTestK2Off := hst
    unfold Mod.stepTaken
    dsimp only
    rw [state, if_neg (by decide), if_neg (by decide), if_neg (by decide), if_pos rfl]
    obtain ⟨drives, k1, k2, -, -⟩ := driveK1_laws true (s.m.reach q)
    generalize (s.m.reach q).driveK1 true = A at drives k1 k2
    generalize hB : A.modSdc _ = B
    have marks : B.sdc.k1 = A.sdc.k1 ∧ B.sdc.k2 = A.sdc.k2 ∧ B.sdcSt = A.sdcSt := by subst hB; exact ⟨rfl, rfl, rfl⟩
    clear hB
    have stateB : B.sdcSt = sdcTestK2Off := marks.2.2.trans ((drives.get (by decide)).trans hst)
    obtain ⟨st, sdc, -, -⟩ := sdcTo_changes (new := sdcClosing) (m := B) (by rw [stateB]; decide)
    rw [sdc]
    exact ⟨st, marks.1.trans k1, marks.2.1.trans k2⟩
  case first =>
    have ready : s.m.stepReady = true := by
      unfold Mod.stepReady; dsimp only
      rw [hst, if_neg (by decide), if_neg (by decide), if_neg (by decide), if_neg (by decide), if_pos rfl, h1, hs]; rfl
    refine does_onMod rfl (stepConfirmed_takes ht ha ready) ?_
    generalize t + msPs 5 = q
    have state : (s.m.reach q).sdcSt = sdcClosing := hst
    have first : (s.m.reach q).sdc.second = false := hs
    unfold Mod.stepTaken
    dsimp only
    rw [state, if_neg (by decide), if_neg (by decide), if_neg (by decide), if_neg (by decide), if_pos rfl, first, if_neg (by decide)]
    obtain ⟨drives, k2, k1, -, -⟩ := driveK2_laws true (s.m.reach q)
    generalize (s.m.reach q).driveK2 true = A at drives k1 k2
    exact ⟨(drives.get (by decide)).trans hst, k2, k1⟩
  case second =>
    have ready : s.m.stepReady = true := by
      unfold Mod.stepReady; dsimp only
      rw [hst, if_neg (by decide), if_neg (by decide), if_neg (by decide), if_neg (by decide), if_pos rfl, h1, h2]
      simp
    refine does_onMod rfl (stepConfirmed_takes ht ha ready) ?_
    generalize t + msPs 5 = q
    have state : (s.m.reach q).sdcSt = sdcClosing := hst
    have second : (s.m.reach q).sdc.second = true := hs
    unfold Mod.stepTaken
    dsimp only
    rw [state, if_neg (by decide), if_neg (by decide), if_neg (by decide), if_neg (by decide), if_pos rfl, second, if_pos rfl]
    generalize hA : (s.m.reach q).modSdc _ = A
    have marks : A.sdc.k1 = s.m.sdc.k1 ∧ A.sdc.k2 = s.m.sdc.k2 ∧ A.sdcSt = sdcClosing := by subst hA; exact ⟨rfl, rfl, hst⟩
    clear hA
    obtain ⟨k1, k2, stateB, result, told⟩ := testPassed_laws A
    generalize A.testEnds 1 0 = B at k1 k2 stateB result told
    obtain ⟨st, sdc, -, goes⟩ := sdcTo_changes (new := sdcClosed) (m := B) (by rw [stateB, marks.2.2]; decide)
    rw [sdc]
    exact ⟨st, k1.trans marks.1, k2.trans marks.2.1, (goes.get (by decide)).trans result, goes.seen told⟩
  case unasked =>
    obtain ⟨st, k1, k2, request, -⟩ := withdrawn_testing ht
    refine does_onMod rfl (N := s.m.connectionRequest false) ?_ ⟨st, k1, k2, request⟩
    unfold Mod.stepConfirmed
    exact if_pos (by rw [ht, ha]; rfl)
  case opens => exact does_onMod rfl rfl (withdrawn_closed hst ho)
  case aborts =>
    obtain ⟨st, k1, k2, -, result⟩ := withdrawn_testing ht
    exact does_onMod rfl rfl ⟨st, k1, k2, result⟩
  case due => exact does_onMod rfl rfl (weldDue_laws hst h0 hp)
  case overdue => exact does_onMod rfl rfl (weldOverdue_laws hst h1 ho)
  case seals => exact does_onMod rfl rfl (sealRecheck_differs hd h2 h0)
  case sealsAgree =>
    subst ha hb
    exact does_onMod rfl rfl (sealRecheck_agrees s.m)
  case reset =>
    obtain ⟨low, k1, k2, ready, grant, groups, now, sto⟩ := resetAsserted_laws (m := s.m.passNs dt) hr hp hgrp
    refine does_onMod rfl (N := (s.m.passNs dt).resetAsserted) ?_ ⟨low, k1, k2, ready, grant, groups, now, sto⟩
    unfold atDt Mod.resetLow
    rw [if_neg (by omega), if_pos hn]
  case glitch =>
    refine does_onMod rfl (N := s.m.passNs dt) ?_ ⟨rfl, (Only.refl _ s.m).oPass (by decide)⟩
    unfold atDt Mod.resetLow
    exact if_pos hn
  case held =>
    refine does_onMod rfl (N := (s.m.reach (s.m.sdc.resetPs + sPs seconds)).put Ob.resetHeldS (satAt 65535 seconds)) ?_ ?_
    · unfold Mod.resetHeld
      exact if_pos (by simp [hr, h10])
    · generalize s.m.sdc.resetPs + sPs seconds = q
      have reach : Only [.clk] s.m (s.m.reach q) := (Only.refl _ s.m).oReach (by decide)
      refine ⟨(get_put_same _).trans ?_, rfl, (reach.mono (by decide)).oput (by decide), (reach.onlyEntries (by decide) _).oput (by simp)⟩
      unfold satAt
      split <;> omega
  case released =>
    refine does_onMod rfl (N := (s.m.modSdc (fun x => { x with resetLow := false })).modPower (fun x => { x with relPs := s.m.now + msPs 1 })) ?_ ?_
    · unfold Mod.resetReleased
      exact if_pos hr
    · generalize s.m.now + msPs 1 = q
      exact ⟨rfl, rfl, ((Only.refl _ s.m).to (only_modSdc _ _) (by decide)).to (only_modPower _ _) (by decide)⟩

end Sys2Proof.Machine
end

section
/-!
PROOFS. The diagnosis of the lanes (R324, R330, R331, R337, R338, R340): each finding, the full test and the return of redundancy, and the
statement on them (O47).
-/
namespace Sys2Proof.Machine

theorem standby_eq {l : Nat} {m : Mod} (hl : l < 2) (h1 : m.lane ≤ 1) (h : m.lane ≠ l) : m.standby = l := by unfold Mod.standby; omega

theorem standby_ne_lane {m : Mod} (h1 : m.lane ≤ 1) : m.standby ≠ m.lane := by unfold Mod.standby; omega

/-- Entries of a lane's record that its failure leaves. -/
theorem laneKeys_others (b s : Nat) (hb : b ≤ 1) (hs : s ≤ 1) : Ob.fullTestResult s ∉ laneKeys b ∧ Ob.testFailSlice s ∉ laneKeys b
    ∧ Ob.splitClaims ∉ laneKeys b ∧ Ob.activeLane ∉ laneKeys b := by
  unfold laneKeys Ob.fullTestResult Ob.testFailSlice Ob.splitClaims Ob.activeLane Ob.health Ob.unhealthyCause Ob.roleNow Ob.resync24h Ob.redundant
  simp only [List.mem_cons, List.not_mem_nil, or_false]
  omega

/-! ### The active lane gives up control, or the standby lane is unhealthy (R331) -/

theorem laneFails_active {l : Nat} (cause : Nat) {m : Mod} (hl : m.lane = l) (hc : m.arb.cause = none) (hg : m.arb.grant.isSome = true) :
    (m.laneFails l cause).arb.cause = some cause ∧ (m.laneFails l cause).arb.grant = none ∧ Only [.arb] m (m.laneFails l cause) := by
  unfold Mod.laneFails
  rw [if_pos hl.symm]
  have arb := withdraw_arb cause m hc hg
  rw [arb]
  exact ⟨rfl, rfl, only_withdraw cause m⟩

theorem laneFails_standby {l : Nat} (cause : Nat) {m : Mod} (hl : l < 2) (h1 : m.lane ≤ 1) (h : m.lane ≠ l) :
    (m.laneFails l cause).healthOf l = 2 ∨ (m.laneFails l cause).healthOf l = 3 := by
  obtain ⟨-, -, -, -, health⟩ := laneFails_laws l cause m
  have standby := health (Ne.symm h)
  rwa [standby_eq hl h1 h] at standby

/-! ### Mirror diagnosis (R330) -/

theorem standbyUnhealthy_after {l : List Part} {a b : Mod} (h : Only l a b) (hl : Part.obj ∉ l) (cause : Nat) :
    (b.standbyUnhealthy cause).healthOf a.standby = 2 ∨ (b.standbyUnhealthy cause).healthOf a.standby = 3 := by
  have same : b.standby = a.standby := by unfold Mod.standby Mod.lane; rw [h.get hl]
  rw [← same]
  exact (standbyUnhealthy_laws b cause).2.2.2

theorem mirrorDiagnosis_active {m : Mod} (hd : m.arb.diag = true) :
    (m.mirrorDiagnosis 0).arb.diag = false ∧ (m.mirrorDiagnosis 0).arb.due = m.arb.due ++ [(m.lane, 0x4803)]
    ∧ Tells 89 sevFault 0x4803 0 m (m.mirrorDiagnosis 0) ∧ Only (.arb :: evParts) m (m.mirrorDiagnosis 0) := by
  unfold Mod.mirrorDiagnosis
  rw [hd, if_neg (by decide)]
  dsimp only
  rw [if_pos rfl]
  generalize hA : m.modArb _ = A
  have marks : Only [.arb] m A := by subst hA; exact (Only.refl _ m).oArb (by decide)
  have arb : A.arb = { m.arb with diag := false } := by subst hA; rfl
  clear hA
  have told := marks.tells_raise 89 sevFault 0x4803 0 (by decide) (by decide) (by decide)
  have only : Only (.arb :: evParts) m (A.raise 89 sevFault 0x4803 0) := (marks.mono (by decide)).oraise _ _ _ _ (by decide)
  have arbB : (A.raise 89 sevFault 0x4803 0).arb = A.arb := raise_part _ _ _ _ _ .arb (by decide)
  generalize A.raise 89 sevFault 0x4803 0 = B at told only arbB
  unfold Mod.laneFailsLater
  have later : Only [.arb] B (B.modArb (fun a => { a with due := a.due ++ [(m.lane, 0x4803)] })) := (Only.refl _ B).oArb (by decide)
  have arbC : (B.modArb (fun a => { a with due := a.due ++ [(m.lane, 0x4803)] })).arb = { B.arb with due := B.arb.due ++ [(m.lane, 0x4803)] } := rfl
  rw [arbC, arbB, arb]
  exact ⟨rfl, rfl, Only.tells_after told later (by decide) (by decide), only.to later (by decide)⟩

theorem mirrorDiagnosis_standby {m : Mod} (hd : m.arb.diag = true) :
    89 ∈ (m.mirrorDiagnosis 1).seenEv ∧ ((m.mirrorDiagnosis 1).healthOf m.standby = 2 ∨ (m.mirrorDiagnosis 1).healthOf m.standby = 3) := by
  unfold Mod.mirrorDiagnosis
  rw [hd, if_neg (by decide)]
  dsimp only
  rw [if_neg (by decide), if_pos rfl]
  generalize hA : m.modArb _ = A
  have marks : Only [.arb] m A := by subst hA; exact (Only.refl _ m).oArb (by decide)
  have only : Only (.arb :: evParts) m (A.raise 89 sevFault 0x4803 1) := (marks.mono (by decide)).oraise _ _ _ _ (by decide)
  exact ⟨SeenGrows.mem (standbyUnhealthy_laws _ 0x4803).2.2.1 (seen_raised _ _ _ _ _), standbyUnhealthy_after only (by decide) _⟩

theorem mirrorDiagnosis_unexplained {m : Mod} (hd : m.arb.diag = true) (hn : m.arb.unexpl.length + 1 < m.get Ob.mcUnexplainedN) :
    (m.mirrorDiagnosis 2).arb.diag = false ∧ (m.mirrorDiagnosis 2).arb.adopt = true ∧ (m.mirrorDiagnosis 2).arb.due = m.arb.due
    ∧ Tells 89 sevInfo 0 2 m (m.mirrorDiagnosis 2) ∧ Only (.arb :: evParts) m (m.mirrorDiagnosis 2) := by
  unfold Mod.mirrorDiagnosis
  rw [hd, if_neg (by decide)]
  dsimp only
  rw [if_neg (by decide), if_neg (by decide)]
  generalize hl : (m.arb.unexpl.filter _ ++ [m.now] : List Nat) = l
  have few : l.length ≤ m.arb.unexpl.length + 1 := by
    subst hl
    rw [List.length_append, List.length_singleton]
    exact Nat.succ_le_succ (List.length_filter_le _ _)
  clear hl
  rw [if_neg (by omega)]
  generalize hA : Mod.modArb _ (Mod.modArb _ m) = A
  have marks : Only [.arb] m A := by subst hA; exact ((Only.refl _ m).oArb (by decide)).oArb (by decide)
  have arb : A.arb = { m.arb with diag := false, unexpl := l, adopt := true } := by subst hA; rfl
  clear hA
  rw [show (A.raise 89 sevInfo 0 2).arb = A.arb from raise_part _ _ _ _ _ .arb (by decide), arb]
  exact ⟨rfl, rfl, rfl, marks.tells_raise _ _ _ _ (by decide) (by decide) (by decide), (marks.mono (by decide)).oraise _ _ _ _ (by decide)⟩

/-! ### The carriers (R324) -/

theorem getS16_putS16 (m : Mod) (k : Nat) {v : Int} (h1 : -32768 ≤ v) (h2 : v ≤ 32767) : (m.putS16 k v).getS16 k = v := by
  have held : clampI (-32768) 32767 v = v := by
    unfold clampI
    rw [if_neg (by omega), if_neg (by omega)]
  unfold Mod.getS16
  rw [putS16_eq, get_put_same, held]
  unfold Raw.signed Raw.ofInt
  obtain ⟨r, hr⟩ : ∃ r : Nat, v % ((2 ^ 16 : Nat) : Int) = r := ⟨(v % ((2 ^ 16 : Nat) : Int)).toNat, by omega⟩
  rw [hr, Int.toNat_natCast]
  show (if (r % 65536 : Nat) < 32768 then ((r % 65536 : Nat) : Int) else ((r % 65536 : Nat) : Int) - 65536) = v
  split <;> omega

/-- The newest value is among the last eight. -/
theorem newest_mem {ps : List Int} {d : Int} (h : ps.getLast? = some d) : d ∈ ps.reverse.take 8 := by
  rw [← List.head?_reverse] at h
  cases hr : ps.reverse with
  | nil => rw [hr] at h; exact absurd h (by simp)
  | cons x xs =>
    rw [hr] at h
    rw [← Option.some.inj h]
    exact List.mem_cons_self

theorem carrierAlign_near {ps : List Int} {d : Int} {m : Mod} (h : ps.getLast? = some d) (h1 : -2500 ≤ d) (h2 : d ≤ 2500) :
    m.carrierAlign ps = m.putS16 (Ob.carrierAlign m.standby) d := by
  unfold Mod.carrierAlign
  simp only [h]
  refine if_neg (fun hall => ?_)
  rw [Bool.and_eq_true, Bool.and_eq_true, List.all_eq_true] at hall
  have far := of_decide_eq_true (hall.1.2 d (newest_mem h))
  rw [natAbs_absI] at far
  omega

theorem carrierAlign_far {ps : List Int} {m : Mod} (h8 : 8 ≤ ps.length) (hall : ∀ x, x ∈ ps.reverse.take 8 → x < -2500 ∨ 2500 < x)
    (hr : m.isRedundant = true) :
    91 ∈ (m.carrierAlign ps).seenEv ∧ ((m.carrierAlign ps).healthOf m.standby = 2 ∨ (m.carrierAlign ps).healthOf m.standby = 3) := by
  unfold Mod.carrierAlign
  cases hd : ps.getLast? with
  | none =>
    rw [List.getLast?_eq_none_iff] at hd
    rw [hd] at h8
    exact absurd h8 (by decide)
  | some d =>
    dsimp only
    have beyond : ((ps.reverse.take 8).all fun x => decide (2500 < absI x)) = true := by
      rw [List.all_eq_true]
      intro x hx
      have far := hall x hx
      rw [decide_eq_true_eq, natAbs_absI]
      omega
    rw [if_pos (by rw [beyond, hr, List.length_take, List.length_reverse, Nat.min_eq_left h8]; rfl)]
    generalize hA : m.putS16 (Ob.carrierAlign m.standby) d = A
    have same : A.standby = m.standby := by
      subst hA
      unfold Mod.standby Mod.lane
      rw [putS16_eq, get_put_other _ (by unfold Ob.activeLane Ob.carrierAlign; omega)]
    have raises : Only evParts A (A.raise 91 sevWarn 0x4805 (Raw.ofInt 32 d)) := (Only.refl _ A).oraise _ _ _ _ (List.Subset.refl _)
    rw [← same]
    exact ⟨SeenGrows.mem (standbyUnhealthy_laws _ 0x4805).2.2.1 (seen_raised _ _ _ _ _), standbyUnhealthy_after raises (by decide) _⟩

/-! ### The full test and redundancy (R338, R340) -/

theorem fullTestStart_runs {m : Mod} (hr : m.get (Ob.roleNow m.standby) = 1) (hh : m.healthOf m.standby = 0) :
    m.fullTestStart.healthOf m.standby = 1 ∧ m.fullTestStart.get (Ob.lastFullTest m.standby) = m.fullTestStart.t64
    ∧ m.fullTestStart.now = max m.now (m.arb.testPs + sPs (60 * m.get Ob.fullTestPeriod)) ∧ m.fullTestStart.arb.testPs = m.fullTestStart.now
    ∧ Only [.clk, .obj, .arb] m m.fullTestStart ∧ OnlyEntries [Ob.health m.standby, Ob.lastFullTest m.standby] m m.fullTestStart := by
  unfold Mod.fullTestStart
  dsimp only
  rw [if_pos (by simp [hr, hh])]
  generalize m.arb.testPs + sPs (60 * m.get Ob.fullTestPeriod) = q
  generalize m.standby = b
  have apart : Ob.health b ≠ Ob.lastFullTest b := by unfold Ob.health Ob.lastFullTest; omega
  have reach : Only [.clk] m (m.reach q) := (Only.refl _ m).oReach (by decide)
  refine ⟨?_, get_put_same _, rfl, rfl, (((reach.mono (by decide)).oput (by decide)).oArb (by decide)).oput (by decide),
    (((reach.onlyEntries (by decide) _).oput (by simp)).oArb).oput (by simp)⟩
  exact (get_put_other _ apart).trans (get_put_same (m.reach q))

theorem selfTestDone_passes {m : Mod} (hh : m.healthOf m.standby = 1) :
    (m.selfTestDone 0 false).healthOf m.standby = 0 ∧ (m.selfTestDone 0 false).get (Ob.fullTestResult m.standby) = 1
    ∧ Tells 90 sevInfo 0 m.standby m (m.selfTestDone 0 false) ∧ Only ([.obj, .lanes, .arb] ++ evParts) m (m.selfTestDone 0 false) := by
  unfold Mod.selfTestDone
  dsimp only
  rw [hh, if_neg (by decide), if_pos rfl, if_neg (by decide), if_neg (by decide)]
  generalize m.standby = b
  have k1 : Ob.health b ≠ Ob.fullTestResult b := by unfold Ob.health Ob.fullTestResult; omega
  have k2 : Ob.health b ≠ Ob.testFailSlice b := by unfold Ob.health Ob.testFailSlice; omega
  have k3 : Ob.fullTestResult b ≠ Ob.testFailSlice b := by unfold Ob.testFailSlice Ob.fullTestResult; omega
  generalize hA : Mod.put (Ob.testFailSlice b) 0 _ = A
  have puts : Only [.obj] m A := by subst hA; exact (((Only.refl _ m).oput (by decide)).oput (by decide)).oput (by decide)
  have health : A.get (Ob.health b) = 0 := by subst hA; rw [get_put_other _ k2, get_put_other _ k1, get_put_same]
  have result : A.get (Ob.fullTestResult b) = 1 := by subst hA; rw [get_put_other _ k3, get_put_same]
  clear hA
  generalize hB : Mod.modArb _ (Mod.modLane _ _ A) = B
  have marks : Only [.lanes, .arb] A B := by subst hB; exact ((Only.refl _ A).oLane (by decide)).oArb (by decide)
  clear hB
  have only : Only [.obj, .lanes, .arb] m B := (puts.mono (by decide)).trans (marks.mono (by decide))
  unfold Mod.healthOf
  rw [get_raised, get_raised, marks.get (by decide), marks.get (by decide)]
  exact ⟨health, result, only.tells_raise 90 sevInfo 0 b (by decide) (by decide) (by decide), (only.mono (by decide)).oraise _ _ _ _ (by decide)⟩

theorem selfTestDone_fails {failed : Nat} {m : Mod} (hh : m.healthOf m.standby = 1) (hf : failed % 128 ≠ 0) :
    ((m.selfTestDone failed false).healthOf m.standby = 2 ∨ (m.selfTestDone failed false).healthOf m.standby = 3)
    ∧ (m.selfTestDone failed false).get (Ob.fullTestResult m.standby) = 2
    ∧ (m.selfTestDone failed false).get (Ob.testFailSlice m.standby) = failed % 128 ∧ 90 ∈ (m.selfTestDone failed false).seenEv := by
  unfold Mod.selfTestDone
  dsimp only
  rw [hh, if_neg (by decide), if_pos rfl, if_neg (by decide), if_pos hf]
  have hb := standby_le m
  generalize failed % 128 = f
  generalize m.standby + 2 * f + 256 * b2n false = arg
  have k3 : Ob.fullTestResult m.standby ≠ Ob.testFailSlice m.standby := by unfold Ob.testFailSlice Ob.fullTestResult; omega
  generalize hA : Mod.put (Ob.testFailSlice m.standby) f _ = A
  have slice : A.get (Ob.testFailSlice m.standby) = f := by subst hA; exact get_put_same _
  have result : A.get (Ob.fullTestResult m.standby) = 2 := by subst hA; rw [get_put_other _ k3, get_put_same]
  have same : A.standby = m.standby := by
    subst hA
    unfold Mod.standby Mod.lane
    rw [get_put_other _ (by unfold Ob.activeLane Ob.testFailSlice; omega), get_put_other _ (by unfold Ob.activeLane Ob.fullTestResult; omega),
      get_put_other _ (by unfold Ob.activeLane Ob.health; omega)]
  clear hA
  generalize hB : Mod.raise 90 sevFault 0x4807 arg _ = B
  have marks : Only (.lanes :: evParts) A B := by subst hB; exact ((Only.refl _ A).oLane (by decide)).oraise _ _ _ _ (by decide)
  have told : 90 ∈ B.seenEv := by subst hB; exact seen_raised _ _ _ _ _
  clear hB
  have sameB : B.standby = A.standby := by unfold Mod.standby Mod.lane; rw [marks.get (by decide)]
  obtain ⟨-, entries, grows, health⟩ := standbyUnhealthy_laws B 0x4807
  obtain ⟨o1, o2, -, -⟩ := laneKeys_others B.standby m.standby (standby_le B) hb
  rw [sameB, same] at health
  exact ⟨health, ((entries _ o1).trans (marks.get (by decide) _)).trans result, ((entries _ o2).trans (marks.get (by decide) _)).trans slice,
    SeenGrows.mem grows told⟩

theorem redundancyRestored_laws {m : Mod} (hh : m.healthOf m.standby = 3) (hr : m.get (Ob.roleNow m.standby) = 1) (hc : m.compared = true)
    (hs : m.arb.synced = true) :
    m.redundancyRestored.healthOf m.standby = 0 ∧ m.redundancyRestored.get (Ob.roleNow m.standby) = 1
    ∧ Tells 3 sevInfo 0 (m.standby + 65536 * (m.arb.resyncSeq % 65536)) m m.redundancyRestored
    ∧ Only ([.obj, .arb] ++ evParts) m m.redundancyRestored
    ∧ OnlyEntries [Ob.health m.standby, Ob.unhealthyCause m.standby, Ob.redundant] m m.redundancyRestored := by
  unfold Mod.redundancyRestored
  dsimp only
  rw [if_pos (by simp [hh, hr, hc, hs])]
  have hb := standby_le m
  generalize m.standby + 65536 * (m.arb.resyncSeq % 65536) = arg
  generalize m.standby = b at hr hb
  obtain ⟨a1, -, -, a4⟩ := laneKeys_apart b
  generalize hA : Mod.modArb _ (Mod.put (Ob.unhealthyCause b) 0 _) = A
  have marks : Only [.obj, .arb] m A := by subst hA; exact (((Only.refl _ m).oput (by decide)).oput (by decide)).oArb (by decide)
  have entries : OnlyEntries [Ob.health b, Ob.unhealthyCause b] m A := by
    subst hA; exact (((onlyEntries_refl _ m).oput (by simp)).oput (by simp)).oArb
  have health : A.get (Ob.health b) = 0 := by
    subst hA
    exact (get_put_other _ a4).trans (get_put_same _)
  clear hA
  have shows : Only [.obj, .arb] m A.showRedundant := marks.to (only_showRedundant A) (by decide)
  have keys : OnlyEntries [Ob.health b, Ob.unhealthyCause b, Ob.redundant] m A.showRedundant := (entries.mono (by simp)).oput (by simp)
  have role : Ob.roleNow b ∉ [Ob.health b, Ob.unhealthyCause b, Ob.redundant] := by
    unfold Ob.roleNow Ob.health Ob.unhealthyCause Ob.redundant
    simp only [List.mem_cons, List.not_mem_nil, or_false]
    omega
  have healthB : A.showRedundant.get (Ob.health b) = 0 := (get_put_other _ a1).trans health
  generalize A.showRedundant = B at shows keys healthB
  unfold Mod.healthOf
  exact ⟨(get_raised _ _ _ _ _ _).trans healthB, (get_raised _ _ _ _ _ _).trans ((keys _ role).trans hr),
    shows.tells_raise 3 sevInfo 0 arg (by decide) (by decide) (by decide), (shows.mono (by decide)).oraise _ _ _ _ (by decide), keys.raise _ _ _ _⟩

/-! ### The statement -/

/-- Settles O47: each finding by the law of its operation. That a failed known-answer test acts at once, and not at the next boundary, is the
model's choice (log entry 60). -/
theorem laneDiagnosisActs : Obligations.LaneDiagnosisActs := by
  unfold Obligations.LaneDiagnosisActs
  intro s l failed hl hlanes hlane
  refine ⟨fun h hc hg => ⟨?lockstep, ?watchdog, ?answer⟩, fun h => ⟨?lockstepS, ?watchdogS, ?answerS⟩, ?loopback,
    fun hd => ⟨?diagActive, ?diagStandby, fun hn => ?diagNone⟩, fun ps d hp h1 h2 => ?near, fun ps h8 hall hr => ?far, fun hr hh => ?runs,
    fun hh hc => ?resyncTest, fun hh => ⟨?passes, fun hf => ?fails⟩, fun hh hr hc hs => ?restored⟩
  case lockstep => exact does_lane rfl hl rfl (laneFails_active _ h hc hg)
  case watchdog => exact does_lane rfl hl rfl (laneFails_active _ h hc hg)
  case answer => exact does_lane rfl hl rfl (laneFails_active _ h hc hg)
  case lockstepS => exact does_lane rfl hl rfl (laneFails_standby _ hl hlane h)
  case watchdogS => exact does_lane rfl hl rfl (laneFails_standby _ hl hlane h)
  case answerS => exact does_lane rfl hl rfl (laneFails_standby _ hl hlane h)
  case loopback => exact does_lane rfl hl rfl ⟨rfl, (Only.refl _ s.m).oArb (by decide)⟩
  case diagActive => exact does_onMod rfl rfl (mirrorDiagnosis_active hd)
  case diagStandby => exact does_onMod rfl rfl (mirrorDiagnosis_standby hd)
  case diagNone => exact does_onMod rfl rfl (mirrorDiagnosis_unexplained hd hn)
  case near =>
    exact does_onMod rfl (carrierAlign_near hp h1 h2) ⟨getS16_putS16 _ _ (by omega) (by omega), (Only.refl _ s.m).oput (by decide),
      (onlyEntries_refl _ s.m).oput (by simp)⟩
  case far => exact does_onMod rfl rfl (carrierAlign_far h8 hall hr)
  case runs => exact does_onMod rfl rfl (fullTestStart_runs hr hh)
  case resyncTest =>
    refine does_onMod rfl (N := s.m.put (Ob.lastFullTest s.m.standby) s.m.t64) ?_ ⟨get_put_same _, (Only.refl _ s.m).oput (by decide),
      (onlyEntries_refl _ s.m).oput (by simp)⟩
    unfold Mod.fullTestStart
    dsimp only
    rw [if_neg (by simp [hh]), if_pos (by simp [hh, hc])]
  case passes => exact does_onMod rfl rfl (selfTestDone_passes hh)
  case fails => exact does_onMod rfl rfl (selfTestDone_fails hh hf)
  case restored => exact does_onMod rfl rfl (redundancyRestored_laws hh hr hc hs)

end Sys2Proof.Machine
end

section
/-!
PROOFS. The claim, the withdrawal and the takeover of the lanes (R321, R323, R332 to R336), and the statement on them (O46).
-/
namespace Sys2Proof.Machine

/-! ### What a start of the firmware leaves -/

theorem wantPulse_ready (m : Mod) : m.wantPulse.link.ready = m.link.ready := by
  unfold Mod.wantPulse
  split
  · split
    · rfl
    · split <;> rfl
  · rfl

theorem raise_ready (m : Mod) (ev sev fault arg : Nat) : (m.raise ev sev fault arg).link.ready = m.link.ready := by
  have enters : (m.enterEvent m.t32 ev sev fault arg).link.ready = m.link.ready := rfl
  unfold Mod.raise Mod.raiseAt
  dsimp only
  split
  · exact (wantPulse_ready _).trans enters
  · exact enters

/-- The arbitration, the active lane and READY stay, and no event is forgotten. -/
structure LaneKept (a b : Mod) : Prop where
  arb   : b.arb = a.arb
  lane  : b.get Ob.activeLane = a.get Ob.activeLane
  ready : b.link.ready = a.link.ready
  seen  : SeenGrows a b

namespace LaneKept

variable {a b c : Mod}

theorem refl (a : Mod) : LaneKept a a := ⟨rfl, rfl, rfl, SeenGrows.refl _⟩

theorem trans (h : LaneKept a b) (g : LaneKept b c) : LaneKept a c :=
  ⟨g.arb.trans h.arb, g.lane.trans h.lane, g.ready.trans h.ready, h.seen.trans g.seen⟩

theorem put (h : LaneKept a b) {k : Nat} (v : Nat) (hk : Ob.activeLane ≠ k) : LaneKept a (b.put k v) :=
  h.trans ⟨rfl, get_put_other _ hk, rfl, SeenGrows.of_eq rfl⟩

theorem of_only {l : List Part} (h : Only l a b) (h1 : Part.arb ∉ l) (h2 : Part.obj ∉ l) (h3 : Part.link ∉ l) (h4 : Part.seenEv ∉ l) : LaneKept a b :=
  ⟨h .arb h1, h.get h2 _, congrArg Link.ready (h .link h3), SeenGrows.of_eq (h .seenEv h4)⟩

theorem raise (h : LaneKept a b) (ev sev fault arg : Nat) : LaneKept a (b.raise ev sev fault arg) :=
  h.trans ⟨raise_part _ _ _ _ _ .arb (by decide), get_raised _ _ _ _ _ _, raise_ready _ _ _ _ _, SeenGrows.raise _ _ _ _ _⟩

theorem each (h : LaneKept a b) (ns : List Nat) (F : Nat → Mod → Mod) (hF : ∀ n ∈ ns, ∀ m, LaneKept m (F n m)) : LaneKept a (b.each ns F) :=
  h.trans (each_invariant (I := LaneKept b) (refl _) (fun n hn _ hx => hx.trans (hF n hn _)))

theorem ite {p : Prop} [Decidable p] (h : LaneKept a b) (g : LaneKept a c) : LaneKept a (if p then b else c) := by split <;> assumption

theorem manageAll (h : LaneKept a b) : LaneKept a b.manageAll :=
  have adjusts := (Adjusts.refl b).manageAll
  h.trans ⟨adjusts.only .arb (by decide), adjusts.plan _ (.inl (by decide)), congrArg Link.ready (adjusts.only .link (by decide)),
    SeenGrows.of_eq (adjusts.only .seenEv (by decide))⟩

theorem placeContexts (h : LaneKept a b) : LaneKept a b.placeContexts := by
  refine h.each _ _ (fun n _ x => ?_)
  have key : Ob.activeLane ≠ Ob.ctxEngine n := by unfold Ob.activeLane Ob.ctxEngine; omega
  exact (((refl x).put _ key).ite (refl x)).ite ((refl x).ite ((refl x).put _ key))

theorem enableCtx (n : Nat) (m : Mod) : LaneKept m (m.enableCtx n) :=
  .of_only ((Only.refl [.eng] m).oCtx (by decide)) (by decide) (by decide) (by decide) (by decide)

theorem showSchedule (h : LaneKept a b) : LaneKept a b.showSchedule := by
  unfold Mod.showSchedule
  exact ((((((((((h.put _ (by decide)).put _ (by decide)).put _ (by decide)).put _ (by decide)).put _ (by decide)).put _ (by decide)).put _
    (by decide)).put _ (by decide)).put _ (by decide)).put _ (by decide))

theorem showChannels (h : LaneKept a b) : LaneKept a b.showChannels := by
  refine (h.each _ _ (fun k _ x => ?_)).each _ _ (fun n _ x => ?_)
  · have key : Ob.activeLane ≠ Ob.mclkState k := by unfold Ob.activeLane Ob.mclkState; omega
    exact ((refl x).put _ key).ite (((refl x).put _ key).ite (refl x))
  · have key : Ob.activeLane ≠ Ob.chState n := by unfold Ob.activeLane Ob.chState; omega
    exact ((refl x).put _ key).ite (((refl x).put _ key).ite (((refl x).put _ key).ite (((refl x).put _ key).ite (refl x))))

theorem showSlots (h : LaneKept a b) : LaneKept a b.showSlots :=
  h.each _ _ (fun c _ x => (refl x).put _ (by unfold Ob.activeLane Ob.slotsUsed; omega))

theorem showTraceSize (h : LaneKept a b) : LaneKept a b.showTraceSize := (h.put _ (by decide)).put _ (by decide)
theorem showAvail (h : LaneKept a b) : LaneKept a b.showAvail := (h.put _ (by decide)).put _ (by decide)
theorem showPlan (h : LaneKept a b) : LaneKept a b.showPlan := h.put _ (by decide)
theorem showCirque (h : LaneKept a b) : LaneKept a b.showCirque := h.put _ (by decide)
theorem showCal (h : LaneKept a b) : LaneKept a b.showCal := h.put _ (by decide)
theorem showRedundant (h : LaneKept a b) : LaneKept a b.showRedundant := h.put _ (by decide)

theorem loadDither (h : LaneKept a b) : LaneKept a b.loadDither :=
  h.trans (.of_only (only_modHk b _) (by decide) (by decide) (by decide) (by decide))

theorem showIdOrder (h : LaneKept a b) : LaneKept a b.showIdOrder := by
  refine h.each _ _ (fun s _ x => ?_)
  have order : Ob.activeLane ≠ Ob.idOrder s := by unfold Ob.activeLane Ob.idOrder; omega
  have valid : Ob.activeLane ≠ Ob.idValid s := by unfold Ob.activeLane Ob.idValid; omega
  have first : ∀ v, LaneKept x (x.put (Ob.idOrder s) v) := fun v => (refl x).put v order
  exact ((first _).put _ valid).ite (((first _).put _ valid).ite (first _))

theorem showOut (h : LaneKept a b) (g : Nat) : LaneKept a (b.showOut g) := h.put _ (by unfold Ob.activeLane Ob.outState; omega)

end LaneKept

/-- What the firmware of the granted lane shows before READY leaves the arbitration, and names the lane. -/
theorem firmwareUp_laws (l : Nat) (m : Mod) : (m.firmwareUp l).arb = m.arb ∧ (m.firmwareUp l).get Ob.activeLane = l := by
  unfold Mod.firmwareUp
  dsimp only
  generalize hA : Mod.put Ob.activeLane l _ = A
  have arb : A.arb = m.arb := by subst hA; rfl
  have lane : A.get Ob.activeLane = l := by subst hA; exact get_put_same _
  clear hA
  generalize hB : ({ A with mbx := _ } : Mod) = B
  have arbB : B.arb = A.arb := by subst hB; rfl
  have laneB : B.get Ob.activeLane = A.get Ob.activeLane := by subst hB; rfl
  clear hB
  generalize hC : Mod.each (List.range 8) Mod.showOut _ = C
  have boots : LaneKept B C := by
    subst hC
    refine LaneKept.each (LaneKept.showIdOrder (LaneKept.showCal (LaneKept.showCirque (LaneKept.loadDither (LaneKept.showPlan (LaneKept.showAvail
      (LaneKept.showTraceSize (LaneKept.showSlots (LaneKept.showChannels (LaneKept.showSchedule (LaneKept.each (LaneKept.placeContexts
      (LaneKept.each (LaneKept.manageAll (LaneKept.each (LaneKept.refl B) _ _ (fun k _ x => ?_))) _ _ (fun p _ x => ?_))) _ _
      (fun n _ x => LaneKept.enableCtx n x)))))))))))) _ _ (fun g _ x => (LaneKept.refl x).showOut g)
    · exact ((LaneKept.refl x).put _ (by unfold Ob.activeLane Ob.sensorState; omega)).ite (LaneKept.refl x)
    · exact ((LaneKept.refl x).put _ (by unfold Ob.activeLane Ob.dtOnAEff; omega)).put _ (by unfold Ob.activeLane Ob.dtOnBEff; omega)
  clear hC
  have done : C.arb = m.arb ∧ C.get Ob.activeLane = l :=
    ⟨boots.arb.trans (arbB.trans arb), boots.lane.trans (laneB.trans lane)⟩
  split
  · exact ⟨done.1, (get_put_other _ (by decide)).trans done.2⟩
  · exact done

/-! ### A claim (R321, R323) -/

/-- A lane that is not active and fails while none is incoming leaves the grant and READY. -/
theorem standbyUnhealthy_holds (cause : Nat) {m : Mod} (hi : m.arb.incoming = none) :
    (m.standbyUnhealthy cause).arb.grant = m.arb.grant ∧ (m.standbyUnhealthy cause).arb.armed = m.arb.armed
    ∧ (m.standbyUnhealthy cause).link.ready = m.link.ready := by
  have resync : ∀ (l : Nat) (x : Mod), (x.autoResync l).arb.grant = x.arb.grant ∧ (x.autoResync l).arb.armed = x.arb.armed
      ∧ (x.autoResync l).link.ready = x.link.ready := by
    intro l x
    unfold Mod.autoResync
    split
    · exact ⟨rfl, rfl, rfl⟩
    · exact ⟨rfl, rfl, rfl⟩
  have told : ∀ (l sev fault : Nat) (x : Mod), ((x.raise 2 sev fault l).autoResync l).arb.grant = x.arb.grant
      ∧ ((x.raise 2 sev fault l).autoResync l).arb.armed = x.arb.armed ∧ ((x.raise 2 sev fault l).autoResync l).link.ready = x.link.ready := by
    intro l sev fault x
    obtain ⟨grant, armed, ready⟩ := resync l (x.raise 2 sev fault l)
    have arb : (x.raise 2 sev fault l).arb = x.arb := raise_part _ _ _ _ _ .arb (by decide)
    exact ⟨grant.trans (by rw [arb]), armed.trans (by rw [arb]), ready.trans (raise_ready _ _ _ _ _)⟩
  unfold Mod.standbyUnhealthy
  dsimp only
  split
  · exact ⟨rfl, rfl, rfl⟩
  · rw [hi, if_neg (by decide)]
    split
    · exact ⟨rfl, rfl, rfl⟩
    · split
      · exact told _ _ _ _
      · exact told _ _ _ _

theorem inputsRestart_kept (m : Mod) : LaneKept m m.inputsRestart := by
  refine (LaneKept.refl m).each _ _ (fun n _ x => ?_)
  unfold Mod.restartInput Mod.putBit
  have fld : LaneKept x (x.modFld n (fun y => { y with out := false, since := 0, onePs := none, maxDone := false })) :=
    .of_only (l := [.fld]) (by intro p hp; cases p <;> first | (exact absurd (by decide) hp) | rfl) (by decide) (by decide) (by decide) (by decide)
  exact ((fld.put _ (by unfold Ob.activeLane Ob.filterCount; omega)).put _ (by decide)).put _ (by decide)

/-- What READY tells of a lockout, of steps that failed, of a long reset and of the field die. -/
def Mod.startTells (lock : Bool) (m2 : Mod) : Mod :=
  let m3 := if lock then
      m2.raise 87 sevStop (if m2.get Ob.sealState = 1 then 0x4A09 else if m2.get Ob.sealState = 2 then 0x4A0A else 0x4A0B)
        (m2.get Ob.sealA + 256 * m2.get Ob.sealB)
    else m2
  let m4 := m3.power.fails.foldl (fun m f => m.raise 6 sevWarn f.2.2 (f.1 + 256 * f.2.1)) m3
  let m5 := if m4.get Ob.resetHeldS ≠ 0 then m4.raise 5 sevWarn 0x4A10 (m4.get Ob.resetHeldS) else m4
  if m5.power.fieldBad then (m5.raise 115 sevFault 0x5406 65536).inputsRestart else m5

theorem startTells_kept (lock : Bool) (m : Mod) : LaneKept m (m.startTells lock) := by
  unfold Mod.startTells
  have first : LaneKept m (if lock = true then m.raise 87 sevStop (if m.get Ob.sealState = 1 then 0x4A09 else if m.get Ob.sealState = 2 then 0x4A0A
      else 0x4A0B) (m.get Ob.sealA + 256 * m.get Ob.sealB) else m) := ((LaneKept.refl m).raise _ _ _ _).ite (LaneKept.refl m)
  dsimp only
  generalize (if lock = true then _ else m) = A at first
  have steps : ∀ (fails : List (Nat × Nat × Nat)) (x : Mod), LaneKept m x →
      LaneKept m (fails.foldl (fun m f => m.raise 6 sevWarn f.2.2 (f.1 + 256 * f.2.1)) x) := by
    intro fails
    induction fails with
    | nil => exact fun _ hx => hx
    | cons f fs ih => exact fun x hx => ih _ (hx.raise _ _ _ _)
  have second := steps A.power.fails A first
  generalize List.foldl _ A A.power.fails = B at second
  have third : LaneKept m (if B.get Ob.resetHeldS ≠ 0 then B.raise 5 sevWarn 0x4A10 (B.get Ob.resetHeldS) else B) := (second.raise _ _ _ _).ite second
  generalize (if B.get Ob.resetHeldS ≠ 0 then _ else B) = C at third
  exact ((third.raise _ _ _ _).trans (inputsRestart_kept _)).ite third

theorem startComplete_eq (l : Nat) (m : Mod) :
    ∃ arg st, m.startComplete l =
      (let m6 := Mod.startTells m.sdc.lockout (Mod.inform 0 arg (Mod.put Ob.moduleState st { m with link := { m.link with ready := true, evtLow := false } }))
       if (m6.failOf (1 - l)).1 ≠ 0 then
         (m6.raise 6 sevWarn (m6.failOf (1 - l)).1 ((1 - l) + 256 * (m6.failOf (1 - l)).2)).standbyUnhealthy (m6.failOf (1 - l)).1
       else m6) := ⟨_, _, rfl⟩

/-- READY: EV000 is told, and the claim stands. -/
theorem startComplete_laws {l : Nat} {m : Mod} (hi : m.arb.incoming = none) :
    (m.startComplete l).arb.grant = m.arb.grant ∧ (m.startComplete l).arb.armed = m.arb.armed ∧ (m.startComplete l).link.ready = true
    ∧ (m.startComplete l).get Ob.activeLane = m.get Ob.activeLane ∧ 0 ∈ (m.startComplete l).seenEv := by
  obtain ⟨arg, st, eq⟩ := startComplete_eq l m
  rw [eq]
  generalize hA : Mod.inform 0 _ _ = A
  have begins : LaneKept { m with link := { m.link with ready := true, evtLow := false } } A := by
    subst hA; exact ((LaneKept.refl _).put _ (by decide)).raise _ _ _ _
  have told : 0 ∈ A.seenEv := by subst hA; exact seen_raised _ _ _ _ _
  clear hA
  have arbA : A.arb = m.arb := begins.arb
  have laneA : A.get Ob.activeLane = m.get Ob.activeLane := begins.lane
  have readyA : A.link.ready = true := begins.ready
  have tells := startTells_kept m.sdc.lockout A
  generalize A.startTells m.sdc.lockout = B at tells
  have arbB : B.arb = m.arb := tells.arb.trans arbA
  dsimp only
  split
  next =>
    have raised := (LaneKept.refl B).raise 6 sevWarn (B.failOf (1 - l)).1 ((1 - l) + 256 * (B.failOf (1 - l)).2)
    generalize B.raise 6 sevWarn _ _ = C at raised
    have arbC : C.arb = m.arb := raised.arb.trans arbB
    obtain ⟨grant, armed, ready⟩ := standbyUnhealthy_holds (B.failOf (1 - l)).1 (m := C) (by rw [arbC, hi])
    obtain ⟨-, entries, grows, -⟩ := standbyUnhealthy_laws C (B.failOf (1 - l)).1
    obtain ⟨-, -, -, key⟩ := laneKeys_others C.standby 0 (standby_le C) (by decide)
    exact ⟨grant.trans (by rw [arbC]), armed.trans (by rw [arbC]), ready.trans (raised.ready.trans (tells.ready.trans readyA)),
      (entries _ key).trans (raised.lane.trans (tells.lane.trans laneA)), SeenGrows.mem grows (raised.seen.mem (tells.seen.mem told))⟩
  next => exact ⟨by rw [arbB], by rw [arbB], tells.ready.trans readyA, tells.lane.trans laneA, tells.seen.mem told⟩

/-- Serac grants a first claim. -/
theorem laneClaim_grants {a b : Bool} {l : Nat} {m : Mod}
    (hw : (if (a && m.mayClaim 0) = true then some 0 else if (b && m.mayClaim 1) = true then some 1 else none) = some l)
    (ha : m.arb.armed = false) (hg : m.arb.grant = none) (hi : m.arb.incoming = none) (hr : m.sdc.resetLow = false) :
    (m.laneClaim a b).arb.grant = some l ∧ (m.laneClaim a b).arb.armed = true ∧ (m.laneClaim a b).link.ready = true
    ∧ (m.laneClaim a b).get Ob.activeLane = l ∧ 0 ∈ (m.laneClaim a b).seenEv := by
  unfold Mod.laneClaim
  dsimp only
  simp only [hw]
  rw [if_neg (by simp [ha, hg, hr])]
  generalize hA : Mod.modCd _ _ = A
  have arb : A.arb = { m.arb with grant := some l, armed := true } := by subst hA; rfl
  clear hA
  obtain ⟨up, lane⟩ := firmwareUp_laws l A
  generalize A.firmwareUp l = B at up lane
  have shows := (LaneKept.refl B).showRedundant
  generalize B.showRedundant = C at shows
  have arbC : C.arb = { m.arb with grant := some l, armed := true } := shows.arb.trans (up.trans arb)
  obtain ⟨grant, armed, ready, laneD, told⟩ := startComplete_laws (l := l) (m := C) (by rw [arbC]; exact hi)
  generalize C.startComplete l = D at grant armed ready laneD told
  obtain ⟨only, entries, -, -⟩ := cdShow_laws D
  rw [show D.cdShow.arb = D.arb from only .arb (by decide), show D.cdShow.link = D.link from only .link (by decide),
    show D.cdShow.seenEv = D.seenEv from only .seenEv (by decide), entries _ (by decide)]
  exact ⟨grant.trans (by rw [arbC]), armed.trans (by rw [arbC]), ready, laneD.trans (shows.lane.trans lane), told⟩

/-- A lane that has not claimed in time, before any claim (R321, R473). -/
theorem claimTimeout_laws {l : Nat} {m : Mod} (hr : m.power.released.isSome = true) (hg : m.arb.grant = none) (ha : m.arb.armed = false)
    (hl : l < 2) (hn : m.lanes.length = 2) :
    ((m.claimTimeout l).laneAt l).withdrawn = true ∧ (m.claimTimeout l).healthOf l = 2 ∧ (m.claimTimeout l).link.evtLow = true
    ∧ (m.claimTimeout l).get (Ob.unhealthyCause l) = (if (m.failOf l).1 = 0 then 0x1009 else (m.failOf l).1)
    ∧ (m.claimTimeout l).now = max m.now (m.power.released.getD 0 + sPs 2) ∧ Only [.clk, .lanes, .obj, .link] m (m.claimTimeout l)
    ∧ OnlyEntries [Ob.health l, Ob.unhealthyCause l] m (m.claimTimeout l) := by
  unfold Mod.claimTimeout
  dsimp only
  rw [if_neg (by simp [hg, Option.isSome_iff_ne_none.1 hr]), if_neg (by simp [ha])]
  generalize m.power.released.getD 0 + sPs 2 = q
  generalize (if (m.failOf l).1 = 0 then 0x1009 else (m.failOf l).1) = code
  generalize (if (m.failOf l).2 = 0 then 9 else (m.failOf l).2) = st
  obtain ⟨-, -, -, apart⟩ := laneKeys_apart l
  generalize hA : Mod.modLane l _ (m.reach q) = A
  have lanes : A.laneAt l = { m.laneAt l with withdrawn := true, failCode := code, failStep := st } := by
    subst hA
    exact laneAt_modLane (m.reach q) l _ (by rw [show (m.reach q).lanes = m.lanes from rfl, hn]; exact hl)
  have only : Only [.clk, .lanes, .obj, .link] m A := by subst hA; exact ((Only.refl _ m).oReach (by decide)).oLane (by decide)
  have entries : OnlyEntries [Ob.health l, Ob.unhealthyCause l] m A := by subst hA; exact onlyEntries_obj (onlyEntries_refl _ m) rfl
  have now : A.now = max m.now q := by subst hA; rfl
  clear hA
  generalize hB : Mod.put (Ob.unhealthyCause l) code _ = B
  have puts : Only [.obj] A B := by subst hB; exact ((Only.refl _ A).oput (by decide)).oput (by decide)
  have keys : OnlyEntries [Ob.health l, Ob.unhealthyCause l] A B := by subst hB; exact ((onlyEntries_refl _ A).oput (by simp)).oput (by simp)
  have cause : B.get (Ob.unhealthyCause l) = code := by subst hB; exact get_put_same _
  have health : B.get (Ob.health l) = 2 := by subst hB; exact (get_put_other _ apart).trans (get_put_same A)
  clear hB
  have marks : Only [.link] B { B with link := { B.link with evtLow := true } } := by
    intro p hp; cases p <;> first | (exact absurd (by decide) hp) | rfl
  have laneB : B.laneAt l = A.laneAt l := puts.laneAt (by decide) l
  refine ⟨?_, health, rfl, cause, (puts.now (by decide)).trans now, (only.to puts (by decide)).to marks (by decide),
    onlyEntries_obj (entries.trans keys) rfl⟩
  exact congrArg LaneRt.withdrawn (laneB.trans lanes)

/-- The second lane is ready (R321). -/
theorem standbyReady_laws {m : Mod} (ha : m.arb.armed = true) (hr : m.get (Ob.roleNow m.standby) = 2)
    (hh : m.healthOf m.standby = 0) (hc : m.arb.cause = none) (hf : (m.laneAt m.standby).floe = true) (ht : (m.laneAt m.standby).tested = true) :
    m.standbyReady.get (Ob.roleNow m.standby) = 1 ∧ m.standbyReady.get Ob.redundant = 1
    ∧ m.standbyReady.gens = [m.gens.getD m.lane 0, m.gens.getD m.lane 0]
    ∧ Only [.obj, .sto, .lanes, .arb] m m.standbyReady ∧ OnlyEntries [Ob.roleNow m.standby, Ob.redundant] m m.standbyReady := by
  unfold Mod.standbyReady
  dsimp only
  rw [if_pos (by simp [ha, hr, hh, hf, ht])]
  generalize hb : m.standby = b at hr hh
  have hb1 : b ≤ 1 := hb ▸ standby_le m
  have k1 : Ob.roleNow b ≠ Ob.redundant := by unfold Ob.roleNow Ob.redundant; omega
  have k2 : Ob.health b ≠ Ob.roleNow b := by unfold Ob.roleNow Ob.health; omega
  have same : (m.put (Ob.roleNow b) 1).standby = b := by
    rw [← hb]
    unfold Mod.standby Mod.lane
    rw [get_put_other _ (by unfold Ob.activeLane Ob.roleNow; omega)]
  have serves : (m.put (Ob.roleNow b) 1).showRedundant = (m.put (Ob.roleNow b) 1).put Ob.redundant 1 := by
    unfold Mod.showRedundant Mod.healthOf
    dsimp only
    rw [same, get_put_same, get_put_other _ k2, show m.get (Ob.health b) = 0 from hh, show (m.put (Ob.roleNow b) 1).arb = m.arb from rfl, hc, ha]
    rfl
  rw [serves]
  generalize hA : Mod.put Ob.redundant 1 _ = A
  have puts : Only [.obj] m A := by subst hA; exact ((Only.refl _ m).oput (by decide)).oput (by decide)
  have entries : OnlyEntries [Ob.roleNow b, Ob.redundant] m A := by subst hA; exact ((onlyEntries_refl _ m).oput (by simp)).oput (by simp)
  have role : A.get (Ob.roleNow b) = 1 := by subst hA; exact (get_put_other _ k1).trans (get_put_same m)
  have redundant : A.get Ob.redundant = 1 := by subst hA; exact get_put_same (m.put (Ob.roleNow b) 1)
  clear hA
  generalize hB : Mod.modArb _ (Mod.modLane b _ A) = B
  have marks : Only [.lanes, .arb] A B := by subst hB; exact ((Only.refl _ A).oLane (by decide)).oArb (by decide)
  clear hB
  have gens : Only [.sto] B { B with gens := List.replicate 2 (m.gens.getD m.lane 0) } := by
    intro p hp; cases p <;> first | (exact absurd (by decide) hp) | rfl
  have marked : OnlyEntries [Ob.roleNow b, Ob.redundant] m B := entries.trans (marks.onlyEntries (by decide) _)
  exact ⟨(marks.get (by decide) _).trans role, (marks.get (by decide) _).trans redundant, rfl,
    (((puts.mono (by decide)).to marks (by decide)).to gens (by decide)), onlyEntries_obj marked rfl⟩

/-- A withdrawal is reported, and a healthy standby lane claims (R332, R333). -/
theorem claimWithdrawn_laws {cause : Nat} {m : Mod} (h1 : m.lane ≤ 1) (hc : m.arb.cause = some cause) (hp : m.arb.reported = false)
    (hr : m.get (Ob.roleNow m.standby) = 1) (hh : m.healthOf m.standby = 0) :
    m.claimWithdrawn.arb.incoming = some m.standby ∧ m.claimWithdrawn.arb.grant = some m.standby
    ∧ m.claimWithdrawn.healthOf m.lane = 2 ∧ m.claimWithdrawn.get (Ob.unhealthyCause m.lane) = cause ∧ m.claimWithdrawn.arb.reported = true
    ∧ Only [.obj, .lanes, .arb] m m.claimWithdrawn := by
  unfold Mod.claimWithdrawn
  simp only [hc]
  rw [hp, hh, hr]
  have apart : Ob.health m.lane ≠ Ob.unhealthyCause m.lane := (laneKeys_apart m.lane).2.2.2
  have k1 : Ob.unhealthyCause m.lane ≠ Ob.redundant := by unfold Ob.unhealthyCause Ob.redundant; omega
  have k2 : Ob.health m.lane ≠ Ob.redundant := by unfold Ob.health Ob.redundant; omega
  generalize m.standby = b
  generalize m.lane = a at apart k1 k2
  generalize hA : Mod.modLane a _ _ = A
  have only : Only [.obj, .lanes, .arb] m A := by subst hA; exact ((Only.refl _ m).oArb (by decide)).oLane (by decide)
  have arb : A.arb.reported = true := by subst hA; rfl
  clear hA
  generalize hB : Mod.put (Ob.unhealthyCause a) cause _ = B
  have puts : Only [.obj] A B := by subst hB; exact ((Only.refl _ A).oput (by decide)).oput (by decide)
  have told : B.get (Ob.unhealthyCause a) = cause := by subst hB; exact get_put_same _
  have health : B.get (Ob.health a) = 2 := by subst hB; exact (get_put_other _ apart).trans (get_put_same A)
  clear hB
  have arbB : B.arb = A.arb := puts .arb (by decide)
  have claims : Only [.obj, .lanes, .arb] m (B.modArb (fun x => { x with incoming := some b, grant := some b })).showRedundant :=
    ((only.to puts (by decide)).oArb (by decide)).to (only_showRedundant _) (by decide)
  refine ⟨rfl, rfl, (get_put_other (B.modArb _) k2).trans health, (get_put_other (B.modArb _) k1).trans told, ?_, claims⟩
  show B.arb.reported = true
  rw [arbB, arb]

/-! ### The takeover (R333, R335) -/

/-- The clock, the claims and the lanes' entries stay. -/
structure LanesStand (a b : Mod) : Prop where
  clk     : b.clk = a.clk
  claims  : (b.arb.grant, b.arb.incoming, b.arb.commit) = (a.arb.grant, a.arb.incoming, a.arb.commit)
  entries : ∀ k, (k < 0x200000 ∨ (0x480000 ≤ k ∧ k < 0x490000)) → b.get k = a.get k

namespace LanesStand

variable {a b c : Mod}

theorem refl (a : Mod) : LanesStand a a := ⟨rfl, rfl, fun _ _ => rfl⟩

theorem trans (h : LanesStand a b) (g : LanesStand b c) : LanesStand a c :=
  ⟨g.clk.trans h.clk, g.claims.trans h.claims, fun k hk => (g.entries k hk).trans (h.entries k hk)⟩

theorem of_only {l : List Part} (h : Only l a b) (h1 : Part.clk ∉ l) (h2 : Part.arb ∉ l) (h3 : Part.obj ∉ l) : LanesStand a b :=
  ⟨h .clk h1, by rw [show b.arb = a.arb from h .arb h2], fun _ _ => h.get h3 _⟩

theorem put (h : LanesStand a b) {k : Nat} (v : Nat) (hk : 0x200000 ≤ k) (hn : k < 0x480000 ∨ 0x490000 ≤ k) : LanesStand a (b.put k v) :=
  h.trans ⟨rfl, rfl, fun _ hj => get_put_other _ (by omega)⟩

theorem each (h : LanesStand a b) (ns : List Nat) (F : Nat → Mod → Mod) (hF : ∀ n ∈ ns, ∀ m, LanesStand m (F n m)) : LanesStand a (b.each ns F) :=
  h.trans (each_invariant (I := LanesStand b) (refl _) (fun n hn _ hx => hx.trans (hF n hn _)))

theorem ite {p : Prop} [Decidable p] (h : LanesStand a b) (g : LanesStand a c) : LanesStand a (if p then b else c) := by split <;> assumption

theorem modGrp (h : LanesStand a b) (g : Nat) (f : GrpRt → GrpRt) : LanesStand a (b.modGrp g f) :=
  h.trans (.of_only (l := [.grp]) ((Only.refl _ _).oGrp (by decide)) (by decide) (by decide) (by decide))

theorem loadPair (h : LanesStand a b) {g : Nat} (hg : g < 8) (l : PhaseLoad) : LanesStand a (b.loadPair g l) := by
  unfold Mod.loadPair
  dsimp only
  generalize shortAtLoad _ _ _ _ _ _ _ _ = n
  have takes := h.modGrp g (fun y => { y with active := y.active.set l.i (some l.val), level := y.level.set l.i (refLevel l.hp l.val l.valley) })
  generalize b.modGrp g _ = A at takes
  have counts : LanesStand a (if n = 0 then A else A.put (Ob.minPulseCount g) ((A.get (Ob.minPulseCount g) + n) % 4294967296)) :=
    takes.ite (takes.put _ (by unfold Ob.minPulseCount; omega) (by unfold Ob.minPulseCount; omega))
  generalize (if n = 0 then A else _) = B at counts
  refine LanesStand.ite ?_ counts
  exact (counts.put (k := Ob.beyondCount g) _ (by unfold Ob.beyondCount; omega) (by unfold Ob.beyondCount; omega)).trans
    (.of_only (only_raiseAt _ _ _ _ _ _) (by decide) (by decide) (by decide))

theorem loadPairs (h : LanesStand a b) {g : Nat} (hg : g < 8) (ls : List PhaseLoad) : LanesStand a (ls.foldl (fun m l => m.loadPair g l) b) := by
  induction ls generalizing b with
  | nil => exact h
  | cons l ls ih => exact ih (h.loadPair hg l)

theorem loadGroup (h : LanesStand a b) (valley : Bool) {g : Nat} (hg : g < 8) : LanesStand a (b.loadGroup valley g) := by
  unfold Mod.loadGroup
  dsimp only
  split
  · exact h
  · exact ((h.loadPairs hg _).modGrp _ _).loadPairs hg _

theorem modRime (h : LanesStand a b) (l : Nat) (f : RimeRt → RimeRt) : LanesStand a (b.modRime l f) :=
  h.trans (.of_only (l := [.rime]) (by intro p hp; cases p <;> first | (exact absurd (by decide) hp) | rfl) (by decide) (by decide) (by decide))

theorem pinsSwitch (h : LanesStand a b) : LanesStand a b.pinsSwitch := by
  unfold Mod.pinsSwitch
  dsimp only
  have shadows := h.each (List.range 8) (fun g m => m.modGrp g (fun x => { x with
    duty := x.twin, clampSet := x.twinClmp, twin := x.duty, twinClmp := x.clampSet })) (fun g _ x => (refl x).modGrp g _)
  generalize Mod.each _ _ b = A at shadows
  split
  next valley _ =>
    have loads := shadows.each (List.range 8) (Mod.loadGroup valley) (fun g hg x => (refl x).loadGroup valley (List.mem_range.1 hg))
    generalize Mod.each _ _ A = B at loads
    generalize hC : Mod.modArb _ B = C
    have made : LanesStand a C := by subst hC; exact loads.trans ⟨rfl, rfl, fun _ _ => rfl⟩
    exact (made.modRime _ _).modRime _ _
  next => exact (shadows.modRime _ _).modRime _ _

end LanesStand

theorem now_eq_of_clk {a b : Mod} (h : b.clk = a.clk) : b.now = a.now := by unfold Mod.now; rw [h]

/-- The instant of a takeover: the clock, and the claims that then stand. -/
theorem takeoverInstant_laws {claim cause : Nat} {edges : List Nat} {m : Mod} (h1 : m.lane ≤ 1) (hc : m.arb.cause = some cause)
    (hi : m.arb.incoming = some m.standby) :
    (m.takeoverInstant claim edges).get Ob.activeLane = m.standby ∧ (m.takeoverInstant claim edges).get (Ob.roleNow m.standby) = 0
    ∧ (m.takeoverInstant claim edges).get (Ob.roleNow m.lane) = 1 ∧ (m.takeoverInstant claim edges).get Ob.lastCause = cause
    ∧ (m.takeoverInstant claim edges).get Ob.lastLatency = min (claim + (chooseInstant edges m.tickPs).1 / 1000) 4294967295
    ∧ ((m.takeoverInstant claim edges).arb.grant, (m.takeoverInstant claim edges).arb.incoming, (m.takeoverInstant claim edges).arb.commit)
      = (some m.standby, none, some (m.lane, cause, claim + (chooseInstant edges m.tickPs).1 / 1000, (chooseInstant edges m.tickPs).2))
    ∧ m.arb.twPs + claim * 1000 + (chooseInstant edges m.tickPs).1 ≤ (m.takeoverInstant claim edges).now := by
  unfold Mod.takeoverInstant
  simp only [hi, hc]
  have ne := standby_ne_lane h1
  have hb := standby_le m
  generalize chooseInstant edges m.tickPs = at_
  generalize m.standby = b at ne hb
  generalize m.lane = l at ne h1
  show (_ ∧ _)
  generalize hA : Mod.modArb _ (m.reach _) = A
  have claims : (A.arb.grant, A.arb.incoming, A.arb.commit) = (some b, none, some (l, cause, claim + at_.1 / 1000, at_.2)) := by subst hA; rfl
  have now : m.arb.twPs + claim * 1000 + at_.1 ≤ A.now := by subst hA; exact le_max_right _ _
  clear hA
  generalize hB : Mod.put (Ob.roleNow l) 1 _ = B
  have lane : B.get Ob.activeLane = b := by
    subst hB
    rw [get_put_other _ (by unfold Ob.activeLane Ob.roleNow; omega), get_put_other _ (by unfold Ob.activeLane Ob.roleNow; omega), get_put_same]
  have incoming : B.get (Ob.roleNow b) = 0 := by
    subst hB
    rw [get_put_other _ (by unfold Ob.roleNow; omega), get_put_same]
  have outgoing : B.get (Ob.roleNow l) = 1 := by subst hB; exact get_put_same _
  have arbB : B.arb = A.arb := by subst hB; rfl
  have clkB : B.clk = A.clk := by subst hB; rfl
  clear hB
  generalize hC : Mod.put Ob.lastLatency _ _ = C
  have latency : C.get Ob.lastLatency = min (claim + at_.1 / 1000) 4294967295 := by
    subst hC
    exact (get_put_same _).trans Nat.min_def.symm
  have last : C.get Ob.lastCause = cause := by subst hC; exact (get_put_other _ (by decide)).trans (get_put_same _)
  have entriesC : OnlyEntries [Ob.lastTakeover, Ob.lastCause, Ob.lastLatency] B C := by
    subst hC; exact (((onlyEntries_refl _ B).oput (by simp)).oput (by simp)).oput (by simp)
  have arbC : C.arb = B.arb := by subst hC; rfl
  have clkC : C.clk = B.clk := by subst hC; rfl
  clear hC
  generalize hD : (if at_.2 = true then C.bump Ob.narrowTakeovers else C).showRedundant = D
  have entriesD : OnlyEntries [Ob.narrowTakeovers, Ob.redundant] C D := by
    subst hD
    split
    · exact ((onlyEntries_refl _ C).oput (by simp)).oput (by simp)
    · exact (onlyEntries_refl _ C).oput (by simp)
  have onlyD : Only [.obj] C D := by
    subst hD
    split
    · exact ((Only.refl _ C).obump (by decide)).to (only_showRedundant _) (by decide)
    · exact only_showRedundant C
  clear hD
  have stands := (LanesStand.refl D).pinsSwitch
  generalize D.pinsSwitch = E at stands
  have roles : ∀ j, j ≤ 1 → E.get (Ob.roleNow j) = B.get (Ob.roleNow j) := by
    intro j hj
    rw [stands.entries _ (.inr (by unfold Ob.roleNow; omega)), entriesD _ (by
      unfold Ob.roleNow Ob.narrowTakeovers Ob.redundant; simp only [List.mem_cons, List.not_mem_nil, or_false]; omega), entriesC _ (by
      unfold Ob.roleNow Ob.lastTakeover Ob.lastCause Ob.lastLatency; simp only [List.mem_cons, List.not_mem_nil, or_false]; omega)]
  have clk : E.clk = A.clk := stands.clk.trans ((onlyD .clk (by decide)).trans (clkC.trans clkB))
  have arbD : D.arb = A.arb := (show D.arb = C.arb from onlyD .arb (by decide)).trans (arbC.trans arbB)
  refine ⟨?_, (roles b hb).trans incoming, (roles l h1).trans outgoing, ?_, ?_, stands.claims.trans (by rw [arbD, claims]), ?_⟩
  · rw [stands.entries _ (.inl (by decide)), entriesD _ (by decide), entriesC _ (by decide), lane]
  · rw [stands.entries _ (.inr (by decide)), entriesD _ (by decide), last]
  · rw [stands.entries _ (.inr (by decide)), entriesD _ (by decide), latency]
  · rwa [now_eq_of_clk clk]

theorem calAborted_sess {m : Mod} (h : m.sess = []) : m.calAborted.sess = [] := by
  unfold Mod.calAborted
  split
  · exact List.map_eq_nil_iff.1 ((sessKeys_raise _ _ _ _ _).trans (by
      show List.map _ m.sess = []
      rw [h]; rfl))
  · exact h

/-- An identification adds nothing, and an MPPT period that has just begun begins anew. -/
def Mod.measuresAnew (m : Mod) : Mod :=
  (m.each (List.range 4) (fun s m => m.modSec s (fun x => { x with idOn := false, idWait := false, idTicks := 0, idDone := false }))).each
    (List.range 4) (fun c m => if m.now < (m.dcAt c).perPs + msPs 1 then m.periodBegins c else m)

theorem only_measuresAnew (m : Mod) : Only [.sec, .dc] m m.measuresAnew := by
  have ident : Only [.sec, .dc] m (m.each (List.range 4) (fun s m => m.modSec s (fun x =>
      { x with idOn := false, idWait := false, idTicks := 0, idDone := false }))) :=
    only_each _ _ _ (fun s x => (Only.refl _ x).oSec (by decide))
  refine ident.trans (only_each _ _ _ (fun c x => ?_))
  split
  · exact (Only.refl _ x).oDc (by decide)
  · exact Only.refl _ _

/-- An urgent conversion repeats on the active lane's converter, and an upload is discarded. -/
def Mod.repeatsUrgent (m : Mod) : Mod :=
  { m with hk := { m.hk with urgent := m.hk.urgent.map (fun u => (u.1, u.2.1, m.lane)) }, secu := { m.secu with upload := [] } }

theorem repeatsUrgent_stands (m : Mod) : LanesStand m m.repeatsUrgent ∧ m.repeatsUrgent.sess = m.sess := by
  unfold Mod.repeatsUrgent
  exact ⟨⟨rfl, rfl, fun _ _ => rfl⟩, rfl⟩

theorem leaveBehind_eq (m : Mod) : m.leaveBehind = m.closeAll.calAborted.measuresAnew.repeatsUrgent.showCirque := by
  unfold Mod.leaveBehind Mod.measuresAnew
  generalize Mod.each (List.range 4) _ (Mod.each (List.range 4) _ m.closeAll.calAborted) = D
  rfl

/-- What does not cross at a takeover touches no lane, and no session is left (R29). -/
theorem leaveBehind_laws (m : Mod) : LanesStand m m.leaveBehind ∧ m.leaveBehind.sess = [] := by
  rw [leaveBehind_eq]
  obtain ⟨closes, -, empty⟩ := closeAll_laws m
  generalize m.closeAll = A at closes empty
  obtain ⟨aborts, calEntries⟩ := calAborted_laws A
  have emptyB := calAborted_sess empty
  generalize A.calAborted = B at aborts calEntries emptyB
  have first : LanesStand m B := (LanesStand.of_only closes (by decide) (by decide) (by decide)).trans
    ⟨aborts .clk (by decide), by rw [show B.arb = A.arb from aborts .arb (by decide)], fun k hk => calEntries k (by
      unfold Ob.calState; simp only [List.mem_singleton]; omega)⟩
  have anew := only_measuresAnew B
  generalize B.measuresAnew = D at anew
  have second : LanesStand m D := first.trans (.of_only anew (by decide) (by decide) (by decide))
  have emptyD : D.sess = [] := (show D.sess = B.sess from anew .sess (by decide)).trans emptyB
  obtain ⟨third, kept⟩ := repeatsUrgent_stands D
  generalize D.repeatsUrgent = E at third kept
  have shows : Only [.obj] E E.showCirque := (Only.refl [.obj] E).oput (by decide)
  exact ⟨(second.trans third).put (k := Ob.cirqueState) _ (by decide) (.inr (by decide)), (shows .sess (by decide)).trans (kept.trans emptyD)⟩

/-! ### Broken and missing claims (R20, R323, R336) -/

theorem splitClaim_laws {m : Mod} (hg : m.arb.grant.isSome = true) (ha : m.arb.armed = true) :
    m.splitClaim.get Ob.splitClaims = (m.get Ob.splitClaims + 1) % 4294967296 ∧ 4 ∈ m.splitClaim.seenEv
    ∧ (m.splitClaim.healthOf m.standby = 2 ∨ m.splitClaim.healthOf m.standby = 3) := by
  unfold Mod.splitClaim
  rw [if_pos (by simp [hg, ha])]
  dsimp only
  generalize hA : m.bump Ob.splitClaims = A
  have counts : A.get Ob.splitClaims = (m.get Ob.splitClaims + 1) % 4294967296 := by subst hA; exact get_put_same m
  have same : A.standby = m.standby := by
    subst hA; unfold Mod.standby Mod.lane Mod.bump; rw [get_put_other _ (by decide)]
  clear hA
  rw [← same]
  obtain ⟨-, entries, grows, -⟩ := standbyUnhealthy_laws (A.raise 4 sevFault 0x4808 A.standby) 0x4808
  obtain ⟨-, -, key, -⟩ := laneKeys_others (A.raise 4 sevFault 0x4808 A.standby).standby 0 (standby_le _) (by decide)
  exact ⟨(entries _ key).trans ((get_raised _ _ _ _ _ _).trans counts), SeenGrows.mem grows (seen_raised _ _ _ _ _),
    standbyUnhealthy_after ((Only.refl evParts A).oraise _ _ _ _ (List.Subset.refl _)) (by decide) _⟩

theorem pairBroken_active {m : Mod} (hc : m.arb.cause = none) (hg : m.arb.grant.isSome = true) :
    (m.pairBroken m.lane).arb.cause = some 0x4809 ∧ (m.pairBroken m.lane).arb.grant = none ∧ (m.pairBroken m.lane).arb.twPs = m.now
    ∧ Only [.arb] m (m.pairBroken m.lane) := by
  unfold Mod.pairBroken
  rw [if_pos rfl, withdraw_arb 0x4809 m hc hg]
  exact ⟨rfl, rfl, rfl, only_withdraw _ m⟩

theorem pairBroken_incoming {m : Mod} (h1 : m.lane ≤ 1) (hi : m.arb.incoming = some m.standby) (hh : m.healthOf m.standby ≠ 2) :
    (m.pairBroken m.standby).arb.incoming = none ∧ (m.pairBroken m.standby).arb.grant = none ∧ (m.pairBroken m.standby).healthOf m.standby = 2
    ∧ (m.pairBroken m.standby).get (Ob.unhealthyCause m.standby) = 0x4809 ∧ Only [.arb, .obj] m (m.pairBroken m.standby) := by
  unfold Mod.pairBroken
  rw [if_neg (standby_ne_lane h1), if_pos hi]
  unfold Mod.standbyUnhealthy
  dsimp only
  rw [if_neg hh, if_pos (by rw [hi]; rfl)]
  generalize m.standby = b
  exact ⟨rfl, rfl, (get_put_other _ (laneKeys_apart b).2.2.2).trans (get_put_same _), get_put_same _,
    ((((Only.refl _ m).oArb (by decide)).oput (by decide)).oput (by decide))⟩

theorem pairBroken_idle {m : Mod} (h1 : m.lane ≤ 1) (hi : m.arb.incoming = none) : m.pairBroken m.standby = m := by
  unfold Mod.pairBroken
  rw [if_neg (standby_ne_lane h1), hi]
  exact if_neg (by simp)

/-- No lane holds the grant for its time: a safe stop with K2 open (R336). -/
theorem noGrant_stops {m : Mod} (ha : m.arb.armed = true) (hg : m.arb.grant = none) (hs : m.prot.safeStop = false) (hl : m.grp.length = 8) :
    (m.noGrant.driveK2 false).prot.safeStop = true ∧ (m.noGrant.driveK2 false).get Ob.moduleState = 4
    ∧ (m.noGrant.driveK2 false).get Ob.safeStopCause = 0x480B ∧ m.arb.noneAt + 300000000 ≤ (m.noGrant.driveK2 false).now
    ∧ (m.noGrant.driveK2 false).sdc.k2 = false ∧ 63 ∈ (m.noGrant.driveK2 false).seenEv
    ∧ ∀ g, g < 8 → m.inUse g = true → (m.noGrant.driveK2 false).Tripped g := by
  unfold Mod.noGrant
  rw [if_pos (by simp [ha, hg])]
  generalize m.arb.noneAt + 300000000 = q
  obtain ⟨stops, state, cause, told, trips⟩ := safeStop_stops (cause := 0x480B) (m := m.reach q) hs hl
  have within := within_safeStop 0x480B (m.reach q)
  generalize Mod.safeStop 0x480B (m.reach q) = A at stops state cause told trips within
  obtain ⟨-, low, -, -, only⟩ := driveK2_laws false A
  have opens := only rfl
  generalize A.driveK2 false = B at low opens
  have now : B.now = A.now := opens.now (by decide)
  have prot : B.prot = A.prot := opens .prot (by decide)
  have seen : B.seenEv = A.seenEv := opens .seenEv (by decide)
  refine ⟨by rw [prot, stops], (opens.get (by decide) _).trans state, (opens.get (by decide) _).trans cause, ?_, low, by rw [seen]; exact told,
    fun g h8 hi => (trips g h8 hi).of_grp (opens .grp (by decide))⟩
  rw [now, within.1.now (by decide)]
  exact le_max_right _ _

/-! ### The statement -/

/-- Settles O46: each event by the law of its operation. That READY and EV000 come at the instant of the claim (log entry 75), and that the
300 microseconds without a grant count from its loss (log entry 113), is the model's choice. -/
theorem lanesClaimAndTakeOver : Obligations.LanesClaimAndTakeOver := by
  unfold Obligations.LanesClaimAndTakeOver
  intro s l claim cause b edges hl hn h1
  refine ⟨fun hm ha hg hi hr => ?claimA, fun hm ha hg hi hr => ?claimB, fun hr hg ha => ?timeout, fun ha hr hh hc hf ht => ?ready,
    fun hc hp hr hh => ?withdrawn, fun hc hi => ?takeover, fun hg ha => ?split, fun hc hg => ?broken, fun hi hh => ?brokenIncoming,
    fun hi => ?brokenIdle, fun ha hg hs h8 => ?noGrant⟩
  case claimA => exact does_onMod rfl rfl (laneClaim_grants (by rw [hm]; rfl) ha hg hi hr)
  case claimB => exact does_onMod rfl rfl (laneClaim_grants (by rw [hm]; rfl) ha hg hi hr)
  case timeout => exact does_lane rfl hl rfl (claimTimeout_laws hr hg ha hl hn)
  case ready => exact does_onMod rfl rfl (standbyReady_laws ha hr hh hc hf ht)
  case withdrawn => exact does_onMod rfl rfl (claimWithdrawn_laws h1 hc hp hr hh)
  case takeover =>
    obtain ⟨lane, incoming, outgoing, last, latency, claims, now⟩ := takeoverInstant_laws (claim := claim) (edges := edges) h1 hc hi
    refine does_onMod rfl (N := (s.m.takeoverInstant claim edges).leaveBehind) (if_pos (by rw [hi]; rfl)) ?_
    generalize s.m.takeoverInstant claim edges = A at lane incoming outgoing last latency claims now
    obtain ⟨stands, empty⟩ := leaveBehind_laws A
    generalize A.leaveBehind = B at stands empty
    have held := stands.claims.trans claims
    simp only [Prod.mk.injEq] at held
    obtain ⟨grant, free, commit⟩ := held
    have role : ∀ j, j ≤ 1 → B.get (Ob.roleNow j) = A.get (Ob.roleNow j) := fun j hj => stands.entries _ (.inr (by unfold Ob.roleNow; omega))
    refine ⟨(stands.entries _ (.inl (by decide))).trans lane, (role _ (standby_le _)).trans incoming, (role _ h1).trans outgoing,
      (stands.entries _ (.inr (by decide))).trans last, (stands.entries _ (.inr (by decide))).trans latency, grant, free, commit, ?_, empty⟩
    rwa [now_eq_of_clk stands.clk]
  case split => exact does_onMod rfl rfl (splitClaim_laws hg ha)
  case broken => exact does_lane rfl (by omega) rfl (pairBroken_active hc hg)
  case brokenIncoming => exact does_lane rfl (Nat.lt_succ_of_le (standby_le _)) rfl (pairBroken_incoming h1 hi hh)
  case brokenIdle => exact does_lane rfl (Nat.lt_succ_of_le (standby_le _)) rfl (pairBroken_idle h1 hi)
  case noGrant => exact does_onMod rfl (if_pos (by simp [ha, hg])) (noGrant_stops ha hg hs h8)

end Sys2Proof.Machine
end

section
/-!
PROOFS. Time (R370 to R373, R378, R379, R381): PTP messages, the loss of the source, 1PPS, the triggers and the scheduled-action table, and
the statement on them (O50).
-/
namespace Sys2Proof.Machine

/-! ### PTP (R372) -/

theorem announceUtc_laws (a : PtpMsg) (m : Mod) :
    Only [.obj, .time] m (m.announceUtc a) ∧ OnlyEntries [Ob.leapPending, Ob.utcOffset] m (m.announceUtc a)
    ∧ (m.announceUtc a).time = { m.time with utcByPtp := a.utcValid } := by
  unfold Mod.announceUtc
  dsimp only
  generalize hA : m.put Ob.leapPending _ = A
  have leap : Only [.obj] m A := by subst hA; exact (Only.refl _ m).oput (by decide)
  have leapKeys : OnlyEntries [Ob.leapPending, Ob.utcOffset] m A := by subst hA; exact (onlyEntries_refl _ m).oput (by simp)
  clear hA
  generalize hB : (if a.utcValid = true then A.putS16 Ob.utcOffset a.utcOffset
    else if m.time.utcByPtp = true then A.put Ob.utcOffset (cellGet dfltOf Ob.utcOffset m.sto) else A) = B
  have offset : Only [.obj] A B ∧ OnlyEntries [Ob.leapPending, Ob.utcOffset] A B := by
    subst hB
    have puts : ∀ v, Only [.obj] A (A.put Ob.utcOffset v) ∧ OnlyEntries [Ob.leapPending, Ob.utcOffset] A (A.put Ob.utcOffset v) := fun v =>
      ⟨(Only.refl _ A).oput (by decide), (onlyEntries_refl _ A).oput (by simp)⟩
    split
    · rw [putS16_eq]; exact puts _
    · split
      · exact puts _
      · exact ⟨Only.refl _ _, onlyEntries_refl _ _⟩
  clear hB
  have puts : Only [.obj] m B := leap.trans offset.1
  have time : B.time = m.time := puts .time (by decide)
  refine ⟨(puts.mono (by decide)).to (only_modTime B _) (by decide), onlyEntries_obj (leapKeys.trans offset.2) rfl, ?_⟩
  show ({ B.time with utcByPtp := a.utcValid } : TimeRt) = _
  rw [time]

/-- A module without a master takes the parent of the Announce, and its measurements begin anew. -/
theorem announce_takes {a : PtpMsg} {m : Mod} (h : m.get Ob.slavePort = 255) :
    (m.announce a).get Ob.parentId = a.parentId ∧ (m.announce a).get Ob.gmId = a.gmId ∧ (m.announce a).get Ob.stepsRemoved = a.stepsRemoved
    ∧ (m.announce a).get Ob.slavePort = a.port ∧ (m.announce a).time.syncs = 0 ∧ (m.announce a).time.delays = 0
    ∧ Only [.obj, .time] m (m.announce a)
    ∧ OnlyEntries [Ob.parentId, Ob.gmId, Ob.stepsRemoved, Ob.slavePort, Ob.leapPending, Ob.utcOffset] m (m.announce a) := by
  unfold Mod.announce
  dsimp only
  rw [if_pos (by simp [h]), if_neg (by simp [h])]
  generalize hA : Mod.put Ob.slavePort a.port _ = A
  have puts : Only [.obj] m A := by
    subst hA; exact ((((Only.refl _ m).oput (by decide)).oput (by decide)).oput (by decide)).oput (by decide)
  have entries : OnlyEntries [Ob.parentId, Ob.gmId, Ob.stepsRemoved, Ob.slavePort, Ob.leapPending, Ob.utcOffset] m A := by
    subst hA; exact ((((onlyEntries_refl _ m).oput (by simp)).oput (by simp)).oput (by simp)).oput (by simp)
  have parent : A.get Ob.parentId = a.parentId := by
    subst hA; rw [get_put_other _ (by decide), get_put_other _ (by decide), get_put_other _ (by decide), get_put_same]
  have gm : A.get Ob.gmId = a.gmId := by subst hA; rw [get_put_other _ (by decide), get_put_other _ (by decide), get_put_same]
  have steps : A.get Ob.stepsRemoved = a.stepsRemoved := by subst hA; rw [get_put_other _ (by decide), get_put_same]
  have port : A.get Ob.slavePort = a.port := by subst hA; exact get_put_same _
  clear hA
  generalize hB : A.modTime _ = B
  have anew : Only [.time] A B := by subst hB; exact only_modTime _ _
  have time : B.time.syncs = 0 ∧ B.time.delays = 0 := by subst hB; exact ⟨rfl, rfl⟩
  clear hB
  obtain ⟨only, utc, kept⟩ := announceUtc_laws a B
  have shown : ∀ k v, k ∉ [Ob.leapPending, Ob.utcOffset] → A.get k = v → (B.announceUtc a).get k = v := fun k v hk hv =>
    (utc k hk).trans ((anew.get (by decide) k).trans hv)
  refine ⟨shown _ _ (by decide) parent, shown _ _ (by decide) gm, shown _ _ (by decide) steps, shown _ _ (by decide) port, ?_, ?_,
    ((puts.mono (by decide)).to anew (by decide)).trans only, (entries.trans (anew.onlyEntries (by decide) _)).trans (utc.mono (by decide))⟩
  · rw [kept]; exact time.1
  · rw [kept]; exact time.2

theorem ptpMessage_announce {a : PtpMsg} {m : Mod} (hk : a.kind = .announce) (hd : a.domain = m.domainNow) : m.ptpMessage a = m.announce a := by
  unfold Mod.ptpMessage
  rw [hk, if_neg (by simp [hd])]

/-- A two-step Sync of the parent waits for its Follow_Up. -/
theorem ptpMessage_twoStep {a : PtpMsg} {m : Mod} (hk : a.kind = .sync) (hd : a.domain = m.domainNow) (hp : m.fromParent a = true)
    (ht : a.twoStep = true) (hs : m.syncAccepted a.logInterval = true) :
    (m.ptpMessage a).time.twoStep = some (a.sequenceId, a.rx, a.correction)
    ∧ (m.ptpMessage a).time.syncPs = some (m.now, syncPsOf a.logInterval) ∧ Only [.time] m (m.ptpMessage a) := by
  unfold Mod.ptpMessage
  rw [hk, if_neg (by simp [hd, hs])]
  dsimp only
  rw [if_pos hp, if_pos ht]
  exact ⟨rfl, rfl, (only_modTime m _).trans (only_modTime _ _)⟩

/-- A judgement of the source leaves the delay, and the request answered. -/
theorem judgeSource_laws (m : Mod) : OnlyEntries [Ob.timeState] m m.judgeSource ∧ m.judgeSource.time.delay = m.time.delay
    ∧ m.judgeSource.time.request = m.time.request := by
  unfold Mod.judgeSource
  split
  · unfold Mod.sourceQualified
    split
    · exact ⟨onlyEntries_refl _ _, rfl, rfl⟩
    · dsimp only
      generalize hA : m.modTime _ = A
      have entries : OnlyEntries [Ob.timeState] m A := by subst hA; exact onlyEntries_obj (onlyEntries_refl _ m) rfl
      have time : A.time.delay = m.time.delay ∧ A.time.request = m.time.request := by subst hA; exact ⟨rfl, rfl⟩
      clear hA
      split
      · obtain ⟨only, keys, -, -, -⟩ := timeTo_laws timeAcquiring A
        rw [show (A.timeTo timeAcquiring).time = A.time from only .time (by decide)]
        exact ⟨entries.trans keys, time⟩
      · exact ⟨entries, time⟩
  · exact ⟨onlyEntries_refl _ _, rfl, rfl⟩

theorem delayMeasured_laws (d : Int) (m : Mod) : (m.delayMeasured d).time.delay = some d
    ∧ (m.delayMeasured d).get Ob.pathDelay = (clampI 0 4294967295 (d * 1000)).toNat ∧ (m.delayMeasured d).time.request = none := by
  unfold Mod.delayMeasured
  generalize hA : Mod.put Ob.pathDelay _ _ = A
  have time : A.time.delay = some d ∧ A.time.request = none := by subst hA; exact ⟨rfl, rfl⟩
  have shown : A.get Ob.pathDelay = (clampI 0 4294967295 (d * 1000)).toNat := by subst hA; exact get_put_same _
  clear hA
  obtain ⟨entries, delay, request⟩ := judgeSource_laws A
  exact ⟨delay.trans time.1, (entries _ (by decide)).trans shown, request.trans time.2⟩

theorem ptpMessage_delayResp {a : PtpMsg} {t3 d : Int} {m : Mod} (hk : a.kind = .delayResp) (hd : a.domain = m.domainNow)
    (hp : m.fromParent a = true) (he : m.peerDelay = false) (hr : m.time.request = some (a.sequenceId, t3)) (ht : m.time.masterTo = some d) :
    m.ptpMessage a = m.delayMeasured ((d + (a.origin - t3 - a.correction)) / 2) := by
  unfold Mod.ptpMessage
  rw [hk, if_neg (by simp [hd])]
  dsimp only
  rw [hr, ht]
  exact if_pos (by simp [hp, he])

theorem ptpMessage_ignored {a : PtpMsg} {m : Mod}
    (h : a.domain ≠ m.domainNow ∨ (a.kind = .sync ∧ m.syncAccepted a.logInterval = false) ∨ a.kind = .management) : m.ptpMessage a = m := by
  unfold Mod.ptpMessage
  rcases h with hd | ⟨hk, hs⟩ | hk
  · exact if_pos (by simp [hd])
  · exact if_pos (by simp [hk, hs])
  · rw [hk]
    exact ite_self _

/-! ### The loss of the source (R370, R371) -/

theorem timeTo_tells {new : Nat} {l : List Part} {a b : Mod} (h : Only l a b) (hk : OnlyEntries [Ob.slavePort] a b) (hl : ∀ p ∈ evParts, p ∉ l)
    (hn : b.timeSt ≠ new) (hw : new = timeHoldover ∨ new = timeFreewheel) :
    Tells 98 sevWarn 0x5002 (new + 256 * a.timeSt) a (b.timeTo new) := by
  have same : b.timeSt = a.timeSt := hk _ (by decide)
  unfold Mod.timeTo
  dsimp only
  rw [if_neg hn, same]
  have warns : (decide (new = timeHoldover) || decide (new = timeFreewheel)) = true := by rcases hw with rfl | rfl <;> rfl
  rw [warns, if_pos rfl, if_pos rfl]
  have puts : Only (.obj :: l) a (b.put Ob.timeState new) := (h.mono (List.subset_cons_self _ _)).oput List.mem_cons_self
  exact puts.tells_raise _ _ _ _ (by simp [hl .hostQ (by decide)]) (by simp [hl .seenEv (by decide)]) (by decide)

theorem sourceLost_laws {m : Mod} (h : m.timeSt = timeLocked ∨ m.timeSt = timeAcquiring) :
    m.sourceLost.timeSt = timeHoldover ∧ m.sourceLost.time.qualified = false ∧ m.sourceLost.time.lostPs = some m.now
    ∧ m.sourceLost.now = m.now ∧ Tells 98 sevWarn 0x5002 (3 + 256 * m.timeSt) m m.sourceLost
    ∧ Only ([.obj, .time] ++ evParts) m m.sourceLost ∧ OnlyEntries [Ob.timeState, Ob.slavePort] m m.sourceLost := by
  have held : m.timeSt ≠ timeHoldover := by rcases h with h | h <;> rw [h] <;> decide
  unfold Mod.sourceLost
  dsimp only
  rw [if_pos (by rcases h with h | h <;> simp [h])]
  generalize hA : m.modTime _ = A
  have stops : Only [.time] m A := by subst hA; exact only_modTime _ _
  have unqualified : A.time.qualified = false := by subst hA; rfl
  clear hA
  generalize hB : (if m.get Ob.timeSource = 0 then A.put Ob.slavePort 255 else A) = B
  have port : Only [.obj] A B ∧ OnlyEntries [Ob.slavePort] A B := by
    subst hB
    split
    · exact ⟨(Only.refl _ A).oput (by decide), (onlyEntries_refl _ A).oput (by simp)⟩
    · exact ⟨Only.refl _ _, onlyEntries_refl _ _⟩
  clear hB
  generalize hC : B.modTime _ = C
  have marks : Only [.time] B C := by subst hC; exact only_modTime _ _
  have timeC : C.time = { B.time with lostPs := some m.now } := by subst hC; rfl
  clear hC
  have only : Only [.obj, .time] m C := ((stops.mono (by decide)).to port.1 (by decide)).to marks (by decide)
  have entries : OnlyEntries [Ob.slavePort] m C := ((stops.onlyEntries (by decide) _).trans port.2).trans (marks.onlyEntries (by decide) _)
  have same : C.timeSt = m.timeSt := entries _ (by decide)
  have told := timeTo_tells (new := timeHoldover) only entries (by decide) (by rw [same]; exact held) (.inl rfl)
  obtain ⟨change, keys, state, -, -⟩ := timeTo_laws timeHoldover C
  have timeB : B.time = A.time := port.1 .time (by decide)
  have time : (C.timeTo timeHoldover).time = { A.time with lostPs := some m.now } :=
    (show _ = C.time from change .time (by decide)).trans (timeC.trans (by rw [timeB]))
  have now : (C.timeTo timeHoldover).now = m.now := (change.now (by decide)).trans (only.now (by decide))
  refine ⟨state, ?_, ?_, now, told, (only.mono (by decide)).to change (by decide), (entries.mono (by simp)).trans (keys.mono (by simp))⟩
  · rw [time]; exact unqualified
  · rw [time]

theorem holdoverEnds_laws {m : Mod} (h : m.timeSt = timeHoldover) :
    m.holdoverEnds.timeSt = timeFreewheel ∧ Tells 98 sevWarn 0x5002 (4 + 256 * 3) m m.holdoverEnds
    ∧ m.holdoverEnds.now = max m.now (m.time.lostPs.getD m.now + sPs (m.get Ob.holdoverLimit))
    ∧ Only (.clk :: .obj :: evParts) m m.holdoverEnds ∧ OnlyEntries [Ob.timeState] m m.holdoverEnds := by
  unfold Mod.holdoverEnds
  rw [if_pos h]
  generalize m.time.lostPs.getD m.now + sPs (m.get Ob.holdoverLimit) = q
  have reach : Only [.clk] m (m.reach q) := (Only.refl _ m).oReach (by decide)
  have now : (m.reach q).now = max m.now q := rfl
  have told := timeTo_tells (new := timeFreewheel) reach (reach.onlyEntries (by decide) _) (by decide)
    (show m.timeSt ≠ timeFreewheel by rw [h]; decide) (.inr rfl)
  rw [h] at told
  generalize m.reach q = A at reach now told
  obtain ⟨change, keys, state, -, -⟩ := timeTo_laws timeFreewheel A
  exact ⟨state, told, (change.now (by decide)).trans now, (reach.mono (by decide)).to change (by decide),
    (reach.onlyEntries (by decide) _).trans keys⟩

/-! ### 1PPS and the triggers (R378, R379) -/

/-- An edge of PPS_IN shows its distance from the nearest whole second. -/
theorem ppsInEdge_laws {m : Mod} (h : m.get Ob.timeSource ≠ 1) :
    m.ppsInEdge.getS Ob.ppsInOffset = m.tai - m.getS Ob.ppsInDelay / 1000 - nearestSecond (m.tai - m.getS Ob.ppsInDelay / 1000)
    ∧ Only [.obj, .time] m m.ppsInEdge ∧ OnlyEntries [Ob.ppsInOffset] m m.ppsInEdge := by
  unfold Mod.ppsInEdge
  dsimp only
  rw [if_neg h]
  generalize m.tai - m.getS Ob.ppsInDelay / 1000 = e
  have within : clampI (-2147483648) 2147483647 (e - nearestSecond e) = e - nearestSecond e := by
    unfold clampI nearestSecond
    rw [if_neg (by omega), if_neg (by omega)]
  have puts : Only [.obj, .time] m (m.putS Ob.ppsInOffset (e - nearestSecond e)) := (Only.refl _ m).oputS (by decide)
  have shown : (m.putS Ob.ppsInOffset (e - nearestSecond e)).getS Ob.ppsInOffset = e - nearestSecond e := (getS_putS _ _ _).trans within
  have entries : OnlyEntries [Ob.ppsInOffset] m (m.putS Ob.ppsInOffset (e - nearestSecond e)) := (onlyEntries_refl _ m).oputS (by simp)
  exact ⟨shown, puts.to (only_modTime _ _) (by decide), onlyEntries_obj entries rfl⟩

theorem ppsOutPulse_rises {m : Mod} (hm : m.get Ob.ppsOutMode = 1) (hs : m.timeSt = timeLocked) :
    m.ppsOutPulse.time.lastPps = some m.nextPps ∧ m.nextPps ≤ m.ppsOutPulse.tai ∧ Only [.clk, .time] m m.ppsOutPulse := by
  unfold Mod.ppsOutPulse
  dsimp only
  rw [if_pos (by simp [hm, hs])]
  exact ⟨rfl, tai_reachTai m.nextPps m, ((Only.refl [.clk, .time] m).oReach (by decide)).to (only_modTime _ _) (by decide)⟩

theorem trigPulse_laws {k : Nat} {t : Int} {m : Mod} (hk : k < m.time.trig.length) (hn : (m.trigAt k).next = some t)
    (hs : (m.trigAt k).suspended = false) (hl : (m.trigAt k).left = none) (hm : m.get (Ob.trigMode k) = 2) :
    ((m.trigPulse k).trigAt k).last = some t ∧ ((m.trigPulse k).trigAt k).next = some (t + (m.get (Ob.trigPeriod k) : Int))
    ∧ (∀ j, j ≠ k → (m.trigPulse k).trigAt j = m.trigAt j) ∧ t ≤ (m.trigPulse k).tai ∧ Only [.clk, .time] m (m.trigPulse k) := by
  unfold Mod.trigPulse
  simp only [hn]
  rw [if_neg (by simp [hs]), hl, if_pos (by simp [hm])]
  generalize hA : m.reachTai t = A
  have reach : Only [.clk] m A := by subst hA; exact (Only.refl _ m).oReach (by decide)
  have due : t ≤ A.tai := by subst hA; exact tai_reachTai t m
  clear hA
  have time : A.time = m.time := reach .time (by decide)
  have only : ∀ f, Only [.clk, .time] m (A.modTrig k f) := fun f => (reach.mono (by decide)).to (only_modTime _ _) (by decide)
  have same : ∀ f, (A.modTrig k f).trigAt k = f (A.trigAt k) := fun f => by
    unfold Mod.trigAt Mod.modTrig Mod.modTime
    rw [← time] at hk
    simp [List.getD_eq_getElem?_getD, hk]
  have others : ∀ f j, j ≠ k → (A.modTrig k f).trigAt j = m.trigAt j := fun f j hj => by
    unfold Mod.trigAt Mod.modTrig Mod.modTime
    rw [← time]
    simp [List.getD_eq_getElem?_getD, Ne.symm hj]
  rw [same]
  exact ⟨rfl, rfl, fun j hj => others _ j hj, due, only _⟩

/-! ### The scheduled-action table (R381) -/

theorem stageEntry_stages {e : Nat} {x : Sched} {m : Mod} (hx : m.sched.find? (fun y => y.entry = e) = some x) (hs : x.suspended = false)
    (he : m.entryStaged e = false) (ha : x.applyAt ≤ m.clk.taiBase + ((m.clk.t0Ps + m.tickPs) / 1000 : Nat)) :
    (∃ w, (m.stageEntry e).staged = m.staged ++ [w] ∧ w.entry = some e ∧ w.snd = x.snd ∧ w.seq = x.seq ∧ w.work = .writes x.writes)
    ∧ Only [.staged] m (m.stageEntry e) := by
  unfold Mod.stageEntry
  simp only [hx]
  rw [if_neg (by simp only [hs, he, Bool.false_or, decide_eq_true_eq]; omega)]
  refine ⟨⟨_, rfl, rfl, rfl, rfl, rfl⟩, ?_⟩
  intro p hp; cases p <;> first | (exact absurd (by decide) hp) | rfl

/-! ### The statement -/

/-- Settles O50: each event by the law of its operation. The silence that loses a source and the measurements of a delay are the model's
choice (log entry 68), the whole second of PPS_OUT is too (log entry 70). -/
theorem timeIsDisciplined : Obligations.TimeIsDisciplined := by
  unfold Obligations.TimeIsDisciplined
  intro s a k e dt t t3 d hk he ht
  refine ⟨fun ha hd h => ?announce, fun ha hd hp h2 hs => ?sync, fun ha hd hp hpd hr hm => ?delay, fun h => ?ignored, ?request,
    fun h => ?lost, fun h => ?freewheel, fun h => ?ppsIn, fun hm hs => ?ppsOut, fun hm => ?ppsOff, fun hn hs hl hm => ?trigger,
    fun x hx hs hst ha => ?entry⟩
  case announce => exact does_onMod rfl (ptpMessage_announce ha hd) (announce_takes h)
  case sync => exact does_onMod rfl rfl (ptpMessage_twoStep ha hd hp h2 hs)
  case delay => exact does_onMod rfl (ptpMessage_delayResp ha hd hp hpd hr hm) (delayMeasured_laws _ _)
  case ignored => exact does_onMod rfl (ptpMessage_ignored h) rfl
  case request => exact does_onMod rfl rfl ⟨rfl, only_modTime _ _⟩
  case lost =>
    refine does_onMod rfl rfl ?_
    have silent : Only [.clk] s.m s.m.silent := (Only.refl _ s.m).oReach (by decide)
    generalize s.m.silent = A at silent
    have same : A.timeSt = s.m.timeSt := silent.get (by decide) _
    obtain ⟨state, unqualified, lost, now, told, only, entries⟩ := sourceLost_laws (m := A) (by rw [same]; exact h)
    rw [same] at told
    have first : A.seenEv = s.m.seenEv := silent .seenEv (by decide)
    have queue : A.hostQ = s.m.hostQ := silent .hostQ (by decide)
    unfold Tells at told ⊢
    rw [first, queue] at told
    exact ⟨state, unqualified, by rw [now, lost], by rw [now], told, (silent.mono (by decide)).to only (by decide),
      (silent.onlyEntries (by decide) _).trans entries⟩
  case freewheel => exact does_onMod rfl rfl (holdoverEnds_laws h)
  case ppsIn =>
    refine does_onMod rfl rfl ?_
    unfold atDt
    have pass : Only [.clk] s.m (s.m.passNs dt) := (Only.refl _ s.m).oPass (by decide)
    have now : (s.m.passNs dt).now = s.m.now + dt * 1000 := rfl
    have held : (s.m.passNs dt).getS Ob.ppsInDelay = s.m.getS Ob.ppsInDelay := rfl
    rw [← held]
    generalize s.m.passNs dt = A at pass now
    obtain ⟨shown, only, entries⟩ := ppsInEdge_laws (m := A) (by rw [pass.get (by decide)]; exact h)
    exact ⟨(only.now (by decide)).trans now, shown, (pass.mono (by decide)).to only (by decide), (pass.onlyEntries (by decide) _).trans entries⟩
  case ppsOut => exact does_onMod rfl rfl (ppsOutPulse_rises hm hs)
  case ppsOff => exact does_onMod rfl (if_neg (by simp [hm])) rfl
  case trigger => exact does_unit rfl (by simpa using hk) (trigPulse_laws (by rw [ht]; exact hk) hn hs hl hm)
  case entry => exact does_unit rfl (by simpa using he) (stageEntry_stages hx hs hst ha)

end Sys2Proof.Machine
end

section
/-!
PROOFS. Field inputs and outputs (R399 to R412): the field channels' records and bits, each event on them, and the statement on them (O52).
-/
namespace Sys2Proof.Machine

/-! ### Bits of an entry -/

/-- Adding a power of 2 whose bit is clear changes no other bit. -/
theorem testBit_add_two_pow {v i j : Nat} (h : v.testBit i = false) (hj : j ≠ i) : (v + 2 ^ i).testBit j = v.testBit j := by
  rw [Nat.testBit_eq_decide_div_mod_eq, decide_eq_false_iff_not] at h
  rw [Nat.testBit_eq_decide_div_mod_eq, Nat.testBit_eq_decide_div_mod_eq]
  rcases Nat.lt_or_gt_of_ne hj with lt | gt
  · obtain ⟨d, rfl⟩ := Nat.exists_eq_add_of_lt lt
    rw [show 2 ^ (j + d + 1) = 2 ^ j * (2 * 2 ^ d) by ring, Nat.add_mul_div_left _ _ (Nat.two_pow_pos j), Nat.add_mul_mod_self_left]
  · obtain ⟨d, rfl⟩ := Nat.exists_eq_add_of_lt gt
    have cut : ∀ x, x / 2 ^ (i + d + 1) = x / 2 ^ i / 2 / 2 ^ d := fun x => by
      rw [Nat.div_div_eq_div_mul, Nat.div_div_eq_div_mul, show 2 ^ (i + d + 1) = 2 ^ i * 2 * 2 ^ d by ring, Nat.mul_assoc]
    rw [cut, cut, Nat.add_div_right _ (Nat.two_pow_pos i), show (v / 2 ^ i + 1) / 2 = v / 2 ^ i / 2 by omega]

theorem bit_setBit_other (v : Nat) {i j : Nat} (b : Bool) (h : j ≠ i) : bit (setBit v i b) j = bit v j := by
  unfold bit setBit
  split
  · rfl
  next hb =>
    cases b with
    | true => exact testBit_add_two_pow (Bool.eq_false_iff.2 hb) h
    | false =>
      have set : v.testBit i = true := by simpa using hb
      have le : 2 ^ i ≤ v := Nat.ge_two_pow_of_testBit set
      obtain ⟨w, rfl⟩ := Nat.exists_eq_add_of_le' le
      have clear : w.testBit i = false := by
        rw [Nat.testBit_eq_decide_div_mod_eq, Nat.add_div_right _ (Nat.two_pow_pos i), decide_eq_true_eq] at set
        rw [Nat.testBit_eq_decide_div_mod_eq, decide_eq_false_iff_not]
        omega
      rw [if_neg (by decide), Nat.add_sub_cancel]
      exact (testBit_add_two_pow clear h).symm

/-! ### The records of channels, groups and links -/

section
variable {m : Mod}

theorem fldAt_modFld {n : Nat} (f : FieldRt → FieldRt) (h : n < m.fld.length) : (m.modFld n f).fldAt n = f (m.fldAt n) := by
  unfold Mod.fldAt Mod.modFld; simp [List.getD_eq_getElem?_getD, h]

theorem fldAt_modFld_other {n j : Nat} (f : FieldRt → FieldRt) (h : j ≠ n) : (m.modFld n f).fldAt j = m.fldAt j := by
  unfold Mod.fldAt Mod.modFld; simp [List.getD_eq_getElem?_getD, Ne.symm h]

theorem fgrpAt_modFgrp {g : Nat} (f : FieldGrpRt → FieldGrpRt) (h : g < m.fgrp.length) : (m.modFgrp g f).fgrp.getD g {} = f (m.fgrp.getD g {}) := by
  unfold Mod.modFgrp; simp [List.getD_eq_getElem?_getD, h]

theorem rimeAt_modRime {l : Nat} (f : RimeRt → RimeRt) (h : l < m.rime.length) : (m.modRime l f).rimeAt l = f (m.rimeAt l) := by
  unfold Mod.rimeAt Mod.modRime; simp [List.getD_eq_getElem?_getD, h]

theorem only_modFld (n : Nat) (f : FieldRt → FieldRt) : Only [.fld] m (m.modFld n f) := by
  intro p hp; cases p <;> first | (exact absurd (by decide) hp) | rfl

theorem only_modFgrp (g : Nat) (f : FieldGrpRt → FieldGrpRt) : Only [.fgrp] m (m.modFgrp g f) := by
  intro p hp; cases p <;> first | (exact absurd (by decide) hp) | rfl

theorem only_modRime (l : Nat) (f : RimeRt → RimeRt) : Only [.rime] m (m.modRime l f) := by
  intro p hp; cases p <;> first | (exact absurd (by decide) hp) | rfl

end

/-- A walk that visits `c` once: what of the state only that visit changes is as its visit leaves it. -/
theorem each_once {β : Type} {I : Mod → Prop} {R : Mod → β} {F : Nat → Mod → Mod} {l : List Nat} {m : Mod} {c : Nat} (hl : l.Nodup) (hc : c ∈ l)
    (h0 : I m) (hF : ∀ n ∈ l, ∀ x, I x → I (F n x)) (hR : ∀ n ∈ l, n ≠ c → ∀ x, I x → R (F n x) = R x) :
    ∃ x, I x ∧ R x = R m ∧ R (m.each l F) = R (F c x) := by
  induction l generalizing m with
  | nil => cases hc
  | cons n l ih =>
    have tl : ∀ {k}, k ∈ l → k ∈ n :: l := List.mem_cons_of_mem n
    have hn := hF n List.mem_cons_self m h0
    rw [each_cons]
    by_cases hcn : c = n
    · subst hcn
      have rest := each_invariant (I := fun x => I x ∧ R x = R (F c m)) (l := l) (m := F c m) (F := F) ⟨hn, rfl⟩
        (fun k hk x hx => ⟨hF k (tl hk) x hx.1, (hR k (tl hk) (fun e => (List.nodup_cons.1 hl).1 (e ▸ hk)) x hx.1).trans hx.2⟩)
      exact ⟨m, h0, rfl, rest.2⟩
    · obtain ⟨x, hx, first, last⟩ := ih (List.nodup_cons.1 hl).2 ((List.mem_cons.1 hc).resolve_left hcn) hn (fun k hk => hF k (tl hk))
        (fun k hk => hR k (tl hk))
      exact ⟨x, hx, first.trans (hR n List.mem_cons_self (Ne.symm hcn) m h0), last⟩

/-- The clock, the links, the supplies and every entry but those that show the field channels stay. -/
structure FieldKept (a b : Mod) : Prop where
  clk     : b.clk = a.clk
  rime    : b.rime = a.rime
  power   : b.power = a.power
  length  : b.fld.length = a.fld.length
  entries : ∀ k, (k < 0x549000 ∨ 0x54C000 ≤ k) → b.get k = a.get k

namespace FieldKept

variable {a b c : Mod}

theorem refl (a : Mod) : FieldKept a a := ⟨rfl, rfl, rfl, rfl, fun _ _ => rfl⟩

theorem trans (h : FieldKept a b) (g : FieldKept b c) : FieldKept a c :=
  ⟨g.clk.trans h.clk, g.rime.trans h.rime, g.power.trans h.power, g.length.trans h.length,
    fun k hk => (g.entries k hk).trans (h.entries k hk)⟩

theorem put (h : FieldKept a b) {k : Nat} (v : Nat) (h1 : 0x549000 ≤ k) (h2 : k < 0x54C000) : FieldKept a (b.put k v) :=
  h.trans ⟨rfl, rfl, rfl, rfl, fun _ hj => get_put_other _ (by omega)⟩

theorem putBit (h : FieldKept a b) {k : Nat} (i : Nat) (v : Bool) (h1 : 0x549000 ≤ k) (h2 : k < 0x54C000) : FieldKept a (b.putBit k i v) :=
  h.put _ h1 h2

theorem modFld (h : FieldKept a b) (n : Nat) (f : FieldRt → FieldRt) : FieldKept a (b.modFld n f) :=
  h.trans ⟨rfl, rfl, rfl, by unfold Mod.modFld; exact List.length_modify _ _ _, fun _ _ => rfl⟩

theorem push (h : FieldKept a b) (x : Assertion) : FieldKept a (b.push x) := h.trans ⟨rfl, rfl, rfl, rfl, fun _ _ => rfl⟩

theorem each (h : FieldKept a b) (ns : List Nat) (F : Nat → Mod → Mod) (hF : ∀ n ∈ ns, ∀ m, FieldKept m (F n m)) : FieldKept a (b.each ns F) :=
  h.trans (each_invariant (I := FieldKept b) (refl _) (fun n hn _ hx => hx.trans (hF n hn _)))

theorem inputLive (h : FieldKept a b) {n : Nat} (hn : n < 32) : b.inputLive n = a.inputLive n := by
  unfold Mod.inputLive Mod.rimeAt Mod.lane
  rw [h.entries _ (.inl (by unfold Ob.fioMode; omega)), h.entries _ (.inr (by unfold Ob.groupState; omega)), h.entries _ (.inl (by decide)), h.rime,
    h.power]

end FieldKept

/-! ### The switch of an output (R405, R410) -/

theorem driveOutput_kept (n : Nat) (m : Mod) : FieldKept m (m.driveOutput n) := ((FieldKept.refl m).modFld _ _).putBit _ _ (by decide) (by decide)

theorem only_driveOutput (n : Nat) (m : Mod) : Only [.fld, .obj] m (m.driveOutput n) :=
  ((only_modFld n _).mono (by decide)).oputB (by decide)

theorem entries_driveOutput (n : Nat) (m : Mod) : OnlyEntries [Ob.fieldOutState] m (m.driveOutput n) :=
  OnlyEntries.oputB (onlyEntries_obj (onlyEntries_refl _ m) rfl) (by decide)

/-- An output is off by its mode, by its group's lost supply, or by its safe value. -/
def Mod.outputRests (m : Mod) (n : Nat) : Prop :=
  m.get (Ob.fioMode n) ≠ 2 ∨ m.get (Ob.groupState (n / 8)) = 1 ∨ (m.fieldSafeNow = true ∧ m.get (Ob.safeValue n) = 0)

theorem outputWants_rests {m : Mod} {n : Nat} (h : m.outputRests n) : m.outputWants n = false := by
  unfold Mod.outputWants
  dsimp only
  rcases h with h | h | ⟨h, hv⟩
  · exact if_pos (by simp [h])
  · exact if_pos (by simp [h])
  · rw [if_pos h, if_pos hv]
    exact ite_self _

theorem driveOutput_rests {n : Nat} {m : Mod} (h32 : n < 32) (hl : m.fld.length = 32) (h : m.outputRests n) :
    ((m.driveOutput n).fldAt n).on = false ∧ bit ((m.driveOutput n).get Ob.fieldOutState) n = false := by
  unfold Mod.driveOutput Mod.putBit
  dsimp only
  rw [outputWants_rests h, get_put_same]
  exact ⟨congrArg FieldRt.on (fldAt_modFld (m := m) _ (by omega)), bit_setBit _ _ _⟩

theorem driveOutput_other {n j : Nat} (m : Mod) (h : n ≠ j) :
    (m.driveOutput j).fldAt n = m.fldAt n ∧ bit ((m.driveOutput j).get Ob.fieldOutState) n = bit (m.get Ob.fieldOutState) n := by
  unfold Mod.driveOutput Mod.putBit
  dsimp only
  rw [get_put_same]
  exact ⟨fldAt_modFld_other _ h, bit_setBit_other _ _ h⟩

theorem driveOutput_raw {n : Nat} (j : Nat) {m : Mod} (hn : n < m.fld.length) : ((m.driveOutput j).fldAt n).raw = (m.fldAt n).raw := by
  by_cases h : n = j
  · subst h
    unfold Mod.driveOutput
    exact (congrArg FieldRt.raw (fldAt_modFld (m := m) _ hn)).trans rfl
  · rw [(driveOutput_other m h).1]

theorem outputRests_of {a b : Mod} {n : Nat} (h32 : n < 32) (h : a.outputRests n) (ho : Only [.fld, .obj] a b)
    (he : OnlyEntries [Ob.fieldOutState] a b) : b.outputRests n := by
  unfold Mod.outputRests Mod.fieldSafeNow Mod.rimeAt Mod.lane
  rw [he _ (by unfold Ob.fioMode Ob.fieldOutState; simp only [List.mem_singleton]; omega),
    he _ (by unfold Ob.groupState Ob.fieldOutState; simp only [List.mem_singleton]; omega),
    he Ob.activeLane (by decide), he _ (by unfold Ob.safeValue Ob.fieldOutState; simp only [List.mem_singleton]; omega),
    show b.prot = a.prot from ho .prot (by decide), show b.rime = a.rime from ho .rime (by decide)]
  exact h

/-- The switches of some outputs are brought up to date: one that rests is off, and what its input read is kept. -/
theorem driven_rests {ns : List Nat} {n : Nat} {m : Mod} (hn : n ∈ ns) (h32 : n < 32) (hl : m.fld.length = 32) (hr : m.outputRests n) :
    Only [.fld, .obj] m (m.each ns Mod.driveOutput) ∧ OnlyEntries [Ob.fieldOutState] m (m.each ns Mod.driveOutput)
    ∧ (m.each ns Mod.driveOutput).fld.length = 32 ∧ ((m.each ns Mod.driveOutput).fldAt n).raw = (m.fldAt n).raw
    ∧ ((m.each ns Mod.driveOutput).fldAt n).on = false ∧ bit ((m.each ns Mod.driveOutput).get Ob.fieldOutState) n = false := by
  have start : Only [.fld, .obj] m m ∧ OnlyEntries [Ob.fieldOutState] m m ∧ m.fld.length = 32 ∧ (m.fldAt n).raw = (m.fldAt n).raw :=
    ⟨Only.refl _ _, onlyEntries_refl _ _, hl, rfl⟩
  have step : ∀ j ∈ ns, ∀ x, (Only [.fld, .obj] m x ∧ OnlyEntries [Ob.fieldOutState] m x ∧ x.fld.length = 32 ∧ (x.fldAt n).raw = (m.fldAt n).raw) →
      Only [.fld, .obj] m (x.driveOutput j) ∧ OnlyEntries [Ob.fieldOutState] m (x.driveOutput j) ∧ (x.driveOutput j).fld.length = 32
      ∧ ((x.driveOutput j).fldAt n).raw = (m.fldAt n).raw := fun j _ x ⟨ox, ex, lx, rx⟩ =>
    ⟨ox.trans (only_driveOutput j x), ex.trans (entries_driveOutput j x), (driveOutput_kept j x).length.trans lx,
      (driveOutput_raw j (by omega)).trans rx⟩
  obtain ⟨only, entries, length, raw⟩ := each_invariant start step
  have off : ((m.each ns Mod.driveOutput).fldAt n).on = false ∧ bit ((m.each ns Mod.driveOutput).get Ob.fieldOutState) n = false := by
    refine each_establishes (P := fun x => (x.fldAt n).on = false ∧ bit (x.get Ob.fieldOutState) n = false) hn start step
      (fun j hj x ⟨ox, ex, lx, rx⟩ ⟨off, clear⟩ => ?_) (fun x ⟨ox, ex, lx, rx⟩ => driveOutput_rests h32 lx (outputRests_of h32 hr ox ex))
    by_cases h : n = j
    · subst h
      exact driveOutput_rests h32 lx (outputRests_of h32 hr ox ex)
    · obtain ⟨record, shown⟩ := driveOutput_other x h
      exact ⟨by rw [record]; exact off, shown.trans clear⟩
  exact ⟨only, entries, length, raw, off⟩

/-! ### The Rime link (R411) -/

theorem rimeFrame_good {l : Nat} {m : Mod} (hl : l < m.rime.length) (h : (m.rimeAt l).missIn < 4) :
    ((m.rimeFrame { lane := l, good := true, absent := false, toField := false }).rimeAt l).missIn = 0
    ∧ Only [.rime] m (m.rimeFrame { lane := l, good := true, absent := false, toField := false }) := by
  unfold Mod.rimeFrame
  dsimp only
  rw [if_neg (by decide), if_pos (by decide), if_neg (by rw [decide_eq_false (by omega : ¬ 4 ≤ (m.rimeAt l).missIn)]; exact Bool.false_ne_true)]
  rw [rimeAt_modRime _ hl]
  exact ⟨rfl, only_modRime _ _⟩

theorem rimeFrame_bad {l : Nat} {absent : Bool} {m : Mod} (hl : l < m.rime.length) (h : (m.rimeAt l).missIn < 3) :
    ((m.rimeFrame { lane := l, good := false, absent := absent, toField := false }).rimeAt l).missIn = (m.rimeAt l).missIn + 1
    ∧ (m.rimeFrame { lane := l, good := false, absent := absent, toField := false }).get (Ob.rimeCrcFail l)
      = (if absent then m.get (Ob.rimeCrcFail l) else (m.get (Ob.rimeCrcFail l) + 1) % 4294967296)
    ∧ (m.rimeFrame { lane := l, good := false, absent := absent, toField := false }).get (Ob.rimeMissingMax l)
      = max (m.get (Ob.rimeMissingMax l)) ((m.rimeAt l).missIn + 1)
    ∧ Only [.obj, .rime] m (m.rimeFrame { lane := l, good := false, absent := absent, toField := false })
    ∧ OnlyEntries [Ob.rimeCrcFail l, Ob.rimeMissingMax l] m (m.rimeFrame { lane := l, good := false, absent := absent, toField := false }) := by
  unfold Mod.rimeFrame
  dsimp only
  rw [if_neg (by decide), Bool.false_and, if_neg Bool.false_ne_true,
    if_neg (by rw [decide_eq_false (by omega : ¬ (m.rimeAt l).missIn + 1 = 4)]; exact Bool.false_ne_true),
    show satAt 255 ((m.rimeAt l).missIn + 1) = (m.rimeAt l).missIn + 1 from if_pos (by omega)]
  have apart : Ob.rimeCrcFail l ≠ Ob.rimeMissingMax l := by unfold Ob.rimeCrcFail Ob.rimeMissingMax; omega
  generalize hA : (if absent = true then m else m.bump (Ob.rimeCrcFail l)) = A
  have counts : Only [.obj] m A ∧ OnlyEntries [Ob.rimeCrcFail l, Ob.rimeMissingMax l] m A
      ∧ A.get (Ob.rimeCrcFail l) = (if absent then m.get (Ob.rimeCrcFail l) else (m.get (Ob.rimeCrcFail l) + 1) % 4294967296) := by
    subst hA
    split
    · exact ⟨Only.refl _ _, onlyEntries_refl _ _, rfl⟩
    · exact ⟨(Only.refl _ m).obump (by decide), (onlyEntries_refl _ m).oput (by simp), get_put_same m⟩
  clear hA
  obtain ⟨only, entries, count⟩ := counts
  have rime : A.rime = m.rime := only .rime (by decide)
  generalize hB : A.modRime l _ = B
  have misses : B.rimeAt l = { A.rimeAt l with missIn := (m.rimeAt l).missIn + 1 } := by
    subst hB; exact rimeAt_modRime (m := A) _ (by rw [rime]; exact hl)
  have marks : Only [.rime] A B := by subst hB; exact only_modRime _ _
  clear hB
  refine ⟨congrArg RimeRt.missIn misses, (get_put_other _ apart).trans ((marks.get (by decide) _).trans count), get_put_same _,
    ((only.mono (by decide)).to marks (by decide)).oput (by decide), (entries.trans (marks.onlyEntries (by decide) _)).oput (by simp)⟩

/-- The named link is lost: an output whose safe value is 0 is off. -/
theorem rimeLoss_laws {l : Nat} {m : Mod} (hr : l < m.rime.length) (hl : m.fld.length = 32) (ha : m.lane = l) (h : (m.rimeAt l).lost = false) :
    ((m.rimeLoss l).rimeAt l).lost = true ∧ 115 ∈ (m.rimeLoss l).seenEv
    ∧ ∀ n, n < 32 → m.get (Ob.safeValue n) = 0 → ((m.rimeLoss l).fldAt n).on = false ∧ bit ((m.rimeLoss l).get Ob.fieldOutState) n = false := by
  unfold Mod.rimeLoss
  dsimp only
  rw [if_pos (by simp [ha, h])]
  generalize hA : (if 4 ≤ (m.rimeAt l).missOut then m else m.reach ((m.rimeAt l).outPs + 200000000)) = A
  have reach : Only [.clk] m A := by
    subst hA
    split
    · exact Only.refl _ _
    · exact (Only.refl _ m).oReach (by decide)
  clear hA
  have rime : A.rime = m.rime := reach .rime (by decide)
  have fld : A.fld = m.fld := reach .fld (by decide)
  generalize hB : A.modRime l _ = B
  have lost : (B.rimeAt l).lost = true := by subst hB; exact congrArg RimeRt.lost (rimeAt_modRime (m := A) _ (by rw [rime]; exact hr))
  have marks : Only [.rime] A B := by subst hB; exact only_modRime _ _
  clear hB
  generalize hC : B.put (Ob.rimeMissingMax l) _ = C
  have puts : Only [.obj] B C := by subst hC; exact (Only.refl _ B).oput (by decide)
  have entries : OnlyEntries [Ob.rimeMissingMax l] B C := by subst hC; exact (onlyEntries_refl _ B).oput (by simp)
  clear hC
  have keeps : ∀ k, k ∉ [Ob.rimeMissingMax l] → C.get k = m.get k := fun k hk =>
    (entries k hk).trans ((marks.get (by decide) k).trans (reach.get (by decide) k))
  have lostC : (C.rimeAt l).lost = true := by
    unfold Mod.rimeAt
    rw [show C.rime = B.rime from puts .rime (by decide)]
    exact lost
  have lane : C.lane = l := (keeps _ (by unfold Ob.activeLane Ob.rimeMissingMax; simp only [List.mem_singleton]; omega)).trans ha
  have safe : C.fieldSafeNow = true := by
    unfold Mod.fieldSafeNow
    rw [lane, lostC, Bool.or_true]
  have length : C.fld.length = 32 := by
    rw [show C.fld = B.fld from puts .fld (by decide), show B.fld = A.fld from marks .fld (by decide), fld, hl]
  have drives := (within_driveOutputs C).1
  refine ⟨?_, seen_raised _ _ _ _ _, fun n h32 hv => ?_⟩
  · unfold Mod.rimeAt
    rw [show (Mod.raise 115 _ _ _ _).rime = C.driveOutputs.rime from raise_part _ _ _ _ _ .rime (by decide),
      show C.driveOutputs.rime = C.rime from drives .rime (by decide)]
    exact lostC
  · have value : C.get (Ob.safeValue n) = 0 :=
      (keeps _ (by unfold Ob.safeValue Ob.rimeMissingMax; simp only [List.mem_singleton]; omega)).trans hv
    obtain ⟨-, -, -, -, off, clear⟩ := driven_rests (ns := List.range 32) (List.mem_range.2 h32) h32 length (.inr (.inr ⟨safe, value⟩))
    refine ⟨?_, (congrArg (bit · n) (get_raised _ _ _ _ _ _)).trans clear⟩
    unfold Mod.fldAt
    rw [show (Mod.raise 115 _ _ _ _).fld = C.driveOutputs.fld from raise_part _ _ _ _ _ .fld (by decide)]
    exact off

/-! ### A sample of a group (R399, R406) -/

theorem only_push (x : Assertion) (m : Mod) : Only [.prot] m (m.push x) := (Only.refl _ m).oPush (by decide)

theorem outputFault_kept (n fault : Nat) (m : Mod) : FieldKept m (m.outputFault n fault) := by
  unfold Mod.outputFault
  split
  · exact FieldKept.refl m
  · exact (((FieldKept.refl m).modFld _ _).putBit _ _ (by decide) (by decide)).push _

theorem outputFault_other {n j : Nat} (fault : Nat) (m : Mod) (h : n ≠ j) :
    ((m.outputFault j fault).fldAt n, (m.outputFault j fault).get (Ob.filterCount n)) = (m.fldAt n, m.get (Ob.filterCount n)) := by
  unfold Mod.outputFault
  split
  · rfl
  · exact Prod.ext (fldAt_modFld_other (m := m) _ h) (get_put_other (m.modFld j _) (by unfold Ob.filterCount Ob.fieldOutState; omega))

theorem sampleInput_kept {n : Nat} (mv : Nat) (m : Mod) (hn : n < 32) : FieldKept m (m.sampleInput n mv) := by
  unfold Mod.sampleInput
  split
  · exact FieldKept.refl m
  · split
    · exact FieldKept.refl m
    · have counts : FieldKept m { m with free := m.free + 1 } := ⟨rfl, rfl, rfl, rfl, fun _ _ => rfl⟩
      exact ((((counts.modFld _ _).put (k := Ob.filterCount n) _ (by unfold Ob.filterCount; omega) (by unfold Ob.filterCount; omega)).putBit _ _
        (by decide) (by decide)).putBit _ _ (by decide) (by decide)).putBit _ _ (by decide) (by decide)

theorem get_inputBits (m : Mod) {k n : Nat} (a b c : Bool) (hk : k < 0x549001 ∨ 0x549004 ≤ k) :
    (((m.putBit Ob.fieldInRaw n a).putBit Ob.fieldInValid n b).putBit Ob.fieldIn n c).get k = m.get k := by
  unfold Mod.putBit
  rw [get_put_other _ (by unfold Ob.fieldIn; omega), get_put_other _ (by unfold Ob.fieldInValid; omega),
    get_put_other _ (by unfold Ob.fieldInRaw; omega)]

theorem sampleInput_other {n j : Nat} (mv : Nat) (m : Mod) (h : n ≠ j) :
    ((m.sampleInput j mv).fldAt n, (m.sampleInput j mv).get (Ob.filterCount n)) = (m.fldAt n, m.get (Ob.filterCount n)) := by
  unfold Mod.sampleInput
  split
  · rfl
  · split
    · rfl
    · refine Prod.ext (fldAt_modFld_other (m := { m with free := m.free + 1 }) _ h) ?_
      exact (get_inputBits _ _ _ _ (.inr (by unfold Ob.filterCount; omega))).trans
        (get_put_other (Mod.modFld j _ _) (by unfold Ob.filterCount; omega))

/-- A voltage above the level counts the filter up. -/
theorem sampleInput_high {n mv : Nat} {m : Mod} (hn : n < m.fld.length) (hm : m.get (Ob.fioMode n) = 1) (hl : m.inputLive n = true)
    (hv : 15000 ≤ mv) :
    (m.sampleInput n mv).get (Ob.filterCount n) = min (m.get (Ob.filterCount n) + 1) (m.get (Ob.filterN n))
    ∧ ((m.sampleInput n mv).fldAt n).raw = true := by
  unfold Mod.sampleInput
  rw [if_neg (by simp [hm]), if_neg (by simp [hl])]
  have high : rawReading (m.get (Ob.inType n)) mv m.free = true := by
    unfold rawReading
    exact if_pos (by split <;> omega)
  simp only [high]
  refine ⟨?_, ?_⟩
  · exact (get_inputBits _ _ _ _ (.inr (by unfold Ob.filterCount; omega))).trans (get_put_same _)
  · exact congrArg FieldRt.raw (fldAt_modFld (m := { m with free := m.free + 1 }) _ hn)

theorem sampleOutput_kept {n : Nat} (mv cur : Nat) (limit hot : Bool) (m : Mod) (hn : n < 32) : FieldKept m (m.sampleOutput n mv cur limit hot) := by
  unfold Mod.sampleOutput
  split
  · exact FieldKept.refl m
  · dsimp only
    generalize hA : Mod.put (Ob.readback n) _ _ = A
    have shows : FieldKept m A := by
      subst hA
      exact (((FieldKept.refl m).modFld _ _).put (k := Ob.outCurrent n) _ (by unfold Ob.outCurrent; omega) (by unfold Ob.outCurrent; omega)).put
        (k := Ob.readback n) _ (by unfold Ob.readback; omega) (by unfold Ob.readback; omega)
    clear hA
    generalize (if (!(m.fldAt n).on && !bit (m.get Ob.fieldOut) n && decide (11000 ≤ mv)) = true then (m.fldAt n).driven + 1 else 0) = d
    split
    · exact shows.trans (outputFault_kept _ _ _)
    · exact shows

theorem sampleOutput_other {n j : Nat} (mv cur : Nat) (limit hot : Bool) (m : Mod) (h : n ≠ j) :
    ((m.sampleOutput j mv cur limit hot).fldAt n, (m.sampleOutput j mv cur limit hot).get (Ob.filterCount n))
      = (m.fldAt n, m.get (Ob.filterCount n)) := by
  unfold Mod.sampleOutput
  split
  · rfl
  · dsimp only
    generalize hA : Mod.put (Ob.readback j) _ _ = A
    have shows : (A.fldAt n, A.get (Ob.filterCount n)) = (m.fldAt n, m.get (Ob.filterCount n)) := by
      subst hA
      refine Prod.ext (fldAt_modFld_other (m := m) _ h) ?_
      exact (get_put_other _ (by unfold Ob.filterCount Ob.readback; omega)).trans
        (get_put_other (m.modFld j _) (by unfold Ob.filterCount Ob.outCurrent; omega))
    clear hA
    generalize (if (!(m.fldAt j).on && !bit (m.get Ob.fieldOut) j && decide (11000 ≤ mv)) = true then (m.fldAt j).driven + 1 else 0) = d
    split
    · exact (outputFault_other _ _ h).trans shows
    · exact shows

theorem sampleOutput_input {n : Nat} (mv cur : Nat) (limit hot : Bool) {m : Mod} (h : m.get (Ob.fioMode n) = 1) :
    m.sampleOutput n mv cur limit hot = m := if_pos (by simp [h])

/-- One channel of a group in a sample. -/
def Mod.sampleChannel (g : Nat) (rd : FieldReading) (k : Nat) (m : Mod) : Mod :=
  (m.sampleInput (8 * g + k) (rd.volts.getD k 0)).sampleOutput (8 * g + k) (rd.volts.getD k 0) (rd.current.getD k 0) (rd.limit.getD k false)
    (rd.thermal.getD k false)

theorem fieldSample_eq (g : Nat) (rd : FieldReading) (m : Mod) :
    ∃ p, p = (m.fgrp.getD g {}).samplePs + m.get (Ob.samplePeriod g) * 1000000 ∧ m.fieldSample g rd
      = ((((m.reach p).modFgrp g (fun x => { x with samplePs := (m.reach p).now })).each (List.range 8) (Mod.sampleChannel g rd)).groupCurrentSeen g
          (rd.current.foldl (· + ·) 0)).each ((List.range 8).map (fun k => 8 * g + k)) Mod.driveOutput := ⟨_, rfl, rfl⟩

theorem fieldSample_high {g k : Nat} {rd : FieldReading} {m : Mod} (hg : g < 4) (hk : k < 8) (hl : m.fld.length = 32)
    (hm : m.get (Ob.fioMode (8 * g + k)) = 1) (hv : m.inputLive (8 * g + k) = true) (h : 15000 ≤ rd.volts.getD k 0) :
    (m.fieldSample g rd).get (Ob.filterCount (8 * g + k))
      = min (m.get (Ob.filterCount (8 * g + k)) + 1) (m.get (Ob.filterN (8 * g + k)))
    ∧ ((m.fieldSample g rd).fldAt (8 * g + k)).raw = true ∧ ((m.fieldSample g rd).fldAt (8 * g + k)).on = false
    ∧ (m.fieldSample g rd).now = max m.now ((m.fgrp.getD g {}).samplePs + m.get (Ob.samplePeriod g) * 1000000) := by
  obtain ⟨p, hp, eq⟩ := fieldSample_eq g rd m
  rw [← hp, eq]
  have h32 : 8 * g + k < 32 := by omega
  generalize hA : Mod.modFgrp g _ (m.reach p) = A
  have start : FieldKept (m.reach p) A ∧ A.fld = m.fld ∧ A.now = max m.now p := by
    subst hA; exact ⟨⟨rfl, rfl, rfl, rfl, fun _ _ => rfl⟩, rfl, rfl⟩
  have count0 : A.get (Ob.filterCount (8 * g + k)) = m.get (Ob.filterCount (8 * g + k)) := by subst hA; rfl
  have liveA : A.inputLive (8 * g + k) = true := by subst hA; exact hv
  have modeA : A.get (Ob.fioMode (8 * g + k)) = 1 := by subst hA; exact hm
  have topA : A.get (Ob.filterN (8 * g + k)) = m.get (Ob.filterN (8 * g + k)) := by subst hA; rfl
  clear hA
  obtain ⟨-, fld, now⟩ := start
  have step : ∀ j ∈ List.range 8, ∀ x, FieldKept A x → FieldKept A (Mod.sampleChannel g rd j x) := fun j hj x hx => by
    have j8 := List.mem_range.1 hj
    exact (hx.trans (sampleInput_kept _ x (by omega))).trans (sampleOutput_kept _ _ _ _ _ (by omega))
  obtain ⟨x, kept, first, last⟩ := each_once (R := fun x => (x.fldAt (8 * g + k), x.get (Ob.filterCount (8 * g + k)))) (c := k) List.nodup_range
    (List.mem_range.2 hk) (FieldKept.refl A) step (fun j _ hj x _ =>
      (sampleOutput_other _ _ _ _ _ (by omega)).trans (sampleInput_other _ x (by omega)))
  have all := each_invariant (FieldKept.refl A) step
  generalize A.each (List.range 8) (Mod.sampleChannel g rd) = B at last all
  have mode : x.get (Ob.fioMode (8 * g + k)) = 1 := (kept.entries _ (.inl (by unfold Ob.fioMode; omega))).trans modeA
  obtain ⟨count, raw⟩ := sampleInput_high (mv := rd.volts.getD k 0) (by rw [kept.length, fld, hl]; exact h32) mode
    ((kept.inputLive h32).trans liveA) h
  have visit : Mod.sampleChannel g rd k x = x.sampleInput (8 * g + k) (rd.volts.getD k 0) :=
    sampleOutput_input _ _ _ _ (((sampleInput_kept _ x h32).entries _ (.inl (by unfold Ob.fioMode; omega))).trans mode)
  rw [visit] at last
  have rawB : (B.fldAt (8 * g + k)).raw = true := (congrArg (fun y => y.1.raw) last).trans raw
  have countB : B.get (Ob.filterCount (8 * g + k)) = min (m.get (Ob.filterCount (8 * g + k)) + 1) (m.get (Ob.filterN (8 * g + k))) := by
    refine (congrArg Prod.snd last).trans (count.trans ?_)
    rw [show x.get (Ob.filterCount (8 * g + k)) = _ from congrArg Prod.snd first, count0, kept.entries _ (.inl (by unfold Ob.filterN; omega)), topA]
  generalize hC : Mod.groupCurrentSeen g _ B = C
  have shows : Only [.obj, .fgrp] B C := by subst hC; exact ((Only.refl _ B).oput (by decide)).to (only_modFgrp _ _) (by decide)
  have entries : OnlyEntries [Ob.groupCurrent g] B C := by
    subst hC; exact onlyEntries_obj ((onlyEntries_refl _ B).oput (k := Ob.groupCurrent g) (by simp)) rfl
  clear hC
  have fldC : C.fld = B.fld := shows .fld (by decide)
  have modeC : C.get (Ob.fioMode (8 * g + k)) = 1 :=
    (entries _ (by unfold Ob.fioMode Ob.groupCurrent; simp only [List.mem_singleton]; omega)).trans
      ((all.entries _ (.inl (by unfold Ob.fioMode; omega))).trans modeA)
  obtain ⟨only, drives, -, rawD, off, -⟩ := driven_rests (ns := (List.range 8).map (fun k => 8 * g + k)) (n := 8 * g + k)
    (List.mem_map.2 ⟨k, List.mem_range.2 hk, rfl⟩) h32 (by rw [fldC, all.length, fld, hl]) (.inl (by rw [modeC]; decide))
  refine ⟨?_, ?_, off, ?_⟩
  · rw [drives _ (by unfold Ob.filterCount Ob.fieldOutState; simp only [List.mem_singleton]; omega),
      entries _ (by unfold Ob.filterCount Ob.groupCurrent; simp only [List.mem_singleton]; omega), countB]
  · rw [rawD]
    unfold Mod.fldAt
    rw [fldC]
    exact rawB
  · rw [only.now (by decide), shows.now (by decide), now_eq_of_clk all.clk, now]

/-! ### Inputs (R403, R404) -/

theorem inputMax_laws {n t : Nat} {m : Mod} (hn : n < m.fld.length) (h0 : m.get (Ob.maxActive n) ≠ 0) (hb : bit (m.get Ob.fieldIn) n = true)
    (hd : (m.fldAt n).maxDone = false) (ht : (m.fldAt n).onePs = some t) :
    ((m.inputMax n).fldAt n).maxDone = true ∧ Tells 117 sevWarn 0x5408 n m (m.inputMax n)
    ∧ (m.inputMax n).now = max m.now (t + sPs (m.get (Ob.maxActive n))) ∧ Only (.clk :: .fld :: evParts) m (m.inputMax n)
    ∧ OnlyEntries [] m (m.inputMax n) := by
  unfold Mod.inputMax
  simp only [ht]
  rw [if_pos (by simp [h0, hb, hd])]
  generalize t + sPs (m.get (Ob.maxActive n)) = q
  generalize hA : Mod.modFld n _ (m.reach q) = A
  have marks : Only [.clk, .fld] m A := by subst hA; exact ((Only.refl _ m).oReach (by decide)).to (only_modFld _ _) (by decide)
  have done : (A.fldAt n).maxDone = true := by subst hA; exact congrArg FieldRt.maxDone (fldAt_modFld (m := m.reach q) _ hn)
  have now : A.now = max m.now q := by subst hA; rfl
  clear hA
  have told : Only evParts A (A.raise 117 sevWarn 0x5408 n) := (Only.refl _ A).oraise _ _ _ _ (List.Subset.refl _)
  refine ⟨?_, marks.tells_raise _ _ _ _ (by decide) (by decide) (by decide), (told.now (by decide)).trans now, (marks.mono (by decide)).to told (by decide),
    (marks.onlyEntries (by decide) _).raise _ _ _ _⟩
  unfold Mod.fldAt
  rw [show (A.raise 117 sevWarn 0x5408 n).fld = A.fld from told .fld (by decide)]
  exact done

/-- What the end of a chatter window leaves of a channel where no input is beyond the limit. -/
def Mod.countShown (n : Nat) (m : Mod) : Mod :=
  (m.put (Ob.chatterCount n) (satAt 65535 (m.fldAt n).changes)).modFld n (fun y => { y with leftOut := false, changes := 0 })

theorem only_countShown (n : Nat) (m : Mod) : Only [.obj, .fld] m (m.countShown n) := ((Only.refl _ m).oput (by decide)).to (only_modFld _ _) (by decide)

theorem chatterEnd_eq {m : Mod} (h : ∀ j, j < 32 → (m.fldAt j).changes ≤ m.get Ob.chatterLimit) :
    ∃ p M, p = (m.fgrp.getD 0 {}).chatPs + msPs (m.get Ob.chatterWindow) ∧ Only [.clk, .fgrp] m M ∧ M.now = max m.now p
      ∧ m.chatterEnd = M.each (List.range 32) Mod.countShown := by
  have none : ((List.range 32).filter (fun n => decide (m.get (Ob.fioMode n) = 1))).filter
      (fun n => decide (m.get Ob.chatterLimit < (m.fldAt n).changes)) = [] := by
    rw [List.filter_eq_nil_iff]
    intro j hj
    have := h j (List.mem_range.1 (List.mem_of_mem_filter hj))
    rw [decide_eq_true_eq]
    omega
  unfold Mod.chatterEnd
  dsimp only
  rw [none]
  refine ⟨_, { m.reach ((m.fgrp.getD 0 {}).chatPs + msPs (m.get Ob.chatterWindow)) with
    fgrp := (m.reach ((m.fgrp.getD 0 {}).chatPs + msPs (m.get Ob.chatterWindow))).fgrp.map (fun x => { x with
      chatPs := (m.reach ((m.fgrp.getD 0 {}).chatPs + msPs (m.get Ob.chatterWindow))).now }) }, rfl, ?_, rfl, if_pos rfl⟩
  intro p hp; cases p <;> first | (exact absurd (by decide) hp) | rfl

theorem chatterEnd_laws {n : Nat} {m : Mod} (h32 : n < 32) (hl : m.fld.length = 32)
    (h : ∀ j, j < 32 → (m.fldAt j).changes ≤ m.get Ob.chatterLimit) :
    m.chatterEnd.get (Ob.chatterCount n) = min (m.fldAt n).changes 65535 ∧ (m.chatterEnd.fldAt n).changes = 0
    ∧ (m.chatterEnd.fldAt n).leftOut = false
    ∧ m.chatterEnd.now = max m.now ((m.fgrp.getD 0 {}).chatPs + msPs (m.get Ob.chatterWindow)) ∧ Only [.clk, .obj, .fld, .fgrp] m m.chatterEnd := by
  obtain ⟨p, M, hp, only, now, eq⟩ := chatterEnd_eq h
  rw [← hp, eq]
  have fld : M.fld = m.fld := only .fld (by decide)
  have all : Only [.obj, .fld] M (M.each (List.range 32) Mod.countShown) := only_each _ _ _ only_countShown
  obtain ⟨x, len, first, last⟩ := each_once (I := fun x => x.fld.length = 32) (F := Mod.countShown) (m := M)
    (R := fun x => (x.fldAt n, x.get (Ob.chatterCount n))) (c := n) (List.nodup_range (n := 32))
    (List.mem_range.2 h32) (by rw [fld]; exact hl) (fun j _ x hx => (List.length_modify _ _ _).trans hx)
    (fun j _ hj x _ => Prod.ext (fldAt_modFld_other _ (Ne.symm hj)) (get_put_other x (by unfold Ob.chatterCount; omega)))
  generalize M.each (List.range 32) Mod.countShown = B at last all
  have record : B.fldAt n = { x.fldAt n with leftOut := false, changes := 0 } :=
    (congrArg Prod.fst last).trans (fldAt_modFld (m := x.put (Ob.chatterCount n) _) _ (by show n < x.fld.length; omega))
  have same : x.fldAt n = m.fldAt n := (congrArg Prod.fst first).trans (by unfold Mod.fldAt; rw [fld])
  have count : B.get (Ob.chatterCount n) = satAt 65535 (x.fldAt n).changes := (congrArg Prod.snd last).trans (get_put_same x)
  refine ⟨?_, by rw [record], by rw [record], (all.now (by decide)).trans now, (only.mono (by decide)).to all (by decide)⟩
  rw [count, same]
  exact Nat.min_def.symm

/-! ### Outputs (R406, R409) -/

theorem outputFault_acts {n fault : Nat} {m : Mod} (hn : n < m.fld.length) (hm : m.get (Ob.fioMode n) = 2) (hr : m.fldRetired n = false)
    (hg : m.get (Ob.groupState (n / 8)) ≠ 1) :
    (m.outputFault n fault).fldAt n = { m.fldAt n with on := false, limitPs := none, openPs := none }
    ∧ bit ((m.outputFault n fault).get Ob.fieldOutState) n = false
    ∧ (∃ a, (m.outputFault n fault).prot.pend = m.prot.pend ++ [a] ∧ a.fault = fault ∧ a.cls = 3 ∧ a.units = [n] ∧ a.atPs = m.now)
    ∧ Only [.fld, .obj, .prot] m (m.outputFault n fault) ∧ OnlyEntries [Ob.fieldOutState] m (m.outputFault n fault) := by
  unfold Mod.outputFault
  rw [if_neg (by simp [hm, hr, hg])]
  refine ⟨fldAt_modFld (m := m) _ hn, ?_, ⟨_, rfl, rfl, rfl, rfl, rfl⟩, (((only_modFld n _).mono (by decide)).oputB (by decide)).oPush (by decide), ?_⟩
  · exact (congrArg (bit · n) (get_put_same (m.modFld n _))).trans (bit_setBit _ _ _)
  · exact onlyEntries_obj (OnlyEntries.oputB (onlyEntries_obj (onlyEntries_refl _ m) rfl) (by decide)) rfl

/-- The same for a finding that first marks the channel's record and its readback. -/
theorem outputFault_after {n fault code : Nat} {m A : Mod} (h32 : n < 32) (marks : Only [.clk, .fld, .obj] m A)
    (entries : OnlyEntries [Ob.fieldOutState, Ob.readback n] m A) (hn : n < A.fld.length) (shown : A.get (Ob.readback n) = code)
    (hm : m.get (Ob.fioMode n) = 2) (hr : m.fldRetired n = false) (hg : m.get (Ob.groupState (n / 8)) ≠ 1) :
    (A.outputFault n fault).fldAt n = { A.fldAt n with on := false, limitPs := none, openPs := none }
    ∧ bit ((A.outputFault n fault).get Ob.fieldOutState) n = false ∧ (A.outputFault n fault).get (Ob.readback n) = code
    ∧ (A.outputFault n fault).now = A.now
    ∧ (∃ a, (A.outputFault n fault).prot.pend = m.prot.pend ++ [a] ∧ a.fault = fault ∧ a.cls = 3 ∧ a.units = [n] ∧ a.atPs = A.now)
    ∧ Only [.fld, .obj, .prot] A (A.outputFault n fault) ∧ OnlyEntries [Ob.fieldOutState, Ob.readback n] m (A.outputFault n fault) := by
  have others : ∀ {k}, k ≠ Ob.fieldOutState → k ≠ Ob.readback n → A.get k = m.get k := fun h1 h2 =>
    entries _ (by simp only [List.mem_cons, List.not_mem_nil, or_false, not_or]; exact ⟨h1, h2⟩)
  have mode : A.get (Ob.fioMode n) = 2 := by
    rw [others (by unfold Ob.fioMode Ob.fieldOutState; omega) (by unfold Ob.fioMode Ob.readback; omega)]; exact hm
  have group : A.get (Ob.groupState (n / 8)) ≠ 1 := by
    rw [others (by unfold Ob.groupState Ob.fieldOutState; omega) (by unfold Ob.groupState Ob.readback; omega)]; exact hg
  have retired : A.fldRetired n = false := by
    unfold Mod.fldRetired Mod.fldState at hr ⊢
    rw [others (by unfold Ob.unitFaultState Ob.fieldOutState; omega) (by unfold Ob.unitFaultState Ob.readback; omega)]
    exact hr
  obtain ⟨record, clear, ⟨a, pend, acts⟩, only, puts⟩ := outputFault_acts (fault := fault) hn mode retired group
  have prot : A.prot = m.prot := marks .prot (by decide)
  exact ⟨record, clear, (puts _ (by unfold Ob.readback Ob.fieldOutState; simp only [List.mem_singleton]; omega)).trans shown, only.now (by decide),
    ⟨a, by rw [pend, prot], acts⟩, only, entries.trans (puts.mono (by simp))⟩

theorem outputOverload_laws {n t : Nat} {m : Mod} (h32 : n < 32) (hl : m.fld.length = 32) (hm : m.get (Ob.fioMode n) = 2)
    (hr : m.fldRetired n = false) (hg : m.get (Ob.groupState (n / 8)) ≠ 1) (ho : (m.fldAt n).on = true) (ht : (m.fldAt n).limitPs = some t) :
    ((m.outputOverload n).fldAt n).on = false ∧ bit ((m.outputOverload n).get Ob.fieldOutState) n = false
    ∧ ((m.outputOverload n).fldAt n).overCur = true ∧ (m.outputOverload n).get (Ob.readback n) = 2
    ∧ (m.outputOverload n).now = max m.now (t + m.get (Ob.limitTime n) * 100000000)
    ∧ (∃ a, (m.outputOverload n).prot.pend = m.prot.pend ++ [a] ∧ a.fault = 0x5401 ∧ a.cls = 3 ∧ a.units = [n] ∧ a.atPs = (m.outputOverload n).now)
    ∧ Only [.clk, .fld, .obj, .prot] m (m.outputOverload n) ∧ OnlyEntries [Ob.fieldOutState, Ob.readback n] m (m.outputOverload n) := by
  unfold Mod.outputOverload
  simp only [ht]
  rw [if_pos (by simp [ho, hm])]
  generalize t + m.get (Ob.limitTime n) * 100000000 = q
  generalize hA : Mod.put (Ob.readback n) 2 _ = A
  have marks : Only [.clk, .fld, .obj] m A := by
    subst hA; exact (((Only.refl _ m).oReach (by decide)).to (only_modFld _ _) (by decide)).oput (by decide)
  have entries : OnlyEntries [Ob.fieldOutState, Ob.readback n] m A := by
    subst hA; exact OnlyEntries.oput (onlyEntries_obj (onlyEntries_refl _ m) rfl) (by simp)
  have limited : (A.fldAt n).overCur = true := by
    subst hA; exact congrArg FieldRt.overCur (fldAt_modFld (m := m.reach q) _ (by show n < m.fld.length; omega))
  have shown : A.get (Ob.readback n) = 2 := by subst hA; exact get_put_same _
  have now : A.now = max m.now q := by subst hA; rfl
  have length : n < A.fld.length := by subst hA; exact lt_of_lt_of_eq h32 (hl.symm.trans (List.length_modify _ _ _).symm)
  clear hA
  obtain ⟨record, clear, code, time, ⟨a, pend, fault, cls, units, at_⟩, only, puts⟩ :=
    outputFault_after (fault := 0x5401) h32 marks entries length shown hm hr hg
  exact ⟨by rw [record], clear, by rw [record]; exact limited, code, time.trans now, ⟨a, pend, fault, cls, units, at_.trans time.symm⟩,
    (marks.mono (by decide)).to only (by decide), puts⟩

theorem outputThermal_laws {n : Nat} {m : Mod} (h32 : n < 32) (hl : m.fld.length = 32) (hm : m.get (Ob.fioMode n) = 2)
    (hr : m.fldRetired n = false) (hg : m.get (Ob.groupState (n / 8)) ≠ 1) (hh : (m.fldAt n).hot = false) :
    ((m.outputThermal n).fldAt n).on = false ∧ ((m.outputThermal n).fldAt n).hot = true ∧ (m.outputThermal n).get (Ob.readback n) = 3
    ∧ (∃ a, (m.outputThermal n).prot.pend = m.prot.pend ++ [a] ∧ a.fault = 0x5402 ∧ a.cls = 3 ∧ a.units = [n] ∧ a.atPs = m.now)
    ∧ Only [.fld, .obj, .prot] m (m.outputThermal n) ∧ OnlyEntries [Ob.fieldOutState, Ob.readback n] m (m.outputThermal n) := by
  unfold Mod.outputThermal
  rw [if_neg (by simp [hh, hm])]
  generalize hA : Mod.put (Ob.readback n) 3 _ = A
  have marks : Only [.fld, .obj] m A := by subst hA; exact ((only_modFld n _).mono (by decide)).oput (by decide)
  have entries : OnlyEntries [Ob.fieldOutState, Ob.readback n] m A := by
    subst hA; exact OnlyEntries.oput (onlyEntries_obj (onlyEntries_refl _ m) rfl) (by simp)
  have hot : (A.fldAt n).hot = true := by subst hA; exact congrArg FieldRt.hot (fldAt_modFld (m := m) _ (by omega))
  have shown : A.get (Ob.readback n) = 3 := by subst hA; exact get_put_same _
  have length : n < A.fld.length := by subst hA; exact lt_of_lt_of_eq h32 (hl.symm.trans (List.length_modify _ _ _).symm)
  clear hA
  obtain ⟨record, -, code, -, ⟨a, pend, fault, cls, units, at_⟩, only, puts⟩ :=
    outputFault_after (fault := 0x5402) h32 (marks.mono (by decide)) entries length shown hm hr hg
  exact ⟨by rw [record], by rw [record]; exact hot, code, ⟨a, pend, fault, cls, units, at_.trans (marks.now (by decide))⟩,
    (marks.mono (by decide)).to only (by decide), puts⟩

theorem groupWarning_present {g t : Nat} {m : Mod} (hg : g < m.fgrp.length) (hd : (m.fgrp.getD g {}).overDone = false)
    (ht : (m.fgrp.getD g {}).overPs = some t) :
    ((m.loadWarning true g true).fgrp.getD g {}).overDone = true ∧ Tells 118 sevWarn 0x540A (256 * g) m (m.loadWarning true g true)
    ∧ (m.loadWarning true g true).now = max m.now (t + sPs 1) ∧ Only (.clk :: .fgrp :: evParts) m (m.loadWarning true g true) := by
  unfold Mod.loadWarning
  dsimp only
  rw [if_pos rfl, if_pos rfl]
  simp only [ht]
  rw [if_neg (by rw [hd]; decide), if_pos trivial]
  generalize t + sPs 1 = q
  generalize hA : Mod.modFgrp g _ (m.reach q) = A
  have marks : Only [.clk, .fgrp] m A := by subst hA; exact ((Only.refl _ m).oReach (by decide)).to (only_modFgrp _ _) (by decide)
  have done : (A.fgrp.getD g {}).overDone = true := by subst hA; exact congrArg FieldGrpRt.overDone (fgrpAt_modFgrp (m := m.reach q) _ hg)
  have now : A.now = max m.now q := by subst hA; rfl
  clear hA
  have told : Only evParts A (A.raise 118 sevWarn 0x540A (256 * g)) := (Only.refl _ A).oraise _ _ _ _ (List.Subset.refl _)
  refine ⟨?_, marks.tells_raise _ _ _ _ (by decide) (by decide) (by decide), (told.now (by decide)).trans now, (marks.mono (by decide)).to told (by decide)⟩
  rw [show (A.raise 118 sevWarn 0x540A (256 * g)).fgrp = A.fgrp from told .fgrp (by decide)]
  exact done

theorem groupWarning_absent {g t : Nat} {m : Mod} (hg : g < m.fgrp.length) (ht : (m.fgrp.getD g {}).calmPs = some t) :
    ((m.loadWarning true g false).fgrp.getD g {}).overDone = false ∧ (m.loadWarning true g false).now = max m.now (t + sPs 1)
    ∧ Only [.clk, .fgrp] m (m.loadWarning true g false) := by
  unfold Mod.loadWarning
  dsimp only
  rw [if_pos rfl, if_neg (by decide)]
  simp only [ht]
  rw [if_neg (by simp), if_neg (by decide)]
  generalize t + sPs 1 = q
  exact ⟨congrArg FieldGrpRt.overDone (fgrpAt_modFgrp (m := m.reach q) _ hg), rfl,
    ((Only.refl _ m).oReach (by decide)).to (only_modFgrp _ _) (by decide)⟩

theorem openWarning_present {n t : Nat} {m : Mod} (hn : n < m.fld.length) (hd : (m.fldAt n).openDone = false) (he : m.get (Ob.openLoadEn n) = 1)
    (ho : (m.fldAt n).on = true) (ht : (m.fldAt n).openPs = some t) :
    ((m.loadWarning false n true).fldAt n).openDone = true ∧ (m.loadWarning false n true).get (Ob.readback n) = 5
    ∧ Tells 118 sevWarn 0x5409 n m (m.loadWarning false n true) ∧ (m.loadWarning false n true).now = max m.now (t + sPs 1)
    ∧ Only ([.clk, .obj, .fld] ++ evParts) m (m.loadWarning false n true) ∧ OnlyEntries [Ob.readback n] m (m.loadWarning false n true) := by
  unfold Mod.loadWarning
  rw [if_neg (by decide)]
  simp only [ht]
  rw [if_neg (by simp [hd, he, ho])]
  generalize t + sPs 1 = q
  generalize hA : Mod.put (Ob.readback n) 5 _ = A
  have marks : Only [.clk, .obj, .fld] m A := by
    subst hA; exact (((Only.refl _ m).oReach (by decide)).to (only_modFld _ _) (by decide)).oput (by decide)
  have entries : OnlyEntries [Ob.readback n] m A := by subst hA; exact OnlyEntries.oput (onlyEntries_obj (onlyEntries_refl _ m) rfl) (by simp)
  have done : (A.fldAt n).openDone = true := by subst hA; exact congrArg FieldRt.openDone (fldAt_modFld (m := m.reach q) _ hn)
  have shown : A.get (Ob.readback n) = 5 := by subst hA; exact get_put_same _
  have now : A.now = max m.now q := by subst hA; rfl
  clear hA
  have told : Only evParts A (A.raise 118 sevWarn 0x5409 n) := (Only.refl _ A).oraise _ _ _ _ (List.Subset.refl _)
  refine ⟨?_, (get_raised _ _ _ _ _ _).trans shown, marks.tells_raise _ _ _ _ (by decide) (by decide) (by decide), (told.now (by decide)).trans now,
    (marks.mono (by decide)).to told (by decide), entries.raise _ _ _ _⟩
  unfold Mod.fldAt
  rw [show (A.raise 118 sevWarn 0x5409 n).fld = A.fld from told .fld (by decide)]
  exact done

/-! ### Group supplies (R412) -/

theorem fsupRange_out {g : Nat} {volts : List (Nat × Nat)} {m : Mod} (hg : g < m.fgrp.length) (ha : (m.fgrp.getD g {}).armed = true)
    (hv : 200 ≤ lastRun (fun v => !(decide (1920 ≤ v) && decide (v ≤ 3000))) volts) :
    (m.fsupRange g volts).get (Ob.fsupVoltage g) = newestVolt volts ∧ ((m.fsupRange g volts).fgrp.getD g {}).armed = false
    ∧ Tells 113 sevWarn 0x5405 (g + 65536 * newestVolt volts) m (m.fsupRange g volts) ∧ Only ([.obj, .fgrp] ++ evParts) m (m.fsupRange g volts)
    ∧ OnlyEntries [Ob.fsupVoltage g] m (m.fsupRange g volts) := by
  unfold Mod.fsupRange
  dsimp only
  rw [ha, if_pos (by rw [Bool.true_or, Bool.true_and]; exact decide_eq_true hv)]
  generalize newestVolt volts = cv
  generalize hA : Mod.modFgrp g _ _ = A
  have marks : Only [.obj, .fgrp] m A := by subst hA; exact ((Only.refl _ m).oput (by decide)).to (only_modFgrp _ _) (by decide)
  have entries : OnlyEntries [Ob.fsupVoltage g] m A := by subst hA; exact onlyEntries_obj ((onlyEntries_refl _ m).oput (k := Ob.fsupVoltage g) (by simp)) rfl
  have shown : A.get (Ob.fsupVoltage g) = cv := by subst hA; exact get_put_same m
  have armed : (A.fgrp.getD g {}).armed = false := by
    subst hA; exact congrArg FieldGrpRt.armed (fgrpAt_modFgrp (m := m.put (Ob.fsupVoltage g) cv) _ hg)
  clear hA
  refine ⟨(get_raised _ _ _ _ _ _).trans shown, ?_, marks.tells_raise _ _ _ _ (by decide) (by decide) (by decide),
    (marks.mono (by decide)).oraise _ _ _ _ (by decide), entries.raise _ _ _ _⟩
  rw [show (A.raise 113 sevWarn 0x5405 (g + 65536 * cv)).fgrp = A.fgrp from raise_part _ _ _ _ _ .fgrp (by decide)]
  exact armed

theorem restartInput_laws {n : Nat} (m : Mod) (hn : n < 32) : FieldKept m (m.restartInput n) ∧ Only [.obj, .fld] m (m.restartInput n)
    ∧ ∀ j, ((m.restartInput n).fldAt j).on = (m.fldAt j).on := by
  refine ⟨((((FieldKept.refl m).modFld _ _).put (k := Ob.filterCount n) _ (by unfold Ob.filterCount; omega) (by unfold Ob.filterCount; omega)).putBit _ _
    (by decide) (by decide)).putBit _ _ (by decide) (by decide), ?_, fun j => ?_⟩
  · exact ((((only_modFld n _).mono (by decide)).oput (by decide)).oputB (by decide)).oputB (by decide)
  · show ((m.modFld n _).fldAt j).on = _
    unfold Mod.fldAt Mod.modFld
    rw [List.getD_eq_getElem?_getD, List.getElem?_modify, List.getD_eq_getElem?_getD]
    cases m.fld[j]? with
    | none => rfl
    | some x => split <;> rfl

/-- The channels of a group. -/
def groupChannels (g : Nat) : List Nat := (List.range 8).map (fun k => 8 * g + k)

theorem groupChannels_lt {g n : Nat} (hg : g < 4) (h : n ∈ groupChannels g) : n < 32 := by
  obtain ⟨k, hk, rfl⟩ := List.mem_map.1 h
  have := List.mem_range.1 hk
  omega

theorem restarted_laws {ns : List Nat} (m : Mod) (h : ∀ n ∈ ns, n < 32) :
    FieldKept m (m.each ns Mod.restartInput) ∧ Only [.obj, .fld] m (m.each ns Mod.restartInput)
    ∧ ∀ j, ((m.each ns Mod.restartInput).fldAt j).on = (m.fldAt j).on :=
  each_invariant (I := fun x => FieldKept m x ∧ Only [.obj, .fld] m x ∧ ∀ j, (x.fldAt j).on = (m.fldAt j).on)
    ⟨FieldKept.refl _, Only.refl _ _, fun _ => rfl⟩ (fun n hn x ⟨kept, only, on⟩ =>
      have laws := restartInput_laws x (h n hn)
      ⟨kept.trans laws.1, only.trans laws.2.1, fun j => (laws.2.2 j).trans (on j)⟩)

theorem driven_kept (ns : List Nat) (m : Mod) : FieldKept m (m.each ns Mod.driveOutput) ∧ Only [.obj, .fld] m (m.each ns Mod.driveOutput) :=
  ⟨(FieldKept.refl m).each _ _ (fun n _ x => driveOutput_kept n x), only_each _ _ _ (fun n x => (only_driveOutput n x).mono (by decide))⟩

/-- A supply is lost: the group's outputs switch off. -/
theorem fsupLost_lost {g : Nat} {volts : List (Nat × Nat)} {m : Mod} (hg : g < 4) (hl : m.fld.length = 32) (h1 : m.get (Ob.groupState g) ≠ 1)
    (hv : 2 ≤ lastRun (fun v => decide (v < 1600)) volts) :
    (m.fsupLost g volts).get (Ob.groupState g) = 1 ∧ (m.fsupLost g volts).get (Ob.fsupVoltage g) = newestVolt volts
    ∧ 113 ∈ (m.fsupLost g volts).seenEv ∧ (∀ k, k < 8 → ((m.fsupLost g volts).fldAt (8 * g + k)).on = false)
    ∧ Only ([.obj, .fld, .prot] ++ evParts) m (m.fsupLost g volts) := by
  unfold Mod.fsupLost
  dsimp only
  rw [if_neg (by rw [decide_eq_false h1, Bool.false_or]; exact fun e => absurd (of_decide_eq_true e) (by omega))]
  generalize newestVolt volts = cv
  have apart : Ob.fsupVoltage g ≠ Ob.groupState g := by unfold Ob.fsupVoltage Ob.groupState; omega
  generalize hA : Mod.put (Ob.groupState g) 1 _ = A
  have marks : Only [.obj, .prot] m A := by
    subst hA; exact (((Only.refl _ m).oput (by decide)).to (only_prot _ _) (by decide)).oput (by decide)
  have state : A.get (Ob.groupState g) = 1 := by subst hA; exact get_put_same _
  have volt : A.get (Ob.fsupVoltage g) = cv := by subst hA; exact (get_put_other _ apart).trans (get_put_same m)
  clear hA
  have length : A.fld.length = 32 := by rw [show A.fld = m.fld from marks .fld (by decide), hl]
  obtain ⟨keptB, onlyB⟩ := driven_kept (groupChannels g) A
  have off : ∀ k, k < 8 → ((A.each (groupChannels g) Mod.driveOutput).fldAt (8 * g + k)).on = false := fun k hk =>
    (driven_rests (List.mem_map.2 ⟨k, List.mem_range.2 hk, rfl⟩) (by omega) length
      (.inr (.inl (by rw [show (8 * g + k) / 8 = g by omega]; exact state)))).2.2.2.2.1
  rw [show (List.range 8).map (fun k => 8 * g + k) = groupChannels g from rfl]
  generalize A.each (groupChannels g) Mod.driveOutput = B at keptB onlyB off
  generalize hC : Mod.each _ Mod.restartInput B = C
  obtain ⟨keptC, onlyC, on⟩ : FieldKept B C ∧ Only [.obj, .fld] B C ∧ ∀ j, (C.fldAt j).on = (B.fldAt j).on := by
    subst hC; exact restarted_laws B (fun n hn => groupChannels_lt hg (List.mem_of_mem_filter hn))
  clear hC
  have kept := keptB.trans keptC
  refine ⟨?_, ?_, seen_raised _ _ _ _ _, fun k hk => ?_,
    (((marks.mono (by decide)).to onlyB (by decide)).to onlyC (by decide)).oraise _ _ _ _ (by decide)⟩
  · rw [get_raised, kept.entries _ (.inr (by unfold Ob.groupState; omega)), state]
  · rw [get_raised, kept.entries _ (.inr (by unfold Ob.fsupVoltage; omega)), volt]
  · unfold Mod.fldAt
    rw [show (Mod.raise 113 _ _ _ C).fld = C.fld from raise_part _ _ _ _ _ .fld (by decide)]
    exact (on _).trans (off k hk)

theorem fsupLost_holds {g : Nat} {volts : List (Nat × Nat)} {m : Mod} (hv : lastRun (fun v => decide (v < 1600)) volts < 2) :
    m.fsupLost g volts = m.put (Ob.fsupVoltage g) (newestVolt volts) := by
  unfold Mod.fsupLost
  exact if_pos (by rw [decide_eq_true hv, Bool.or_true])

/-- A supply is back: the outputs take their commands where they restore by themselves. -/
theorem fsupBack_laws {g : Nat} {volts : List (Nat × Nat)} {m : Mod} (hg : g < 4) (h1 : m.get (Ob.groupState g) = 1)
    (hv : 400 ≤ lastRun (fun v => decide (1800 < v)) volts) :
    (m.fsupBack g volts).get (Ob.groupState g) = (if m.get (Ob.autoRestore g) = 1 then 0 else 2)
    ∧ (m.fsupBack g volts).get (Ob.fsupVoltage g) = newestVolt volts ∧ 114 ∈ (m.fsupBack g volts).seenEv
    ∧ Only ([.obj, .fld] ++ evParts) m (m.fsupBack g volts) := by
  unfold Mod.fsupBack
  dsimp only
  rw [if_pos (by rw [decide_eq_true h1, decide_eq_true hv]; rfl)]
  generalize newestVolt volts = cv
  have apart : Ob.fsupVoltage g ≠ Ob.groupState g := by unfold Ob.fsupVoltage Ob.groupState; omega
  generalize hA : Mod.put (Ob.groupState g) _ _ = A
  have puts : Only [.obj] m A := by subst hA; exact ((Only.refl _ m).oput (by decide)).oput (by decide)
  have state : A.get (Ob.groupState g) = (if m.get (Ob.autoRestore g) = 1 then 0 else 2) := by
    subst hA
    rw [get_put_same]
  have volt : A.get (Ob.fsupVoltage g) = cv := by subst hA; exact (get_put_other _ apart).trans (get_put_same m)
  clear hA
  rw [show (List.range 8).map (fun k => 8 * g + k) = groupChannels g from rfl]
  generalize hB : Mod.each _ Mod.restartInput A = B
  obtain ⟨keptB, onlyB, -⟩ : FieldKept A B ∧ Only [.obj, .fld] A B ∧ ∀ j, (B.fldAt j).on = (A.fldAt j).on := by
    subst hB; exact restarted_laws A (fun n hn => groupChannels_lt hg (List.mem_of_mem_filter hn))
  clear hB
  obtain ⟨keptC, onlyC⟩ := driven_kept (groupChannels g) B
  generalize B.each (groupChannels g) Mod.driveOutput = C at keptC onlyC
  have kept := keptB.trans keptC
  refine ⟨?_, ?_, seen_raised _ _ _ _ _, (((puts.mono (by decide)).to onlyB (by decide)).to onlyC (by decide)).oraise _ _ _ _ (by decide)⟩
  · rw [get_raised, kept.entries _ (.inr (by unfold Ob.groupState; omega)), state]
  · rw [get_raised, kept.entries _ (.inr (by unfold Ob.fsupVoltage; omega)), volt]

/-! ### The statement -/

/-- Settles O52: each event by the law of its operation. The runs of supply measurements (log entry 114) and the codes of a readback (log
entry 116) are the model's choice. -/
theorem fieldChannelsAct : Obligations.FieldChannelsAct := by
  unfold Obligations.FieldChannelsAct
  intro s n g l k t rd volts absent hn hg hl hk hfld hgrp hrime
  refine ⟨fun h => ?good, fun h => ?bad, fun ha h => ?loss, fun e hm hv h => ?sample, fun h0 hb hd ht => ?maxActive, fun h => ?chatter,
    fun hm hr hst => ⟨fun ho ht => ?overload, fun hh => ?thermal⟩, fun hd ht => ?groupWarns, fun ht => ?groupCalm, fun hd he ho ht => ?openWarns,
    fun hv ha => ?range, fun h1 hv => ?lost, fun hv => ?notLost, fun h1 hv => ?back⟩
  case good => exact does_lane rfl hl rfl (rimeFrame_good (by omega) h)
  case bad => exact does_lane rfl hl rfl (rimeFrame_bad (by omega) h)
  case loss =>
    obtain ⟨lost, told, off⟩ := rimeLoss_laws (m := s.m) (by omega) hfld ha h
    exact does_lane rfl hl rfl ⟨lost, told, off n hn⟩
  case sample =>
    subst e
    exact does_unit rfl (decide_eq_true hg) (fieldSample_high hg hk hfld hm hv h)
  case maxActive => exact does_unit rfl (decide_eq_true hn) (inputMax_laws (by omega) h0 hb hd ht)
  case chatter => exact does_onMod rfl rfl (chatterEnd_laws hn hfld h)
  case overload => exact does_unit rfl (decide_eq_true hn) (outputOverload_laws hn hfld hm hr hst ho ht)
  case thermal => exact does_unit rfl (decide_eq_true hn) (outputThermal_laws hn hfld hm hr hst hh)
  case groupWarns => exact does_unit rfl (decide_eq_true hg) (groupWarning_present (by omega) hd ht)
  case groupCalm => exact does_unit rfl (decide_eq_true hg) (groupWarning_absent (by omega) ht)
  case openWarns => exact does_unit rfl (decide_eq_true hn) (openWarning_present (by omega) hd he ho ht)
  case range => exact does_unit rfl (decide_eq_true hg) (fsupRange_out (by omega) ha hv)
  case lost =>
    obtain ⟨state, volt, told, off, only⟩ := fsupLost_lost hg hfld h1 hv
    exact does_unit rfl (decide_eq_true hg) ⟨state, volt, told, off k hk, only⟩
  case notLost =>
    refine does_unit rfl (decide_eq_true hg) ?_
    rw [fsupLost_holds hv]
    exact ⟨get_put_same _, (Only.refl _ s.m).oput (by decide), (onlyEntries_refl _ s.m).oput (by simp)⟩
  case back => exact does_unit rfl (decide_eq_true hg) (fsupBack_laws hg h1 hv)

end Sys2Proof.Machine
end

section
/-!
PROOFS. The network services (R387 to R391, R393, R460, R461, R464): connections and sessions, Modbus and DNP3, and the statement on them (O51).
-/
namespace Sys2Proof.Machine

theorem only_modNet (m : Mod) (f : NetRt → NetRt) : Only [.net] m (m.modNet f) := by
  intro p hp; cases p <;> first | (exact absurd (by decide) hp) | rfl

/-! ### Connections and sessions (R388, R389, R460, R461) -/

theorem connect_opens {kind : SessKind} {addr base n j : Nat} {m : Mod} (h : m.freeKey base n = some j) :
    (m.connect kind addr base n).sess = m.sess ++ [(j, { kind := kind, addr := addr, lastPs := m.now })]
    ∧ Only [.sess] m (m.connect kind addr base n) := by
  unfold Mod.connect
  rw [h]
  refine ⟨rfl, ?_⟩
  intro p hp; cases p <;> first | (exact absurd (by decide) hp) | rfl

theorem tcpConnect_ghp3 {addr : Nat} {m : Mod} (hr : m.link.ready = true) (hb : m.net.banned.all (fun x => x.1 ≠ addr) = true) :
    m.tcpConnect addr (m.get Ob.ghp3Port) = m.connect .ghp3 addr 0 8 := by
  have free : m.net.banned.any (fun p => p.1 = addr) = false := by
    rw [List.any_eq_false]
    intro x hx
    have := List.all_eq_true.1 hb x hx
    simpa using this
  unfold Mod.tcpConnect
  rw [if_neg (by rw [hr]; decide), free, if_neg Bool.false_ne_true, if_pos rfl]

/-- What names the peer of a session: its handshake, its head-end flag, its certificate and its role. -/
def Session.peer (x : Session) : Bool × Bool × Nat × Nat := (x.tls, x.headEnd, x.serial, x.chan.role)

theorem peer_report (spread now sev : Nat) (x : Session) : (Session.report spread now sev x).peer = x.peer := by
  have role : (Session.report spread now sev x).chan.role = x.chan.role :=
    congrArg (fun c : Option Nat × List Byte × Nat × Option Nat => c.2.2.1) (report_proj steady_session spread now sev x)
  have rest : ((Session.report spread now sev x).tls, (Session.report spread now sev x).headEnd, (Session.report spread now sev x).serial)
      = (x.tls, x.headEnd, x.serial) := by
    unfold Session.report
    split
    · rfl
    · split
      · rfl
      · split <;> rfl
  simp only [Prod.mk.injEq] at rest
  obtain ⟨tls, head, serial⟩ := rest
  unfold Session.peer
  rw [role, tls, head, serial]

/-- Raising an event leaves whose a session is. -/
theorem peer_raise {k : Nat} {x : Session} {m : Mod} (ev sev fault arg : Nat) (h : m.sessAt k = some x) :
    ∃ y, (m.raise ev sev fault arg).sessAt k = some y ∧ y.peer = x.peer := by
  have entered : ∃ y, (m.enterEvent m.t32 ev sev fault arg).sessAt k = some y ∧ y.peer = x.peer := by
    obtain ⟨p, hp, rfl⟩ := Option.map_eq_some_iff.1 h
    unfold Mod.sessAt Mod.enterEvent
    dsimp only
    rw [find_map_key _ (by intro p; split <;> rfl), hp]
    dsimp only [Option.map]
    split
    · exact ⟨_, rfl, peer_report _ _ _ _⟩
    · exact ⟨_, rfl, rfl⟩
  unfold Mod.raise Mod.raiseAt
  dsimp only
  split
  · unfold Mod.sessAt at entered ⊢
    rw [wantPulse_sess]
    exact entered
  · exact entered

/-- A handshake whose peer is granted a role makes the session open. -/
theorem tlsHandshake_grants {k role : Nat} {head : Bool} {p : TlsPeer} {x : Session} {m : Mod}
    (hf : m.sess.find? (fun x => x.2.kind = .ghp3 && !x.2.tls && x.2.addr = p.addr) = some (k, x)) (hs : (m.sessAt k).isSome = true)
    (hg : m.peerGrant p = some (role, head)) :
    102 ∈ (m.tlsHandshake p).seenEv
    ∧ ∃ y, (m.tlsHandshake p).sessAt k = some y ∧ y.tls = true ∧ y.chan.role = role ∧ y.headEnd = head ∧ y.serial = p.serial := by
  unfold Mod.tlsHandshake
  simp only [hf, hg]
  obtain ⟨z, hz⟩ := Option.isSome_iff_exists.1 hs
  generalize hA : m.modSess k _ = A
  have opened : ∃ y, A.sessAt k = some y ∧ y.peer = (true, head, p.serial, role) := by
    subst hA
    rw [sessAt_modSess, hz]
    exact ⟨_, rfl, rfl⟩
  clear hA
  obtain ⟨w, hw, peer⟩ := opened
  unfold Mod.sessionChange
  generalize (Session.bound _).getD 0 % 4 + _ + _ + 256 * A.openSessions = arg
  obtain ⟨y, hy, same⟩ := peer_raise 102 sevInfo 0 arg hw
  rw [peer] at same
  unfold Session.peer at same
  simp only [Prod.mk.injEq] at same
  obtain ⟨tls, headEnd, serial, granted⟩ := same
  exact ⟨seen_raised _ _ _ _ _, y, hy, tls, granted, headEnd, serial⟩

theorem sessAt_closed (k : Nat) (m : Mod) : (m.closeSession k).sessAt k = none := by
  rw [sessAt_eq_none, (closeSession_laws k m).2.2]
  simp

/-- A handshake that fails closes its connection. -/
theorem tlsHandshake_fails {k : Nat} {p : TlsPeer} {x : Session} {m : Mod}
    (hf : m.sess.find? (fun x => x.2.kind = .ghp3 && !x.2.tls && x.2.addr = p.addr) = some (k, x)) (hg : m.peerGrant p = none) :
    (m.tlsHandshake p).sessAt k = none ∧ Only ([.net, .streams] ++ evParts) m (m.tlsHandshake p) := by
  unfold Mod.tlsHandshake
  simp only [hf, hg]
  unfold Mod.handshakeFails
  exact ⟨sessAt_closed k m, ((closeSession_laws k m).1.mono (by decide)).to (only_modNet _ _) (by decide)⟩

theorem sessionIdle_closes {k : Nat} {x : Session} {m : Mod} (h : m.sessAt k = some x) (hk : x.kind = .ghp3) :
    (m.sessionIdle k).sessAt k = none ∧ x.lastPs + sPs (m.get Ob.sessionIdle) ≤ (m.sessionIdle k).now
    ∧ Only ([.clk, .streams] ++ evParts) m (m.sessionIdle k) := by
  unfold Mod.sessionIdle
  simp only [h]
  rw [if_pos hk]
  generalize x.lastPs + sPs (m.get Ob.sessionIdle) = q
  have reach : Only [.clk] m (m.reach q) := (Only.refl _ m).oReach (by decide)
  have due : q ≤ (m.reach q).now := le_max_right _ _
  generalize m.reach q = A at reach due
  have closes := (closeSession_laws k A).1
  refine ⟨sessAt_closed k A, ?_, (reach.mono (by decide)).to closes (by decide)⟩
  rw [closes.now (by decide)]
  exact due

/-! ### The ports (R387) -/

theorem linkState_changes {port status : Nat} {m : Mod} (hs : status < 256) (h : m.get (Ob.portLink port) ≠ status) :
    (m.linkState port status).get (Ob.portLink port) = status ∧ Tells 101 sevInfo 0 (port + 256 * status) m (m.linkState port status)
    ∧ Only (.obj :: evParts) m (m.linkState port status) ∧ OnlyEntries [Ob.portLink port] m (m.linkState port status) := by
  unfold Mod.linkState
  rw [Nat.mod_eq_of_lt hs, if_neg h]
  have puts : Only [.obj] m (m.put (Ob.portLink port) status) := (Only.refl _ m).oput (by decide)
  exact ⟨(get_informed _ _ _ _).trans (get_put_same _), puts.tells_raise _ _ _ _ (by decide) (by decide) (by decide),
    (puts.mono (by decide)).oinform _ _ (by decide), ((onlyEntries_refl _ m).oput (by simp)).raise _ _ _ _⟩

/-! ### Modbus (R390, R393) -/

theorem mbRead_covered {kp : Kept} {input : Bool} {rq : MbReq} {start count : Nat} {l : List (Nat × Nat × Nat)} {vs : List Nat} {m : Mod}
    (hs : m.mbServed rq false = true) (h0 : 0 < count) (hc : count ≤ 125) (hl : m.mbCover input 257 start count = some l)
    (hv : m.mbValues kp (.modbus rq.order) l = .ok vs) : m.mbRead kp input rq start count = m.mbAnswer 0 vs := by
  unfold Mod.mbRead
  rw [hs, if_neg (by decide), if_neg (by simp; omega), hl]
  dsimp only
  rw [hv]

theorem mbRead_uncovered {kp : Kept} {input : Bool} {rq : MbReq} {start count : Nat} {m : Mod} (hs : m.mbServed rq false = true)
    (h0 : 0 < count) (hc : count ≤ 125) (hl : m.mbCover input 257 start count = none) : m.mbRead kp input rq start count = m.mbAnswer 2 [] := by
  unfold Mod.mbRead
  rw [hs, if_neg (by decide), if_neg (by simp; omega), hl]

theorem mbAnswer_laws (exc : Nat) (regs : List Nat) (m : Mod) :
    (m.mbAnswer exc regs).net.mbReply = some (exc, regs) ∧ Only [.net] m (m.mbAnswer exc regs) := ⟨rfl, only_modNet _ _⟩

theorem mbWrite_disabled {rq : MbReq} {fc start : Nat} {values : List Nat} {m : Mod} (hs : m.mbServed rq true = true)
    (hq : (rq.rtu && rq.address = 0) = false) (h0 : values ≠ []) (hl : values.length ≤ 123) (he : m.get Ob.mbWriteEn ≠ 1) :
    m.mbWrite rq fc start values = m.mbAnswer 1 [] := by
  unfold Mod.mbWrite
  dsimp only
  rw [hs, if_neg (by decide), if_neg (by simp [h0]; omega), if_pos he, hq, if_neg Bool.false_ne_true]

theorem mbWrite_admitted {rq : MbReq} {fc start : Nat} {values : List Nat} {l : List (Nat × Nat × Nat)} {ws : List (Nat × List Byte)} {m : Mod}
    (hs : m.mbServed rq true = true) (h0 : values ≠ []) (hl : values.length ≤ 123) (he : m.get Ob.mbWriteEn = 1)
    (hc : m.mbCover false 257 start values.length = some l) (hf : l.all (fun x => bit (m.get (Ob.mbFlags x.1)) 0) = true)
    (hw : mbWrites l values = some ws) (hr : m.firstRefused (.modbus rq.order) m.stagedWrites ws = none) :
    ∃ w, (m.mbWrite rq fc start values).staged = m.staged ++ [w] ∧ w.snd = .modbus rq.order ∧ w.work = .writes ws ∧ w.isGroup = true
      ∧ (m.mbWrite rq fc start values).net = m.net := by
  have open_ : l.any (fun x => !bit (m.get (Ob.mbFlags x.1)) 0) = false := by
    rw [List.any_eq_false]
    intro x hx
    rw [List.all_eq_true.1 hf x hx]
    decide
  unfold Mod.mbWrite
  dsimp only
  rw [hs, if_neg (by decide), if_neg (by simp [h0]; omega), if_neg (by rw [he]; decide), hc]
  dsimp only
  rw [open_, if_neg Bool.false_ne_true, hw]
  dsimp only
  rw [hr]
  dsimp only
  unfold Mod.stage
  dsimp only
  split
  · exact ⟨_, rfl, rfl, rfl, rfl, rfl⟩
  · exact ⟨_, rfl, rfl, rfl, rfl, rfl⟩

/-! ### DNP3 (R391) -/

/-- A request of the master to the module's address that only reads is answered its points. -/
theorem dnp3Request_reads {kp : Kept} {rq : DnpReq} {m : Mod} (hr : m.link.ready = true) (hs : rq.serial = true) (hp : m.get Ob.rs485Protocol = 2)
    (hm : rq.master = m.get Ob.dnpMaster) (hd : rq.dest = m.get Ob.dnpAddr) (ho : rq.ops = []) (hc : rq.confirm = 0) :
    (m.dnp3Request kp rq).net.dnpReply = rq.reads.flatMap ((m.modNet (fun x => { x with dnpReply := [] })).dnpRead kp)
    ∧ (m.dnp3Request kp rq).net.dnpEvents = m.net.dnpEvents ∧ Only [.net] m (m.dnp3Request kp rq) := by
  unfold Mod.dnp3Request
  dsimp only
  rw [if_neg (by simp [hr, hs, hp, hm, hd]), ho, if_pos (show ([] : List DnpOp).isEmpty = true from rfl), hc]
  have same : m.modNet (fun n => { n with
      dnpEvents := n.dnpEvents.drop 0, dnpSent := n.dnpSent - 0, dnpOver := n.dnpOver && decide (0 = 0), dnpReply := [] })
      = m.modNet (fun x => { x with dnpReply := [] }) := by
    unfold Mod.modNet
    simp
  rw [same]
  exact ⟨rfl, rfl, (only_modNet m _).trans (only_modNet _ _)⟩

theorem dnp3Request_foreign {kp : Kept} {rq : DnpReq} {m : Mod} (h : rq.master ≠ m.get Ob.dnpMaster ∨ rq.dest ≠ m.get Ob.dnpAddr) :
    m.dnp3Request kp rq = m := by
  unfold Mod.dnp3Request
  exact if_pos (by rcases h with h | h <;> simp [h])

/-! ### The statement -/

/-- Settles O51: each event by the law of its operation. What EV102 tells of a session (log entry 27) and the limits and exception codes of
Modbus (log entries 78 and 79) are the model's choice. -/
theorem networkServicesAnswer : Obligations.NetworkServicesAnswer := by
  unfold Obligations.NetworkServicesAnswer
  intro s addr k port status start count reg value p rq dq values hready
  refine ⟨fun hb => ⟨fun j hj => ?opens, fun hj => ?ninth⟩, fun x hf hs => ⟨fun role head hg => ?grants, fun hg => ?fails⟩,
    fun x hx hk => ?idle, fun hp hst h => ?link,
    fun hs h0 hc => ⟨fun l vs hl hv => ?holding, fun hl => ?notHolding, fun l vs hl hv => ?input, fun hl => ?notInput⟩,
    fun hs hq h0 hl => ⟨fun he => ⟨?single, ?multiple⟩, fun he l ws hc hf hw hr => ?admitted, fun he l ws hc hf hw hr => ?admittedOne⟩,
    fun hs hp => ⟨fun hm hd ho hc => ?reads, fun h => ?foreign⟩⟩
  case opens => exact does_onMod rfl (tcpConnect_ghp3 hready hb) (connect_opens hj)
  case ninth =>
    refine does_onMod rfl ((tcpConnect_ghp3 hready hb).trans ?_) (N := s.m.resetConnection) ⟨rfl, only_modNet _ _⟩
    unfold Mod.connect
    rw [hj]
  case grants => exact does_onMod rfl rfl (tlsHandshake_grants hf hs hg)
  case fails => exact does_onMod rfl rfl (tlsHandshake_fails hf hg)
  case idle => exact does_onMod rfl rfl (sessionIdle_closes hx hk)
  case link => exact does_unit rfl (decide_eq_true hp) (linkState_changes hst h)
  case holding => exact does_onMod rfl (mbRead_covered hs h0 hc hl hv) (mbAnswer_laws _ _ _)
  case notHolding => exact does_onMod rfl (mbRead_uncovered hs h0 hc hl) (mbAnswer_laws _ _ _)
  case input => exact does_onMod rfl (mbRead_covered hs h0 hc hl hv) (mbAnswer_laws _ _ _)
  case notInput => exact does_onMod rfl (mbRead_uncovered hs h0 hc hl) (mbAnswer_laws _ _ _)
  case single => exact does_onMod rfl (mbWrite_disabled hs hq (by simp) (by simp) he) (mbAnswer_laws _ _ _)
  case multiple => exact does_onMod rfl (mbWrite_disabled hs hq h0 hl he) (mbAnswer_laws _ _ _)
  case admitted => exact does_onMod rfl rfl (mbWrite_admitted hs h0 hl he hc hf hw hr)
  case admittedOne => exact does_onMod rfl rfl (mbWrite_admitted hs (by simp) (by simp) he hc hf hw hr)
  case reads => exact does_onMod rfl rfl (dnp3Request_reads hready hs hp hm hd ho hc)
  case foreign => exact does_onMod rfl (dnp3Request_foreign h) rfl

end Sys2Proof.Machine
end
